-- ==== Sys2Proof/Word.lean ====
section
/-! DEFINITION. Word types and the plainest bit-field arithmetic (spec/00 R2 to R7). -/

namespace Sys2Proof

/-- A byte of 8 bits (R3). -/
abbrev Byte := BitVec 8
/-- A word of 32 bits (R3). -/
abbrev W32 := BitVec 32
/-- A dword of 64 bits (R3). -/
abbrev W64 := BitVec 64
/-- One row of a vector register: 256 bytes (R172). -/
abbrev VRow := BitVec 2048
/-- One row of a mask register: 256 bits (R172). -/
abbrev KRow := BitVec 256

/-- Bits `lo` to `lo + len - 1` of a natural number, as an unsigned value (R7). -/
def bits (w lo len : Nat) : Nat := w / 2 ^ lo % 2 ^ len

/-- The `n`-valued field of an instruction word that begins at bit `lo`. -/
def fin (w lo n : Nat) [NeZero n] : Fin n := Fin.ofNat n (w / 2 ^ lo)

/-- A field of `len` bits read as a two's complement number. -/
def sext (len v : Nat) : Int := if v % 2 ^ len < 2 ^ (len - 1) then (v % 2 ^ len : Nat) else (v % 2 ^ len : Nat) - (2 ^ len : Nat)

/-- An integer reduced modulo 2^64 (R233). -/
def w64 (i : Int) : W64 := BitVec.ofInt 64 i

/-- `x` rounded up to a multiple of `m`. -/
def alignUp (x m : Nat) : Nat := (x + m - 1) / m * m

end Sys2Proof
end

