-- ==== Sys2Proof/Config.lean ====
section
/-! DEFINITION. What the implementation fixes (constants of the spec) and the free values: opaque functions that nothing can
evaluate, where the spec leaves a value open (log 11, 14, 17). -/

namespace Sys2Proof.Config

/-! ### The physical map (spec/02 R33) -/

/-- First address of the Landing. -/
def landingBase : Nat := 0x4000000000
/-- Size of the Landing: 128 MiB. -/
def landingSize : Nat := 0x8000000
/-- First address of the register blocks. -/
def regBase : Nat := 0x4100000000
/-- Size of the register blocks: 64 MiB. -/
def regSize : Nat := 0x4000000
/-- First address of the shadow store. -/
def shadowBase : Nat := 0x4200000000
/-- Size of the shadow store: 24 MiB. -/
def shadowSize : Nat := 0x1800000
/-- First address of the scratch aperture. -/
def scratchBase : Nat := 0x4400000000
/-- Size of one core's scratch: 1 MiB. -/
def scratchSize : Nat := 0x100000
/-- First address of the CXL tier. -/
def cxlBase : Nat := 0x10000000000
/-- Size of the CXL tier: 2 TiB. -/
def cxlSize : Nat := 0x20000000000
/-- First address of the peer ranges. -/
def peerBase : Nat := 0x40000000000
/-- Size of one peer range: 32 GiB. -/
def peerSize : Nat := 0x800000000
/-- First address of the host through port 0. -/
def host0Base : Nat := 0x2000000000000
/-- First address of the host through port 1. -/
def host1Base : Nat := 0x3000000000000
/-- Size of one host range: 256 TiB. -/
def hostSize : Nat := 0x1000000000000
/-- Usable top of device memory with tags on. -/
def topTagsOn : Nat := 0x2D00000000
/-- Usable top of device memory with tags off. -/
def topTagsOff : Nat := 0x2E80000000

/-! ### Depths and limits -/

/-- Tokens one FIFO holds (R177). -/
def fifoDepth : Nat := 16
/-- Records the arrival queue holds (R188). -/
def arrivalDepth : Nat := 16
/-- Entries of the load-order buffer (R180). -/
def lobDepth : Nat := 64
/-- Entries of the range checker (R182). -/
def rangeDepth : Nat := 32
/-- Command depth of each engine context (R184). -/
def ctxDepth : Nat → Nat
  | 0 => 8 | 1 => 8 | 2 => 2 | 3 => 2 | 4 => 1 | 5 => 16 | 6 => 64 | _ => 3
/-- Least and greatest queue-wait limit in cycles, and the limit at step start (R179, R285). -/
def qwMin : Nat := 1024
def qwMax : Nat := 1099511627776
def qwDefault : Nat := 16777216

/-! ### The flash (R31) -/

/-- Offset and size in bytes of the parts of the flash that Gnoro reads or writes: directory, identity block, slots A and B, configuration
blobs, lifetime banks, security-version record. From `flashRsvd` on it is reserved. -/
def flashDir : Nat × Nat := (0, 0x1000)
def flashIdent : Nat × Nat := (0x1000, 0xF000)
def flashSlotA : Nat × Nat := (0x10000, 0x800000)
def flashSlotB : Nat × Nat := (0x810000, 0x800000)
def flashBlobs : Nat × Nat := (0x1010000, 0x1000000)
def flashLife : Nat × Nat := (0x2010000, 0x200000)
def flashSecVer : Nat × Nat := (0x2210000, 0x10000)
def flashRsvd : Nat := 0x2220000

/-! ### Free values -/

/-- A free value drawn with the counter `fresh` of State (log 11). -/
opaque freeW64 : Nat → BitVec 64
/-- The FP32 result of a special function inside its bound: function number, operand (R246, log 11). -/
opaque specialResult : Nat → BitVec 32 → BitVec 32
/-- The hash that names the table entry of a Landing line in its bank (R201, log 11). -/
opaque landingHash : Nat → Nat
/-- Bytes of an encoded frame: encoder format, length drawn, position (R122, log 17). -/
opaque bitstreamByte : Nat → Nat → BitVec 8
/-- Number of bytes of an encoded frame's coded picture, drawn with `fresh` (R126, log 17). -/
opaque bitstreamLength : Nat → Nat
/-- The contents of a sequence header (0), VPS (1), SPS (2) or PPS (3), as a function of the encoder configuration block and the level that it
signals (R424, log 17). -/
opaque paramSet : Nat → BitVec 512 → Nat → List (BitVec 8)
/-- SHA-256 of a list of bytes (R30, log 14). -/
opaque sha256 : List (BitVec 8) → BitVec 256
/-- The ECDSA P-256 signature by the alias key of a measurement over a report (R30, log 14). -/
opaque aliasSign : BitVec 256 → List (BitVec 8) → BitVec 512
/-- The alias-key certificate of a measurement (R73, log 14). -/
opaque aliasCert : BitVec 256 → List (BitVec 8)
/-- The payload of a lifetime record, 4,052 bytes, as a function of the counts it holds: the spec gives no layout (R32, R171, log 11). -/
opaque lifetimePayload : List Nat → Nat → BitVec 8
/-- CRC-32 of a list of bytes: the spec does not name the polynomial (R32, log 11). -/
opaque crc32 : List (BitVec 8) → BitVec 32
/-- HMAC-SHA-256 under the PUF-derived key (R29, R32, log 14). -/
opaque pufMac : List (BitVec 8) → BitVec 256

end Sys2Proof.Config
end

