-- ==== Sys2Proof/Syntax.lean ====
section
/-! DEFINITION. The instructions: one constructor per row of the opcode table. The 348 words of the instruction set carry the
fields of their format (spec/11 R277, R280); the 125 other indivisible steps of the device (spec/95) carry the unit they
happen at and what the outside supplies. -/

namespace Sys2Proof

/-- The four stitch-token bits of a word (R177). -/
structure Tok where
  wb : Bool
  wa : Bool
  sb : Bool
  sa : Bool
deriving DecidableEq, Repr

/-- A 5-bit register field (R283). -/
abbrev Reg := Fin 32
/-- A 3-bit guard field (R281). -/
abbrev Guard := Fin 8

/-- The three BARs of a function (R16). -/
inductive Bar where
  | bar0 | bar2 | bar4
deriving DecidableEq, Repr

/-- What the scrubber finds when it reads a line (R156); the operands are the syndrome, or the stored and computed tag. -/
inductive ScrubFinding where
  | clean
  | corrected (syndrome : BitVec 64)
  | uncorrectable (syndrome : BitVec 64)
  | tagMismatch (stored computed : BitVec 64)
deriving DecidableEq, Repr

/-- What firmware does with a system trap (R270). -/
inductive FaultDecision where
  /-- The cause is removed: the core resumes at the faulting word. -/
  | resume
  /-- A page-in is requested for the page that missed (R54). -/
  | pageIn
  /-- The trap is declared unresolved. -/
  | unresolved
deriving DecidableEq, Repr

/-- The instructions and indivisible steps of the Gnoro ZG1: one constructor per row of spec/opcode_table.json. -/
inductive Instr where
  /-- `add` (R303). Scalar add modulo 2^64. -/
  | add (t : Tok) (g : Guard) (d a b : Reg)
  /-- `sub` (R303). Scalar subtract modulo 2^64. -/
  | sub (t : Tok) (g : Guard) (d a b : Reg)
  /-- `and` (R303). Bitwise AND. -/
  | and (t : Tok) (g : Guard) (d a b : Reg)
  /-- `or` (R303). Bitwise OR. -/
  | or (t : Tok) (g : Guard) (d a b : Reg)
  /-- `xor` (R303). Bitwise XOR. -/
  | xor (t : Tok) (g : Guard) (d a b : Reg)
  /-- `sll` (R303). Shift left by b[5:0]. -/
  | sll (t : Tok) (g : Guard) (d a b : Reg)
  /-- `srl` (R303). Logical shift right. -/
  | srl (t : Tok) (g : Guard) (d a b : Reg)
  /-- `sra` (R303). Arithmetic shift right. -/
  | sra (t : Tok) (g : Guard) (d a b : Reg)
  /-- `min` (R303). Signed minimum. -/
  | min (t : Tok) (g : Guard) (d a b : Reg)
  /-- `max` (R303). Signed maximum. -/
  | max (t : Tok) (g : Guard) (d a b : Reg)
  /-- `min.n` (R303). Unsigned minimum. -/
  | minN (t : Tok) (g : Guard) (d a b : Reg)
  /-- `max.n` (R303). Unsigned maximum. -/
  | maxN (t : Tok) (g : Guard) (d a b : Reg)
  /-- `add.sat` (R303). Signed saturating add. -/
  | addSat (t : Tok) (g : Guard) (d a b : Reg)
  /-- `sub.sat` (R303). Signed saturating subtract. -/
  | subSat (t : Tok) (g : Guard) (d a b : Reg)
  /-- `andn` (R303). a AND NOT b. -/
  | andn (t : Tok) (g : Guard) (d a b : Reg)
  /-- `ror` (R303). Rotate right by b[5:0]. -/
  | ror (t : Tok) (g : Guard) (d a b : Reg)
  /-- `addi` (R304). Add a signed immediate. -/
  | addi (t : Tok) (d a : Reg) (i : Fin 512)
  /-- `andi` (R304). AND with a signed immediate. -/
  | andi (t : Tok) (d a : Reg) (i : Fin 512)
  /-- `ori` (R304). OR with a signed immediate. -/
  | ori (t : Tok) (d a : Reg) (i : Fin 512)
  /-- `xori` (R304). XOR with a signed immediate. -/
  | xori (t : Tok) (d a : Reg) (i : Fin 512)
  /-- `slli` (R304). Shift left by an immediate count. -/
  | slli (t : Tok) (d a : Reg) (i : Fin 512)
  /-- `srli` (R304). Logical shift right by an immediate. -/
  | srli (t : Tok) (d a : Reg) (i : Fin 512)
  /-- `srai` (R304). Arithmetic shift right by an immediate. -/
  | srai (t : Tok) (d a : Reg) (i : Fin 512)
  /-- `rori` (R304). Rotate right by an immediate. -/
  | rori (t : Tok) (d a : Reg) (i : Fin 512)
  /-- `mul` (R305). Low 64 bits of the product. -/
  | mul (t : Tok) (g : Guard) (d a b : Reg)
  /-- `mulh` (R305). High 64 bits of the signed product. -/
  | mulh (t : Tok) (g : Guard) (d a b : Reg)
  /-- `mulh.n` (R305). High 64 bits of the unsigned product. -/
  | mulhN (t : Tok) (g : Guard) (d a b : Reg)
  /-- `div` (R306). Signed division, never trapping. -/
  | div (t : Tok) (g : Guard) (d a b : Reg)
  /-- `div.n` (R306). Unsigned division. -/
  | divN (t : Tok) (g : Guard) (d a b : Reg)
  /-- `rem` (R306). Signed remainder. -/
  | rem (t : Tok) (g : Guard) (d a b : Reg)
  /-- `rem.n` (R306). Unsigned remainder. -/
  | remN (t : Tok) (g : Guard) (d a b : Reg)
  /-- `clz` (R305). Count leading zeros. -/
  | clz (t : Tok) (g : Guard) (d a : Reg)
  /-- `ctz` (R305). Count trailing zeros. -/
  | ctz (t : Tok) (g : Guard) (d a : Reg)
  /-- `cpop` (R305). Count one bits. -/
  | cpop (t : Tok) (g : Guard) (d a : Reg)
  /-- `sext.b` (R305). Sign-extend a byte. -/
  | sextB (t : Tok) (g : Guard) (d a : Reg)
  /-- `sext.h` (R305). Sign-extend a half. -/
  | sextH (t : Tok) (g : Guard) (d a : Reg)
  /-- `sext.w` (R305). Sign-extend a word. -/
  | sextW (t : Tok) (g : Guard) (d a : Reg)
  /-- `zext.b` (R305). Zero-extend a byte. -/
  | zextB (t : Tok) (g : Guard) (d a : Reg)
  /-- `zext.h` (R305). Zero-extend a half. -/
  | zextH (t : Tok) (g : Guard) (d a : Reg)
  /-- `zext.w` (R305). Zero-extend a word. -/
  | zextW (t : Tok) (g : Guard) (d a : Reg)
  /-- `lim` (R307). Load a sign-extended immediate into a scalar. -/
  | lim (t : Tok) (g : Guard) (d : Reg) (i : Fin 16384)
  /-- `ext` (R282). Prefix that widens the immediate of the following word. -/
  | ext (p : Fin 4194304)
  /-- `cmp.eq` (R308). Predicate := a equals b. -/
  | cmpEq (t : Tok) (g : Guard) (d a b : Reg)
  /-- `cmp.ne` (R308). Predicate := a differs from b. -/
  | cmpNe (t : Tok) (g : Guard) (d a b : Reg)
  /-- `cmp.lt` (R308). Predicate := a < b signed. -/
  | cmpLt (t : Tok) (g : Guard) (d a b : Reg)
  /-- `cmp.ge` (R308). Predicate := a >= b signed. -/
  | cmpGe (t : Tok) (g : Guard) (d a b : Reg)
  /-- `cmp.lt.n` (R308). Predicate := a < b unsigned. -/
  | cmpLtN (t : Tok) (g : Guard) (d a b : Reg)
  /-- `cmp.ge.n` (R308). Predicate := a >= b unsigned. -/
  | cmpGeN (t : Tok) (g : Guard) (d a b : Reg)
  /-- `tbit` (R308). Predicate := bit b[5:0] of a. -/
  | tbit (t : Tok) (g : Guard) (d a b : Reg)
  /-- `pand` (R309). Predicate AND. -/
  | pand (t : Tok) (g : Guard) (d a b : Reg)
  /-- `por` (R309). Predicate OR. -/
  | por (t : Tok) (g : Guard) (d a b : Reg)
  /-- `pxor` (R309). Predicate XOR. -/
  | pxor (t : Tok) (g : Guard) (d a b : Reg)
  /-- `pandn` (R309). Predicate AND NOT. -/
  | pandn (t : Tok) (g : Guard) (d a b : Reg)
  /-- `pnot` (R309). Predicate NOT. -/
  | pnot (t : Tok) (g : Guard) (d a : Reg)
  /-- `pset` (R309). Set a predicate. -/
  | pset (t : Tok) (g : Guard) (d : Reg)
  /-- `pclr` (R309). Clear a predicate. -/
  | pclr (t : Tok) (g : Guard) (d : Reg)
  /-- `br` (R310). Relative branch by a word offset. -/
  | br (t : Tok) (g : Guard) (o : Fin 524288)
  /-- `call` (R310). Relative call, writing the link register. -/
  | call (t : Tok) (g : Guard) (o : Fin 524288)
  /-- `jmp` (R311). Transfer to a word index in a scalar. -/
  | jmp (t : Tok) (g : Guard) (a : Reg)
  /-- `ret` (R311). Transfer to the link register. -/
  | ret (t : Tok) (g : Guard)
  /-- `callr` (R311). Call a word index held in a scalar. -/
  | callr (t : Tok) (g : Guard) (a : Reg)
  /-- `loop` (R313). Enter a counted loop, zeroing the iteration index and setting stage predicates. -/
  | loop (t : Tok) (g : Guard) (n : Fin 4) (i : Fin 16384)
  /-- `brl` (R314). Close a pipelined loop: count, rotate and branch back. -/
  | brl (t : Tok) (g : Guard) (n s : Fin 4) (o : Fin 4096)
  /-- `rot` (R315). Decrement both rotation bases once. -/
  | rot (t : Tok) (g : Guard)
  /-- `lcset` (R312). Write a loop counter from a scalar. -/
  | lcset (t : Tok) (g : Guard) (n : Fin 4) (a : Reg)
  /-- `lcrd` (R312). Read a loop counter into a scalar. -/
  | lcrd (t : Tok) (g : Guard) (n : Fin 4) (d : Reg)
  /-- `mfs` (R318). Read a system register. -/
  | mfs (t : Tok) (g : Guard) (d : Reg) (r : Fin 1024)
  /-- `mts` (R318). Write a system register. -/
  | mts (t : Tok) (g : Guard) (a : Reg) (r : Fin 1024)
  /-- `trap` (R320). Raise the user trap SOFT with an immediate. -/
  | trap (t : Tok) (g : Guard) (i : Fin 1024)
  /-- `eret` (R321). End the trap strand with RESUME, SKIP or ABORT. -/
  | eret (t : Tok) (g : Guard) (m : Fin 4)
  /-- `yield` (R322). Give handler strands issue priority for 32 cycles. -/
  | yield (t : Tok) (g : Guard)
  /-- `tail` (R323). End the executing strand. -/
  | tail (t : Tok) (g : Guard)
  /-- `tsm` (R324). Set the tile-start point for rollback. -/
  | tsm (t : Tok) (g : Guard)
  /-- `fence.rel` (R378). Release at a scope. -/
  | fenceRel (t : Tok) (c : Fin 16)
  /-- `fence.acq` (R378). Acquire at a scope. -/
  | fenceAcq (t : Tok) (c : Fin 16)
  /-- `fence.ar` (R378). Release then acquire at a scope. -/
  | fenceAr (t : Tok) (c : Fin 16)
  /-- `bar.wait` (R381). Wait until a barrier's PHASE passes p, then acquire. -/
  | barWait (t : Tok) (c : Fin 16) (d a b : Reg)
  /-- `blaze` (R379). Place markers in named queues and engine contexts. -/
  | blaze (t : Tok) (q : Fin 8) (a : Reg) (b : Fin 8)
  /-- `join` (R379). Stall until earlier markers reach their heads, then acquire core-locally. -/
  | join (t : Tok)
  /-- `tlwait` (R380). Wait until a timeline counter reaches n, then acquire. -/
  | tlwait (t : Tok) (k a b : Reg)
  /-- `tlrd` (R380). Read a timeline counter without an acquire. -/
  | tlrd (t : Tok) (d k : Reg)
  /-- `enq` (R326). Offer a packet from 8 scalars to a device queue. -/
  | enq (t : Tok) (g : Guard) (d a b : Reg)
  /-- `scope.ld` (R327). Load a scope-table entry from memory. -/
  | scopeLd (t : Tok) (g : Guard) (d a : Reg)
  /-- `cinv` (R328). Discard the constant cache and begin a new epoch. -/
  | cinv (t : Tok) (g : Guard)
  /-- `vset` (R330). Set VTYPE and VL from a requested length. -/
  | vset (t : Tok) (d a : Reg) (i : Fin 128)
  /-- `vset.max` (R330). Set VTYPE and VL to VLMAX. -/
  | vsetMax (t : Tok) (d : Reg) (i : Fin 128)
  /-- `ld.b.g` (R359). Global byte load, sign-extended. -/
  | ldBG (t : Tok) (d a : Reg) (o : Fin 512)
  /-- `ld.h.g` (R359). Global half load, sign-extended. -/
  | ldHG (t : Tok) (d a : Reg) (o : Fin 512)
  /-- `ld.w.g` (R359). Global word load, sign-extended. -/
  | ldWG (t : Tok) (d a : Reg) (o : Fin 512)
  /-- `ld.d.g` (R359). Global dword load. -/
  | ldDG (t : Tok) (d a : Reg) (o : Fin 512)
  /-- `ld.b.n.g` (R359). Global byte load, zero-extended. -/
  | ldBNG (t : Tok) (d a : Reg) (o : Fin 512)
  /-- `ld.h.n.g` (R359). Global half load, zero-extended. -/
  | ldHNG (t : Tok) (d a : Reg) (o : Fin 512)
  /-- `ld.w.n.g` (R359). Global word load, zero-extended. -/
  | ldWNG (t : Tok) (d a : Reg) (o : Fin 512)
  /-- `ld.b.x` (R359). Scratch byte load, sign-extended. -/
  | ldBX (t : Tok) (d a : Reg) (o : Fin 512)
  /-- `ld.h.x` (R359). Scratch half load, sign-extended. -/
  | ldHX (t : Tok) (d a : Reg) (o : Fin 512)
  /-- `ld.w.x` (R359). Scratch word load, sign-extended. -/
  | ldWX (t : Tok) (d a : Reg) (o : Fin 512)
  /-- `ld.d.x` (R359). Scratch dword load. -/
  | ldDX (t : Tok) (d a : Reg) (o : Fin 512)
  /-- `ld.b.n.x` (R359). Scratch byte load, zero-extended. -/
  | ldBNX (t : Tok) (d a : Reg) (o : Fin 512)
  /-- `ld.h.n.x` (R359). Scratch half load, zero-extended. -/
  | ldHNX (t : Tok) (d a : Reg) (o : Fin 512)
  /-- `ld.w.n.x` (R359). Scratch word load, zero-extended. -/
  | ldWNX (t : Tok) (d a : Reg) (o : Fin 512)
  /-- `ld.b.l` (R359). Landing byte load, sign-extended. -/
  | ldBL (t : Tok) (d a : Reg) (o : Fin 512)
  /-- `ld.h.l` (R359). Landing half load, sign-extended. -/
  | ldHL (t : Tok) (d a : Reg) (o : Fin 512)
  /-- `ld.w.l` (R359). Landing word load, sign-extended. -/
  | ldWL (t : Tok) (d a : Reg) (o : Fin 512)
  /-- `ld.d.l` (R359). Landing dword load. -/
  | ldDL (t : Tok) (d a : Reg) (o : Fin 512)
  /-- `ld.b.n.l` (R359). Landing byte load, zero-extended. -/
  | ldBNL (t : Tok) (d a : Reg) (o : Fin 512)
  /-- `ld.h.n.l` (R359). Landing half load, zero-extended. -/
  | ldHNL (t : Tok) (d a : Reg) (o : Fin 512)
  /-- `ld.w.n.l` (R359). Landing word load, zero-extended. -/
  | ldWNL (t : Tok) (d a : Reg) (o : Fin 512)
  /-- `ld.b.g` (R360). Global byte load at base plus index. -/
  | ldBGRr (t : Tok) (g : Guard) (d a b : Reg)
  /-- `ld.h.g` (R360). Global half load at base plus index. -/
  | ldHGRr (t : Tok) (g : Guard) (d a b : Reg)
  /-- `ld.w.g` (R360). Global word load at base plus index. -/
  | ldWGRr (t : Tok) (g : Guard) (d a b : Reg)
  /-- `ld.d.g` (R360). Global dword load at base plus index. -/
  | ldDGRr (t : Tok) (g : Guard) (d a b : Reg)
  /-- `ld.b.x` (R360). Scratch byte load at base plus index. -/
  | ldBXRr (t : Tok) (g : Guard) (d a b : Reg)
  /-- `ld.h.x` (R360). Scratch half load at base plus index. -/
  | ldHXRr (t : Tok) (g : Guard) (d a b : Reg)
  /-- `ld.w.x` (R360). Scratch word load at base plus index. -/
  | ldWXRr (t : Tok) (g : Guard) (d a b : Reg)
  /-- `ld.d.x` (R360). Scratch dword load at base plus index. -/
  | ldDXRr (t : Tok) (g : Guard) (d a b : Reg)
  /-- `ld.b.l` (R360). Landing byte load at base plus index. -/
  | ldBLRr (t : Tok) (g : Guard) (d a b : Reg)
  /-- `ld.h.l` (R360). Landing half load at base plus index. -/
  | ldHLRr (t : Tok) (g : Guard) (d a b : Reg)
  /-- `ld.w.l` (R360). Landing word load at base plus index. -/
  | ldWLRr (t : Tok) (g : Guard) (d a b : Reg)
  /-- `ld.d.l` (R360). Landing dword load at base plus index. -/
  | ldDLRr (t : Tok) (g : Guard) (d a b : Reg)
  /-- `vld.g` (R365). Global vector load with row pitch. -/
  | vldG (t : Tok) (g : Guard) (d a b : Reg)
  /-- `vlds.g` (R365). Global strided vector load. -/
  | vldsG (t : Tok) (g : Guard) (d a b : Reg)
  /-- `vldx.g` (R365). Global indexed vector load. -/
  | vldxG (t : Tok) (g : Guard) (d a b : Reg)
  /-- `vld.ff.g` (R367). Global first-fault vector load that trims VL. -/
  | vldFfG (t : Tok) (g : Guard) (d a b : Reg)
  /-- `vld.x` (R365). Scratch vector load with row pitch. -/
  | vldX (t : Tok) (g : Guard) (d a b : Reg)
  /-- `vlds.x` (R365). Scratch strided vector load. -/
  | vldsX (t : Tok) (g : Guard) (d a b : Reg)
  /-- `vldx.x` (R365). Scratch indexed vector load. -/
  | vldxX (t : Tok) (g : Guard) (d a b : Reg)
  /-- `vld.ff.x` (R367). Scratch first-fault vector load. -/
  | vldFfX (t : Tok) (g : Guard) (d a b : Reg)
  /-- `vld.l` (R365). Landing vector load with row pitch. -/
  | vldL (t : Tok) (g : Guard) (d a b : Reg)
  /-- `vlds.l` (R365). Landing strided vector load. -/
  | vldsL (t : Tok) (g : Guard) (d a b : Reg)
  /-- `vldx.l` (R365). Landing indexed vector load. -/
  | vldxL (t : Tok) (g : Guard) (d a b : Reg)
  /-- `vld.ff.l` (R367). Landing first-fault vector load. -/
  | vldFfL (t : Tok) (g : Guard) (d a b : Reg)
  /-- `ldc.b` (R362). Constant-path byte load, sign-extended. -/
  | ldcB (t : Tok) (d a : Reg) (o : Fin 512)
  /-- `ldc.h` (R362). Constant-path half load. -/
  | ldcH (t : Tok) (d a : Reg) (o : Fin 512)
  /-- `ldc.w` (R362). Constant-path word load. -/
  | ldcW (t : Tok) (d a : Reg) (o : Fin 512)
  /-- `ldc.d` (R362). Constant-path dword load. -/
  | ldcD (t : Tok) (d a : Reg) (o : Fin 512)
  /-- `ldc.b.n` (R362). Constant-path byte load, zero-extended. -/
  | ldcBN (t : Tok) (d a : Reg) (o : Fin 512)
  /-- `ldc.h.n` (R362). Constant-path half load, zero-extended. -/
  | ldcHN (t : Tok) (d a : Reg) (o : Fin 512)
  /-- `ldc.w.n` (R362). Constant-path word load, zero-extended. -/
  | ldcWN (t : Tok) (d a : Reg) (o : Fin 512)
  /-- `cpy` (R389). Issue a general copy command to copy context c. -/
  | cpy (t : Tok) (g : Guard) (d a b : Reg) (c : Fin 2)
  /-- `cpy.a` (R389). Issue a copy of NB blocks into the A FIFO. -/
  | cpyA (t : Tok) (g : Guard) (d a b : Reg) (c : Fin 2)
  /-- `cpy.b` (R389). Issue a copy of NB blocks into the B FIFO. -/
  | cpyB (t : Tok) (g : Guard) (d a b : Reg) (c : Fin 2)
  /-- `flget.x` (R375). Pop a flume element into scratch, then acquire. -/
  | flgetX (t : Tok) (c : Fin 16) (d a b : Reg)
  /-- `flget.v` (R375). Pop a flume element into a vector group, then acquire. -/
  | flgetV (t : Tok) (c : Fin 16) (d a : Reg)
  /-- `ring` (R377). Shift a scratch tile to the neighbour in the crew ring. -/
  | ring (t : Tok) (g : Guard) (d a b : Reg)
  /-- `pf.l1` (R363). Prefetch a line into the L1 and crew cache. -/
  | pfL1 (t : Tok) (a : Reg) (o : Fin 512)
  /-- `pf.crew` (R363). Prefetch a line into the crew cache. -/
  | pfCrew (t : Tok) (a : Reg) (o : Fin 512)
  /-- `lrenew` (R363). Renew the L1 lease of a resident line. -/
  | lrenew (t : Tok) (a : Reg) (o : Fin 512)
  /-- `vadd` (R340). Vector integer add. -/
  | vadd (t : Tok) (g : Guard) (d a b : Reg)
  /-- `vsub` (R340). Vector integer subtract. -/
  | vsub (t : Tok) (g : Guard) (d a b : Reg)
  /-- `vmul` (R340). Vector integer multiply, low bits. -/
  | vmul (t : Tok) (g : Guard) (d a b : Reg)
  /-- `vmulh` (R340). Vector signed multiply, high bits. -/
  | vmulh (t : Tok) (g : Guard) (d a b : Reg)
  /-- `vand` (R340). Vector AND. -/
  | vand (t : Tok) (g : Guard) (d a b : Reg)
  /-- `vor` (R340). Vector OR. -/
  | vor (t : Tok) (g : Guard) (d a b : Reg)
  /-- `vxor` (R340). Vector XOR. -/
  | vxor (t : Tok) (g : Guard) (d a b : Reg)
  /-- `vsll` (R340). Vector shift left. -/
  | vsll (t : Tok) (g : Guard) (d a b : Reg)
  /-- `vsrl` (R340). Vector logical shift right. -/
  | vsrl (t : Tok) (g : Guard) (d a b : Reg)
  /-- `vsra` (R340). Vector arithmetic shift right. -/
  | vsra (t : Tok) (g : Guard) (d a b : Reg)
  /-- `vmin` (R340). Vector signed minimum. -/
  | vmin (t : Tok) (g : Guard) (d a b : Reg)
  /-- `vmax` (R340). Vector signed maximum. -/
  | vmax (t : Tok) (g : Guard) (d a b : Reg)
  /-- `vmin.n` (R340). Vector unsigned minimum. -/
  | vminN (t : Tok) (g : Guard) (d a b : Reg)
  /-- `vmax.n` (R340). Vector unsigned maximum. -/
  | vmaxN (t : Tok) (g : Guard) (d a b : Reg)
  /-- `vadd.sat` (R340). Vector signed saturating add. -/
  | vaddSat (t : Tok) (g : Guard) (d a b : Reg)
  /-- `vsub.sat` (R340). Vector signed saturating subtract. -/
  | vsubSat (t : Tok) (g : Guard) (d a b : Reg)
  /-- `vadd.s` (R341). Vector plus scalar. -/
  | vaddS (t : Tok) (g : Guard) (d a b : Reg)
  /-- `vsub.s` (R341). Vector minus scalar. -/
  | vsubS (t : Tok) (g : Guard) (d a b : Reg)
  /-- `vrsub.s` (R341). Scalar minus vector. -/
  | vrsubS (t : Tok) (g : Guard) (d a b : Reg)
  /-- `vmul.s` (R341). Vector times scalar, low bits. -/
  | vmulS (t : Tok) (g : Guard) (d a b : Reg)
  /-- `vand.s` (R341). Vector AND scalar. -/
  | vandS (t : Tok) (g : Guard) (d a b : Reg)
  /-- `vor.s` (R341). Vector OR scalar. -/
  | vorS (t : Tok) (g : Guard) (d a b : Reg)
  /-- `vxor.s` (R341). Vector XOR scalar. -/
  | vxorS (t : Tok) (g : Guard) (d a b : Reg)
  /-- `vsll.s` (R341). Vector shift left by a scalar. -/
  | vsllS (t : Tok) (g : Guard) (d a b : Reg)
  /-- `vsrl.s` (R341). Vector logical shift right by a scalar. -/
  | vsrlS (t : Tok) (g : Guard) (d a b : Reg)
  /-- `vsra.s` (R341). Vector arithmetic shift right by a scalar. -/
  | vsraS (t : Tok) (g : Guard) (d a b : Reg)
  /-- `vmin.s` (R341). Signed minimum with a scalar. -/
  | vminS (t : Tok) (g : Guard) (d a b : Reg)
  /-- `vmax.s` (R341). Signed maximum with a scalar. -/
  | vmaxS (t : Tok) (g : Guard) (d a b : Reg)
  /-- `vmin.n.s` (R341). Unsigned minimum with a scalar. -/
  | vminNS (t : Tok) (g : Guard) (d a b : Reg)
  /-- `vmax.n.s` (R341). Unsigned maximum with a scalar. -/
  | vmaxNS (t : Tok) (g : Guard) (d a b : Reg)
  /-- `vadd.sat.s` (R341). Signed saturating add of a scalar. -/
  | vaddSatS (t : Tok) (g : Guard) (d a b : Reg)
  /-- `vadd.sat.n.s` (R341). Unsigned saturating add of a scalar. -/
  | vaddSatNS (t : Tok) (g : Guard) (d a b : Reg)
  /-- `vfadd` (R342). Vector float add. -/
  | vfadd (t : Tok) (g : Guard) (d a b : Reg)
  /-- `vfsub` (R342). Vector float subtract. -/
  | vfsub (t : Tok) (g : Guard) (d a b : Reg)
  /-- `vfmul` (R342). Vector float multiply. -/
  | vfmul (t : Tok) (g : Guard) (d a b : Reg)
  /-- `vfmin` (R342). Vector float minimumNumber. -/
  | vfmin (t : Tok) (g : Guard) (d a b : Reg)
  /-- `vfmax` (R342). Vector float maximumNumber. -/
  | vfmax (t : Tok) (g : Guard) (d a b : Reg)
  /-- `vfabs` (R342). Clear each sign bit. -/
  | vfabs (t : Tok) (g : Guard) (d a : Reg)
  /-- `vfneg` (R342). Invert each sign bit. -/
  | vfneg (t : Tok) (g : Guard) (d a : Reg)
  /-- `vfadd.s` (R342). Vector float plus scalar. -/
  | vfaddS (t : Tok) (g : Guard) (d a b : Reg)
  /-- `vfmul.s` (R342). Vector float times scalar. -/
  | vfmulS (t : Tok) (g : Guard) (d a b : Reg)
  /-- `vfmin.s` (R342). minimumNumber with a scalar. -/
  | vfminS (t : Tok) (g : Guard) (d a b : Reg)
  /-- `vfmax.s` (R342). maximumNumber with a scalar. -/
  | vfmaxS (t : Tok) (g : Guard) (d a b : Reg)
  /-- `vfma` (R343). Fused a times b plus c. -/
  | vfma (t : Tok) (g : Guard) (d a b : Reg)
  /-- `vfms` (R343). Fused a times b minus c. -/
  | vfms (t : Tok) (g : Guard) (d a b : Reg)
  /-- `vfnms` (R343). Fused minus a times b plus c. -/
  | vfnms (t : Tok) (g : Guard) (d a b : Reg)
  /-- `vfnma` (R343). Fused minus a times b minus c. -/
  | vfnma (t : Tok) (g : Guard) (d a b : Reg)
  /-- `vfma.s` (R343). Fused a times scalar plus c. -/
  | vfmaS (t : Tok) (g : Guard) (d a b : Reg)
  /-- `vmacc` (R343). Integer c plus a times b. -/
  | vmacc (t : Tok) (g : Guard) (d a b : Reg)
  /-- `vmacc.s` (R343). Integer c plus a times scalar. -/
  | vmaccS (t : Tok) (g : Guard) (d a b : Reg)
  /-- `vcmp.eq` (R344). Mask := a equals b. -/
  | vcmpEq (t : Tok) (g : Guard) (d a b : Reg)
  /-- `vcmp.ne` (R344). Mask := a differs from b. -/
  | vcmpNe (t : Tok) (g : Guard) (d a b : Reg)
  /-- `vcmp.lt` (R344). Mask := a < b signed. -/
  | vcmpLt (t : Tok) (g : Guard) (d a b : Reg)
  /-- `vcmp.le` (R344). Mask := a <= b signed. -/
  | vcmpLe (t : Tok) (g : Guard) (d a b : Reg)
  /-- `vcmp.lt.n` (R344). Mask := a < b unsigned. -/
  | vcmpLtN (t : Tok) (g : Guard) (d a b : Reg)
  /-- `vcmp.le.n` (R344). Mask := a <= b unsigned. -/
  | vcmpLeN (t : Tok) (g : Guard) (d a b : Reg)
  /-- `vfcmp.eq` (R344). Mask := float a equals b. -/
  | vfcmpEq (t : Tok) (g : Guard) (d a b : Reg)
  /-- `vfcmp.lt` (R344). Mask := float a < b. -/
  | vfcmpLt (t : Tok) (g : Guard) (d a b : Reg)
  /-- `vfcmp.le` (R344). Mask := float a <= b. -/
  | vfcmpLe (t : Tok) (g : Guard) (d a b : Reg)
  /-- `vfcmp.un` (R344). Mask := either operand is NaN. -/
  | vfcmpUn (t : Tok) (g : Guard) (d a b : Reg)
  /-- `vcmp.eq.s` (R344). Mask := a equals scalar. -/
  | vcmpEqS (t : Tok) (g : Guard) (d a b : Reg)
  /-- `vcmp.lt.s` (R344). Mask := a < scalar signed. -/
  | vcmpLtS (t : Tok) (g : Guard) (d a b : Reg)
  /-- `vcmp.gt.s` (R344). Mask := a > scalar signed. -/
  | vcmpGtS (t : Tok) (g : Guard) (d a b : Reg)
  /-- `vfcmp.lt.s` (R344). Mask := float a < scalar. -/
  | vfcmpLtS (t : Tok) (g : Guard) (d a b : Reg)
  /-- `vfcmp.gt.s` (R344). Mask := float a > scalar. -/
  | vfcmpGtS (t : Tok) (g : Guard) (d a b : Reg)
  /-- `kand` (R345). Mask AND. -/
  | kand (t : Tok) (d a b : Reg)
  /-- `kor` (R345). Mask OR. -/
  | kor (t : Tok) (d a b : Reg)
  /-- `kxor` (R345). Mask XOR. -/
  | kxor (t : Tok) (d a b : Reg)
  /-- `kandn` (R345). Mask AND NOT. -/
  | kandn (t : Tok) (d a b : Reg)
  /-- `knot` (R345). Mask NOT. -/
  | knot (t : Tok) (d a : Reg)
  /-- `kset` (R345). Set mask bits below VL. -/
  | kset (t : Tok) (d : Reg)
  /-- `kclr` (R345). Clear mask bits below VL. -/
  | kclr (t : Tok) (d : Reg)
  /-- `vcvt.f32` (R346). Widen 16-bit floats to FP32. -/
  | vcvtF32 (t : Tok) (g : Guard) (d a : Reg) (r : Fin 2) (m : Fin 4)
  /-- `vcvt.bf16` (R346). Convert to BF16. -/
  | vcvtBf16 (t : Tok) (g : Guard) (d a : Reg) (r : Fin 2) (m : Fin 4)
  /-- `vcvt.f16` (R346). Convert to binary16. -/
  | vcvtF16 (t : Tok) (g : Guard) (d a : Reg) (r : Fin 2) (m : Fin 4)
  /-- `vcvt.e4m3` (R346). Narrow to E4M3. -/
  | vcvtE4m3 (t : Tok) (g : Guard) (d a : Reg) (r : Fin 2) (m : Fin 4)
  /-- `vcvt.e5m2` (R346). Narrow to E5M2. -/
  | vcvtE5m2 (t : Tok) (g : Guard) (d a : Reg) (r : Fin 2) (m : Fin 4)
  /-- `vcvt.e2m1` (R346). Narrow to E2M1. -/
  | vcvtE2m1 (t : Tok) (g : Guard) (d a : Reg) (r : Fin 2) (m : Fin 4)
  /-- `vcvt.ef.e4m3` (R348). Narrow to E4M3 with an error-feedback residual. -/
  | vcvtEfE4m3 (t : Tok) (g : Guard) (d a : Reg) (r : Fin 2) (m : Fin 4)
  /-- `vcvt.ef.e2m1` (R348). Narrow to E2M1 with a residual. -/
  | vcvtEfE2m1 (t : Tok) (g : Guard) (d a : Reg) (r : Fin 2) (m : Fin 4)
  /-- `vcvt.ef.bf16` (R348). Narrow FP32 to BF16 with a residual. -/
  | vcvtEfBf16 (t : Tok) (g : Guard) (d a : Reg) (r : Fin 2) (m : Fin 4)
  /-- `vwid.e4m3` (R346). Widen E4M3 to the vector format. -/
  | vwidE4m3 (t : Tok) (g : Guard) (d a : Reg) (r : Fin 2) (m : Fin 4)
  /-- `vwid.e5m2` (R346). Widen E5M2 to the vector format. -/
  | vwidE5m2 (t : Tok) (g : Guard) (d a : Reg) (r : Fin 2) (m : Fin 4)
  /-- `vwid.e2m1` (R346). Widen E2M1 to the vector format. -/
  | vwidE2m1 (t : Tok) (g : Guard) (d a : Reg) (r : Fin 2) (m : Fin 4)
  /-- `vcvt.f.i` (R346). Signed integer to float. -/
  | vcvtFI (t : Tok) (g : Guard) (d a : Reg) (r : Fin 2) (m : Fin 4)
  /-- `vcvt.f.n` (R346). Unsigned integer to float. -/
  | vcvtFN (t : Tok) (g : Guard) (d a : Reg) (r : Fin 2) (m : Fin 4)
  /-- `vcvt.i.f` (R346). Float to signed integer. -/
  | vcvtIF (t : Tok) (g : Guard) (d a : Reg) (r : Fin 2) (m : Fin 4)
  /-- `vcvt.n.f` (R346). Float to unsigned integer. -/
  | vcvtNF (t : Tok) (g : Guard) (d a : Reg) (r : Fin 2) (m : Fin 4)
  /-- `vslideup` (R349). Slide columns up by a scalar count. -/
  | vslideup (t : Tok) (g : Guard) (d a b : Reg)
  /-- `vslidedn` (R349). Slide columns down by a scalar count. -/
  | vslidedn (t : Tok) (g : Guard) (d a b : Reg)
  /-- `vgather.c` (R349). Gather along columns by an index vector. -/
  | vgatherC (t : Tok) (g : Guard) (d a b : Reg)
  /-- `vbcast.c` (R349). Broadcast one column. -/
  | vbcastC (t : Tok) (g : Guard) (d a b : Reg)
  /-- `vgather.r` (R349). Gather along rows by an index vector. -/
  | vgatherR (t : Tok) (g : Guard) (d a b : Reg)
  /-- `vrot.r` (R349). Rotate rows by a scalar. -/
  | vrotR (t : Tok) (g : Guard) (d a b : Reg)
  /-- `vbcast.r` (R349). Broadcast one row. -/
  | vbcastR (t : Tok) (g : Guard) (d a b : Reg)
  /-- `vtr16` (R349). Transpose each 16-column block. -/
  | vtr16 (t : Tok) (g : Guard) (d a : Reg)
  /-- `vredsum.c` (R350). Integer sum along columns. -/
  | vredsumC (t : Tok) (g : Guard) (d a : Reg)
  /-- `vredmax.c` (R350). Signed max along columns. -/
  | vredmaxC (t : Tok) (g : Guard) (d a : Reg)
  /-- `vredmin.c` (R350). Signed min along columns. -/
  | vredminC (t : Tok) (g : Guard) (d a : Reg)
  /-- `vredmax.n.c` (R350). Unsigned max along columns. -/
  | vredmaxNC (t : Tok) (g : Guard) (d a : Reg)
  /-- `vfredsum.c` (R350). Float tree sum along columns. -/
  | vfredsumC (t : Tok) (g : Guard) (d a : Reg)
  /-- `vfredmax.c` (R350). Float max along columns. -/
  | vfredmaxC (t : Tok) (g : Guard) (d a : Reg)
  /-- `vfredmin.c` (R350). Float min along columns. -/
  | vfredminC (t : Tok) (g : Guard) (d a : Reg)
  /-- `vredsum.r` (R350). Integer sum along rows. -/
  | vredsumR (t : Tok) (g : Guard) (d a : Reg)
  /-- `vredmax.r` (R350). Signed max along rows. -/
  | vredmaxR (t : Tok) (g : Guard) (d a : Reg)
  /-- `vredmin.r` (R350). Signed min along rows. -/
  | vredminR (t : Tok) (g : Guard) (d a : Reg)
  /-- `vredmax.n.r` (R350). Unsigned max along rows. -/
  | vredmaxNR (t : Tok) (g : Guard) (d a : Reg)
  /-- `vfredsum.r` (R350). Float tree sum along rows. -/
  | vfredsumR (t : Tok) (g : Guard) (d a : Reg)
  /-- `vfredmax.r` (R350). Float max along rows. -/
  | vfredmaxR (t : Tok) (g : Guard) (d a : Reg)
  /-- `vfredmin.r` (R350). Float min along rows. -/
  | vfredminR (t : Tok) (g : Guard) (d a : Reg)
  /-- `vredmin.n.c` (R350). Unsigned min along columns. -/
  | vredminNC (t : Tok) (g : Guard) (d a : Reg)
  /-- `vredmin.n.r` (R350). Unsigned min along rows. -/
  | vredminNR (t : Tok) (g : Guard) (d a : Reg)
  /-- `vexp2` (R351). Element-wise 2^a. -/
  | vexp2 (t : Tok) (g : Guard) (d a : Reg)
  /-- `vlog2` (R351). Element-wise log2. -/
  | vlog2 (t : Tok) (g : Guard) (d a : Reg)
  /-- `vrcp` (R351). Element-wise reciprocal. -/
  | vrcp (t : Tok) (g : Guard) (d a : Reg)
  /-- `vrsqrt` (R351). Element-wise reciprocal square root. -/
  | vrsqrt (t : Tok) (g : Guard) (d a : Reg)
  /-- `vtanh` (R351). Element-wise tanh. -/
  | vtanh (t : Tok) (g : Guard) (d a : Reg)
  /-- `vmov` (R352). Copy a vector group. -/
  | vmov (t : Tok) (g : Guard) (d a : Reg)
  /-- `vmov.s` (R352). Broadcast a scalar into a vector. -/
  | vmovS (t : Tok) (g : Guard) (d b : Reg)
  /-- `vsel` (R352). Select elements of a or b by a mask. -/
  | vsel (t : Tok) (g : Guard) (d a b : Reg)
  /-- `vmovk` (R352). Mask := vector element nonzero. -/
  | vmovk (t : Tok) (g : Guard) (d a : Reg)
  /-- `vmovv` (R352). Vector := mask bits as 0 or 1. -/
  | vmovv (t : Tok) (g : Guard) (d a : Reg)
  /-- `vid` (R352). Each element := its column index. -/
  | vid (t : Tok) (g : Guard) (d : Reg)
  /-- `vrid` (R352). Each element := its row index. -/
  | vrid (t : Tok) (g : Guard) (d : Reg)
  /-- `vmovi` (R352). Each element := a 5-bit signed immediate. -/
  | vmovi (t : Tok) (g : Guard) (d i : Reg)
  /-- `mcfg` (R398). Write a matrix configuration register. -/
  | mcfg (t : Tok) (g : Guard) (d a : Reg)
  /-- `mcfgz` (R398). Reset every matrix configuration register. -/
  | mcfgz (t : Tok) (g : Guard)
  /-- `mgo` (R399). Start a matrix-engine go on an accumulator tile. -/
  | mgo (t : Tok) (g : Guard) (d : Reg)
  /-- `mstat` (R403). Snapshot matrix and window engine status into a vector. -/
  | mstat (t : Tok) (g : Guard) (d : Reg)
  /-- `accrd` (R404). Read a 16 by 64 slab of an accumulator tile. -/
  | accrd (t : Tok) (g : Guard) (d a b : Reg)
  /-- `acczero` (R404). Zero an accumulator tile. -/
  | acczero (t : Tok) (g : Guard) (d : Reg)
  /-- `accwr` (R404). Write a slab of an accumulator tile. -/
  | accwr (t : Tok) (g : Guard) (d a b : Reg)
  /-- `wcfg` (R405). Write a window configuration register. -/
  | wcfg (t : Tok) (g : Guard) (d a : Reg)
  /-- `wgo` (R406). Issue a window command producing NB A blocks. -/
  | wgo (t : Tok) (g : Guard) (a : Reg)
  /-- `ftld` (R409). Load a format-table entry from a vector. -/
  | ftld (t : Tok) (g : Guard) (d a : Reg)
  /-- `ftclr` (R409). Zero a format-table entry's counters. -/
  | ftclr (t : Tok) (g : Guard) (d : Reg)
  /-- `ftrd` (R409). Read a format-table entry into a vector. -/
  | ftrd (t : Tok) (g : Guard) (d a : Reg)
  /-- `ftmon` (R409). Wait for the last go and read its monitor totals. -/
  | ftmon (t : Tok) (g : Guard) (d : Reg)
  /-- `st.b.g` (R359). Global byte store. -/
  | stBG (t : Tok) (d a : Reg) (o : Fin 512)
  /-- `st.h.g` (R359). Global half store. -/
  | stHG (t : Tok) (d a : Reg) (o : Fin 512)
  /-- `st.w.g` (R359). Global word store. -/
  | stWG (t : Tok) (d a : Reg) (o : Fin 512)
  /-- `st.d.g` (R359). Global dword store. -/
  | stDG (t : Tok) (d a : Reg) (o : Fin 512)
  /-- `st.b.x` (R359). Scratch byte store. -/
  | stBX (t : Tok) (d a : Reg) (o : Fin 512)
  /-- `st.h.x` (R359). Scratch half store. -/
  | stHX (t : Tok) (d a : Reg) (o : Fin 512)
  /-- `st.w.x` (R359). Scratch word store. -/
  | stWX (t : Tok) (d a : Reg) (o : Fin 512)
  /-- `st.d.x` (R359). Scratch dword store. -/
  | stDX (t : Tok) (d a : Reg) (o : Fin 512)
  /-- `st.b.l` (R359). Landing byte store. -/
  | stBL (t : Tok) (d a : Reg) (o : Fin 512)
  /-- `st.h.l` (R359). Landing half store. -/
  | stHL (t : Tok) (d a : Reg) (o : Fin 512)
  /-- `st.w.l` (R359). Landing word store. -/
  | stWL (t : Tok) (d a : Reg) (o : Fin 512)
  /-- `st.d.l` (R359). Landing dword store. -/
  | stDL (t : Tok) (d a : Reg) (o : Fin 512)
  /-- `st.b.g` (R360). Global byte store at base plus index. -/
  | stBGRr (t : Tok) (g : Guard) (d a b : Reg)
  /-- `st.h.g` (R360). Global half store at base plus index. -/
  | stHGRr (t : Tok) (g : Guard) (d a b : Reg)
  /-- `st.w.g` (R360). Global word store at base plus index. -/
  | stWGRr (t : Tok) (g : Guard) (d a b : Reg)
  /-- `st.d.g` (R360). Global dword store at base plus index. -/
  | stDGRr (t : Tok) (g : Guard) (d a b : Reg)
  /-- `st.b.x` (R360). Scratch byte store at base plus index. -/
  | stBXRr (t : Tok) (g : Guard) (d a b : Reg)
  /-- `st.h.x` (R360). Scratch half store at base plus index. -/
  | stHXRr (t : Tok) (g : Guard) (d a b : Reg)
  /-- `st.w.x` (R360). Scratch word store at base plus index. -/
  | stWXRr (t : Tok) (g : Guard) (d a b : Reg)
  /-- `st.d.x` (R360). Scratch dword store at base plus index. -/
  | stDXRr (t : Tok) (g : Guard) (d a b : Reg)
  /-- `st.b.l` (R360). Landing byte store at base plus index. -/
  | stBLRr (t : Tok) (g : Guard) (d a b : Reg)
  /-- `st.h.l` (R360). Landing half store at base plus index. -/
  | stHLRr (t : Tok) (g : Guard) (d a b : Reg)
  /-- `st.w.l` (R360). Landing word store at base plus index. -/
  | stWLRr (t : Tok) (g : Guard) (d a b : Reg)
  /-- `st.d.l` (R360). Landing dword store at base plus index. -/
  | stDLRr (t : Tok) (g : Guard) (d a b : Reg)
  /-- `vst.g` (R365). Global vector store with row pitch. -/
  | vstG (t : Tok) (g : Guard) (d a b : Reg)
  /-- `vsts.g` (R365). Global strided vector store. -/
  | vstsG (t : Tok) (g : Guard) (d a b : Reg)
  /-- `vstx.g` (R365). Global indexed vector store. -/
  | vstxG (t : Tok) (g : Guard) (d a b : Reg)
  /-- `vst.nt.g` (R368). Global non-temporal vector store, acknowledged on tl6. -/
  | vstNtG (t : Tok) (g : Guard) (d a b : Reg)
  /-- `vst.x` (R365). Scratch vector store with row pitch. -/
  | vstX (t : Tok) (g : Guard) (d a b : Reg)
  /-- `vsts.x` (R365). Scratch strided vector store. -/
  | vstsX (t : Tok) (g : Guard) (d a b : Reg)
  /-- `vstx.x` (R365). Scratch indexed vector store. -/
  | vstxX (t : Tok) (g : Guard) (d a b : Reg)
  /-- `vst.l` (R365). Landing vector store with row pitch. -/
  | vstL (t : Tok) (g : Guard) (d a b : Reg)
  /-- `vsts.l` (R365). Landing strided vector store. -/
  | vstsL (t : Tok) (g : Guard) (d a b : Reg)
  /-- `vstx.l` (R365). Landing indexed vector store. -/
  | vstxL (t : Tok) (g : Guard) (d a b : Reg)
  /-- `amo.ld.w` (R369). Atomic 32-bit load with release and acquire. -/
  | amoLdW (t : Tok) (c : Fin 16) (d a : Reg)
  /-- `amo.st.w` (R369). Atomic 32-bit store. -/
  | amoStW (t : Tok) (c : Fin 16) (a b : Reg)
  /-- `amo.swap.w` (R369). Atomic 32-bit swap. -/
  | amoSwapW (t : Tok) (c : Fin 16) (d a b : Reg)
  /-- `amo.cas.w` (R369). Atomic 32-bit compare and swap. -/
  | amoCasW (t : Tok) (c : Fin 16) (d a b : Reg)
  /-- `amo.add.w` (R369). Atomic 32-bit add. -/
  | amoAddW (t : Tok) (c : Fin 16) (d a b : Reg)
  /-- `amo.or.w` (R369). Atomic 32-bit OR. -/
  | amoOrW (t : Tok) (c : Fin 16) (d a b : Reg)
  /-- `amo.min.w` (R369). Atomic 32-bit signed minimum. -/
  | amoMinW (t : Tok) (c : Fin 16) (d a b : Reg)
  /-- `amo.max.w` (R369). Atomic 32-bit signed maximum. -/
  | amoMaxW (t : Tok) (c : Fin 16) (d a b : Reg)
  /-- `amo.ld.d` (R369). Atomic 64-bit load. -/
  | amoLdD (t : Tok) (c : Fin 16) (d a : Reg)
  /-- `amo.st.d` (R369). Atomic 64-bit store. -/
  | amoStD (t : Tok) (c : Fin 16) (a b : Reg)
  /-- `amo.swap.d` (R369). Atomic 64-bit swap. -/
  | amoSwapD (t : Tok) (c : Fin 16) (d a b : Reg)
  /-- `amo.cas.d` (R369). Atomic 64-bit compare and swap. -/
  | amoCasD (t : Tok) (c : Fin 16) (d a b : Reg)
  /-- `amo.add.d` (R369). Atomic 64-bit add. -/
  | amoAddD (t : Tok) (c : Fin 16) (d a b : Reg)
  /-- `amo.or.d` (R369). Atomic 64-bit OR. -/
  | amoOrD (t : Tok) (c : Fin 16) (d a b : Reg)
  /-- `amo.min.d` (R369). Atomic 64-bit signed minimum. -/
  | amoMinD (t : Tok) (c : Fin 16) (d a b : Reg)
  /-- `amo.max.d` (R369). Atomic 64-bit signed maximum. -/
  | amoMaxD (t : Tok) (c : Fin 16) (d a b : Reg)
  /-- `red.add.w` (R371). Reduction at memory: 32-bit integer add. -/
  | redAddW (t : Tok) (c : Fin 16) (a b : Reg)
  /-- `red.add.d` (R371). Reduction at memory: 64-bit integer add. -/
  | redAddD (t : Tok) (c : Fin 16) (a b : Reg)
  /-- `red.add.f32` (R371). Reduction at memory: FP32 add. -/
  | redAddF32 (t : Tok) (c : Fin 16) (a b : Reg)
  /-- `red.min.w` (R371). Reduction at memory: signed minimum. -/
  | redMinW (t : Tok) (c : Fin 16) (a b : Reg)
  /-- `red.max.w` (R371). Reduction at memory: signed maximum. -/
  | redMaxW (t : Tok) (c : Fin 16) (a b : Reg)
  /-- `red.or.d` (R371). Reduction at memory: 64-bit OR. -/
  | redOrD (t : Tok) (c : Fin 16) (a b : Reg)
  /-- `lupd` (R372). Update a 128-byte Landing line with 32 scratch operands. -/
  | lupd (t : Tok) (c : Fin 16) (d a b : Reg)
  /-- `flput` (R374). Release and put a scratch element into a flume. -/
  | flput (t : Tok) (c : Fin 16) (a b : Reg)
  /-- `push` (R376). Release and send an arrival record to a target core. -/
  | push (t : Tok) (c : Fin 16) (d a b : Reg)
  /-- `bar.arrive` (R381). Release and arrive at a barrier object, returning the old phase. -/
  | barArrive (t : Tok) (c : Fin 16) (d a : Reg)
  /-- `cwb` (R383). Write a crew-cache line's dirty sectors to the home. -/
  | cwb (t : Tok) (g : Guard) (a : Reg)
  /-- `cev` (R383). Write back and evict a line from the crew cache and L1s. -/
  | cev (t : Tok) (g : Guard) (a : Reg)
  /-- `l1inv` (R383). Empty the issuing core's L1. -/
  | l1inv (t : Tok) (g : Guard)
  /-- COLD_RESET (R27). Power-on starts the boot ROM on the firmware core, which reads and CRC-checks the flash directory. -/
  | coldReset
  /-- COLDRST (R25). A write of 0x0000_0C01 to SB_CMD forces a cold reset over the sideband. -/
  | coldrst (v : BitVec 32)
  /-- WARM_RESET (R23). PERST# on both ports restarts firmware from the boot ROM and keeps GDDR 7 in self-refresh. -/
  | warmReset
  /-- FIRMWARE_WATCHDOG_EXPIRY (R23). The 2 s firmware watchdog expires and starts a warm reset that leaves the links trained. -/
  | firmwareWatchdogExpiry
  /-- PORT_RESET (R18). PERST# on one port resets that port's link, functions and wake latches only. -/
  | portReset (port : Fin 2)
  /-- FUNCTION_LEVEL_RESET_VF (R18). An FLR of a virtual function cancels its regions and streams, unregisters its queues and withdraws its windows. -/
  | functionLevelResetVf (vf : Fin 8)
  /-- FUNCTION_LEVEL_RESET_PF (R18). An FLR of a physical function resets it and its enabled VFs, then firmware recreates its root region. -/
  | functionLevelResetPf (pf : Fin 2)
  /-- PUF_RECONSTRUCTION (R27). The PUF response is reconstructed from helper data and the device identity key is derived. -/
  | pufReconstruction
  /-- LINK_TRAINING (R27). PCI Express link training completes; configuration requests get retry status until device ready. -/
  | linkTraining (port : Fin 2)
  /-- SLOT_VERIFICATION (R28). A firmware slot's chain, signature and security version are verified and the firmware is started and measured. -/
  | slotVerification
  /-- MEMORY_TRAINING (R27). GDDR 7 training or self-refresh exit, CXL link training and HDM decoder set-up from blobs complete. -/
  | memoryTraining (ok : Bool)
  /-- DEVICE_READY (R27). Boot step 7: configuration requests complete normally and feature bits are published. -/
  | deviceReady
  /-- POWER_SAMPLE (R11). Every 100 us firmware samples board power and may step the arithmetic clock. -/
  | powerSample (watts : Nat)
  /-- ARITH_CLOCK_STEP_DONE (R13). A 2 us step of the arithmetic clock completes without losing or repeating instructions. -/
  | arithClockStepDone
  /-- JUNCTION_THROTTLE (R12). Junction temperature reaches 105 C and hardware lowers the clock to 1.65 GHz within 10 us. -/
  | junctionThrottle (temp : Int)
  /-- THROTTLE_RELEASE (R12). Temperature falls below 100 C and the stepping of R11 resumes. -/
  | throttleRelease (temp : Int)
  /-- THERMAL_TRIP (R12). Temperature reaches 115 C; all clocks but sideband stop and the fatal interrupt is raised. -/
  | thermalTrip (temp : Int)
  /-- ENTDAA (R24). The I3C controller assigns Gnoro a dynamic address. -/
  | entdaa (addr : Fin 128)
  /-- SB_LIMIT_WRITE (R25). A write to SB_LIMIT sets the board power limit, clamped to 900 W to 1,650 W. -/
  | sbLimitWrite (v : BitVec 32)
  /-- SB_MEAS_READ (R25). A read of SB_MEAS returns the next of the 8 words of the boot measurement digest. -/
  | sbMeasRead
  /-- LIFETIME_RECORD_TIMER (R32). Every 600 s firmware appends a lifetime record to the current flash bank. -/
  | lifetimeRecordTimer
  /-- CXL_LINK_LOSS (R21). A memory expander drops off; outstanding requests complete poisoned and mapped pages are marked absent. -/
  | cxlLinkLoss (port : Fin 2)
  /-- PTM_DIALOG (R104). Every 50 ms firmware runs a PTM dialog and slews, slows or steps the device time base. -/
  | ptmDialog (off : Int)
  /-- TB_STEPS_READ (R103). A read of TB_STEPS returns the forward steps since the last read and clears the count. -/
  | tbStepsRead
  /-- ATS_INVALIDATE_REQUEST (R49). A host ATS Invalidate Request invalidates the ATS cache range and completes after the drain. -/
  | atsInvalidateRequest (f : Fin 10) (base len : Nat)
  /-- HOST_INBOUND_READ (R228). A host or function read through a BAR performs at the home, recalling an owned line. -/
  | hostInboundRead (f : Fin 10) (bar : Bar) (off len : Nat)
  /-- HOST_INBOUND_WRITE (R229). A host write arrives in PCI Express order, stamped by its port clock, and is checked by the access table. -/
  | hostInboundWrite (f : Fin 10) (bar : Bar) (off : Nat) (data : List (BitVec 8))
  /-- PEER_INBOUND_REQUEST (R65). A peer request to the peer window is checked against peer table, export and access table. -/
  | peerInboundRequest (port : Fin 2) (rid : BitVec 16) (off len : Nat) (data : Option (List (BitVec 8)))
  /-- REGISTER_WRITE (R5). A write to a register without its own row sets its fields as its Access column gives. -/
  | registerWrite (m : Fin 256) (off : Nat) (v : BitVec 64)
  /-- FEATACK_WRITE (R70). The driver writes acknowledged features; writes after the first queue registration are ignored and logged. -/
  | featackWrite (f : Fin 10) (w : Fin 8) (v : BitVec 32)
  /-- MBX_DONE_READ (R67). A read of MBX_DONE returns the completed mailbox slots and clears them. -/
  | mbxDoneRead (f : Fin 10)
  /-- QUEUE_REG (R72). Mailbox command 0x01 registers a ring as a queue of a region and returns its number. -/
  | queueReg (f : Fin 10) (slot : Fin 8)
  /-- QUEUE_UNREG (R72). Mailbox command 0x02 unregisters a queue; dispatched work runs to completion. -/
  | queueUnreg (f : Fin 10) (slot : Fin 8)
  /-- QUEUE_RESET (R76). Mailbox command 0x03 moves a FAULTED queue to UNMAPPED with a new RPTR. -/
  | queueReset (f : Fin 10) (slot : Fin 8)
  /-- INVALIDATE (R72). Mailbox command 0x04 submits a translation invalidation descriptor for the host. -/
  | invalidate (f : Fin 10) (slot : Fin 8)
  /-- ATTEST (R73). Mailbox command 0x05 writes a signed attestation report with the verifier nonce. -/
  | attest (f : Fin 10) (slot : Fin 8)
  /-- LIFETIME (R72). Mailbox command 0x06 folds present counts into a lifetime record and writes it to a host buffer. -/
  | lifetime (f : Fin 10) (slot : Fin 8)
  /-- INVQ_SUBMIT (R37). The write of the SEQ dword of INVQ submits the 32-byte descriptor to the invalidation queue. -/
  | invqSubmit (m : Fin 256) (seq : BitVec 64)
  /-- INVALIDATION_ACCEPT (R51). A descriptor leaves the queue; matching entries stop hitting and older walks install nothing. -/
  | invalidationAccept
  /-- INVALIDATION_COMPLETE (R51). After the drain, INV_DONE takes SEQ and the firmware interrupt fires if enabled. -/
  | invalidationComplete
  /-- ATUPD (R59). Firmware submits a record of 8 access-table windows for one master. -/
  | atupd (m : Fin 256) (v : BitVec 64)
  /-- ATUPD_DONE (R59). Every target has loaded the record and old-window requests have performed; ATDONE takes the sequence. -/
  | atupdDone
  /-- SLOT_MAP (R68). SLOTCTL.MAP maps an UNMAPPED queue into a free slot and restores its parse state. -/
  | slotMap (slot : Fin 128) (q : Fin 4096)
  /-- SLOT_UNMAP (R99). SLOTCTL.UNMAP moves a MAPPED queue to UNMAPPING and stops parse at a packet boundary. -/
  | slotUnmap (slot : Fin 128)
  /-- UNMAP_SAVE_COMPLETE (R99). The parse state is saved, the queue becomes UNMAPPED and UNMAPDONE is raised. -/
  | unmapSaveComplete (slot : Fin 128)
  /-- QUEUE_WAKE (R78). A write to a queue's wake word makes its slot reread WPTR, or sets PWAKE and posts QWAKE. -/
  | queueWake (q : Fin 4096)
  /-- FRONT_END_CLOCK_GATE (R79). Every mapped queue has been idle 50 us and the front end clock-gates behind the wake latch. -/
  | frontEndClockGate
  /-- FRONT_END_UNGATE (R79). A notify write while gated ungates the front end, which drains the wake latch. -/
  | frontEndUngate (q : Fin 4096)
  /-- WAIT_RECORD_EVAL (R100). At least every 100 us firmware reads the objects of saved TLWAIT records of unmapped queues. -/
  | waitRecordEval (q : Fin 4096)
  /-- PACKET_FETCH (R87). The front end fetches packets ahead of parse into a level's fetch buffer. -/
  | packetFetch (p : Fin 1152) (level : Fin 5)
  /-- NOP (R84). Packet 0x00 completes at parse. -/
  | nop (p : Fin 1152)
  /-- LAUNCH (R82). Packet 0x01 hands one OPB to the bucker for a region. -/
  | launch (p : Fin 1152)
  /-- BUNDLE (R94). Packet 0x02 hands 1 to 4 OPBs to the bucker, validated together and walked interleaved. -/
  | bundle (p : Fin 1152)
  /-- IB (R86). Packet 0x03 opens an indirect buffer at the next level. -/
  | ib (p : Fin 1152)
  /-- PRED (R83). Packet 0x04 reads a word with an acquire and skips N units if its test is false. -/
  | pred (p : Fin 1152)
  /-- LOOP_PACKET (R86). Packet 0x05 loads a body of N packets and parses it PASSES times. -/
  | loopPacket (p : Fin 1152)
  /-- FFENCE (R89). Packet 0x06 waits for earlier work, discards every fetch buffer and acquires at scope 15. -/
  | ffence (p : Fin 1152)
  /-- TLSIG (R84). Packet 0x07 signals a timeline object with a value at its scope. -/
  | tlsig (p : Fin 1152)
  /-- TLWAIT_PACKET (R84). Packet 0x08 holds parsing until a timeline object reaches a value. -/
  | tlwaitPacket (p : Fin 1152)
  /-- TLWAIT_SATISFIED (R84). The awaited object reaches VALUE; the acquire is made and parsing resumes. -/
  | tlwaitSatisfied (p : Fin 1152)
  /-- TLWAIT_EXPIRED (R84). LIMIT us pass before the object reaches VALUE and the queue faults. -/
  | tlwaitExpired (p : Fin 1152)
  /-- WRITE (R84). Packet 0x09 writes up to 48 bytes of data as scoped traffic, then releases. -/
  | write (p : Fin 1152)
  /-- STREAM_CREATE (R108). STREAM packet OP 0 reads and validates an SCB and creates a STOPPED stream. -/
  | streamCreate (p : Fin 1152)
  /-- STREAM_START (R108). STREAM packet OP 1 sets the time anchor, binds flume and encoder and makes the stream RUNNING. -/
  | streamStart (p : Fin 1152)
  /-- STREAM_STOP (R108). STREAM packet OP 2 stops releases and unbinds once frame jobs in flight finish. -/
  | streamStop (p : Fin 1152)
  /-- STREAM_SETRUNG (R108). STREAM packet OP 3 sets the rung to apply at the next release. -/
  | streamSetrung (p : Fin 1152)
  /-- STREAM_DESTROY (R108). STREAM packet OP 4 stops the stream if needed and frees its number. -/
  | streamDestroy (p : Fin 1152)
  /-- REGION_CREATE (R131). REGION packet OP 0 creates a region from an RCB and installs its context, scopes and windows. -/
  | regionCreate (p : Fin 1152)
  /-- REGION_MODIFY (R131). REGION packet OP 1 applies new RCB values to later placements and returns the region to ACTIVE. -/
  | regionModify (p : Fin 1152)
  /-- REGION_QUIESCE (R131). REGION packet OP 2 stops placement in the subtree and holds stream releases. -/
  | regionQuiesce (p : Fin 1152)
  /-- REGION_DESTROY (R131). REGION packet OP 3 discards ready and saved steps, withdraws windows and frees the region. -/
  | regionDestroy (p : Fin 1152)
  /-- MARK (R84). Packet 0x0C writes a value and the device time as one 16-byte access. -/
  | mark (p : Fin 1152)
  /-- COPY (R84). Packet 0x0D makes the front-end copy channel copy LEN bytes in ascending order. -/
  | copy (p : Fin 1152)
  /-- WORK_PACKET_COMPLETE (R92). A work packet's effects have performed; the front end releases, signals CTLADDR and raises VEC. -/
  | workPacketComplete (p : Fin 1152) (id : Nat)
  /-- DEVQ_DISPATCH (R96). The dispatcher answers an enq offer with ACCEPTED, FULL or REFUSED. -/
  | devqDispatch (c : Fin 128)
  /-- TRANSLATION_WALK (R47). A page-table walk completes and hands its leaf, or its fault, to the joined requests. -/
  | translationWalk (c : Fin 128) (va : BitVec 64)
  /-- PAGE_IN_FRAME_POP (R55). Firmware advanced TAIL and the waiting page-in pops its frame. -/
  | pageInFramePop (i : Nat)
  /-- PAGE_IN_COMPLETE (R54). The page copy ends; the leaf is swapped and invalidated, or the frame returned, with DONE, RETRANSLATE or FAILED. -/
  | pageInComplete (i : Nat) (ok : Bool)
  /-- FRAME_RELEASE (R110). The time base reaches release(FRAME) with room in flight, and a frame job is released. -/
  | frameRelease (n : Fin 1024)
  /-- SLACK_EVALUATION (R112). A periodic 1 us evaluation computes a frame job's slack. -/
  | slackEvaluation (n : Fin 1024) (frame : Nat)
  /-- FRAME_DEADLINE (R114). A frame job reaches its deadline unfinished and runs on or is cancelled per LATEPOL. -/
  | frameDeadline (n : Fin 1024) (frame : Nat)
  /-- FRAME_JOB_FINISH (R110). A frame job's packets and slot are done; counters, RUN and the SCB status are written back. -/
  | frameJobFinish (n : Fin 1024) (frame : Nat)
  /-- ENCODER_TILE_POP (R120). An encoder pops a tile record from a flume and assembles it or discards it with ENC_TILE. -/
  | encoderTilePop (e : Fin 8)
  /-- ENCODER_TILE_FILL (R121). The frame job's packets completed with tiles missing; the encoder fills them and sets FILLED. -/
  | encoderTileFill (e : Fin 8)
  /-- ENCODER_FRAME_DONE (R118). The encoder has written a frame's payload and header and the slot becomes READY or SKIPPED with TRUNC. -/
  | encoderFrameDone (e : Fin 8)
  /-- OPERATOR_ACCEPT (R134). The bucker reads and checks OPB, LPB and image header and accepts the operator. -/
  | operatorAccept (i : Nat)
  /-- TILE_STEP_PLACE (R142). Idle cores are filled with the first ready steps under the scheduler order. -/
  | tileStepPlace
  /-- TILE_STEP_START (R143). The front end writes a core's boot mailbox with GO and the core starts. -/
  | tileStepStart (c : Fin 128)
  /-- OVERLAY_LOAD (R144). The overlay loader copies and patches the image into instruction memory and starts the control slot. -/
  | overlayLoad (c : Fin 128)
  /-- TILE_STEP_RETIRE (R138). After tail, queues, engines and handlers drain; the retirement release is made and successors become ready. -/
  | tileStepRetire (c : Fin 128)
  /-- CRUISER_REPLAY (R169). A cruiser replay ends and its signature is compared, possibly starting a third run. -/
  | cruiserReplay (sig : BitVec 64) (third : Option (BitVec 64))
  /-- CORE_IDLE_ZEROING (R146). A core idle for 3 us is zeroed in the background. -/
  | coreIdleZeroing (c : Fin 128)
  /-- STARVATION_PROMOTION (R141). A BATCH or BACKGROUND step exceeds its starvation bound and is promoted one class. -/
  | starvationPromotion (i : Nat)
  /-- RCB_WRITEBACK (R130). At least every 10 ms hardware writes a region's status section back to its RCB. -/
  | rcbWriteback (r : Fin 4096)
  /-- FORCED_PREEMPTION (R150). A ready step has waited past PLAT with no idle core and a victim is abandoned or frozen. -/
  | forcedPreemption (i : Nat)
  /-- CONTEXT_SAVE_COMPLETE (R149). A frozen victim's context record reaches the shadow store and the step becomes SAVED. -/
  | contextSaveComplete (c : Fin 128)
  /-- CONTEXT_DRAIN (R152). Firmware drains a context record from the shadow store to the region's save area. -/
  | contextDrain (i : Nat)
  /-- CONTEXT_READBACK (R152). Firmware reads a context record back into the shadow store before a resume. -/
  | contextReadback (i : Nat)
  /-- PARTITION_SWAP_OUT (R153). Firmware quiesces a subtree, forces its steps out and writes records and walk state to the save area. -/
  | partitionSwapOut (r : Fin 4096)
  /-- PARTITION_SWAP_IN (R153). Firmware reads a partition's records back and returns the region to ACTIVE. -/
  | partitionSwapIn (r : Fin 4096)
  /-- CONTEXT_RESUME (R274). A SAVED step resumes on a core from its context record. -/
  | contextResume (c : Fin 128)
  /-- SCRUB_LINE (R156). The scrubber reads a line, corrects or poisons it with a conditional write-back and logs it. -/
  | scrubLine (pa : Nat) (finding : ScrubFinding)
  /-- CREW_CACHE_EVICTION (R192). The crew cache writes a dirty line back to its channel on eviction, flush or recall. -/
  | crewCacheEviction (crew : Fin 16) (line : Nat)
  /-- GOVERNOR_WINDOW (R166). At the end of each 10 s window the voltage governor restores, deepens or declares failure per domain. -/
  | governorWindow (dom : Fin 18) (count : Nat)
  /-- CLOCK_HORIZON_ADVANCE (R202). Every 2,048 cycles each core and agent clock advances to at least the device horizon. -/
  | clockHorizonAdvance
  /-- MEMORY_ACCESS_PERFORM (R201). An issued access performs at its target and moves the clocks and timestamps. -/
  | memoryAccessPerform (i : Nat)
  /-- CONSUMED_UE (R161). A poisoned value is used; the core freezes and rolls back to the tile-start point or aborts. -/
  | consumedUe (c : Fin 128)
  /-- TRAP_DETECT (R262). The first trap stops routing and queues and engines at boundaries and drains issued accesses. -/
  | trapDetect (c : Fin 128)
  /-- FREEZE_COMPLETE (R262). The drain ends; the composite record is written and the trap delivered to the trap strand or firmware. -/
  | freezeComplete (c : Fin 128)
  /-- SYSTEM_TRAP_RESOLVE (R270). Firmware resolves a system trap and resumes the core, or declares it unresolved. -/
  | systemTrapResolve (c : Fin 128) (d : FaultDecision)
  /-- SYSTEM_TRAP_TIMEOUT (R271). A system trap is unresolved 50 us after the freeze and firmware releases the core. -/
  | systemTrapTimeout (c : Fin 128)
  /-- BOUNDED_WAIT_EXPIRY (R272). A wait reaches its limit and raises the BWAIT user trap. -/
  | boundedWaitExpiry (c : Fin 128) (q : Fin 10)
  /-- ARRIVAL_RECEIVE (R187). An arrival record reaches a core and is accepted, queued or discarded. -/
  | arrivalReceive (c : Fin 128) (rec : BitVec 256)
  /-- HANDLER_START (R188). A handler context becomes free and the next arrival's handler strand starts with an acquire. -/
  | handlerStart (c : Fin 128)
  /-- COPY_COMMAND_FINISH (R184). A copy command's last write performs or is deferred and its timeline advances. -/
  | copyCommandFinish (c : Fin 128) (ctx : Fin 2)
  /-- DEFERRED_PAGE_DELIVERY (R395). A deferred page's writes perform and its arrival record is delivered. -/
  | deferredPageDelivery (c : Fin 128) (i : Nat)
  /-- SEND_FINISH (R184). A flput, push or enq is accepted by its target and tl5 advances. -/
  | sendFinish (c : Fin 128)
  /-- ACK_WRITE_FINISH (R184). The target acknowledges a reduction or non-temporal store and tl6 advances. -/
  | ackWriteFinish (c : Fin 128)
  /-- MGO_ACCEPT (R399). The matrix engine accepts a go, copies its entry and checks admissibility. -/
  | mgoAccept (c : Fin 128)
  /-- MATRIX_CHUNK_PASS (R254). A chunk pass ends and is promoted or squashed and replayed one width wider. -/
  | matrixChunkPass (c : Fin 128)
  /-- WINDOW_BLOCK_PUSH (R406). The window engine pushes one generated block, or a null block, into the A FIFO. -/
  | windowBlockPush (c : Fin 128)
  /-- RING_SHIFT (R193). Every member has issued its n-th ring and each sends a tile to its neighbour. -/
  | ringShift (crew : Fin 16)
  /-- CONFIGURATION_REQUEST (R27). A PCI Express configuration request arrives at a function and receives Configuration Request Retry Status until boot step 7, or completes normally afterwards. -/
  | configurationRequest (f : Fin 10)
  /-- POWER_LOSS (R32). Power is lost, possibly in the middle of a lifetime record write, leaving a record that fails its CRC or MAC. -/
  | powerLoss (mid : Bool)
  /-- ORDERLY_SHUTDOWN (R32). At an orderly shutdown firmware writes a lifetime record. -/
  | orderlyShutdown
deriving DecidableEq, Repr

end Sys2Proof
end

