-- ==== Sys2Proof/WellFormed.lean ====
section
/-! DEFINITION. Well-formed instructions: operands inside the limits that the spec gives whatever the state is (R283 and the
instruction chapters). An instruction that is not well formed decodes, and raises ILLEGAL when it is judged (R278, R279). -/

namespace Sys2Proof

/-- A predicate or mask source: 0 to 7 (R283). -/
def okP (r : Reg) : Bool := decide (r.val ≤ 7)
/-- A predicate or mask destination: 1 to 7 (R283). -/
def okPd (r : Reg) : Bool := decide (1 ≤ r.val) && decide (r.val ≤ 7)

/-- A system register number that R285 lists. -/
def sysReadable (n : Nat) : Bool :=
  n ∈ [0x000, 0x001, 0x008, 0x009, 0x010, 0x011, 0x012, 0x020, 0x021, 0x022, 0x023, 0x024, 0x025, 0x026, 0x027, 0x030, 0x031,
    0x040, 0x041, 0x042, 0x043]
/-- A system register that `mts` may write (R285). -/
def sysWritable (n : Nat) : Bool := n ∈ [0x008, 0x009, 0x010, 0x011, 0x012]

/-- Operands inside the limits that do not depend on the state. -/
def Instr.wf : Instr → Bool
  | .add _ _ _ _ _ => true
  | .sub _ _ _ _ _ => true
  | .and _ _ _ _ _ => true
  | .or _ _ _ _ _ => true
  | .xor _ _ _ _ _ => true
  | .sll _ _ _ _ _ => true
  | .srl _ _ _ _ _ => true
  | .sra _ _ _ _ _ => true
  | .min _ _ _ _ _ => true
  | .max _ _ _ _ _ => true
  | .minN _ _ _ _ _ => true
  | .maxN _ _ _ _ _ => true
  | .addSat _ _ _ _ _ => true
  | .subSat _ _ _ _ _ => true
  | .andn _ _ _ _ _ => true
  | .ror _ _ _ _ _ => true
  | .addi _ _ _ _ => true
  | .andi _ _ _ _ => true
  | .ori _ _ _ _ => true
  | .xori _ _ _ _ => true
  | .slli _ _ _ i => decide (i.val ≤ 63)
  | .srli _ _ _ i => decide (i.val ≤ 63)
  | .srai _ _ _ i => decide (i.val ≤ 63)
  | .rori _ _ _ i => decide (i.val ≤ 63)
  | .mul _ _ _ _ _ => true
  | .mulh _ _ _ _ _ => true
  | .mulhN _ _ _ _ _ => true
  | .div _ _ _ _ _ => true
  | .divN _ _ _ _ _ => true
  | .rem _ _ _ _ _ => true
  | .remN _ _ _ _ _ => true
  | .clz _ _ _ _ => true
  | .ctz _ _ _ _ => true
  | .cpop _ _ _ _ => true
  | .sextB _ _ _ _ => true
  | .sextH _ _ _ _ => true
  | .sextW _ _ _ _ => true
  | .zextB _ _ _ _ => true
  | .zextH _ _ _ _ => true
  | .zextW _ _ _ _ => true
  | .lim _ _ _ _ => true
  | .ext _ => true
  | .cmpEq _ _ d _ _ => okPd d
  | .cmpNe _ _ d _ _ => okPd d
  | .cmpLt _ _ d _ _ => okPd d
  | .cmpGe _ _ d _ _ => okPd d
  | .cmpLtN _ _ d _ _ => okPd d
  | .cmpGeN _ _ d _ _ => okPd d
  | .tbit _ _ d _ _ => okPd d
  | .pand _ _ d a b => okPd d && okP a && okP b
  | .por _ _ d a b => okPd d && okP a && okP b
  | .pxor _ _ d a b => okPd d && okP a && okP b
  | .pandn _ _ d a b => okPd d && okP a && okP b
  | .pnot _ _ d a => okPd d && okP a
  | .pset _ _ d => okPd d
  | .pclr _ _ d => okPd d
  | .br _ _ _ => true
  | .call _ _ _ => true
  | .jmp _ _ _ => true
  | .ret _ _ => true
  | .callr _ _ _ => true
  | .loop _ _ n _ => decide (n.val % 2 = 0)
  | .brl _ _ n _ _ => decide (n.val % 2 = 0)
  | .rot _ _ => true
  | .lcset _ _ _ _ => true
  | .lcrd _ _ _ _ => true
  | .mfs _ _ _ r => sysReadable r.val
  | .mts _ _ _ r => sysWritable r.val
  | .trap _ _ _ => true
  | .eret _ _ m => decide (m.val ≠ 3)
  | .yield _ _ => true
  | .tail _ _ => true
  | .tsm _ _ => true
  | .fenceRel _ _ => true
  | .fenceAcq _ _ => true
  | .fenceAr _ _ => true
  | .barWait _ _ _ _ _ => true
  | .blaze _ q a b => decide (q.val + a.val + b.val ≠ 0)
  | .join _ => true
  | .tlwait _ k _ _ => decide (k.val ≤ 7)
  | .tlrd _ _ k => decide (k.val ≤ 7)
  | .enq _ _ d a _ => okPd d && (a.val == 8 || a.val == 16 || a.val == 24)
  | .scopeLd _ _ d _ => decide (d.val ≤ 15)
  | .cinv _ _ => true
  | .vset _ _ _ i => decide (i.val % 4 ≠ 3)
  | .vsetMax _ _ i => decide (i.val % 4 ≠ 3)
  | .ldBG _ _ _ _ => true
  | .ldHG _ _ _ _ => true
  | .ldWG _ _ _ _ => true
  | .ldDG _ _ _ _ => true
  | .ldBNG _ _ _ _ => true
  | .ldHNG _ _ _ _ => true
  | .ldWNG _ _ _ _ => true
  | .ldBX _ _ _ _ => true
  | .ldHX _ _ _ _ => true
  | .ldWX _ _ _ _ => true
  | .ldDX _ _ _ _ => true
  | .ldBNX _ _ _ _ => true
  | .ldHNX _ _ _ _ => true
  | .ldWNX _ _ _ _ => true
  | .ldBL _ _ _ _ => true
  | .ldHL _ _ _ _ => true
  | .ldWL _ _ _ _ => true
  | .ldDL _ _ _ _ => true
  | .ldBNL _ _ _ _ => true
  | .ldHNL _ _ _ _ => true
  | .ldWNL _ _ _ _ => true
  | .ldBGRr _ _ _ _ _ => true
  | .ldHGRr _ _ _ _ _ => true
  | .ldWGRr _ _ _ _ _ => true
  | .ldDGRr _ _ _ _ _ => true
  | .ldBXRr _ _ _ _ _ => true
  | .ldHXRr _ _ _ _ _ => true
  | .ldWXRr _ _ _ _ _ => true
  | .ldDXRr _ _ _ _ _ => true
  | .ldBLRr _ _ _ _ _ => true
  | .ldHLRr _ _ _ _ _ => true
  | .ldWLRr _ _ _ _ _ => true
  | .ldDLRr _ _ _ _ _ => true
  | .vldG _ _ _ _ _ => true
  | .vldsG _ _ _ _ _ => true
  | .vldxG _ _ _ _ _ => true
  | .vldFfG _ _ _ _ _ => true
  | .vldX _ _ _ _ _ => true
  | .vldsX _ _ _ _ _ => true
  | .vldxX _ _ _ _ _ => true
  | .vldFfX _ _ _ _ _ => true
  | .vldL _ _ _ _ _ => true
  | .vldsL _ _ _ _ _ => true
  | .vldxL _ _ _ _ _ => true
  | .vldFfL _ _ _ _ _ => true
  | .ldcB _ _ _ _ => true
  | .ldcH _ _ _ _ => true
  | .ldcW _ _ _ _ => true
  | .ldcD _ _ _ _ => true
  | .ldcBN _ _ _ _ => true
  | .ldcHN _ _ _ _ => true
  | .ldcWN _ _ _ _ => true
  | .cpy _ _ _ _ _ _ => true
  | .cpyA _ _ _ _ _ _ => true
  | .cpyB _ _ _ _ _ _ => true
  | .flgetX _ _ _ _ _ => true
  | .flgetV _ _ _ _ => true
  | .ring _ _ _ _ _ => true
  | .pfL1 _ _ _ => true
  | .pfCrew _ _ _ => true
  | .lrenew _ _ _ => true
  | .vadd _ _ _ _ _ => true
  | .vsub _ _ _ _ _ => true
  | .vmul _ _ _ _ _ => true
  | .vmulh _ _ _ _ _ => true
  | .vand _ _ _ _ _ => true
  | .vor _ _ _ _ _ => true
  | .vxor _ _ _ _ _ => true
  | .vsll _ _ _ _ _ => true
  | .vsrl _ _ _ _ _ => true
  | .vsra _ _ _ _ _ => true
  | .vmin _ _ _ _ _ => true
  | .vmax _ _ _ _ _ => true
  | .vminN _ _ _ _ _ => true
  | .vmaxN _ _ _ _ _ => true
  | .vaddSat _ _ _ _ _ => true
  | .vsubSat _ _ _ _ _ => true
  | .vaddS _ _ _ _ _ => true
  | .vsubS _ _ _ _ _ => true
  | .vrsubS _ _ _ _ _ => true
  | .vmulS _ _ _ _ _ => true
  | .vandS _ _ _ _ _ => true
  | .vorS _ _ _ _ _ => true
  | .vxorS _ _ _ _ _ => true
  | .vsllS _ _ _ _ _ => true
  | .vsrlS _ _ _ _ _ => true
  | .vsraS _ _ _ _ _ => true
  | .vminS _ _ _ _ _ => true
  | .vmaxS _ _ _ _ _ => true
  | .vminNS _ _ _ _ _ => true
  | .vmaxNS _ _ _ _ _ => true
  | .vaddSatS _ _ _ _ _ => true
  | .vaddSatNS _ _ _ _ _ => true
  | .vfadd _ _ _ _ _ => true
  | .vfsub _ _ _ _ _ => true
  | .vfmul _ _ _ _ _ => true
  | .vfmin _ _ _ _ _ => true
  | .vfmax _ _ _ _ _ => true
  | .vfabs _ _ _ _ => true
  | .vfneg _ _ _ _ => true
  | .vfaddS _ _ _ _ _ => true
  | .vfmulS _ _ _ _ _ => true
  | .vfminS _ _ _ _ _ => true
  | .vfmaxS _ _ _ _ _ => true
  | .vfma _ _ _ _ _ => true
  | .vfms _ _ _ _ _ => true
  | .vfnms _ _ _ _ _ => true
  | .vfnma _ _ _ _ _ => true
  | .vfmaS _ _ _ _ _ => true
  | .vmacc _ _ _ _ _ => true
  | .vmaccS _ _ _ _ _ => true
  | .vcmpEq _ _ d _ _ => okPd d
  | .vcmpNe _ _ d _ _ => okPd d
  | .vcmpLt _ _ d _ _ => okPd d
  | .vcmpLe _ _ d _ _ => okPd d
  | .vcmpLtN _ _ d _ _ => okPd d
  | .vcmpLeN _ _ d _ _ => okPd d
  | .vfcmpEq _ _ d _ _ => okPd d
  | .vfcmpLt _ _ d _ _ => okPd d
  | .vfcmpLe _ _ d _ _ => okPd d
  | .vfcmpUn _ _ d _ _ => okPd d
  | .vcmpEqS _ _ d _ _ => okPd d
  | .vcmpLtS _ _ d _ _ => okPd d
  | .vcmpGtS _ _ d _ _ => okPd d
  | .vfcmpLtS _ _ d _ _ => okPd d
  | .vfcmpGtS _ _ d _ _ => okPd d
  | .kand _ d a b => okPd d && okP a && okP b
  | .kor _ d a b => okPd d && okP a && okP b
  | .kxor _ d a b => okPd d && okP a && okP b
  | .kandn _ d a b => okPd d && okP a && okP b
  | .knot _ d a => okPd d && okP a
  | .kset _ d => okPd d
  | .kclr _ d => okPd d
  | .vcvtF32 _ _ _ _ r m => (decide (r.val = 1) || decide (m.val = 0))
  | .vcvtBf16 _ _ _ _ r m => (decide (r.val = 1) || decide (m.val = 0))
  | .vcvtF16 _ _ _ _ r m => (decide (r.val = 1) || decide (m.val = 0))
  | .vcvtE4m3 _ _ _ _ r m => (decide (r.val = 1) || decide (m.val = 0))
  | .vcvtE5m2 _ _ _ _ r m => (decide (r.val = 1) || decide (m.val = 0))
  | .vcvtE2m1 _ _ _ _ r m => (decide (r.val = 1) || decide (m.val = 0))
  | .vcvtEfE4m3 _ _ _ _ r m => (decide (r.val = 1) || decide (m.val = 0))
  | .vcvtEfE2m1 _ _ _ _ r m => (decide (r.val = 1) || decide (m.val = 0))
  | .vcvtEfBf16 _ _ _ _ r m => (decide (r.val = 1) || decide (m.val = 0))
  | .vwidE4m3 _ _ _ _ r m => (decide (r.val = 1) || decide (m.val = 0))
  | .vwidE5m2 _ _ _ _ r m => (decide (r.val = 1) || decide (m.val = 0))
  | .vwidE2m1 _ _ _ _ r m => (decide (r.val = 1) || decide (m.val = 0))
  | .vcvtFI _ _ _ _ r m => (decide (r.val = 1) || decide (m.val = 0))
  | .vcvtFN _ _ _ _ r m => (decide (r.val = 1) || decide (m.val = 0))
  | .vcvtIF _ _ _ _ r m => (decide (r.val = 1) || decide (m.val = 0))
  | .vcvtNF _ _ _ _ r m => (decide (r.val = 1) || decide (m.val = 0))
  | .vslideup _ _ _ _ _ => true
  | .vslidedn _ _ _ _ _ => true
  | .vgatherC _ _ _ _ _ => true
  | .vbcastC _ _ _ _ _ => true
  | .vgatherR _ _ _ _ _ => true
  | .vrotR _ _ _ _ _ => true
  | .vbcastR _ _ _ _ _ => true
  | .vtr16 _ _ _ _ => true
  | .vredsumC _ _ _ _ => true
  | .vredmaxC _ _ _ _ => true
  | .vredminC _ _ _ _ => true
  | .vredmaxNC _ _ _ _ => true
  | .vfredsumC _ _ _ _ => true
  | .vfredmaxC _ _ _ _ => true
  | .vfredminC _ _ _ _ => true
  | .vredsumR _ _ _ _ => true
  | .vredmaxR _ _ _ _ => true
  | .vredminR _ _ _ _ => true
  | .vredmaxNR _ _ _ _ => true
  | .vfredsumR _ _ _ _ => true
  | .vfredmaxR _ _ _ _ => true
  | .vfredminR _ _ _ _ => true
  | .vredminNC _ _ _ _ => true
  | .vredminNR _ _ _ _ => true
  | .vexp2 _ _ _ _ => true
  | .vlog2 _ _ _ _ => true
  | .vrcp _ _ _ _ => true
  | .vrsqrt _ _ _ _ => true
  | .vtanh _ _ _ _ => true
  | .vmov _ _ _ _ => true
  | .vmovS _ _ _ _ => true
  | .vsel _ _ _ _ _ => true
  | .vmovk _ _ d _ => okPd d
  | .vmovv _ _ _ a => okP a
  | .vid _ _ _ => true
  | .vrid _ _ _ => true
  | .vmovi _ _ _ _ => true
  | .mcfg _ _ d _ => decide (d.val ≤ 6)
  | .mcfgz _ _ => true
  | .mgo _ _ d => decide (d.val ≤ 3)
  | .mstat _ _ _ => true
  | .accrd _ _ _ a _ => decide (a.val ≤ 3)
  | .acczero _ _ d => decide (d.val ≤ 3)
  | .accwr _ _ d _ _ => decide (d.val ≤ 3)
  | .wcfg _ _ d _ => decide (d.val ≤ 6)
  | .wgo _ _ _ => true
  | .ftld _ _ d _ => decide (d.val ≤ 15)
  | .ftclr _ _ d => decide (d.val ≤ 15)
  | .ftrd _ _ _ a => decide (a.val ≤ 15)
  | .ftmon _ _ _ => true
  | .stBG _ _ _ _ => true
  | .stHG _ _ _ _ => true
  | .stWG _ _ _ _ => true
  | .stDG _ _ _ _ => true
  | .stBX _ _ _ _ => true
  | .stHX _ _ _ _ => true
  | .stWX _ _ _ _ => true
  | .stDX _ _ _ _ => true
  | .stBL _ _ _ _ => true
  | .stHL _ _ _ _ => true
  | .stWL _ _ _ _ => true
  | .stDL _ _ _ _ => true
  | .stBGRr _ _ _ _ _ => true
  | .stHGRr _ _ _ _ _ => true
  | .stWGRr _ _ _ _ _ => true
  | .stDGRr _ _ _ _ _ => true
  | .stBXRr _ _ _ _ _ => true
  | .stHXRr _ _ _ _ _ => true
  | .stWXRr _ _ _ _ _ => true
  | .stDXRr _ _ _ _ _ => true
  | .stBLRr _ _ _ _ _ => true
  | .stHLRr _ _ _ _ _ => true
  | .stWLRr _ _ _ _ _ => true
  | .stDLRr _ _ _ _ _ => true
  | .vstG _ _ _ _ _ => true
  | .vstsG _ _ _ _ _ => true
  | .vstxG _ _ _ _ _ => true
  | .vstNtG _ _ _ _ _ => true
  | .vstX _ _ _ _ _ => true
  | .vstsX _ _ _ _ _ => true
  | .vstxX _ _ _ _ _ => true
  | .vstL _ _ _ _ _ => true
  | .vstsL _ _ _ _ _ => true
  | .vstxL _ _ _ _ _ => true
  | .amoLdW _ _ _ _ => true
  | .amoStW _ _ _ _ => true
  | .amoSwapW _ _ _ _ _ => true
  | .amoCasW _ _ _ _ _ => true
  | .amoAddW _ _ _ _ _ => true
  | .amoOrW _ _ _ _ _ => true
  | .amoMinW _ _ _ _ _ => true
  | .amoMaxW _ _ _ _ _ => true
  | .amoLdD _ _ _ _ => true
  | .amoStD _ _ _ _ => true
  | .amoSwapD _ _ _ _ _ => true
  | .amoCasD _ _ _ _ _ => true
  | .amoAddD _ _ _ _ _ => true
  | .amoOrD _ _ _ _ _ => true
  | .amoMinD _ _ _ _ _ => true
  | .amoMaxD _ _ _ _ _ => true
  | .redAddW _ _ _ _ => true
  | .redAddD _ _ _ _ => true
  | .redAddF32 _ _ _ _ => true
  | .redMinW _ _ _ _ => true
  | .redMaxW _ _ _ _ => true
  | .redOrD _ _ _ _ => true
  | .lupd _ _ d _ _ => decide (d.val ≤ 3)
  | .flput _ _ _ _ => true
  | .push _ _ _ _ _ => true
  | .barArrive _ _ _ _ => true
  | .cwb _ _ _ => true
  | .cev _ _ _ => true
  | .l1inv _ _ => true
  | .coldReset => true
  | .coldrst _ => true
  | .warmReset => true
  | .firmwareWatchdogExpiry => true
  | .portReset _ => true
  | .functionLevelResetVf _ => true
  | .functionLevelResetPf _ => true
  | .pufReconstruction => true
  | .linkTraining _ => true
  | .slotVerification => true
  | .memoryTraining _ => true
  | .deviceReady => true
  | .powerSample _ => true
  | .arithClockStepDone => true
  | .junctionThrottle _ => true
  | .throttleRelease _ => true
  | .thermalTrip _ => true
  | .entdaa _ => true
  | .sbLimitWrite _ => true
  | .sbMeasRead => true
  | .lifetimeRecordTimer => true
  | .cxlLinkLoss _ => true
  | .ptmDialog _ => true
  | .tbStepsRead => true
  | .atsInvalidateRequest _ _ _ => true
  | .hostInboundRead _ _ _ _ => true
  | .hostInboundWrite _ _ _ _ => true
  | .peerInboundRequest _ _ _ _ _ => true
  | .registerWrite _ _ _ => true
  | .featackWrite _ _ _ => true
  | .mbxDoneRead _ => true
  | .queueReg _ _ => true
  | .queueUnreg _ _ => true
  | .queueReset _ _ => true
  | .invalidate _ _ => true
  | .attest _ _ => true
  | .lifetime _ _ => true
  | .invqSubmit _ _ => true
  | .invalidationAccept => true
  | .invalidationComplete => true
  | .atupd _ _ => true
  | .atupdDone => true
  | .slotMap _ _ => true
  | .slotUnmap _ => true
  | .unmapSaveComplete _ => true
  | .queueWake _ => true
  | .frontEndClockGate => true
  | .frontEndUngate _ => true
  | .waitRecordEval _ => true
  | .packetFetch _ _ => true
  | .nop _ => true
  | .launch _ => true
  | .bundle _ => true
  | .ib _ => true
  | .pred _ => true
  | .loopPacket _ => true
  | .ffence _ => true
  | .tlsig _ => true
  | .tlwaitPacket _ => true
  | .tlwaitSatisfied _ => true
  | .tlwaitExpired _ => true
  | .write _ => true
  | .streamCreate _ => true
  | .streamStart _ => true
  | .streamStop _ => true
  | .streamSetrung _ => true
  | .streamDestroy _ => true
  | .regionCreate _ => true
  | .regionModify _ => true
  | .regionQuiesce _ => true
  | .regionDestroy _ => true
  | .mark _ => true
  | .copy _ => true
  | .workPacketComplete _ _ => true
  | .devqDispatch _ => true
  | .translationWalk _ _ => true
  | .pageInFramePop _ => true
  | .pageInComplete _ _ => true
  | .frameRelease _ => true
  | .slackEvaluation _ _ => true
  | .frameDeadline _ _ => true
  | .frameJobFinish _ _ => true
  | .encoderTilePop _ => true
  | .encoderTileFill _ => true
  | .encoderFrameDone _ => true
  | .operatorAccept _ => true
  | .tileStepPlace => true
  | .tileStepStart _ => true
  | .overlayLoad _ => true
  | .tileStepRetire _ => true
  | .cruiserReplay _ _ => true
  | .coreIdleZeroing _ => true
  | .starvationPromotion _ => true
  | .rcbWriteback _ => true
  | .forcedPreemption _ => true
  | .contextSaveComplete _ => true
  | .contextDrain _ => true
  | .contextReadback _ => true
  | .partitionSwapOut _ => true
  | .partitionSwapIn _ => true
  | .contextResume _ => true
  | .scrubLine _ _ => true
  | .crewCacheEviction _ _ => true
  | .governorWindow _ _ => true
  | .clockHorizonAdvance => true
  | .memoryAccessPerform _ => true
  | .consumedUe _ => true
  | .trapDetect _ => true
  | .freezeComplete _ => true
  | .systemTrapResolve _ _ => true
  | .systemTrapTimeout _ => true
  | .boundedWaitExpiry _ _ => true
  | .arrivalReceive _ _ => true
  | .handlerStart _ => true
  | .copyCommandFinish _ _ => true
  | .deferredPageDelivery _ _ => true
  | .sendFinish _ => true
  | .ackWriteFinish _ => true
  | .mgoAccept _ => true
  | .matrixChunkPass _ => true
  | .windowBlockPush _ => true
  | .ringShift _ => true
  | .configurationRequest _ => true
  | .powerLoss _ => true
  | .orderlyShutdown => true

end Sys2Proof
end

