-- ==== Sys2Proof/Decode.lean ====
section
/-! DEFINITION. The decoder of instruction words, total on every word, and the encoder (spec/11 R277 to R288). Both are
written from the same tables: the formats of R280, the opcode map of R286 and the minor codes of the instruction chapters. The
section is noncomputable because Lean's code generator has no tags for more than 244 constructors; the kernel evaluates it. -/

namespace Sys2Proof

noncomputable section

/-- Why a word is not an instruction (R279): ILLEGAL subcause 1 or 2; `short` where fewer than four bytes are given. -/
inductive DecodeErr where
  | unassigned
  | reserved
  | short
deriving DecidableEq, Repr

/-- The token bits of a word (R277). -/
def tokOf (w : Nat) : Tok := ⟨bits w 31 1 == 1, bits w 30 1 == 1, bits w 29 1 == 1, bits w 28 1 == 1⟩

/-- A field the instruction does not use: it must be zero (R281). -/
def unused (w lo len : Nat) (i : Instr) : Except DecodeErr Instr := if bits w lo len = 0 then .ok i else .error .reserved

/-- MAJOR 0x00, format R (R286). -/
def decode00 (w : Nat) : Except DecodeErr Instr :=
  match bits w 0 4 with
  | 0 => .ok (.add (tokOf w) (fin w 19 8) (fin w 14 32) (fin w 9 32) (fin w 4 32))
  | 1 => .ok (.sub (tokOf w) (fin w 19 8) (fin w 14 32) (fin w 9 32) (fin w 4 32))
  | 2 => .ok (.and (tokOf w) (fin w 19 8) (fin w 14 32) (fin w 9 32) (fin w 4 32))
  | 3 => .ok (.or (tokOf w) (fin w 19 8) (fin w 14 32) (fin w 9 32) (fin w 4 32))
  | 4 => .ok (.xor (tokOf w) (fin w 19 8) (fin w 14 32) (fin w 9 32) (fin w 4 32))
  | 5 => .ok (.sll (tokOf w) (fin w 19 8) (fin w 14 32) (fin w 9 32) (fin w 4 32))
  | 6 => .ok (.srl (tokOf w) (fin w 19 8) (fin w 14 32) (fin w 9 32) (fin w 4 32))
  | 7 => .ok (.sra (tokOf w) (fin w 19 8) (fin w 14 32) (fin w 9 32) (fin w 4 32))
  | 8 => .ok (.min (tokOf w) (fin w 19 8) (fin w 14 32) (fin w 9 32) (fin w 4 32))
  | 9 => .ok (.max (tokOf w) (fin w 19 8) (fin w 14 32) (fin w 9 32) (fin w 4 32))
  | 10 => .ok (.minN (tokOf w) (fin w 19 8) (fin w 14 32) (fin w 9 32) (fin w 4 32))
  | 11 => .ok (.maxN (tokOf w) (fin w 19 8) (fin w 14 32) (fin w 9 32) (fin w 4 32))
  | 12 => .ok (.addSat (tokOf w) (fin w 19 8) (fin w 14 32) (fin w 9 32) (fin w 4 32))
  | 13 => .ok (.subSat (tokOf w) (fin w 19 8) (fin w 14 32) (fin w 9 32) (fin w 4 32))
  | 14 => .ok (.andn (tokOf w) (fin w 19 8) (fin w 14 32) (fin w 9 32) (fin w 4 32))
  | 15 => .ok (.ror (tokOf w) (fin w 19 8) (fin w 14 32) (fin w 9 32) (fin w 4 32))
  | _ => .error .unassigned

/-- MAJOR 0x01, format I (R286). -/
def decode01 (w : Nat) : Except DecodeErr Instr :=
  match bits w 19 3 with
  | 0 => .ok (.addi (tokOf w) (fin w 14 32) (fin w 9 32) (fin w 0 512))
  | 1 => .ok (.andi (tokOf w) (fin w 14 32) (fin w 9 32) (fin w 0 512))
  | 2 => .ok (.ori (tokOf w) (fin w 14 32) (fin w 9 32) (fin w 0 512))
  | 3 => .ok (.xori (tokOf w) (fin w 14 32) (fin w 9 32) (fin w 0 512))
  | 4 => .ok (.slli (tokOf w) (fin w 14 32) (fin w 9 32) (fin w 0 512))
  | 5 => .ok (.srli (tokOf w) (fin w 14 32) (fin w 9 32) (fin w 0 512))
  | 6 => .ok (.srai (tokOf w) (fin w 14 32) (fin w 9 32) (fin w 0 512))
  | 7 => .ok (.rori (tokOf w) (fin w 14 32) (fin w 9 32) (fin w 0 512))
  | _ => .error .unassigned

/-- MAJOR 0x02, format R (R286). -/
def decode02 (w : Nat) : Except DecodeErr Instr :=
  match bits w 0 4 with
  | 0 => .ok (.mul (tokOf w) (fin w 19 8) (fin w 14 32) (fin w 9 32) (fin w 4 32))
  | 1 => .ok (.mulh (tokOf w) (fin w 19 8) (fin w 14 32) (fin w 9 32) (fin w 4 32))
  | 2 => .ok (.mulhN (tokOf w) (fin w 19 8) (fin w 14 32) (fin w 9 32) (fin w 4 32))
  | 3 => .ok (.div (tokOf w) (fin w 19 8) (fin w 14 32) (fin w 9 32) (fin w 4 32))
  | 4 => .ok (.divN (tokOf w) (fin w 19 8) (fin w 14 32) (fin w 9 32) (fin w 4 32))
  | 5 => .ok (.rem (tokOf w) (fin w 19 8) (fin w 14 32) (fin w 9 32) (fin w 4 32))
  | 6 => .ok (.remN (tokOf w) (fin w 19 8) (fin w 14 32) (fin w 9 32) (fin w 4 32))
  | 7 => unused w 4 5 (.clz (tokOf w) (fin w 19 8) (fin w 14 32) (fin w 9 32))
  | 8 => unused w 4 5 (.ctz (tokOf w) (fin w 19 8) (fin w 14 32) (fin w 9 32))
  | 9 => unused w 4 5 (.cpop (tokOf w) (fin w 19 8) (fin w 14 32) (fin w 9 32))
  | 10 => unused w 4 5 (.sextB (tokOf w) (fin w 19 8) (fin w 14 32) (fin w 9 32))
  | 11 => unused w 4 5 (.sextH (tokOf w) (fin w 19 8) (fin w 14 32) (fin w 9 32))
  | 12 => unused w 4 5 (.sextW (tokOf w) (fin w 19 8) (fin w 14 32) (fin w 9 32))
  | 13 => unused w 4 5 (.zextB (tokOf w) (fin w 19 8) (fin w 14 32) (fin w 9 32))
  | 14 => unused w 4 5 (.zextH (tokOf w) (fin w 19 8) (fin w 14 32) (fin w 9 32))
  | 15 => unused w 4 5 (.zextW (tokOf w) (fin w 19 8) (fin w 14 32) (fin w 9 32))
  | _ => .error .unassigned

/-- MAJOR 0x03, format K (R286). -/
def decode03 (w : Nat) : Except DecodeErr Instr :=
  .ok (.lim (tokOf w) (fin w 19 8) (fin w 14 32) (fin w 0 16384))

/-- MAJOR 0x04, format EXT (R286). -/
def decode04 (w : Nat) : Except DecodeErr Instr :=
  unused w 28 4 (.ext (fin w 0 4194304))

/-- MAJOR 0x05, format R (R286). -/
def decode05 (w : Nat) : Except DecodeErr Instr :=
  match bits w 0 4 with
  | 0 => .ok (.cmpEq (tokOf w) (fin w 19 8) (fin w 14 32) (fin w 9 32) (fin w 4 32))
  | 1 => .ok (.cmpNe (tokOf w) (fin w 19 8) (fin w 14 32) (fin w 9 32) (fin w 4 32))
  | 2 => .ok (.cmpLt (tokOf w) (fin w 19 8) (fin w 14 32) (fin w 9 32) (fin w 4 32))
  | 3 => .ok (.cmpGe (tokOf w) (fin w 19 8) (fin w 14 32) (fin w 9 32) (fin w 4 32))
  | 4 => .ok (.cmpLtN (tokOf w) (fin w 19 8) (fin w 14 32) (fin w 9 32) (fin w 4 32))
  | 5 => .ok (.cmpGeN (tokOf w) (fin w 19 8) (fin w 14 32) (fin w 9 32) (fin w 4 32))
  | 6 => .ok (.tbit (tokOf w) (fin w 19 8) (fin w 14 32) (fin w 9 32) (fin w 4 32))
  | _ => .error .unassigned

/-- MAJOR 0x06, format R (R286). -/
def decode06 (w : Nat) : Except DecodeErr Instr :=
  match bits w 0 4 with
  | 0 => .ok (.pand (tokOf w) (fin w 19 8) (fin w 14 32) (fin w 9 32) (fin w 4 32))
  | 1 => .ok (.por (tokOf w) (fin w 19 8) (fin w 14 32) (fin w 9 32) (fin w 4 32))
  | 2 => .ok (.pxor (tokOf w) (fin w 19 8) (fin w 14 32) (fin w 9 32) (fin w 4 32))
  | 3 => .ok (.pandn (tokOf w) (fin w 19 8) (fin w 14 32) (fin w 9 32) (fin w 4 32))
  | 4 => unused w 4 5 (.pnot (tokOf w) (fin w 19 8) (fin w 14 32) (fin w 9 32))
  | 5 => unused w 4 10 (.pset (tokOf w) (fin w 19 8) (fin w 14 32))
  | 6 => unused w 4 10 (.pclr (tokOf w) (fin w 19 8) (fin w 14 32))
  | _ => .error .unassigned

/-- MAJOR 0x07, format B (R286). -/
def decode07 (w : Nat) : Except DecodeErr Instr :=
  .ok (.br (tokOf w) (fin w 19 8) (fin w 0 524288))

/-- MAJOR 0x08, format B (R286). -/
def decode08 (w : Nat) : Except DecodeErr Instr :=
  .ok (.call (tokOf w) (fin w 19 8) (fin w 0 524288))

/-- MAJOR 0x09, format R (R286). -/
def decode09 (w : Nat) : Except DecodeErr Instr :=
  match bits w 0 4 with
  | 0 => if bits w 14 5 = 0 then unused w 4 5 (.jmp (tokOf w) (fin w 19 8) (fin w 9 32)) else .error .reserved
  | 1 => unused w 4 15 (.ret (tokOf w) (fin w 19 8))
  | 2 => if bits w 14 5 = 0 then unused w 4 5 (.callr (tokOf w) (fin w 19 8) (fin w 9 32)) else .error .reserved
  | _ => .error .unassigned

/-- MAJOR 0x0A, format K (R286). -/
def decode0A (w : Nat) : Except DecodeErr Instr :=
  match bits w 16 3 with
  | 0 => .ok (.loop (tokOf w) (fin w 19 8) (fin w 14 4) (fin w 0 16384))
  | 1 => .ok (.brl (tokOf w) (fin w 19 8) (fin w 14 4) (fin w 12 4) (fin w 0 4096))
  | 2 => unused w 0 16 (.rot (tokOf w) (fin w 19 8))
  | 3 => unused w 5 9 (.lcset (tokOf w) (fin w 19 8) (fin w 14 4) (fin w 0 32))
  | 4 => unused w 5 9 (.lcrd (tokOf w) (fin w 19 8) (fin w 14 4) (fin w 0 32))
  | _ => .error .unassigned

/-- MAJOR 0x0B, format K (R286). -/
def decode0B (w : Nat) : Except DecodeErr Instr :=
  match bits w 10 4 with
  | 0 => .ok (.mfs (tokOf w) (fin w 19 8) (fin w 14 32) (fin w 0 1024))
  | 1 => .ok (.mts (tokOf w) (fin w 19 8) (fin w 14 32) (fin w 0 1024))
  | 2 => unused w 14 5 (.trap (tokOf w) (fin w 19 8) (fin w 0 1024))
  | 3 => if bits w 14 5 = 0 then unused w 2 8 (.eret (tokOf w) (fin w 19 8) (fin w 0 4)) else .error .reserved
  | 4 => if bits w 14 5 = 0 then unused w 0 10 (.yield (tokOf w) (fin w 19 8)) else .error .reserved
  | 5 => if bits w 14 5 = 0 then unused w 0 10 (.tail (tokOf w) (fin w 19 8)) else .error .reserved
  | 6 => if bits w 14 5 = 0 then unused w 0 10 (.tsm (tokOf w) (fin w 19 8)) else .error .reserved
  | _ => .error .unassigned

/-- MAJOR 0x0C, format S (R286). -/
def decode0C (w : Nat) : Except DecodeErr Instr :=
  match bits w 0 3 with
  | 0 => unused w 3 15 (.fenceRel (tokOf w) (fin w 18 16))
  | 1 => unused w 3 15 (.fenceAcq (tokOf w) (fin w 18 16))
  | 2 => unused w 3 15 (.fenceAr (tokOf w) (fin w 18 16))
  | 3 => .ok (.barWait (tokOf w) (fin w 18 16) (fin w 13 32) (fin w 8 32) (fin w 3 32))
  | 4 => if bits w 16 6 = 0 then unused w 6 2 (.blaze (tokOf w) (fin w 13 8) (fin w 8 32) (fin w 3 8)) else .error .reserved
  | 5 => unused w 3 19 (.join (tokOf w))
  | 6 => unused w 18 4 (.tlwait (tokOf w) (fin w 13 32) (fin w 8 32) (fin w 3 32))
  | 7 => if bits w 18 4 = 0 then unused w 3 5 (.tlrd (tokOf w) (fin w 13 32) (fin w 8 32)) else .error .reserved
  | _ => .error .unassigned

/-- MAJOR 0x0D, format R (R286). -/
def decode0D (w : Nat) : Except DecodeErr Instr :=
  match bits w 0 4 with
  | 0 => .ok (.enq (tokOf w) (fin w 19 8) (fin w 14 32) (fin w 9 32) (fin w 4 32))
  | 1 => unused w 4 5 (.scopeLd (tokOf w) (fin w 19 8) (fin w 14 32) (fin w 9 32))
  | 2 => unused w 4 15 (.cinv (tokOf w) (fin w 19 8))
  | _ => .error .unassigned

/-- MAJOR 0x0E, format I (R286). -/
def decode0E (w : Nat) : Except DecodeErr Instr :=
  match bits w 19 3 with
  | 0 => unused w 7 2 (.vset (tokOf w) (fin w 14 32) (fin w 9 32) (fin w 0 128))
  | 1 => unused w 7 7 (.vsetMax (tokOf w) (fin w 14 32) (fin w 0 128))
  | _ => .error .unassigned

/-- MAJOR 0x10, format I (R286). -/
def decode10 (w : Nat) : Except DecodeErr Instr :=
  match bits w 19 3 with
  | 0 => .ok (.ldBG (tokOf w) (fin w 14 32) (fin w 9 32) (fin w 0 512))
  | 1 => .ok (.ldHG (tokOf w) (fin w 14 32) (fin w 9 32) (fin w 0 512))
  | 2 => .ok (.ldWG (tokOf w) (fin w 14 32) (fin w 9 32) (fin w 0 512))
  | 3 => .ok (.ldDG (tokOf w) (fin w 14 32) (fin w 9 32) (fin w 0 512))
  | 4 => .ok (.ldBNG (tokOf w) (fin w 14 32) (fin w 9 32) (fin w 0 512))
  | 5 => .ok (.ldHNG (tokOf w) (fin w 14 32) (fin w 9 32) (fin w 0 512))
  | 6 => .ok (.ldWNG (tokOf w) (fin w 14 32) (fin w 9 32) (fin w 0 512))
  | _ => .error .unassigned

/-- MAJOR 0x11, format I (R286). -/
def decode11 (w : Nat) : Except DecodeErr Instr :=
  match bits w 19 3 with
  | 0 => .ok (.ldBX (tokOf w) (fin w 14 32) (fin w 9 32) (fin w 0 512))
  | 1 => .ok (.ldHX (tokOf w) (fin w 14 32) (fin w 9 32) (fin w 0 512))
  | 2 => .ok (.ldWX (tokOf w) (fin w 14 32) (fin w 9 32) (fin w 0 512))
  | 3 => .ok (.ldDX (tokOf w) (fin w 14 32) (fin w 9 32) (fin w 0 512))
  | 4 => .ok (.ldBNX (tokOf w) (fin w 14 32) (fin w 9 32) (fin w 0 512))
  | 5 => .ok (.ldHNX (tokOf w) (fin w 14 32) (fin w 9 32) (fin w 0 512))
  | 6 => .ok (.ldWNX (tokOf w) (fin w 14 32) (fin w 9 32) (fin w 0 512))
  | _ => .error .unassigned

/-- MAJOR 0x12, format I (R286). -/
def decode12 (w : Nat) : Except DecodeErr Instr :=
  match bits w 19 3 with
  | 0 => .ok (.ldBL (tokOf w) (fin w 14 32) (fin w 9 32) (fin w 0 512))
  | 1 => .ok (.ldHL (tokOf w) (fin w 14 32) (fin w 9 32) (fin w 0 512))
  | 2 => .ok (.ldWL (tokOf w) (fin w 14 32) (fin w 9 32) (fin w 0 512))
  | 3 => .ok (.ldDL (tokOf w) (fin w 14 32) (fin w 9 32) (fin w 0 512))
  | 4 => .ok (.ldBNL (tokOf w) (fin w 14 32) (fin w 9 32) (fin w 0 512))
  | 5 => .ok (.ldHNL (tokOf w) (fin w 14 32) (fin w 9 32) (fin w 0 512))
  | 6 => .ok (.ldWNL (tokOf w) (fin w 14 32) (fin w 9 32) (fin w 0 512))
  | _ => .error .unassigned

/-- MAJOR 0x13, format R (R286). -/
def decode13 (w : Nat) : Except DecodeErr Instr :=
  match bits w 0 4 with
  | 0 => .ok (.ldBGRr (tokOf w) (fin w 19 8) (fin w 14 32) (fin w 9 32) (fin w 4 32))
  | 1 => .ok (.ldHGRr (tokOf w) (fin w 19 8) (fin w 14 32) (fin w 9 32) (fin w 4 32))
  | 2 => .ok (.ldWGRr (tokOf w) (fin w 19 8) (fin w 14 32) (fin w 9 32) (fin w 4 32))
  | 3 => .ok (.ldDGRr (tokOf w) (fin w 19 8) (fin w 14 32) (fin w 9 32) (fin w 4 32))
  | 4 => .ok (.ldBXRr (tokOf w) (fin w 19 8) (fin w 14 32) (fin w 9 32) (fin w 4 32))
  | 5 => .ok (.ldHXRr (tokOf w) (fin w 19 8) (fin w 14 32) (fin w 9 32) (fin w 4 32))
  | 6 => .ok (.ldWXRr (tokOf w) (fin w 19 8) (fin w 14 32) (fin w 9 32) (fin w 4 32))
  | 7 => .ok (.ldDXRr (tokOf w) (fin w 19 8) (fin w 14 32) (fin w 9 32) (fin w 4 32))
  | 8 => .ok (.ldBLRr (tokOf w) (fin w 19 8) (fin w 14 32) (fin w 9 32) (fin w 4 32))
  | 9 => .ok (.ldHLRr (tokOf w) (fin w 19 8) (fin w 14 32) (fin w 9 32) (fin w 4 32))
  | 10 => .ok (.ldWLRr (tokOf w) (fin w 19 8) (fin w 14 32) (fin w 9 32) (fin w 4 32))
  | 11 => .ok (.ldDLRr (tokOf w) (fin w 19 8) (fin w 14 32) (fin w 9 32) (fin w 4 32))
  | _ => .error .unassigned

/-- MAJOR 0x14, format R (R286). -/
def decode14 (w : Nat) : Except DecodeErr Instr :=
  match bits w 0 4 with
  | 0 => .ok (.vldG (tokOf w) (fin w 19 8) (fin w 14 32) (fin w 9 32) (fin w 4 32))
  | 1 => .ok (.vldsG (tokOf w) (fin w 19 8) (fin w 14 32) (fin w 9 32) (fin w 4 32))
  | 2 => .ok (.vldxG (tokOf w) (fin w 19 8) (fin w 14 32) (fin w 9 32) (fin w 4 32))
  | 3 => .ok (.vldFfG (tokOf w) (fin w 19 8) (fin w 14 32) (fin w 9 32) (fin w 4 32))
  | 4 => .ok (.vldX (tokOf w) (fin w 19 8) (fin w 14 32) (fin w 9 32) (fin w 4 32))
  | 5 => .ok (.vldsX (tokOf w) (fin w 19 8) (fin w 14 32) (fin w 9 32) (fin w 4 32))
  | 6 => .ok (.vldxX (tokOf w) (fin w 19 8) (fin w 14 32) (fin w 9 32) (fin w 4 32))
  | 7 => .ok (.vldFfX (tokOf w) (fin w 19 8) (fin w 14 32) (fin w 9 32) (fin w 4 32))
  | 8 => .ok (.vldL (tokOf w) (fin w 19 8) (fin w 14 32) (fin w 9 32) (fin w 4 32))
  | 9 => .ok (.vldsL (tokOf w) (fin w 19 8) (fin w 14 32) (fin w 9 32) (fin w 4 32))
  | 10 => .ok (.vldxL (tokOf w) (fin w 19 8) (fin w 14 32) (fin w 9 32) (fin w 4 32))
  | 11 => .ok (.vldFfL (tokOf w) (fin w 19 8) (fin w 14 32) (fin w 9 32) (fin w 4 32))
  | _ => .error .unassigned

/-- MAJOR 0x15, format I (R286). -/
def decode15 (w : Nat) : Except DecodeErr Instr :=
  match bits w 19 3 with
  | 0 => .ok (.ldcB (tokOf w) (fin w 14 32) (fin w 9 32) (fin w 0 512))
  | 1 => .ok (.ldcH (tokOf w) (fin w 14 32) (fin w 9 32) (fin w 0 512))
  | 2 => .ok (.ldcW (tokOf w) (fin w 14 32) (fin w 9 32) (fin w 0 512))
  | 3 => .ok (.ldcD (tokOf w) (fin w 14 32) (fin w 9 32) (fin w 0 512))
  | 4 => .ok (.ldcBN (tokOf w) (fin w 14 32) (fin w 9 32) (fin w 0 512))
  | 5 => .ok (.ldcHN (tokOf w) (fin w 14 32) (fin w 9 32) (fin w 0 512))
  | 6 => .ok (.ldcWN (tokOf w) (fin w 14 32) (fin w 9 32) (fin w 0 512))
  | _ => .error .unassigned

/-- MAJOR 0x16, format R (R286). -/
def decode16 (w : Nat) : Except DecodeErr Instr :=
  match bits w 1 3 with
  | 0 => .ok (.cpy (tokOf w) (fin w 19 8) (fin w 14 32) (fin w 9 32) (fin w 4 32) (fin w 0 2))
  | 1 => .ok (.cpyA (tokOf w) (fin w 19 8) (fin w 14 32) (fin w 9 32) (fin w 4 32) (fin w 0 2))
  | 2 => .ok (.cpyB (tokOf w) (fin w 19 8) (fin w 14 32) (fin w 9 32) (fin w 4 32) (fin w 0 2))
  | _ => .error .unassigned

/-- MAJOR 0x17, format S (R286). -/
def decode17 (w : Nat) : Except DecodeErr Instr :=
  match bits w 0 3 with
  | 0 => .ok (.flgetX (tokOf w) (fin w 18 16) (fin w 13 32) (fin w 8 32) (fin w 3 32))
  | 1 => unused w 3 5 (.flgetV (tokOf w) (fin w 18 16) (fin w 13 32) (fin w 8 32))
  | _ => .error .unassigned

/-- MAJOR 0x18, format R (R286). -/
def decode18 (w : Nat) : Except DecodeErr Instr :=
  match bits w 0 4 with
  | 0 => .ok (.ring (tokOf w) (fin w 19 8) (fin w 14 32) (fin w 9 32) (fin w 4 32))
  | _ => .error .unassigned

/-- MAJOR 0x19, format I (R286). -/
def decode19 (w : Nat) : Except DecodeErr Instr :=
  match bits w 19 3 with
  | 0 => unused w 14 5 (.pfL1 (tokOf w) (fin w 9 32) (fin w 0 512))
  | 1 => unused w 14 5 (.pfCrew (tokOf w) (fin w 9 32) (fin w 0 512))
  | 2 => unused w 14 5 (.lrenew (tokOf w) (fin w 9 32) (fin w 0 512))
  | _ => .error .unassigned

/-- MAJOR 0x20, format R (R286). -/
def decode20 (w : Nat) : Except DecodeErr Instr :=
  match bits w 0 4 with
  | 0 => .ok (.vadd (tokOf w) (fin w 19 8) (fin w 14 32) (fin w 9 32) (fin w 4 32))
  | 1 => .ok (.vsub (tokOf w) (fin w 19 8) (fin w 14 32) (fin w 9 32) (fin w 4 32))
  | 2 => .ok (.vmul (tokOf w) (fin w 19 8) (fin w 14 32) (fin w 9 32) (fin w 4 32))
  | 3 => .ok (.vmulh (tokOf w) (fin w 19 8) (fin w 14 32) (fin w 9 32) (fin w 4 32))
  | 4 => .ok (.vand (tokOf w) (fin w 19 8) (fin w 14 32) (fin w 9 32) (fin w 4 32))
  | 5 => .ok (.vor (tokOf w) (fin w 19 8) (fin w 14 32) (fin w 9 32) (fin w 4 32))
  | 6 => .ok (.vxor (tokOf w) (fin w 19 8) (fin w 14 32) (fin w 9 32) (fin w 4 32))
  | 7 => .ok (.vsll (tokOf w) (fin w 19 8) (fin w 14 32) (fin w 9 32) (fin w 4 32))
  | 8 => .ok (.vsrl (tokOf w) (fin w 19 8) (fin w 14 32) (fin w 9 32) (fin w 4 32))
  | 9 => .ok (.vsra (tokOf w) (fin w 19 8) (fin w 14 32) (fin w 9 32) (fin w 4 32))
  | 10 => .ok (.vmin (tokOf w) (fin w 19 8) (fin w 14 32) (fin w 9 32) (fin w 4 32))
  | 11 => .ok (.vmax (tokOf w) (fin w 19 8) (fin w 14 32) (fin w 9 32) (fin w 4 32))
  | 12 => .ok (.vminN (tokOf w) (fin w 19 8) (fin w 14 32) (fin w 9 32) (fin w 4 32))
  | 13 => .ok (.vmaxN (tokOf w) (fin w 19 8) (fin w 14 32) (fin w 9 32) (fin w 4 32))
  | 14 => .ok (.vaddSat (tokOf w) (fin w 19 8) (fin w 14 32) (fin w 9 32) (fin w 4 32))
  | 15 => .ok (.vsubSat (tokOf w) (fin w 19 8) (fin w 14 32) (fin w 9 32) (fin w 4 32))
  | _ => .error .unassigned

/-- MAJOR 0x21, format R (R286). -/
def decode21 (w : Nat) : Except DecodeErr Instr :=
  match bits w 0 4 with
  | 0 => .ok (.vaddS (tokOf w) (fin w 19 8) (fin w 14 32) (fin w 9 32) (fin w 4 32))
  | 1 => .ok (.vsubS (tokOf w) (fin w 19 8) (fin w 14 32) (fin w 9 32) (fin w 4 32))
  | 2 => .ok (.vrsubS (tokOf w) (fin w 19 8) (fin w 14 32) (fin w 9 32) (fin w 4 32))
  | 3 => .ok (.vmulS (tokOf w) (fin w 19 8) (fin w 14 32) (fin w 9 32) (fin w 4 32))
  | 4 => .ok (.vandS (tokOf w) (fin w 19 8) (fin w 14 32) (fin w 9 32) (fin w 4 32))
  | 5 => .ok (.vorS (tokOf w) (fin w 19 8) (fin w 14 32) (fin w 9 32) (fin w 4 32))
  | 6 => .ok (.vxorS (tokOf w) (fin w 19 8) (fin w 14 32) (fin w 9 32) (fin w 4 32))
  | 7 => .ok (.vsllS (tokOf w) (fin w 19 8) (fin w 14 32) (fin w 9 32) (fin w 4 32))
  | 8 => .ok (.vsrlS (tokOf w) (fin w 19 8) (fin w 14 32) (fin w 9 32) (fin w 4 32))
  | 9 => .ok (.vsraS (tokOf w) (fin w 19 8) (fin w 14 32) (fin w 9 32) (fin w 4 32))
  | 10 => .ok (.vminS (tokOf w) (fin w 19 8) (fin w 14 32) (fin w 9 32) (fin w 4 32))
  | 11 => .ok (.vmaxS (tokOf w) (fin w 19 8) (fin w 14 32) (fin w 9 32) (fin w 4 32))
  | 12 => .ok (.vminNS (tokOf w) (fin w 19 8) (fin w 14 32) (fin w 9 32) (fin w 4 32))
  | 13 => .ok (.vmaxNS (tokOf w) (fin w 19 8) (fin w 14 32) (fin w 9 32) (fin w 4 32))
  | 14 => .ok (.vaddSatS (tokOf w) (fin w 19 8) (fin w 14 32) (fin w 9 32) (fin w 4 32))
  | 15 => .ok (.vaddSatNS (tokOf w) (fin w 19 8) (fin w 14 32) (fin w 9 32) (fin w 4 32))
  | _ => .error .unassigned

/-- MAJOR 0x22, format R (R286). -/
def decode22 (w : Nat) : Except DecodeErr Instr :=
  match bits w 0 4 with
  | 0 => .ok (.vfadd (tokOf w) (fin w 19 8) (fin w 14 32) (fin w 9 32) (fin w 4 32))
  | 1 => .ok (.vfsub (tokOf w) (fin w 19 8) (fin w 14 32) (fin w 9 32) (fin w 4 32))
  | 2 => .ok (.vfmul (tokOf w) (fin w 19 8) (fin w 14 32) (fin w 9 32) (fin w 4 32))
  | 3 => .ok (.vfmin (tokOf w) (fin w 19 8) (fin w 14 32) (fin w 9 32) (fin w 4 32))
  | 4 => .ok (.vfmax (tokOf w) (fin w 19 8) (fin w 14 32) (fin w 9 32) (fin w 4 32))
  | 5 => unused w 4 5 (.vfabs (tokOf w) (fin w 19 8) (fin w 14 32) (fin w 9 32))
  | 6 => unused w 4 5 (.vfneg (tokOf w) (fin w 19 8) (fin w 14 32) (fin w 9 32))
  | 7 => .ok (.vfaddS (tokOf w) (fin w 19 8) (fin w 14 32) (fin w 9 32) (fin w 4 32))
  | 8 => .ok (.vfmulS (tokOf w) (fin w 19 8) (fin w 14 32) (fin w 9 32) (fin w 4 32))
  | 9 => .ok (.vfminS (tokOf w) (fin w 19 8) (fin w 14 32) (fin w 9 32) (fin w 4 32))
  | 10 => .ok (.vfmaxS (tokOf w) (fin w 19 8) (fin w 14 32) (fin w 9 32) (fin w 4 32))
  | _ => .error .unassigned

/-- MAJOR 0x23, format R (R286). -/
def decode23 (w : Nat) : Except DecodeErr Instr :=
  match bits w 0 4 with
  | 0 => .ok (.vfma (tokOf w) (fin w 19 8) (fin w 14 32) (fin w 9 32) (fin w 4 32))
  | 1 => .ok (.vfms (tokOf w) (fin w 19 8) (fin w 14 32) (fin w 9 32) (fin w 4 32))
  | 2 => .ok (.vfnms (tokOf w) (fin w 19 8) (fin w 14 32) (fin w 9 32) (fin w 4 32))
  | 3 => .ok (.vfnma (tokOf w) (fin w 19 8) (fin w 14 32) (fin w 9 32) (fin w 4 32))
  | 4 => .ok (.vfmaS (tokOf w) (fin w 19 8) (fin w 14 32) (fin w 9 32) (fin w 4 32))
  | 5 => .ok (.vmacc (tokOf w) (fin w 19 8) (fin w 14 32) (fin w 9 32) (fin w 4 32))
  | 6 => .ok (.vmaccS (tokOf w) (fin w 19 8) (fin w 14 32) (fin w 9 32) (fin w 4 32))
  | _ => .error .unassigned

/-- MAJOR 0x24, format R (R286). -/
def decode24 (w : Nat) : Except DecodeErr Instr :=
  match bits w 0 4 with
  | 0 => .ok (.vcmpEq (tokOf w) (fin w 19 8) (fin w 14 32) (fin w 9 32) (fin w 4 32))
  | 1 => .ok (.vcmpNe (tokOf w) (fin w 19 8) (fin w 14 32) (fin w 9 32) (fin w 4 32))
  | 2 => .ok (.vcmpLt (tokOf w) (fin w 19 8) (fin w 14 32) (fin w 9 32) (fin w 4 32))
  | 3 => .ok (.vcmpLe (tokOf w) (fin w 19 8) (fin w 14 32) (fin w 9 32) (fin w 4 32))
  | 4 => .ok (.vcmpLtN (tokOf w) (fin w 19 8) (fin w 14 32) (fin w 9 32) (fin w 4 32))
  | 5 => .ok (.vcmpLeN (tokOf w) (fin w 19 8) (fin w 14 32) (fin w 9 32) (fin w 4 32))
  | 6 => .ok (.vfcmpEq (tokOf w) (fin w 19 8) (fin w 14 32) (fin w 9 32) (fin w 4 32))
  | 7 => .ok (.vfcmpLt (tokOf w) (fin w 19 8) (fin w 14 32) (fin w 9 32) (fin w 4 32))
  | 8 => .ok (.vfcmpLe (tokOf w) (fin w 19 8) (fin w 14 32) (fin w 9 32) (fin w 4 32))
  | 9 => .ok (.vfcmpUn (tokOf w) (fin w 19 8) (fin w 14 32) (fin w 9 32) (fin w 4 32))
  | 10 => .ok (.vcmpEqS (tokOf w) (fin w 19 8) (fin w 14 32) (fin w 9 32) (fin w 4 32))
  | 11 => .ok (.vcmpLtS (tokOf w) (fin w 19 8) (fin w 14 32) (fin w 9 32) (fin w 4 32))
  | 12 => .ok (.vcmpGtS (tokOf w) (fin w 19 8) (fin w 14 32) (fin w 9 32) (fin w 4 32))
  | 13 => .ok (.vfcmpLtS (tokOf w) (fin w 19 8) (fin w 14 32) (fin w 9 32) (fin w 4 32))
  | 14 => .ok (.vfcmpGtS (tokOf w) (fin w 19 8) (fin w 14 32) (fin w 9 32) (fin w 4 32))
  | _ => .error .unassigned

/-- MAJOR 0x25, format R (R286). -/
def decode25 (w : Nat) : Except DecodeErr Instr :=
  match bits w 0 4 with
  | 0 => unused w 19 3 (.kand (tokOf w) (fin w 14 32) (fin w 9 32) (fin w 4 32))
  | 1 => unused w 19 3 (.kor (tokOf w) (fin w 14 32) (fin w 9 32) (fin w 4 32))
  | 2 => unused w 19 3 (.kxor (tokOf w) (fin w 14 32) (fin w 9 32) (fin w 4 32))
  | 3 => unused w 19 3 (.kandn (tokOf w) (fin w 14 32) (fin w 9 32) (fin w 4 32))
  | 4 => if bits w 19 3 = 0 then unused w 4 5 (.knot (tokOf w) (fin w 14 32) (fin w 9 32)) else .error .reserved
  | 5 => if bits w 19 3 = 0 then unused w 4 10 (.kset (tokOf w) (fin w 14 32)) else .error .reserved
  | 6 => if bits w 19 3 = 0 then unused w 4 10 (.kclr (tokOf w) (fin w 14 32)) else .error .reserved
  | _ => .error .unassigned

/-- MAJOR 0x26, format R (R286). -/
def decode26 (w : Nat) : Except DecodeErr Instr :=
  match bits w 0 4 with
  | 0 => unused w 4 2 (.vcvtF32 (tokOf w) (fin w 19 8) (fin w 14 32) (fin w 9 32) (fin w 8 2) (fin w 6 4))
  | 1 => unused w 4 2 (.vcvtBf16 (tokOf w) (fin w 19 8) (fin w 14 32) (fin w 9 32) (fin w 8 2) (fin w 6 4))
  | 2 => unused w 4 2 (.vcvtF16 (tokOf w) (fin w 19 8) (fin w 14 32) (fin w 9 32) (fin w 8 2) (fin w 6 4))
  | 3 => unused w 4 2 (.vcvtE4m3 (tokOf w) (fin w 19 8) (fin w 14 32) (fin w 9 32) (fin w 8 2) (fin w 6 4))
  | 4 => unused w 4 2 (.vcvtE5m2 (tokOf w) (fin w 19 8) (fin w 14 32) (fin w 9 32) (fin w 8 2) (fin w 6 4))
  | 5 => unused w 4 2 (.vcvtE2m1 (tokOf w) (fin w 19 8) (fin w 14 32) (fin w 9 32) (fin w 8 2) (fin w 6 4))
  | 6 => unused w 4 2 (.vcvtEfE4m3 (tokOf w) (fin w 19 8) (fin w 14 32) (fin w 9 32) (fin w 8 2) (fin w 6 4))
  | 7 => unused w 4 2 (.vcvtEfE2m1 (tokOf w) (fin w 19 8) (fin w 14 32) (fin w 9 32) (fin w 8 2) (fin w 6 4))
  | 8 => unused w 4 2 (.vcvtEfBf16 (tokOf w) (fin w 19 8) (fin w 14 32) (fin w 9 32) (fin w 8 2) (fin w 6 4))
  | 9 => unused w 4 2 (.vwidE4m3 (tokOf w) (fin w 19 8) (fin w 14 32) (fin w 9 32) (fin w 8 2) (fin w 6 4))
  | 10 => unused w 4 2 (.vwidE5m2 (tokOf w) (fin w 19 8) (fin w 14 32) (fin w 9 32) (fin w 8 2) (fin w 6 4))
  | 11 => unused w 4 2 (.vwidE2m1 (tokOf w) (fin w 19 8) (fin w 14 32) (fin w 9 32) (fin w 8 2) (fin w 6 4))
  | 12 => unused w 4 2 (.vcvtFI (tokOf w) (fin w 19 8) (fin w 14 32) (fin w 9 32) (fin w 8 2) (fin w 6 4))
  | 13 => unused w 4 2 (.vcvtFN (tokOf w) (fin w 19 8) (fin w 14 32) (fin w 9 32) (fin w 8 2) (fin w 6 4))
  | 14 => unused w 4 2 (.vcvtIF (tokOf w) (fin w 19 8) (fin w 14 32) (fin w 9 32) (fin w 8 2) (fin w 6 4))
  | 15 => unused w 4 2 (.vcvtNF (tokOf w) (fin w 19 8) (fin w 14 32) (fin w 9 32) (fin w 8 2) (fin w 6 4))
  | _ => .error .unassigned

/-- MAJOR 0x27, format R (R286). -/
def decode27 (w : Nat) : Except DecodeErr Instr :=
  match bits w 0 4 with
  | 0 => .ok (.vslideup (tokOf w) (fin w 19 8) (fin w 14 32) (fin w 9 32) (fin w 4 32))
  | 1 => .ok (.vslidedn (tokOf w) (fin w 19 8) (fin w 14 32) (fin w 9 32) (fin w 4 32))
  | 2 => .ok (.vgatherC (tokOf w) (fin w 19 8) (fin w 14 32) (fin w 9 32) (fin w 4 32))
  | 3 => .ok (.vbcastC (tokOf w) (fin w 19 8) (fin w 14 32) (fin w 9 32) (fin w 4 32))
  | 4 => .ok (.vgatherR (tokOf w) (fin w 19 8) (fin w 14 32) (fin w 9 32) (fin w 4 32))
  | 5 => .ok (.vrotR (tokOf w) (fin w 19 8) (fin w 14 32) (fin w 9 32) (fin w 4 32))
  | 6 => .ok (.vbcastR (tokOf w) (fin w 19 8) (fin w 14 32) (fin w 9 32) (fin w 4 32))
  | 7 => unused w 4 5 (.vtr16 (tokOf w) (fin w 19 8) (fin w 14 32) (fin w 9 32))
  | _ => .error .unassigned

/-- MAJOR 0x28, format R (R286). -/
def decode28 (w : Nat) : Except DecodeErr Instr :=
  match bits w 0 4 with
  | 0 => unused w 4 5 (.vredsumC (tokOf w) (fin w 19 8) (fin w 14 32) (fin w 9 32))
  | 1 => unused w 4 5 (.vredmaxC (tokOf w) (fin w 19 8) (fin w 14 32) (fin w 9 32))
  | 2 => unused w 4 5 (.vredminC (tokOf w) (fin w 19 8) (fin w 14 32) (fin w 9 32))
  | 3 => unused w 4 5 (.vredmaxNC (tokOf w) (fin w 19 8) (fin w 14 32) (fin w 9 32))
  | 4 => unused w 4 5 (.vfredsumC (tokOf w) (fin w 19 8) (fin w 14 32) (fin w 9 32))
  | 5 => unused w 4 5 (.vfredmaxC (tokOf w) (fin w 19 8) (fin w 14 32) (fin w 9 32))
  | 6 => unused w 4 5 (.vfredminC (tokOf w) (fin w 19 8) (fin w 14 32) (fin w 9 32))
  | 7 => unused w 4 5 (.vredsumR (tokOf w) (fin w 19 8) (fin w 14 32) (fin w 9 32))
  | 8 => unused w 4 5 (.vredmaxR (tokOf w) (fin w 19 8) (fin w 14 32) (fin w 9 32))
  | 9 => unused w 4 5 (.vredminR (tokOf w) (fin w 19 8) (fin w 14 32) (fin w 9 32))
  | 10 => unused w 4 5 (.vredmaxNR (tokOf w) (fin w 19 8) (fin w 14 32) (fin w 9 32))
  | 11 => unused w 4 5 (.vfredsumR (tokOf w) (fin w 19 8) (fin w 14 32) (fin w 9 32))
  | 12 => unused w 4 5 (.vfredmaxR (tokOf w) (fin w 19 8) (fin w 14 32) (fin w 9 32))
  | 13 => unused w 4 5 (.vfredminR (tokOf w) (fin w 19 8) (fin w 14 32) (fin w 9 32))
  | 14 => unused w 4 5 (.vredminNC (tokOf w) (fin w 19 8) (fin w 14 32) (fin w 9 32))
  | 15 => unused w 4 5 (.vredminNR (tokOf w) (fin w 19 8) (fin w 14 32) (fin w 9 32))
  | _ => .error .unassigned

/-- MAJOR 0x29, format R (R286). -/
def decode29 (w : Nat) : Except DecodeErr Instr :=
  match bits w 0 4 with
  | 0 => unused w 4 5 (.vexp2 (tokOf w) (fin w 19 8) (fin w 14 32) (fin w 9 32))
  | 1 => unused w 4 5 (.vlog2 (tokOf w) (fin w 19 8) (fin w 14 32) (fin w 9 32))
  | 2 => unused w 4 5 (.vrcp (tokOf w) (fin w 19 8) (fin w 14 32) (fin w 9 32))
  | 3 => unused w 4 5 (.vrsqrt (tokOf w) (fin w 19 8) (fin w 14 32) (fin w 9 32))
  | 4 => unused w 4 5 (.vtanh (tokOf w) (fin w 19 8) (fin w 14 32) (fin w 9 32))
  | _ => .error .unassigned

/-- MAJOR 0x2A, format R (R286). -/
def decode2A (w : Nat) : Except DecodeErr Instr :=
  match bits w 0 4 with
  | 0 => unused w 4 5 (.vmov (tokOf w) (fin w 19 8) (fin w 14 32) (fin w 9 32))
  | 1 => unused w 9 5 (.vmovS (tokOf w) (fin w 19 8) (fin w 14 32) (fin w 4 32))
  | 2 => .ok (.vsel (tokOf w) (fin w 19 8) (fin w 14 32) (fin w 9 32) (fin w 4 32))
  | 3 => unused w 4 5 (.vmovk (tokOf w) (fin w 19 8) (fin w 14 32) (fin w 9 32))
  | 4 => unused w 4 5 (.vmovv (tokOf w) (fin w 19 8) (fin w 14 32) (fin w 9 32))
  | 5 => unused w 4 10 (.vid (tokOf w) (fin w 19 8) (fin w 14 32))
  | 6 => unused w 4 10 (.vrid (tokOf w) (fin w 19 8) (fin w 14 32))
  | 7 => unused w 4 5 (.vmovi (tokOf w) (fin w 19 8) (fin w 14 32) (fin w 9 32))
  | _ => .error .unassigned

/-- MAJOR 0x2B, format R (R286). -/
def decode2B (w : Nat) : Except DecodeErr Instr :=
  match bits w 0 4 with
  | 0 => unused w 4 5 (.mcfg (tokOf w) (fin w 19 8) (fin w 14 32) (fin w 9 32))
  | 1 => unused w 4 15 (.mcfgz (tokOf w) (fin w 19 8))
  | _ => .error .unassigned

/-- MAJOR 0x2C, format R (R286). -/
def decode2C (w : Nat) : Except DecodeErr Instr :=
  match bits w 0 4 with
  | 0 => unused w 4 10 (.mgo (tokOf w) (fin w 19 8) (fin w 14 32))
  | 1 => unused w 4 10 (.mstat (tokOf w) (fin w 19 8) (fin w 14 32))
  | 2 => .ok (.accrd (tokOf w) (fin w 19 8) (fin w 14 32) (fin w 9 32) (fin w 4 32))
  | 3 => unused w 4 10 (.acczero (tokOf w) (fin w 19 8) (fin w 14 32))
  | 4 => .ok (.accwr (tokOf w) (fin w 19 8) (fin w 14 32) (fin w 9 32) (fin w 4 32))
  | _ => .error .unassigned

/-- MAJOR 0x2D, format R (R286). -/
def decode2D (w : Nat) : Except DecodeErr Instr :=
  match bits w 0 4 with
  | 0 => unused w 4 5 (.wcfg (tokOf w) (fin w 19 8) (fin w 14 32) (fin w 9 32))
  | 1 => if bits w 14 5 = 0 then unused w 4 5 (.wgo (tokOf w) (fin w 19 8) (fin w 9 32)) else .error .reserved
  | _ => .error .unassigned

/-- MAJOR 0x2E, format R (R286). -/
def decode2E (w : Nat) : Except DecodeErr Instr :=
  match bits w 0 4 with
  | 0 => unused w 4 5 (.ftld (tokOf w) (fin w 19 8) (fin w 14 32) (fin w 9 32))
  | 1 => unused w 4 10 (.ftclr (tokOf w) (fin w 19 8) (fin w 14 32))
  | 2 => unused w 4 5 (.ftrd (tokOf w) (fin w 19 8) (fin w 14 32) (fin w 9 32))
  | 3 => unused w 4 10 (.ftmon (tokOf w) (fin w 19 8) (fin w 14 32))
  | _ => .error .unassigned

/-- MAJOR 0x30, format I (R286). -/
def decode30 (w : Nat) : Except DecodeErr Instr :=
  match bits w 19 3 with
  | 0 => .ok (.stBG (tokOf w) (fin w 14 32) (fin w 9 32) (fin w 0 512))
  | 1 => .ok (.stHG (tokOf w) (fin w 14 32) (fin w 9 32) (fin w 0 512))
  | 2 => .ok (.stWG (tokOf w) (fin w 14 32) (fin w 9 32) (fin w 0 512))
  | 3 => .ok (.stDG (tokOf w) (fin w 14 32) (fin w 9 32) (fin w 0 512))
  | _ => .error .unassigned

/-- MAJOR 0x31, format I (R286). -/
def decode31 (w : Nat) : Except DecodeErr Instr :=
  match bits w 19 3 with
  | 0 => .ok (.stBX (tokOf w) (fin w 14 32) (fin w 9 32) (fin w 0 512))
  | 1 => .ok (.stHX (tokOf w) (fin w 14 32) (fin w 9 32) (fin w 0 512))
  | 2 => .ok (.stWX (tokOf w) (fin w 14 32) (fin w 9 32) (fin w 0 512))
  | 3 => .ok (.stDX (tokOf w) (fin w 14 32) (fin w 9 32) (fin w 0 512))
  | _ => .error .unassigned

/-- MAJOR 0x32, format I (R286). -/
def decode32 (w : Nat) : Except DecodeErr Instr :=
  match bits w 19 3 with
  | 0 => .ok (.stBL (tokOf w) (fin w 14 32) (fin w 9 32) (fin w 0 512))
  | 1 => .ok (.stHL (tokOf w) (fin w 14 32) (fin w 9 32) (fin w 0 512))
  | 2 => .ok (.stWL (tokOf w) (fin w 14 32) (fin w 9 32) (fin w 0 512))
  | 3 => .ok (.stDL (tokOf w) (fin w 14 32) (fin w 9 32) (fin w 0 512))
  | _ => .error .unassigned

/-- MAJOR 0x33, format R (R286). -/
def decode33 (w : Nat) : Except DecodeErr Instr :=
  match bits w 0 4 with
  | 0 => .ok (.stBGRr (tokOf w) (fin w 19 8) (fin w 14 32) (fin w 9 32) (fin w 4 32))
  | 1 => .ok (.stHGRr (tokOf w) (fin w 19 8) (fin w 14 32) (fin w 9 32) (fin w 4 32))
  | 2 => .ok (.stWGRr (tokOf w) (fin w 19 8) (fin w 14 32) (fin w 9 32) (fin w 4 32))
  | 3 => .ok (.stDGRr (tokOf w) (fin w 19 8) (fin w 14 32) (fin w 9 32) (fin w 4 32))
  | 4 => .ok (.stBXRr (tokOf w) (fin w 19 8) (fin w 14 32) (fin w 9 32) (fin w 4 32))
  | 5 => .ok (.stHXRr (tokOf w) (fin w 19 8) (fin w 14 32) (fin w 9 32) (fin w 4 32))
  | 6 => .ok (.stWXRr (tokOf w) (fin w 19 8) (fin w 14 32) (fin w 9 32) (fin w 4 32))
  | 7 => .ok (.stDXRr (tokOf w) (fin w 19 8) (fin w 14 32) (fin w 9 32) (fin w 4 32))
  | 8 => .ok (.stBLRr (tokOf w) (fin w 19 8) (fin w 14 32) (fin w 9 32) (fin w 4 32))
  | 9 => .ok (.stHLRr (tokOf w) (fin w 19 8) (fin w 14 32) (fin w 9 32) (fin w 4 32))
  | 10 => .ok (.stWLRr (tokOf w) (fin w 19 8) (fin w 14 32) (fin w 9 32) (fin w 4 32))
  | 11 => .ok (.stDLRr (tokOf w) (fin w 19 8) (fin w 14 32) (fin w 9 32) (fin w 4 32))
  | _ => .error .unassigned

/-- MAJOR 0x34, format R (R286). -/
def decode34 (w : Nat) : Except DecodeErr Instr :=
  match bits w 0 4 with
  | 0 => .ok (.vstG (tokOf w) (fin w 19 8) (fin w 14 32) (fin w 9 32) (fin w 4 32))
  | 1 => .ok (.vstsG (tokOf w) (fin w 19 8) (fin w 14 32) (fin w 9 32) (fin w 4 32))
  | 2 => .ok (.vstxG (tokOf w) (fin w 19 8) (fin w 14 32) (fin w 9 32) (fin w 4 32))
  | 3 => .ok (.vstNtG (tokOf w) (fin w 19 8) (fin w 14 32) (fin w 9 32) (fin w 4 32))
  | 4 => .ok (.vstX (tokOf w) (fin w 19 8) (fin w 14 32) (fin w 9 32) (fin w 4 32))
  | 5 => .ok (.vstsX (tokOf w) (fin w 19 8) (fin w 14 32) (fin w 9 32) (fin w 4 32))
  | 6 => .ok (.vstxX (tokOf w) (fin w 19 8) (fin w 14 32) (fin w 9 32) (fin w 4 32))
  | 8 => .ok (.vstL (tokOf w) (fin w 19 8) (fin w 14 32) (fin w 9 32) (fin w 4 32))
  | 9 => .ok (.vstsL (tokOf w) (fin w 19 8) (fin w 14 32) (fin w 9 32) (fin w 4 32))
  | 10 => .ok (.vstxL (tokOf w) (fin w 19 8) (fin w 14 32) (fin w 9 32) (fin w 4 32))
  | _ => .error .unassigned

/-- MAJOR 0x35, format S (R286). -/
def decode35 (w : Nat) : Except DecodeErr Instr :=
  match bits w 0 3 with
  | 0 => unused w 3 5 (.amoLdW (tokOf w) (fin w 18 16) (fin w 13 32) (fin w 8 32))
  | 1 => unused w 13 5 (.amoStW (tokOf w) (fin w 18 16) (fin w 8 32) (fin w 3 32))
  | 2 => .ok (.amoSwapW (tokOf w) (fin w 18 16) (fin w 13 32) (fin w 8 32) (fin w 3 32))
  | 3 => .ok (.amoCasW (tokOf w) (fin w 18 16) (fin w 13 32) (fin w 8 32) (fin w 3 32))
  | 4 => .ok (.amoAddW (tokOf w) (fin w 18 16) (fin w 13 32) (fin w 8 32) (fin w 3 32))
  | 5 => .ok (.amoOrW (tokOf w) (fin w 18 16) (fin w 13 32) (fin w 8 32) (fin w 3 32))
  | 6 => .ok (.amoMinW (tokOf w) (fin w 18 16) (fin w 13 32) (fin w 8 32) (fin w 3 32))
  | 7 => .ok (.amoMaxW (tokOf w) (fin w 18 16) (fin w 13 32) (fin w 8 32) (fin w 3 32))
  | _ => .error .unassigned

/-- MAJOR 0x36, format S (R286). -/
def decode36 (w : Nat) : Except DecodeErr Instr :=
  match bits w 0 3 with
  | 0 => unused w 3 5 (.amoLdD (tokOf w) (fin w 18 16) (fin w 13 32) (fin w 8 32))
  | 1 => unused w 13 5 (.amoStD (tokOf w) (fin w 18 16) (fin w 8 32) (fin w 3 32))
  | 2 => .ok (.amoSwapD (tokOf w) (fin w 18 16) (fin w 13 32) (fin w 8 32) (fin w 3 32))
  | 3 => .ok (.amoCasD (tokOf w) (fin w 18 16) (fin w 13 32) (fin w 8 32) (fin w 3 32))
  | 4 => .ok (.amoAddD (tokOf w) (fin w 18 16) (fin w 13 32) (fin w 8 32) (fin w 3 32))
  | 5 => .ok (.amoOrD (tokOf w) (fin w 18 16) (fin w 13 32) (fin w 8 32) (fin w 3 32))
  | 6 => .ok (.amoMinD (tokOf w) (fin w 18 16) (fin w 13 32) (fin w 8 32) (fin w 3 32))
  | 7 => .ok (.amoMaxD (tokOf w) (fin w 18 16) (fin w 13 32) (fin w 8 32) (fin w 3 32))
  | _ => .error .unassigned

/-- MAJOR 0x37, format S (R286). -/
def decode37 (w : Nat) : Except DecodeErr Instr :=
  match bits w 0 3 with
  | 0 => unused w 13 5 (.redAddW (tokOf w) (fin w 18 16) (fin w 8 32) (fin w 3 32))
  | 1 => unused w 13 5 (.redAddD (tokOf w) (fin w 18 16) (fin w 8 32) (fin w 3 32))
  | 2 => unused w 13 5 (.redAddF32 (tokOf w) (fin w 18 16) (fin w 8 32) (fin w 3 32))
  | 3 => unused w 13 5 (.redMinW (tokOf w) (fin w 18 16) (fin w 8 32) (fin w 3 32))
  | 4 => unused w 13 5 (.redMaxW (tokOf w) (fin w 18 16) (fin w 8 32) (fin w 3 32))
  | 5 => unused w 13 5 (.redOrD (tokOf w) (fin w 18 16) (fin w 8 32) (fin w 3 32))
  | 6 => .ok (.lupd (tokOf w) (fin w 18 16) (fin w 13 32) (fin w 8 32) (fin w 3 32))
  | _ => .error .unassigned

/-- MAJOR 0x38, format S (R286). -/
def decode38 (w : Nat) : Except DecodeErr Instr :=
  match bits w 0 3 with
  | 0 => unused w 13 5 (.flput (tokOf w) (fin w 18 16) (fin w 8 32) (fin w 3 32))
  | 1 => .ok (.push (tokOf w) (fin w 18 16) (fin w 13 32) (fin w 8 32) (fin w 3 32))
  | _ => .error .unassigned

/-- MAJOR 0x39, format S (R286). -/
def decode39 (w : Nat) : Except DecodeErr Instr :=
  match bits w 0 3 with
  | 0 => unused w 3 5 (.barArrive (tokOf w) (fin w 18 16) (fin w 13 32) (fin w 8 32))
  | _ => .error .unassigned

/-- MAJOR 0x3A, format R (R286). -/
def decode3A (w : Nat) : Except DecodeErr Instr :=
  match bits w 0 4 with
  | 0 => if bits w 14 5 = 0 then unused w 4 5 (.cwb (tokOf w) (fin w 19 8) (fin w 9 32)) else .error .reserved
  | 1 => if bits w 14 5 = 0 then unused w 4 5 (.cev (tokOf w) (fin w 19 8) (fin w 9 32)) else .error .reserved
  | 2 => unused w 4 15 (.l1inv (tokOf w) (fin w 19 8))
  | _ => .error .unassigned

/-- The instruction that a 32-bit word holds (R277, R286, R287). -/
def decodeWord (w : Nat) : Except DecodeErr Instr :=
  match bits w 22 6 with
  | 0 => decode00 w
  | 1 => decode01 w
  | 2 => decode02 w
  | 3 => decode03 w
  | 4 => decode04 w
  | 5 => decode05 w
  | 6 => decode06 w
  | 7 => decode07 w
  | 8 => decode08 w
  | 9 => decode09 w
  | 10 => decode0A w
  | 11 => decode0B w
  | 12 => decode0C w
  | 13 => decode0D w
  | 14 => decode0E w
  | 16 => decode10 w
  | 17 => decode11 w
  | 18 => decode12 w
  | 19 => decode13 w
  | 20 => decode14 w
  | 21 => decode15 w
  | 22 => decode16 w
  | 23 => decode17 w
  | 24 => decode18 w
  | 25 => decode19 w
  | 32 => decode20 w
  | 33 => decode21 w
  | 34 => decode22 w
  | 35 => decode23 w
  | 36 => decode24 w
  | 37 => decode25 w
  | 38 => decode26 w
  | 39 => decode27 w
  | 40 => decode28 w
  | 41 => decode29 w
  | 42 => decode2A w
  | 43 => decode2B w
  | 44 => decode2C w
  | 45 => decode2D w
  | 46 => decode2E w
  | 48 => decode30 w
  | 49 => decode31 w
  | 50 => decode32 w
  | 51 => decode33 w
  | 52 => decode34 w
  | 53 => decode35 w
  | 54 => decode36 w
  | 55 => decode37 w
  | 56 => decode38 w
  | 57 => decode39 w
  | 58 => decode3A w
  | _ => .error .unassigned

/-- Four bytes, least significant first (R3), as a word. -/
def wordOfBytes (b0 b1 b2 b3 : Byte) : Nat := b0.toNat + 256 * b1.toNat + 65536 * b2.toNat + 16777216 * b3.toNat

/-- The four bytes of a word, least significant first (R3). -/
def bytesOfWord (w : Nat) : List Byte := [BitVec.ofNat 8 w, BitVec.ofNat 8 (w / 256), BitVec.ofNat 8 (w / 65536), BitVec.ofNat 8 (w / 16777216)]

/-- The instruction at the head of a list of bytes, with the bytes after it. -/
def decodeBytes : List Byte → Except DecodeErr (Instr × List Byte)
  | b0 :: b1 :: b2 :: b3 :: rest => (decodeWord (wordOfBytes b0 b1 b2 b3)).map (·, rest)
  | _ => .error .short

/-- The instruction that the decoder reads from the bits of an opcode-table row. -/
def decodeTableWord (nbits w : Nat) : Option Instr :=
  if nbits = 0 ∨ 32 < nbits then none
  else match decodeBytes (bytesOfWord (w % 2 ^ 32)) with
    | .ok (i, _) => some i
    | .error _ => none

/-- The token bits in their places (R277). -/
def encTok (t : Tok) : Nat := t.wb.toNat * 2147483648 + t.wa.toNat * 1073741824 + t.sb.toNat * 536870912 + t.sa.toNat * 268435456
/-- Format R (R280). -/
def encR (t : Tok) (major g d a b fn : Nat) : Nat := encTok t + major * 4194304 + g * 524288 + d * 16384 + a * 512 + b * 16 + fn
/-- Formats I and M (R280). -/
def encI (t : Tok) (major f3 d a i : Nat) : Nat := encTok t + major * 4194304 + f3 * 524288 + d * 16384 + a * 512 + i
/-- Format K (R280). -/
def encK (t : Tok) (major g d i : Nat) : Nat := encTok t + major * 4194304 + g * 524288 + d * 16384 + i
/-- Format B (R280). -/
def encB (t : Tok) (major g o : Nat) : Nat := encTok t + major * 4194304 + g * 524288 + o
/-- Format S (R280). -/
def encS (t : Tok) (major c d a b fn : Nat) : Nat := encTok t + major * 4194304 + c * 262144 + d * 8192 + a * 256 + b * 8 + fn

/-- The word of an instruction, from the encoding tables; a step of the device that is no instruction word has none. -/
def encode : Instr → Option Nat
  | .add t g d a b => some (encR t 0 g.val d.val a.val b.val 0)
  | .sub t g d a b => some (encR t 0 g.val d.val a.val b.val 1)
  | .and t g d a b => some (encR t 0 g.val d.val a.val b.val 2)
  | .or t g d a b => some (encR t 0 g.val d.val a.val b.val 3)
  | .xor t g d a b => some (encR t 0 g.val d.val a.val b.val 4)
  | .sll t g d a b => some (encR t 0 g.val d.val a.val b.val 5)
  | .srl t g d a b => some (encR t 0 g.val d.val a.val b.val 6)
  | .sra t g d a b => some (encR t 0 g.val d.val a.val b.val 7)
  | .min t g d a b => some (encR t 0 g.val d.val a.val b.val 8)
  | .max t g d a b => some (encR t 0 g.val d.val a.val b.val 9)
  | .minN t g d a b => some (encR t 0 g.val d.val a.val b.val 10)
  | .maxN t g d a b => some (encR t 0 g.val d.val a.val b.val 11)
  | .addSat t g d a b => some (encR t 0 g.val d.val a.val b.val 12)
  | .subSat t g d a b => some (encR t 0 g.val d.val a.val b.val 13)
  | .andn t g d a b => some (encR t 0 g.val d.val a.val b.val 14)
  | .ror t g d a b => some (encR t 0 g.val d.val a.val b.val 15)
  | .addi t d a i => some (encI t 1 0 d.val a.val i.val)
  | .andi t d a i => some (encI t 1 1 d.val a.val i.val)
  | .ori t d a i => some (encI t 1 2 d.val a.val i.val)
  | .xori t d a i => some (encI t 1 3 d.val a.val i.val)
  | .slli t d a i => some (encI t 1 4 d.val a.val i.val)
  | .srli t d a i => some (encI t 1 5 d.val a.val i.val)
  | .srai t d a i => some (encI t 1 6 d.val a.val i.val)
  | .rori t d a i => some (encI t 1 7 d.val a.val i.val)
  | .mul t g d a b => some (encR t 2 g.val d.val a.val b.val 0)
  | .mulh t g d a b => some (encR t 2 g.val d.val a.val b.val 1)
  | .mulhN t g d a b => some (encR t 2 g.val d.val a.val b.val 2)
  | .div t g d a b => some (encR t 2 g.val d.val a.val b.val 3)
  | .divN t g d a b => some (encR t 2 g.val d.val a.val b.val 4)
  | .rem t g d a b => some (encR t 2 g.val d.val a.val b.val 5)
  | .remN t g d a b => some (encR t 2 g.val d.val a.val b.val 6)
  | .clz t g d a => some (encR t 2 g.val d.val a.val 0 7)
  | .ctz t g d a => some (encR t 2 g.val d.val a.val 0 8)
  | .cpop t g d a => some (encR t 2 g.val d.val a.val 0 9)
  | .sextB t g d a => some (encR t 2 g.val d.val a.val 0 10)
  | .sextH t g d a => some (encR t 2 g.val d.val a.val 0 11)
  | .sextW t g d a => some (encR t 2 g.val d.val a.val 0 12)
  | .zextB t g d a => some (encR t 2 g.val d.val a.val 0 13)
  | .zextH t g d a => some (encR t 2 g.val d.val a.val 0 14)
  | .zextW t g d a => some (encR t 2 g.val d.val a.val 0 15)
  | .lim t g d i => some (encK t 3 g.val d.val i.val)
  | .ext p => some (4 * 4194304 + p.val)
  | .cmpEq t g d a b => some (encR t 5 g.val d.val a.val b.val 0)
  | .cmpNe t g d a b => some (encR t 5 g.val d.val a.val b.val 1)
  | .cmpLt t g d a b => some (encR t 5 g.val d.val a.val b.val 2)
  | .cmpGe t g d a b => some (encR t 5 g.val d.val a.val b.val 3)
  | .cmpLtN t g d a b => some (encR t 5 g.val d.val a.val b.val 4)
  | .cmpGeN t g d a b => some (encR t 5 g.val d.val a.val b.val 5)
  | .tbit t g d a b => some (encR t 5 g.val d.val a.val b.val 6)
  | .pand t g d a b => some (encR t 6 g.val d.val a.val b.val 0)
  | .por t g d a b => some (encR t 6 g.val d.val a.val b.val 1)
  | .pxor t g d a b => some (encR t 6 g.val d.val a.val b.val 2)
  | .pandn t g d a b => some (encR t 6 g.val d.val a.val b.val 3)
  | .pnot t g d a => some (encR t 6 g.val d.val a.val 0 4)
  | .pset t g d => some (encR t 6 g.val d.val 0 0 5)
  | .pclr t g d => some (encR t 6 g.val d.val 0 0 6)
  | .br t g o => some (encB t 7 g.val o.val)
  | .call t g o => some (encB t 8 g.val o.val)
  | .jmp t g a => some (encR t 9 g.val 0 a.val 0 0)
  | .ret t g => some (encR t 9 g.val 0 0 0 1)
  | .callr t g a => some (encR t 9 g.val 0 a.val 0 2)
  | .loop t g n i => some (encK t 10 g.val n.val i.val)
  | .brl t g n s o => some (encK t 10 g.val (n.val + 4) (s.val * 4096 + o.val))
  | .rot t g => some (encK t 10 g.val 8 0)
  | .lcset t g n a => some (encK t 10 g.val (n.val + 12) a.val)
  | .lcrd t g n d => some (encK t 10 g.val (n.val + 16) d.val)
  | .mfs t g d r => some (encK t 11 g.val d.val r.val)
  | .mts t g a r => some (encK t 11 g.val a.val (r.val + 1024))
  | .trap t g i => some (encK t 11 g.val 0 (i.val + 2048))
  | .eret t g m => some (encK t 11 g.val 0 (m.val + 3072))
  | .yield t g => some (encK t 11 g.val 0 4096)
  | .tail t g => some (encK t 11 g.val 0 5120)
  | .tsm t g => some (encK t 11 g.val 0 6144)
  | .fenceRel t c => some (encS t 12 c.val 0 0 0 0)
  | .fenceAcq t c => some (encS t 12 c.val 0 0 0 1)
  | .fenceAr t c => some (encS t 12 c.val 0 0 0 2)
  | .barWait t c d a b => some (encS t 12 c.val d.val a.val b.val 3)
  | .blaze t q a b => some (encS t 12 0 q.val a.val b.val 4)
  | .join t => some (encS t 12 0 0 0 0 5)
  | .tlwait t k a b => some (encS t 12 0 k.val a.val b.val 6)
  | .tlrd t d k => some (encS t 12 0 d.val k.val 0 7)
  | .enq t g d a b => some (encR t 13 g.val d.val a.val b.val 0)
  | .scopeLd t g d a => some (encR t 13 g.val d.val a.val 0 1)
  | .cinv t g => some (encR t 13 g.val 0 0 0 2)
  | .vset t d a i => some (encI t 14 0 d.val a.val i.val)
  | .vsetMax t d i => some (encI t 14 1 d.val 0 i.val)
  | .ldBG t d a o => some (encI t 16 0 d.val a.val o.val)
  | .ldHG t d a o => some (encI t 16 1 d.val a.val o.val)
  | .ldWG t d a o => some (encI t 16 2 d.val a.val o.val)
  | .ldDG t d a o => some (encI t 16 3 d.val a.val o.val)
  | .ldBNG t d a o => some (encI t 16 4 d.val a.val o.val)
  | .ldHNG t d a o => some (encI t 16 5 d.val a.val o.val)
  | .ldWNG t d a o => some (encI t 16 6 d.val a.val o.val)
  | .ldBX t d a o => some (encI t 17 0 d.val a.val o.val)
  | .ldHX t d a o => some (encI t 17 1 d.val a.val o.val)
  | .ldWX t d a o => some (encI t 17 2 d.val a.val o.val)
  | .ldDX t d a o => some (encI t 17 3 d.val a.val o.val)
  | .ldBNX t d a o => some (encI t 17 4 d.val a.val o.val)
  | .ldHNX t d a o => some (encI t 17 5 d.val a.val o.val)
  | .ldWNX t d a o => some (encI t 17 6 d.val a.val o.val)
  | .ldBL t d a o => some (encI t 18 0 d.val a.val o.val)
  | .ldHL t d a o => some (encI t 18 1 d.val a.val o.val)
  | .ldWL t d a o => some (encI t 18 2 d.val a.val o.val)
  | .ldDL t d a o => some (encI t 18 3 d.val a.val o.val)
  | .ldBNL t d a o => some (encI t 18 4 d.val a.val o.val)
  | .ldHNL t d a o => some (encI t 18 5 d.val a.val o.val)
  | .ldWNL t d a o => some (encI t 18 6 d.val a.val o.val)
  | .ldBGRr t g d a b => some (encR t 19 g.val d.val a.val b.val 0)
  | .ldHGRr t g d a b => some (encR t 19 g.val d.val a.val b.val 1)
  | .ldWGRr t g d a b => some (encR t 19 g.val d.val a.val b.val 2)
  | .ldDGRr t g d a b => some (encR t 19 g.val d.val a.val b.val 3)
  | .ldBXRr t g d a b => some (encR t 19 g.val d.val a.val b.val 4)
  | .ldHXRr t g d a b => some (encR t 19 g.val d.val a.val b.val 5)
  | .ldWXRr t g d a b => some (encR t 19 g.val d.val a.val b.val 6)
  | .ldDXRr t g d a b => some (encR t 19 g.val d.val a.val b.val 7)
  | .ldBLRr t g d a b => some (encR t 19 g.val d.val a.val b.val 8)
  | .ldHLRr t g d a b => some (encR t 19 g.val d.val a.val b.val 9)
  | .ldWLRr t g d a b => some (encR t 19 g.val d.val a.val b.val 10)
  | .ldDLRr t g d a b => some (encR t 19 g.val d.val a.val b.val 11)
  | .vldG t g d a b => some (encR t 20 g.val d.val a.val b.val 0)
  | .vldsG t g d a b => some (encR t 20 g.val d.val a.val b.val 1)
  | .vldxG t g d a b => some (encR t 20 g.val d.val a.val b.val 2)
  | .vldFfG t g d a b => some (encR t 20 g.val d.val a.val b.val 3)
  | .vldX t g d a b => some (encR t 20 g.val d.val a.val b.val 4)
  | .vldsX t g d a b => some (encR t 20 g.val d.val a.val b.val 5)
  | .vldxX t g d a b => some (encR t 20 g.val d.val a.val b.val 6)
  | .vldFfX t g d a b => some (encR t 20 g.val d.val a.val b.val 7)
  | .vldL t g d a b => some (encR t 20 g.val d.val a.val b.val 8)
  | .vldsL t g d a b => some (encR t 20 g.val d.val a.val b.val 9)
  | .vldxL t g d a b => some (encR t 20 g.val d.val a.val b.val 10)
  | .vldFfL t g d a b => some (encR t 20 g.val d.val a.val b.val 11)
  | .ldcB t d a o => some (encI t 21 0 d.val a.val o.val)
  | .ldcH t d a o => some (encI t 21 1 d.val a.val o.val)
  | .ldcW t d a o => some (encI t 21 2 d.val a.val o.val)
  | .ldcD t d a o => some (encI t 21 3 d.val a.val o.val)
  | .ldcBN t d a o => some (encI t 21 4 d.val a.val o.val)
  | .ldcHN t d a o => some (encI t 21 5 d.val a.val o.val)
  | .ldcWN t d a o => some (encI t 21 6 d.val a.val o.val)
  | .cpy t g d a b c => some (encR t 22 g.val d.val a.val b.val c.val)
  | .cpyA t g d a b c => some (encR t 22 g.val d.val a.val b.val (c.val + 2))
  | .cpyB t g d a b c => some (encR t 22 g.val d.val a.val b.val (c.val + 4))
  | .flgetX t c d a b => some (encS t 23 c.val d.val a.val b.val 0)
  | .flgetV t c d a => some (encS t 23 c.val d.val a.val 0 1)
  | .ring t g d a b => some (encR t 24 g.val d.val a.val b.val 0)
  | .pfL1 t a o => some (encI t 25 0 0 a.val o.val)
  | .pfCrew t a o => some (encI t 25 1 0 a.val o.val)
  | .lrenew t a o => some (encI t 25 2 0 a.val o.val)
  | .vadd t g d a b => some (encR t 32 g.val d.val a.val b.val 0)
  | .vsub t g d a b => some (encR t 32 g.val d.val a.val b.val 1)
  | .vmul t g d a b => some (encR t 32 g.val d.val a.val b.val 2)
  | .vmulh t g d a b => some (encR t 32 g.val d.val a.val b.val 3)
  | .vand t g d a b => some (encR t 32 g.val d.val a.val b.val 4)
  | .vor t g d a b => some (encR t 32 g.val d.val a.val b.val 5)
  | .vxor t g d a b => some (encR t 32 g.val d.val a.val b.val 6)
  | .vsll t g d a b => some (encR t 32 g.val d.val a.val b.val 7)
  | .vsrl t g d a b => some (encR t 32 g.val d.val a.val b.val 8)
  | .vsra t g d a b => some (encR t 32 g.val d.val a.val b.val 9)
  | .vmin t g d a b => some (encR t 32 g.val d.val a.val b.val 10)
  | .vmax t g d a b => some (encR t 32 g.val d.val a.val b.val 11)
  | .vminN t g d a b => some (encR t 32 g.val d.val a.val b.val 12)
  | .vmaxN t g d a b => some (encR t 32 g.val d.val a.val b.val 13)
  | .vaddSat t g d a b => some (encR t 32 g.val d.val a.val b.val 14)
  | .vsubSat t g d a b => some (encR t 32 g.val d.val a.val b.val 15)
  | .vaddS t g d a b => some (encR t 33 g.val d.val a.val b.val 0)
  | .vsubS t g d a b => some (encR t 33 g.val d.val a.val b.val 1)
  | .vrsubS t g d a b => some (encR t 33 g.val d.val a.val b.val 2)
  | .vmulS t g d a b => some (encR t 33 g.val d.val a.val b.val 3)
  | .vandS t g d a b => some (encR t 33 g.val d.val a.val b.val 4)
  | .vorS t g d a b => some (encR t 33 g.val d.val a.val b.val 5)
  | .vxorS t g d a b => some (encR t 33 g.val d.val a.val b.val 6)
  | .vsllS t g d a b => some (encR t 33 g.val d.val a.val b.val 7)
  | .vsrlS t g d a b => some (encR t 33 g.val d.val a.val b.val 8)
  | .vsraS t g d a b => some (encR t 33 g.val d.val a.val b.val 9)
  | .vminS t g d a b => some (encR t 33 g.val d.val a.val b.val 10)
  | .vmaxS t g d a b => some (encR t 33 g.val d.val a.val b.val 11)
  | .vminNS t g d a b => some (encR t 33 g.val d.val a.val b.val 12)
  | .vmaxNS t g d a b => some (encR t 33 g.val d.val a.val b.val 13)
  | .vaddSatS t g d a b => some (encR t 33 g.val d.val a.val b.val 14)
  | .vaddSatNS t g d a b => some (encR t 33 g.val d.val a.val b.val 15)
  | .vfadd t g d a b => some (encR t 34 g.val d.val a.val b.val 0)
  | .vfsub t g d a b => some (encR t 34 g.val d.val a.val b.val 1)
  | .vfmul t g d a b => some (encR t 34 g.val d.val a.val b.val 2)
  | .vfmin t g d a b => some (encR t 34 g.val d.val a.val b.val 3)
  | .vfmax t g d a b => some (encR t 34 g.val d.val a.val b.val 4)
  | .vfabs t g d a => some (encR t 34 g.val d.val a.val 0 5)
  | .vfneg t g d a => some (encR t 34 g.val d.val a.val 0 6)
  | .vfaddS t g d a b => some (encR t 34 g.val d.val a.val b.val 7)
  | .vfmulS t g d a b => some (encR t 34 g.val d.val a.val b.val 8)
  | .vfminS t g d a b => some (encR t 34 g.val d.val a.val b.val 9)
  | .vfmaxS t g d a b => some (encR t 34 g.val d.val a.val b.val 10)
  | .vfma t g d a b => some (encR t 35 g.val d.val a.val b.val 0)
  | .vfms t g d a b => some (encR t 35 g.val d.val a.val b.val 1)
  | .vfnms t g d a b => some (encR t 35 g.val d.val a.val b.val 2)
  | .vfnma t g d a b => some (encR t 35 g.val d.val a.val b.val 3)
  | .vfmaS t g d a b => some (encR t 35 g.val d.val a.val b.val 4)
  | .vmacc t g d a b => some (encR t 35 g.val d.val a.val b.val 5)
  | .vmaccS t g d a b => some (encR t 35 g.val d.val a.val b.val 6)
  | .vcmpEq t g d a b => some (encR t 36 g.val d.val a.val b.val 0)
  | .vcmpNe t g d a b => some (encR t 36 g.val d.val a.val b.val 1)
  | .vcmpLt t g d a b => some (encR t 36 g.val d.val a.val b.val 2)
  | .vcmpLe t g d a b => some (encR t 36 g.val d.val a.val b.val 3)
  | .vcmpLtN t g d a b => some (encR t 36 g.val d.val a.val b.val 4)
  | .vcmpLeN t g d a b => some (encR t 36 g.val d.val a.val b.val 5)
  | .vfcmpEq t g d a b => some (encR t 36 g.val d.val a.val b.val 6)
  | .vfcmpLt t g d a b => some (encR t 36 g.val d.val a.val b.val 7)
  | .vfcmpLe t g d a b => some (encR t 36 g.val d.val a.val b.val 8)
  | .vfcmpUn t g d a b => some (encR t 36 g.val d.val a.val b.val 9)
  | .vcmpEqS t g d a b => some (encR t 36 g.val d.val a.val b.val 10)
  | .vcmpLtS t g d a b => some (encR t 36 g.val d.val a.val b.val 11)
  | .vcmpGtS t g d a b => some (encR t 36 g.val d.val a.val b.val 12)
  | .vfcmpLtS t g d a b => some (encR t 36 g.val d.val a.val b.val 13)
  | .vfcmpGtS t g d a b => some (encR t 36 g.val d.val a.val b.val 14)
  | .kand t d a b => some (encR t 37 0 d.val a.val b.val 0)
  | .kor t d a b => some (encR t 37 0 d.val a.val b.val 1)
  | .kxor t d a b => some (encR t 37 0 d.val a.val b.val 2)
  | .kandn t d a b => some (encR t 37 0 d.val a.val b.val 3)
  | .knot t d a => some (encR t 37 0 d.val a.val 0 4)
  | .kset t d => some (encR t 37 0 d.val 0 0 5)
  | .kclr t d => some (encR t 37 0 d.val 0 0 6)
  | .vcvtF32 t g d a r m => some (encR t 38 g.val d.val a.val (r.val * 16 + m.val * 4) 0)
  | .vcvtBf16 t g d a r m => some (encR t 38 g.val d.val a.val (r.val * 16 + m.val * 4) 1)
  | .vcvtF16 t g d a r m => some (encR t 38 g.val d.val a.val (r.val * 16 + m.val * 4) 2)
  | .vcvtE4m3 t g d a r m => some (encR t 38 g.val d.val a.val (r.val * 16 + m.val * 4) 3)
  | .vcvtE5m2 t g d a r m => some (encR t 38 g.val d.val a.val (r.val * 16 + m.val * 4) 4)
  | .vcvtE2m1 t g d a r m => some (encR t 38 g.val d.val a.val (r.val * 16 + m.val * 4) 5)
  | .vcvtEfE4m3 t g d a r m => some (encR t 38 g.val d.val a.val (r.val * 16 + m.val * 4) 6)
  | .vcvtEfE2m1 t g d a r m => some (encR t 38 g.val d.val a.val (r.val * 16 + m.val * 4) 7)
  | .vcvtEfBf16 t g d a r m => some (encR t 38 g.val d.val a.val (r.val * 16 + m.val * 4) 8)
  | .vwidE4m3 t g d a r m => some (encR t 38 g.val d.val a.val (r.val * 16 + m.val * 4) 9)
  | .vwidE5m2 t g d a r m => some (encR t 38 g.val d.val a.val (r.val * 16 + m.val * 4) 10)
  | .vwidE2m1 t g d a r m => some (encR t 38 g.val d.val a.val (r.val * 16 + m.val * 4) 11)
  | .vcvtFI t g d a r m => some (encR t 38 g.val d.val a.val (r.val * 16 + m.val * 4) 12)
  | .vcvtFN t g d a r m => some (encR t 38 g.val d.val a.val (r.val * 16 + m.val * 4) 13)
  | .vcvtIF t g d a r m => some (encR t 38 g.val d.val a.val (r.val * 16 + m.val * 4) 14)
  | .vcvtNF t g d a r m => some (encR t 38 g.val d.val a.val (r.val * 16 + m.val * 4) 15)
  | .vslideup t g d a b => some (encR t 39 g.val d.val a.val b.val 0)
  | .vslidedn t g d a b => some (encR t 39 g.val d.val a.val b.val 1)
  | .vgatherC t g d a b => some (encR t 39 g.val d.val a.val b.val 2)
  | .vbcastC t g d a b => some (encR t 39 g.val d.val a.val b.val 3)
  | .vgatherR t g d a b => some (encR t 39 g.val d.val a.val b.val 4)
  | .vrotR t g d a b => some (encR t 39 g.val d.val a.val b.val 5)
  | .vbcastR t g d a b => some (encR t 39 g.val d.val a.val b.val 6)
  | .vtr16 t g d a => some (encR t 39 g.val d.val a.val 0 7)
  | .vredsumC t g d a => some (encR t 40 g.val d.val a.val 0 0)
  | .vredmaxC t g d a => some (encR t 40 g.val d.val a.val 0 1)
  | .vredminC t g d a => some (encR t 40 g.val d.val a.val 0 2)
  | .vredmaxNC t g d a => some (encR t 40 g.val d.val a.val 0 3)
  | .vfredsumC t g d a => some (encR t 40 g.val d.val a.val 0 4)
  | .vfredmaxC t g d a => some (encR t 40 g.val d.val a.val 0 5)
  | .vfredminC t g d a => some (encR t 40 g.val d.val a.val 0 6)
  | .vredsumR t g d a => some (encR t 40 g.val d.val a.val 0 7)
  | .vredmaxR t g d a => some (encR t 40 g.val d.val a.val 0 8)
  | .vredminR t g d a => some (encR t 40 g.val d.val a.val 0 9)
  | .vredmaxNR t g d a => some (encR t 40 g.val d.val a.val 0 10)
  | .vfredsumR t g d a => some (encR t 40 g.val d.val a.val 0 11)
  | .vfredmaxR t g d a => some (encR t 40 g.val d.val a.val 0 12)
  | .vfredminR t g d a => some (encR t 40 g.val d.val a.val 0 13)
  | .vredminNC t g d a => some (encR t 40 g.val d.val a.val 0 14)
  | .vredminNR t g d a => some (encR t 40 g.val d.val a.val 0 15)
  | .vexp2 t g d a => some (encR t 41 g.val d.val a.val 0 0)
  | .vlog2 t g d a => some (encR t 41 g.val d.val a.val 0 1)
  | .vrcp t g d a => some (encR t 41 g.val d.val a.val 0 2)
  | .vrsqrt t g d a => some (encR t 41 g.val d.val a.val 0 3)
  | .vtanh t g d a => some (encR t 41 g.val d.val a.val 0 4)
  | .vmov t g d a => some (encR t 42 g.val d.val a.val 0 0)
  | .vmovS t g d b => some (encR t 42 g.val d.val 0 b.val 1)
  | .vsel t g d a b => some (encR t 42 g.val d.val a.val b.val 2)
  | .vmovk t g d a => some (encR t 42 g.val d.val a.val 0 3)
  | .vmovv t g d a => some (encR t 42 g.val d.val a.val 0 4)
  | .vid t g d => some (encR t 42 g.val d.val 0 0 5)
  | .vrid t g d => some (encR t 42 g.val d.val 0 0 6)
  | .vmovi t g d i => some (encR t 42 g.val d.val i.val 0 7)
  | .mcfg t g d a => some (encR t 43 g.val d.val a.val 0 0)
  | .mcfgz t g => some (encR t 43 g.val 0 0 0 1)
  | .mgo t g d => some (encR t 44 g.val d.val 0 0 0)
  | .mstat t g d => some (encR t 44 g.val d.val 0 0 1)
  | .accrd t g d a b => some (encR t 44 g.val d.val a.val b.val 2)
  | .acczero t g d => some (encR t 44 g.val d.val 0 0 3)
  | .accwr t g d a b => some (encR t 44 g.val d.val a.val b.val 4)
  | .wcfg t g d a => some (encR t 45 g.val d.val a.val 0 0)
  | .wgo t g a => some (encR t 45 g.val 0 a.val 0 1)
  | .ftld t g d a => some (encR t 46 g.val d.val a.val 0 0)
  | .ftclr t g d => some (encR t 46 g.val d.val 0 0 1)
  | .ftrd t g d a => some (encR t 46 g.val d.val a.val 0 2)
  | .ftmon t g d => some (encR t 46 g.val d.val 0 0 3)
  | .stBG t d a o => some (encI t 48 0 d.val a.val o.val)
  | .stHG t d a o => some (encI t 48 1 d.val a.val o.val)
  | .stWG t d a o => some (encI t 48 2 d.val a.val o.val)
  | .stDG t d a o => some (encI t 48 3 d.val a.val o.val)
  | .stBX t d a o => some (encI t 49 0 d.val a.val o.val)
  | .stHX t d a o => some (encI t 49 1 d.val a.val o.val)
  | .stWX t d a o => some (encI t 49 2 d.val a.val o.val)
  | .stDX t d a o => some (encI t 49 3 d.val a.val o.val)
  | .stBL t d a o => some (encI t 50 0 d.val a.val o.val)
  | .stHL t d a o => some (encI t 50 1 d.val a.val o.val)
  | .stWL t d a o => some (encI t 50 2 d.val a.val o.val)
  | .stDL t d a o => some (encI t 50 3 d.val a.val o.val)
  | .stBGRr t g d a b => some (encR t 51 g.val d.val a.val b.val 0)
  | .stHGRr t g d a b => some (encR t 51 g.val d.val a.val b.val 1)
  | .stWGRr t g d a b => some (encR t 51 g.val d.val a.val b.val 2)
  | .stDGRr t g d a b => some (encR t 51 g.val d.val a.val b.val 3)
  | .stBXRr t g d a b => some (encR t 51 g.val d.val a.val b.val 4)
  | .stHXRr t g d a b => some (encR t 51 g.val d.val a.val b.val 5)
  | .stWXRr t g d a b => some (encR t 51 g.val d.val a.val b.val 6)
  | .stDXRr t g d a b => some (encR t 51 g.val d.val a.val b.val 7)
  | .stBLRr t g d a b => some (encR t 51 g.val d.val a.val b.val 8)
  | .stHLRr t g d a b => some (encR t 51 g.val d.val a.val b.val 9)
  | .stWLRr t g d a b => some (encR t 51 g.val d.val a.val b.val 10)
  | .stDLRr t g d a b => some (encR t 51 g.val d.val a.val b.val 11)
  | .vstG t g d a b => some (encR t 52 g.val d.val a.val b.val 0)
  | .vstsG t g d a b => some (encR t 52 g.val d.val a.val b.val 1)
  | .vstxG t g d a b => some (encR t 52 g.val d.val a.val b.val 2)
  | .vstNtG t g d a b => some (encR t 52 g.val d.val a.val b.val 3)
  | .vstX t g d a b => some (encR t 52 g.val d.val a.val b.val 4)
  | .vstsX t g d a b => some (encR t 52 g.val d.val a.val b.val 5)
  | .vstxX t g d a b => some (encR t 52 g.val d.val a.val b.val 6)
  | .vstL t g d a b => some (encR t 52 g.val d.val a.val b.val 8)
  | .vstsL t g d a b => some (encR t 52 g.val d.val a.val b.val 9)
  | .vstxL t g d a b => some (encR t 52 g.val d.val a.val b.val 10)
  | .amoLdW t c d a => some (encS t 53 c.val d.val a.val 0 0)
  | .amoStW t c a b => some (encS t 53 c.val 0 a.val b.val 1)
  | .amoSwapW t c d a b => some (encS t 53 c.val d.val a.val b.val 2)
  | .amoCasW t c d a b => some (encS t 53 c.val d.val a.val b.val 3)
  | .amoAddW t c d a b => some (encS t 53 c.val d.val a.val b.val 4)
  | .amoOrW t c d a b => some (encS t 53 c.val d.val a.val b.val 5)
  | .amoMinW t c d a b => some (encS t 53 c.val d.val a.val b.val 6)
  | .amoMaxW t c d a b => some (encS t 53 c.val d.val a.val b.val 7)
  | .amoLdD t c d a => some (encS t 54 c.val d.val a.val 0 0)
  | .amoStD t c a b => some (encS t 54 c.val 0 a.val b.val 1)
  | .amoSwapD t c d a b => some (encS t 54 c.val d.val a.val b.val 2)
  | .amoCasD t c d a b => some (encS t 54 c.val d.val a.val b.val 3)
  | .amoAddD t c d a b => some (encS t 54 c.val d.val a.val b.val 4)
  | .amoOrD t c d a b => some (encS t 54 c.val d.val a.val b.val 5)
  | .amoMinD t c d a b => some (encS t 54 c.val d.val a.val b.val 6)
  | .amoMaxD t c d a b => some (encS t 54 c.val d.val a.val b.val 7)
  | .redAddW t c a b => some (encS t 55 c.val 0 a.val b.val 0)
  | .redAddD t c a b => some (encS t 55 c.val 0 a.val b.val 1)
  | .redAddF32 t c a b => some (encS t 55 c.val 0 a.val b.val 2)
  | .redMinW t c a b => some (encS t 55 c.val 0 a.val b.val 3)
  | .redMaxW t c a b => some (encS t 55 c.val 0 a.val b.val 4)
  | .redOrD t c a b => some (encS t 55 c.val 0 a.val b.val 5)
  | .lupd t c d a b => some (encS t 55 c.val d.val a.val b.val 6)
  | .flput t c a b => some (encS t 56 c.val 0 a.val b.val 0)
  | .push t c d a b => some (encS t 56 c.val d.val a.val b.val 1)
  | .barArrive t c d a => some (encS t 57 c.val d.val a.val 0 0)
  | .cwb t g a => some (encR t 58 g.val 0 a.val 0 0)
  | .cev t g a => some (encR t 58 g.val 0 a.val 0 1)
  | .l1inv t g => some (encR t 58 g.val 0 0 0 2)
  | .coldReset => none
  | .coldrst _ => none
  | .warmReset => none
  | .firmwareWatchdogExpiry => none
  | .portReset _ => none
  | .functionLevelResetVf _ => none
  | .functionLevelResetPf _ => none
  | .pufReconstruction => none
  | .linkTraining _ => none
  | .slotVerification => none
  | .memoryTraining _ => none
  | .deviceReady => none
  | .powerSample _ => none
  | .arithClockStepDone => none
  | .junctionThrottle _ => none
  | .throttleRelease _ => none
  | .thermalTrip _ => none
  | .entdaa _ => none
  | .sbLimitWrite _ => none
  | .sbMeasRead => none
  | .lifetimeRecordTimer => none
  | .cxlLinkLoss _ => none
  | .ptmDialog _ => none
  | .tbStepsRead => none
  | .atsInvalidateRequest _ _ _ => none
  | .hostInboundRead _ _ _ _ => none
  | .hostInboundWrite _ _ _ _ => none
  | .peerInboundRequest _ _ _ _ _ => none
  | .registerWrite _ _ _ => none
  | .featackWrite _ _ _ => none
  | .mbxDoneRead _ => none
  | .queueReg _ _ => none
  | .queueUnreg _ _ => none
  | .queueReset _ _ => none
  | .invalidate _ _ => none
  | .attest _ _ => none
  | .lifetime _ _ => none
  | .invqSubmit _ _ => none
  | .invalidationAccept => none
  | .invalidationComplete => none
  | .atupd _ _ => none
  | .atupdDone => none
  | .slotMap _ _ => none
  | .slotUnmap _ => none
  | .unmapSaveComplete _ => none
  | .queueWake _ => none
  | .frontEndClockGate => none
  | .frontEndUngate _ => none
  | .waitRecordEval _ => none
  | .packetFetch _ _ => none
  | .nop _ => none
  | .launch _ => none
  | .bundle _ => none
  | .ib _ => none
  | .pred _ => none
  | .loopPacket _ => none
  | .ffence _ => none
  | .tlsig _ => none
  | .tlwaitPacket _ => none
  | .tlwaitSatisfied _ => none
  | .tlwaitExpired _ => none
  | .write _ => none
  | .streamCreate _ => none
  | .streamStart _ => none
  | .streamStop _ => none
  | .streamSetrung _ => none
  | .streamDestroy _ => none
  | .regionCreate _ => none
  | .regionModify _ => none
  | .regionQuiesce _ => none
  | .regionDestroy _ => none
  | .mark _ => none
  | .copy _ => none
  | .workPacketComplete _ _ => none
  | .devqDispatch _ => none
  | .translationWalk _ _ => none
  | .pageInFramePop _ => none
  | .pageInComplete _ _ => none
  | .frameRelease _ => none
  | .slackEvaluation _ _ => none
  | .frameDeadline _ _ => none
  | .frameJobFinish _ _ => none
  | .encoderTilePop _ => none
  | .encoderTileFill _ => none
  | .encoderFrameDone _ => none
  | .operatorAccept _ => none
  | .tileStepPlace => none
  | .tileStepStart _ => none
  | .overlayLoad _ => none
  | .tileStepRetire _ => none
  | .cruiserReplay _ _ => none
  | .coreIdleZeroing _ => none
  | .starvationPromotion _ => none
  | .rcbWriteback _ => none
  | .forcedPreemption _ => none
  | .contextSaveComplete _ => none
  | .contextDrain _ => none
  | .contextReadback _ => none
  | .partitionSwapOut _ => none
  | .partitionSwapIn _ => none
  | .contextResume _ => none
  | .scrubLine _ _ => none
  | .crewCacheEviction _ _ => none
  | .governorWindow _ _ => none
  | .clockHorizonAdvance => none
  | .memoryAccessPerform _ => none
  | .consumedUe _ => none
  | .trapDetect _ => none
  | .freezeComplete _ => none
  | .systemTrapResolve _ _ => none
  | .systemTrapTimeout _ => none
  | .boundedWaitExpiry _ _ => none
  | .arrivalReceive _ _ => none
  | .handlerStart _ => none
  | .copyCommandFinish _ _ => none
  | .deferredPageDelivery _ _ => none
  | .sendFinish _ => none
  | .ackWriteFinish _ => none
  | .mgoAccept _ => none
  | .matrixChunkPass _ => none
  | .windowBlockPush _ => none
  | .ringShift _ => none
  | .configurationRequest _ => none
  | .powerLoss _ => none
  | .orderlyShutdown => none

end

end Sys2Proof
end

