-- ==== Sys2Proof/Machine/CoreTypes.lean ====
section
/-! DEFINITION. The state of one core as plain data (spec/07, 08, 09, 10, 15). -/

namespace Sys2Proof.Machine

/-- A sparse array in one canonical form: keys strictly rising, no entry equal to the value an unlisted key reads as. -/
abbrev Sparse (β : Type) := List (Nat × β)

/-- The three spaces a memory instruction selects (R38). -/
inductive Space where
  | g | x | l
deriving DecidableEq, Repr

/-- A strand of a core: the main strand or handler context 0 to 2 (R188). -/
inductive Strand where
  | main
  | ctx (h : Fin 3)
deriving DecidableEq, Repr

/-- The queues of the main strand that hold routed words (R172). -/
inductive Qid where
  | l | x | s
deriving DecidableEq, Repr

/-- A captured scope: entry index and generation (R212). -/
structure Cap where
  idx : Fin 16
  gen : Nat
deriving DecidableEq, Repr

/-- A release as it was made (R214, R215): its agent (a core's number, or the clock key of another agent), the CORES of its scope at its
performing point, whether that scope is entry 15, to which the agents other than cores and the host belong, and its stamp. -/
structure Release where
  agent : Nat
  cores : BitVec 128
  all : Bool
  stamp : Nat
deriving DecidableEq, Repr

/-- An arrival that a core holds: its record, and the release of its sender (R187, R226). -/
structure Arrival where
  bits : BitVec 256
  rel : Option Release
deriving DecidableEq, Repr

/-! ### Operations of routed words -/

/-- Element-wise integer operations (R340, R341). -/
inductive IOp where
  | add | sub | rsub | mul | mulh | and | or | xor | sll | srl | sra | min | max | minN | maxN | addSat | subSat | addSatN
deriving DecidableEq, Repr

/-- Floating-point binary operations (R342). -/
inductive FOp where
  | add | sub | mul | min | max
deriving DecidableEq, Repr

/-- Fused multiply-add forms (R343). -/
inductive FmaOp where
  | ma | ms | nms | nma
deriving DecidableEq, Repr

/-- Compares (R344). -/
inductive CmpOp where
  | eq | ne | lt | le | ltN | leN | gt | feq | flt | fle | fun' | fgt
deriving DecidableEq, Repr

/-- Mask logic (R345). -/
inductive KOp where
  | and | or | xor | andn | not | set | clr
deriving DecidableEq, Repr

/-- Conversions (R346). -/
inductive CvtOp where
  | f32 | bf16 | f16 | e4m3 | e5m2 | e2m1 | efE4m3 | efE2m1 | efBf16 | widE4m3 | widE5m2 | widE2m1 | fI | fN | iF | nF
deriving DecidableEq, Repr

/-- Permutes (R349). -/
inductive PermOp where
  | slideup | slidedn | gatherC | bcastC | gatherR | rotR | bcastR | tr16
deriving DecidableEq, Repr

/-- Reduction combinations (R350). -/
inductive RedOp where
  | sum | max | min | maxN | minN | fsum | fmax | fmin
deriving DecidableEq, Repr

/-- Special functions (R351). -/
inductive SfOp where
  | exp2 | log2 | rcp | rsqrt | tanh
deriving DecidableEq, Repr

/-- Moves and selects (R352). -/
inductive MvOp where
  | mov | movS | sel | movk | movv | id | rid | movi
deriving DecidableEq, Repr

/-- Atomics (R369). -/
inductive AmoOp where
  | ld | st | swap | cas | add | or | min | max
deriving DecidableEq, Repr

/-- Reductions at memory (R371). -/
inductive MemRed where
  | addW | addD | addF32 | minW | maxW | orD
deriving DecidableEq, Repr

/-- Element updates of `lupd` (R372). -/
inductive LineOp where
  | addI32 | addF32 | maxF32 | minF32
deriving DecidableEq, Repr

/-- Hints of MAJOR 0x19 and cache operations of 0x3A (R363, R383). -/
inductive CacheOp where
  | pfL1 | pfCrew | lrenew | cwb | cev | l1inv
deriving DecidableEq, Repr

/-- The matrix configuration an `mgo` captures (R398): NEST0 to NEST5, MGRP. -/
structure MCfg where
  nest : Vector W64 6
  mgrp : W64
deriving DecidableEq, Repr

/-- A routed word with what the control slot captured for it (R173, R278): physical registers, scalar values, scope,
stream positions. -/
inductive Uop where
  /-- A word whose whole effect was made at routing (`mcfg`, `mcfgz`, `wcfg`) or that SKIP routed without its effect. -/
  | nop
  | load (sp : Space) (sz : Nat) (signed : Bool) (d : Reg) (a : W64)
  | ldc (sz : Nat) (signed : Bool) (d : Reg) (a : W64)
  | cache (op : CacheOp) (a : W64)
  | vload (sp : Space) (kind : Fin 4) (d : Reg) (m : Guard) (a p : W64) (bi : Reg)
  | flgetX (d : Reg) (f off : W64) (cap : Cap)
  | flgetV (d : Reg) (f : W64) (cap : Cap)
  | ring (d a b : W64)
  | cpy (cls : Fin 3) (c : Fin 2) (d a b : W64) (pos : Nat)
  | store (sp : Space) (sz : Nat) (a v : W64)
  | vstore (sp : Space) (kind : Fin 4) (d : Reg) (m : Guard) (a p : W64) (bi : Reg)
  | amo (op : AmoOp) (wide : Bool) (d : Reg) (expect a v : W64) (cap : Cap)
  | red (op : MemRed) (a v : W64) (cap : Cap)
  | lupd (op : LineOp) (a off : W64) (cap : Cap)
  | flput (f off : W64) (cap : Cap)
  | push (tgt arg addr : W64) (cap : Cap)
  | barArrive (d : Reg) (a : W64) (cap : Cap)
  | vi (op : IOp) (d a b : Reg) (m : Guard)
  | vis (op : IOp) (d a : Reg) (s : W64) (m : Guard)
  | vf (op : FOp) (d a b : Reg) (m : Guard)
  | vfs (op : FOp) (d a : Reg) (s : W64) (m : Guard)
  | vfsign (neg : Bool) (d a : Reg) (m : Guard)
  | vfma (op : FmaOp) (d a b : Reg) (m : Guard)
  | vfmas (d a : Reg) (s : W64) (m : Guard)
  | vmacc (d a b : Reg) (m : Guard)
  | vmaccs (d a : Reg) (s : W64) (m : Guard)
  | vcmp (op : CmpOp) (d a b : Reg) (m : Guard)
  | vcmps (op : CmpOp) (d a : Reg) (s : W64) (m : Guard)
  | kop (op : KOp) (d a b : Reg)
  | cvt (op : CvtOp) (rs : Bool) (rm : Fin 4) (d a : Reg) (m : Guard)
  | perm (op : PermOp) (d a b : Reg) (n : W64) (m : Guard)
  | vred (op : RedOp) (rows : Bool) (d a : Reg) (m : Guard)
  | sf (op : SfOp) (d a : Reg) (m : Guard)
  | mv (op : MvOp) (d a b : Reg) (s : W64) (m : Guard)
  | mgo (tile : Fin 4) (ft : Fin 16) (cfg : MCfg) (abase bbase na nb : Nat)
  | mstat (d : Reg)
  | accrd (d : Reg) (n : Fin 4) (s : W64)
  | acczero (n : Fin 4)
  | accwr (n : Fin 4) (a : Reg) (s : W64)
  | wgo (cfg : Vector W64 7) (pos nb : Nat)
  | ftld (n : Fin 16) (a : Reg)
  | ftclr (n : Fin 16)
  | ftrd (d : Reg) (n : Fin 16)
  | ftmon (d : Reg)
deriving DecidableEq, Repr

/-- An entry of the L, X or S queue, or a word a handler strand runs (R173). -/
structure Routed where
  uop : Uop
  tok : Tok
  /-- The captured guard; a false guard leaves only the token pops and pushes (R175). -/
  on : Bool
  strand : Strand
  /-- Word index (queue program counter). -/
  idx : Nat
  /-- Program-order number. -/
  po : Nat
  vtype : W64
  vl : Nat
  rm : Fin 4
  /-- Trap enables of FPCR, in FPSR's layout (R236, R238). -/
  fpe : Nat
  /-- The word has made its effect and waits at its head for room for its pushes (R178). -/
  done : Bool
  /-- The word makes its pushes but not its pops (SKIP, R268). -/
  noPop : Bool
deriving DecidableEq, Repr

/-! ### Traps and waits -/

/-- What a trap record carries (R261, R266, R272). -/
structure Trap where
  cause : Nat
  faddr : W64
  d0 : W64
  d1 : W64
  /-- 0 C, 1 L, 2 X, 3 S, 4 an engine command, 5 none. -/
  queue : Nat
  /-- Engine context, or 0xFF. -/
  engine : Nat
  strand : Strand
  after : Bool
  rkind : Nat
  rindex : Nat
  /-- Of a request that a target refused: its kind, 1 read, 2 write, 3 atomic, and its physical address (R61); of a walk's read, the target
  too (R57). -/
  reqKind : Nat := 0
  reqPa : Nat := 0
  reqWalk : Option Nat := none
  /-- Of an engine command's fault: the program-order number of the word that issued it (R264). -/
  po : Nat := 0
deriving DecidableEq, Repr

/-- A wait at the head of a queue or strand (R179, R272), with the limit it began with; no limit for waits that count
against none. -/
structure Wait where
  rkind : Nat
  rindex : Nat
  d0 : W64
  d1 : W64
  faddr : W64
  limit : Option Nat
  /-- The scope captured as the wait began (R212). -/
  cap : Option Cap := none
  /-- The barrier object waited on, by physical address ÷ 32 (R195). -/
  obj : Option Nat := none
deriving DecidableEq, Repr

/-! ### Engines -/

/-- A copy command (R389 to R396). -/
structure CopyCmd where
  num : Nat
  po : Nat
  /-- The descriptor's 64-byte header. -/
  hdr : BitVec 512
  /-- The dimension entries, dimension 0 first. -/
  dims : List (BitVec 128)
  fromDelta : W64
  toDelta : W64
  /-- Target class: 0 general, 1 A, 2 B. -/
  cls : Fin 3
  /-- First stream position for `cpy.a` and `cpy.b`. -/
  pos : Nat
  /-- Elements of the walk already moved. -/
  progress : Nat
  faulted : Bool
  /-- It waits for a slot: of a FIFO, of a flume, or of an arrival queue (R186). -/
  held : Bool
deriving DecidableEq, Repr

/-- A deferred page of a copy command (R395). -/
structure Deferred where
  ctx : Fin 2
  cmd : CopyCmd
  page : W64
  size : Nat
  /-- The page-in has ended: `some true` delivers the data, `some false` delivers FAILED. -/
  ended : Option Bool
deriving DecidableEq, Repr

/-- An operand block in a FIFO (R183, R393); a null block holds no data (R407). -/
structure Block where
  pos : Nat
  null : Bool
  /-- BFMT tag: 0 E4M3, 1 E2M1, 2 BF16. -/
  fmt : Nat
  /-- BS tag: 0 is 16, 1 is 32, 2 is 64, 3 is 128. -/
  bs : Nat
  bytes : List Byte
  /-- Some of its bytes were copied from poisoned granules (R155), the first of them at this address. -/
  poison : Bool
  badPa : Nat := 0
deriving DecidableEq, Repr

/-- One chunk of a go (R399, R401). -/
structure Chunk where
  c : Nat
  pa : Nat
  pb : Nat
  tile : Nat
  row0 : Nat
  rows : Nat
deriving DecidableEq, Repr

/-- A go accepted by the matrix engine (R399, R257). -/
structure Go where
  num : Nat
  po : Nat
  tile : Fin 4
  ft : Fin 16
  abase : Nat
  bbase : Nat
  /-- Positions it takes (R399). -/
  na : Nat
  nb : Nat
  /-- The entry's bits [111:0] as copied at acceptance. -/
  ent : BitVec 256
  /-- Chunks still to run, in order. -/
  todo : List Chunk
  /-- Width of the next pass of the first chunk of `todo`. -/
  width : Nat
  /-- Coarse products of the first chunk of `todo`, one a row, once they have been read (R248). -/
  coarse : Option (List Nat)
  satTotal : Nat
  uflTotal : Nat
  cncTotal : Nat
  chunksDone : Nat
  skipped : Nat
  /-- The accumulator tiles that its chunks promote into. -/
  tiles : List Nat := []
deriving DecidableEq, Repr

/-- A command of the window engine (R406). -/
structure WinCmd where
  num : Nat
  po : Nat
  cfg : Vector W64 7
  pos : Nat
  nb : Nat
  /-- Blocks already pushed. -/
  pushed : Nat
deriving DecidableEq, Repr

/-- A `ring` command (R193, R377): its three operands. -/
structure RingCmd where
  num : Nat
  po : Nat
  d : W64
  a : W64
  b : W64
deriving DecidableEq, Repr

/-- A send of context 5 (R184): a flume element with its slot and data, or a push or packet already accepted. -/
inductive Send where
  | flume (f : Nat) (k : Nat) (data : List Byte)
  /-- An `enq` whose answer is awaited. -/
  | enq
  | accepted
deriving DecidableEq, Repr

/-- An entry of the range checker (R182): an engine command with its read and write ranges [lo, hi). -/
structure RangeEntry where
  ctx : Nat
  num : Nat
  po : Nat
  rlo : Nat
  rhi : Nat
  wlo : Nat
  whi : Nat
deriving DecidableEq, Repr

/-- The engine contexts of a core (R184 to R186) with the operand FIFOs (R183). -/
structure Engines where
  cpy : Vector (List CopyCmd) 2
  deferred : List Deferred
  gos : List Go
  /-- The go that finished last, whose totals `ftmon` returns (R257). -/
  lastGo : Option Go
  wins : List WinCmd
  rings : List RingCmd
  sends : List Send
  /-- Commands accepted by each context since step start. -/
  issued : Vector W64 8
  /-- Timeline counters tl0 to tl7 (R185). -/
  tl : Vector W64 8
  /-- Fault code of each context (R186). -/
  fcode : Vector (BitVec 8) 8
  fifoA : List Block
  fifoB : List Block
  /-- Positions below these belong to gos that have finished. -/
  aDone : Nat
  bDone : Nat
  ranges : List RangeEntry
deriving DecidableEq, Repr

/-! ### Register files -/

/-- The register files of the main strand (R172). -/
structure Regs where
  /-- Physical s0 to s31. -/
  s : Vector W64 32
  /-- Physical p0 to p7. -/
  p : Vector Bool 8
  lc : Vector W64 4
  /-- Row i of v`n` at key 16 n + i. -/
  v : Sparse VRow
  /-- Row i of k`n` at key 16 n + i. -/
  k : Sparse KRow
  /-- Accumulator words, keyed by byte address ÷ 4 of R38. -/
  acc : Sparse W32
deriving DecidableEq, Repr

/-- The system registers of R285. -/
structure SysRegs where
  vl : W64
  vtype : W64
  fpcr : W64
  fpsr : W64
  ftbase : W64
  rotb : W64
  qwlim : W64
  stepid : W64
  argbase : W64
  coord : W64
  lpbaddr : W64
  opbaddr : W64
  fjpb : W64
  stepinfo : W64
  cycle : W64
  trapcause : W64
  trapaddr : W64
  trapd0 : W64
  trapd1 : W64
deriving DecidableEq, Repr

/-- Matrix and window configuration, stream counters and the format table (R397, R398, R405, R255). -/
structure MatRegs where
  cfg : MCfg
  win : Vector W64 7
  aprod : W64
  bprod : W64
  acons : W64
  bcons : W64
  ft : Vector (BitVec 256) 16
  skipped : W32
deriving DecidableEq, Repr

/-- One handler context (R189). -/
structure Handler where
  running : Bool
  pc : Nat
  h : Vector W64 16
  p : Vector Bool 4
  qwlim : W64
  /-- The strand's number on tl7 (R185); 0 for the trap strand. -/
  num : Nat
  wait : Option Wait
deriving DecidableEq, Repr

/-! ### Memory-model state -/

/-- A copy of a line (R191, R201): line address, lease, the WTS it was granted with, its 128 bytes. -/
structure L1Line where
  line : Nat
  valid : Nat
  wts : Nat
  data : List Byte
deriving DecidableEq, Repr

/-- A tag naming a register for parity and poison: file (0 scalar, 1 vector row group, 2 mask) and number (R155, R157). -/
structure RegTag where
  file : Nat
  num : Nat
deriving DecidableEq, Repr

/-- A performed load in the load-order buffer (R180, R203): the word, the bytes it read as (address, length), the copies it
read as (line, WTS seen, valid to), the registers it writes, and those of them that a later word has written. -/
structure LobEntry where
  word : Routed
  bytes : List (Nat × Nat)
  copies : List (Nat × Nat × Nat)
  dst : List RegTag
  gone : List RegTag
deriving DecidableEq, Repr

/-- A TLB entry (R46): ASID, virtual address of the page, its size as a shift, the leaf. -/
structure TlbEntry where
  asid : Nat
  va : Nat
  shift : Nat
  leaf : W64
deriving DecidableEq, Repr

/-- Clock, caches and ordering state of a core (08). -/
structure MemState where
  /-- The logical clock T (R201). -/
  clock : Nat
  l1 : List L1Line
  lob : List LobEntry
  tlb : List TlbEntry
  /-- The result of a walk that the core joined before an invalidation covered it, for the access that waits for it (R51). -/
  handed : Option TlbEntry
  /-- Constant cache: bytes read in this epoch, by physical address (R224). -/
  cc : Sparse (Option Byte)
  epoch : Nat
  /-- Stamps that the finished commands of each context reported (R207, R218): command number, stamp, newest first; a command whose stamp does not
  rise above those before it has no entry. -/
  stamps : Vector (List (Nat × Nat)) 8
  /-- Markers of `blaze` not yet joined: L, X, S queue and contexts 0 to 7, each with the number to be reached (R218). -/
  marks : Vector (Option Nat) 11
  /-- Of the main strand and of handler contexts 0 to 2: the releases of fences, which later writes carry (R214), and the releases whose
  writes the strand's reads have observed, for later acquires. -/
  fences : Vector (List Release) 4
  seen : Vector (List Release) 4
deriving DecidableEq, Repr

/-- A word of a replay queue (R157), with the registers that it wrote and no later word has written. -/
structure ReplayEntry where
  word : Routed
  dst : List RegTag
  seq : Nat
  srcs : List RegTag
  /-- A load, `flget` or atomic cannot be re-executed. -/
  load : Bool
  /-- What each source held as the word read it. -/
  srcVals : List Nat
deriving DecidableEq, Repr

/-- A tile-start point (R161, R324): where rollback goes back to, and the reason counters since it. -/
structure TilePoint where
  /-- Program-order number of the first word after it. -/
  po : Nat
  /-- L and X sequence numbers of the first words after it. -/
  seqL : Nat
  seqX : Nat
  rotb : W64
  aprod : W64
  bprod : W64
  acons : W64
  bcons : W64
  /-- FIFO counts: C→L pops, L→C pushes, L→X pushes, X→L pops as L reached it; L→X pops, X→L pushes, X→S pushes, S→X pops as X did. -/
  fifo : Vector W64 8
  /-- Engine command numbers accepted at the point. -/
  issued : Vector W64 8
  /-- Reason 2: a non-idempotent operation has performed. -/
  nonIdem : Bool
  /-- Tiles written, slabs cleared or written by `accwr`, tiles written before they were whole (reason 3). -/
  written : BitVec 4
  whole : Vector (BitVec 16) 4
  unclean : BitVec 4
deriving DecidableEq, Repr

/-- A part of a store of the S queue that has performed, or gone in flight, since the tile-start point: a rollback performs it again (R161). -/
structure StoreAgain where
  po : Nat
  space : Space
  ordinary : Bool
  pa : Nat
  va : W64
  bytes : List Byte
deriving DecidableEq, Repr

/-- What rollback needs (R161, R324). -/
structure TileStart where
  point : TilePoint
  /-- The point of a `tsm` whose marker L and X have not both reached. -/
  next : Option TilePoint
  reachedL : Bool
  reachedX : Bool
  /-- The newest 257 L and X words issued since the point, oldest first. -/
  retainedL : List Routed
  retainedX : List Routed
  /-- Stores performed since the point, oldest first. -/
  stores : List StoreAgain
  /-- Program-order number of the consumed uncorrectable error that the core last rolled back for (reason 4). -/
  firstUe : Option Nat
deriving DecidableEq, Repr

/-- What a core keeps of its traps (10). -/
structure TrapState where
  /-- The last composite record (R265). -/
  composite : BitVec 2048
  /-- The trap being handled: by the trap strand or by firmware. -/
  active : Option Trap
  /-- The main strand was running, and not draining, when the freeze began. -/
  back : Bool
  /-- A trap detected and not yet delivered: the freeze is under way. -/
  detected : Option Trap
  /-- A fault of an engine command that waits to be detected. -/
  engineFault : Option Trap
  multi : Bool
  /-- An unresolved later fault of the drain (R264). -/
  later : Option Trap
  /-- The original trap while one raised in the trap strand is with firmware (R269). -/
  outer : Option Trap
  /-- Deferred deliveries that wait to raise TIER_DEFER (R264). -/
  deferTraps : List Trap
  /-- Device time at which the freeze completed (R271). -/
  since : Nat
deriving DecidableEq, Repr

/-- The loaded image (R295), with the ASID it was read in and the parameter value of each patch record (R144). -/
structure Image where
  addr : Nat
  asid : Nat
  patches : List (Nat × Nat × Int)
  entry : Nat
  trapent : Nat
  hastrap : Bool
  slip : Nat
  resumable : Bool
  ncode : Nat
  carry : List (Nat × Nat)
  scrneed : Nat
deriving DecidableEq, Repr

/-- What the running step works under (R129, R131): region, core mask, quotas, translation context, operator. -/
structure StepCtx where
  region : Nat
  coreMask : BitVec 128
  scratchQuota : Nat
  landingBase : Nat
  landingQuota : Nat
  root : Nat
  asid : Nat
  pib : Nat
  opseq : Nat
deriving DecidableEq, Repr

/-- What a core is doing (R143, R262). -/
inductive Phase where
  | idle
  /-- GO is set; the image is being loaded. -/
  | starting
  | running
  /-- The main strand has executed `tail`. -/
  | draining
  /-- The freeze is complete and the trap is with the trap strand. -/
  | trapStrand
  /-- The freeze is complete and the trap is with firmware, or the core is frozen for a save. -/
  | frozen
deriving DecidableEq, Repr

/-- One core (07). -/
structure Core where
  phase : Phase
  /-- Boot mailbox (R143). -/
  mbx : BitVec 512
  /-- Tile-step record of the step placed here (R139). -/
  stepRec : BitVec 512
  imem : Sparse W32
  img : Image
  ctx : StepCtx
  /-- Index of the control slot's next word (QPCC). -/
  pc : Nat
  /-- Next program-order number. -/
  po : Nat
  /-- QSEQC, QSEQL, QSEQX, QSEQS. -/
  seq : Vector W64 4
  qL : List Routed
  qX : List Routed
  qS : List Routed
  /-- A C-class word that is done and waits for room for its pushes (R178). -/
  heldC : Option Tok
  /-- Waits of C, L, X and S. -/
  waits : Vector (Option Wait) 4
  /-- Pushes and pops of the FIFOs C→L, L→X, X→S, S→C, L→C, X→L, S→X, C→S (R177, R272). -/
  push : Vector W64 8
  pop : Vector W64 8
  regs : Regs
  sys : SysRegs
  mat : MatRegs
  eng : Engines
  hnd : Vector Handler 3
  arrivals : List Arrival
  /-- The strand, queue and packet of the outstanding `enq`, and the dispatcher's answer (R326). -/
  enqOffer : Option (Strand × Nat × BitVec 512)
  enqAnswer : Option Bool
  mem : MemState
  tile : TileStart
  trap : TrapState
  arrdrop : W64
  loreplay : W64
  parity : List RegTag
  poison : List RegTag
  /-- The granule that each poisoned register was loaded from (R155, R161). -/
  origins : List (RegTag × Nat)
  replay : Vector (List ReplayEntry) 3
  /-- Signature of the step, whether it is replayable, its width log, its chunks (R167, R168). -/
  sig : W64
  replayable : Bool
  widths : List (Fin 4)
  /-- The core is clean: zeroed since the last step (R145, R146). -/
  clean : Bool
  /-- Region and operator sequence number of the last step that ran here (R146). -/
  lastRegion : Nat
  lastOp : Nat
  /-- That step retired, and nothing of R147 has touched the core since. -/
  carryOk : Bool
  /-- The overlay loader is at work (R144), and what the core does when it is done (R274). -/
  loading : Bool
  resumePhase : Phase
  /-- Device time since which the core is idle (R146). -/
  idleSince : Nat
  /-- The core is frozen to be saved (R149, R271). -/
  saving : Bool
  /-- Where in the shadow store the record of that save is being written, in KiB (R152, R165). -/
  saveAt : Nat
  /-- Offsets 0x080 to 0x157 of the status page as they stood at the cut, for while the core is frozen (R197). -/
  shown : BitVec 1728
  /-- Physical address of the poisoned granule read last (FADDR of UE, R261), and the strand whose word met it. -/
  uePa : Nat
  ueStrand : Strand
  /-- The C-class word at the control slot has made its pops and waits (R300). -/
  popped : Bool
deriving DecidableEq, Repr

end Sys2Proof.Machine
end

