-- ==== Sys2Proof/Machine/DevTypes.lean ====
section
/-! DEFINITION. The state of the device outside its cores as plain data (spec/01 to 06, 08, 14). -/

namespace Sys2Proof.Machine

/-- Memory: (physical address, byte) pairs in canonical form; an unlisted byte reads as `Memory.dflt` (log 4). -/
abbrev Memory := Sparse Byte

/-! ### Board, boot and links (01) -/

/-- A firmware slot as the checks of R28 find it: the chain leads to the ROM digest, the signature holds, the security
version and the SHA-256 digest of the image (log 15). -/
structure SlotImage where
  chainOk : Bool
  sigOk : Bool
  version : Nat
  digest : BitVec 256
deriving DecidableEq, Repr

/-- An HDM decoder (R20). -/
structure Hdm where
  base : Nat
  size : Nat
  port : Fin 2
  enabled : Bool
  /-- Interleaved across both ports at 4 KiB. -/
  interleave : Bool
  /-- Capacity each port carries in the range. -/
  cap0 : Nat
  cap1 : Nat
deriving DecidableEq, Repr

/-- What a configuration blob gives for the root region of a function (R127); a field it does not give is `none`. -/
structure RootBlob where
  func : Fin 10
  rcb : BitVec 2048
  /-- Which field groups of R127's table the blob gives. -/
  givesBudget : Bool
  givesClass : Bool
  givesBounds : Bool
  givesFault : Bool
  givesSave : Bool
  givesContext : Bool
deriving DecidableEq, Repr

/-- The signed configuration blobs, read into their meaning (R22, R25, R20, R127, R166, R196; log 15). -/
structure Blob where
  tags : Bool
  limit : Option Nat
  hdm : List Hdm
  /-- Landing image cache: offset and size, up to 16 MiB (R196). -/
  cacheBase : Nat
  cacheSize : Nat
  roots : List RootBlob
  /-- Threshold PFT of each voltage domain and its deepest offset in mV below nominal (R166). -/
  pft : Vector Nat 18
  deepest : Vector Nat 18
  digests : List (BitVec 256)
deriving DecidableEq, Repr

/-- The lifetime counters and histograms (R171). -/
structure LifeCounts where
  /-- Counter of each class of R159 (index = class code), and UNCLEAN_STOPS. -/
  counters : Vector Nat 19
  unclean : Nat
  /-- Chunk widths per core (6 bins), monitor triggers per core (3 bins), corrected errors per window and domain (16 bins),
  rollback size (8 bins), cruiser verdicts (4 bins). -/
  widths : Vector (Vector Nat 6) 128
  monitors : Vector (Vector Nat 3) 128
  corrected : Vector (Vector Nat 16) 18
  rollback : Vector Nat 8
  cruise : Vector Nat 4
deriving DecidableEq, Repr

/-- A lifetime record (R32): sequence number, whether CRC and MAC check, the counts it holds. -/
structure LifeRec where
  seq : Nat
  ok : Bool
  counts : LifeCounts
deriving DecidableEq, Repr

/-- The flash as the boot ROM and firmware find it (R31; log 15). -/
structure Flash where
  dirOk : Bool
  helperOk : Bool
  /-- The device certificate of the identity block (R30, R31). -/
  cert : List Byte
  slotA : SlotImage
  slotB : SlotImage
  secVersion : Nat
  secMacOk : Bool
  blob : Blob
  /-- The two lifetime banks: records in slot order (R32). -/
  bank0 : List LifeRec
  bank1 : List LifeRec
  /-- The reserved area, by flash offset: nothing of the device reads or writes it (R31). -/
  rsvd : Sparse Byte
deriving DecidableEq, Repr

/-- Board, boot, clocks, sideband, lifetime store (01). -/
structure Board where
  bootStep : Nat
  bootErr : Nat
  slotB : Bool
  throttle : Bool
  fatal : Bool
  predfail : Bool
  /-- The clock step that the power stepping of R11 holds, in MHz. -/
  capMhz : Nat
  /-- The arithmetic clock in force, and the step under way towards it (R13). -/
  clockMhz : Nat
  clockTarget : Nat
  /-- Power samples of the last 1 ms, newest first, in W, and the run of samples whose average is below 95 % of the limit. -/
  samples : List Nat
  belowRun : Nat
  stepping : BitVec 16
  temp : Int
  power : Nat
  limit : Nat
  meas : BitVec 256
  measPos : Fin 8
  /-- The word the last sideband read returned. -/
  sbData : W32
  i3cAddr : Option (Fin 128)
  /-- In-band interrupts raised, oldest first: 1 thermal threshold, 2 fatal stop, 3 predictive failure. -/
  ibi : List Nat
  runVersion : Nat
  minVersion : Nat
  idKey : Bool
  flash : Flash
  /-- Current lifetime bank, next slot in it, next sequence number (R32). -/
  lifeBank : Bool
  lifeSlot : Nat
  lifeSeq : Nat
  /-- Lifetime counts since the record in force at boot (R32, R171). -/
  life : LifeCounts
  /-- Voltage domains: offset in mV below nominal, above-threshold run, quiet windows, windows until it may deepen (R166). -/
  voff : Vector Nat 18
  vrun : Vector Nat 18
  vquiet : Vector Nat 18
  vlock : Vector Nat 18
  /-- Corrected-error and parity events of each domain's units in the present window (R166). -/
  domCount : Vector Nat 18
  /-- Ports: link trained, configuration requests get retry status (R27). -/
  trained : Vector Bool 2
  retry : Bool
  /-- Power state of the physical functions: D0 or D3hot (R15). -/
  d3hot : Vector Bool 2
  /-- SR-IOV VF Enable of VF 1 to 8 (R14). -/
  vfEnable : Vector Bool 8
  /-- Access Control Services control word of each port's function, as the host sets it (R15). -/
  acs : Vector (BitVec 16) 2
  /-- Precision Time Measurement enabled by the host on each port (R15, R104). -/
  ptmEnable : Vector Bool 2
  /-- Function resets under way (R18). -/
  flr : Vector Bool 10
  /-- The reset under way is warm, and by the watchdog (R27). -/
  warm : Bool
  watchdog : Bool
  /-- Tags on (R22). -/
  tags : Bool
  blob : Blob
  hdm : List Hdm
  /-- CXL ranges lost: base and size (R21). -/
  lostCxl : List (Nat × Nat)
deriving DecidableEq, Repr

/-- The device time base and its registers (R103, R104). -/
structure TimeBase where
  now : W64
  ctl : W32
  /-- Device time at which the last dialog completed. -/
  dialogAt : Option Nat
  offset : W32
  steps : W32
  /-- Slew in force, in ppm, and the offset it still removes, in ns. -/
  slewPpm : Int
  remaining : Int
  /-- What the slew has not yet moved the base by, in units of 10^-6 ns. -/
  frac : Int
deriving DecidableEq, Repr

/-! ### Translation and protection (02) -/

/-- An invalidation descriptor taken from the queue: R50's fields. -/
structure InvDesc where
  kind : Nat
  asid : Nat
  va : Nat
  pages : Nat
  seq : Nat
  /-- Mailbox slot whose INVALIDATE command waits for acceptance (R72). -/
  mbx : Option Nat
deriving DecidableEq, Repr

/-- Who waits for a page-in (R54): a trapped core, a deferred page, the packet at a parse point, a LAUNCH that waits for acceptance, a work
packet that completes, the release of a stream's frame, the status words and the control block that a stream owes, a
region's write-back, an encoder that writes its
frame. -/
inductive PageWaiter where
  | core (c : Nat)
  | copy (c : Nat) (page : Nat)
  | parser (p : Nat)
  | accept (p id : Nat)
  | work (p id : Nat)
  | stream (n : Nat)
  | owed (n : Nat)
  | rcb (r : Nat)
  | encoder (e : Fin 8)
deriving DecidableEq, Repr

/-- A page-in under way (R54). -/
structure PageIn where
  pib : Nat
  asid : Nat
  va : Nat
  shift : Nat
  leafAddr : Nat
  old : W64
  /-- The frame popped, or none while the pool is empty. -/
  frame : Option Nat
  /-- POOL_EMPTY has been posted for it (R55). -/
  emptied : Bool
  waiters : List PageWaiter
deriving DecidableEq, Repr

/-- An access-table update taken from ATUPD: master, record address, sequence number; the targets that have loaded it, and the record that
they loaded (R59). -/
structure AtUpd where
  master : Fin 256
  addr : Nat
  seq : W32
  loaded : List Nat
  wins : Vector (BitVec 128) 8
deriving DecidableEq, Repr

/-- A host bus page of the ATS cache (R46, R49): function, ASID, page; the translated page, once the host has answered the request. -/
structure AtsEntry where
  func : Nat
  asid : Nat
  page : Nat
  xlat : Option Nat
deriving DecidableEq, Repr

/-- A walk in flight (R47): its context, the page it is for, the cores whose misses joined it, and whether an invalidation has covered it since it
began (R51). -/
structure Walk where
  asid : Nat
  root : Nat
  va : Nat
  cores : List (Fin 128)
  stale : Bool
deriving DecidableEq, Repr

/-- Translation service, access tables, peer and export tables (02). -/
structure Trans where
  /-- Crew TLBs, one list a crew. -/
  crewTlb : Vector (List TlbEntry) 16
  /-- Walk cache: non-leaf entries as (ASID, level, VA prefix, address of the next table). -/
  walkCache : List (Nat × Nat × Nat × Nat)
  /-- Walks in flight, at most 4,096 (R47). -/
  walks : List Walk
  /-- ATS cache, most recent first. -/
  ats : List AtsEntry
  atsEnable : Vector Bool 10
  invq : BitVec 256
  queue : List InvDesc
  accepted : List InvDesc
  invAcc : W64
  invDone : W64
  invIrq : W32
  /-- The least SEQ that the next descriptor may carry (R50). -/
  nextSeq : Nat
  pageIns : List PageIn
  atupdAddr : W64
  atQueue : List AtUpd
  atDone : W32
  /-- 8 windows for each master ID, at every target that has not yet loaded an update under way (R57 to R59). -/
  windows : Vector (Vector (BitVec 128) 8) 256
  domainSelf : W32
  peers : Vector (BitVec 128) 16
  exports : Vector (BitVec 128) 64
deriving DecidableEq, Repr

/-! ### Front end (03) -/

/-- What a level of a parser holds (R86, R87). -/
structure Level where
  /-- Device virtual address of the level's next packet; at level 0 its ring index. While a loop is in progress, of the first packet
  of its body. -/
  next : Nat
  /-- Packets left from `next` on, unbounded (none) for the ring. -/
  left : Option Nat
  /-- Packets fetched ahead, oldest first. -/
  buf : List (BitVec 512)
  /-- Granules of the next packet to be fetched that have been read already: number, value (R87, R88). -/
  early : List (Nat × W64)
  /-- A loop is in progress: its packet, whether its body has not been loaded yet, passes left, the held body from position `bodyFrom` on,
  its length, next position in it. -/
  active : Bool
  loopPkt : BitVec 512
  loopNew : Bool
  passes : Nat
  bodyFrom : Nat
  body : List (BitVec 512)
  bodyLen : Nat
  bodyPos : Nat
  /-- Units that a PRED still skips at this level. -/
  skip : Nat
deriving DecidableEq, Repr

/-- A work packet dispatched and not complete (R90). -/
structure Work where
  id : Nat
  pkt : BitVec 512
  /-- Executor: 0 done, ready to complete; 1 bucker; 2 copy channel; 3 STREAM; 4 REGION. -/
  exec : Nat
  /-- The most recent work packet of its queue (R91). -/
  latest : Bool
  /-- The frame whose indirect buffer holds it. -/
  frame : Option Nat
  /-- Operator sequence numbers it was given (R135). -/
  ops : List Nat
  /-- The lowest member that ended in an unresolved fault (R95). -/
  faulted : Option Nat
  /-- Its undispatched steps were dropped (R114). -/
  cancelled : Bool
  /-- Bytes the copy channel has copied. -/
  copied : Nat
  /-- The region in whose context it performs, the function it belongs to, the level and address it parsed at, its level-0 index (R74, R80, R98). -/
  region : Nat
  func : Nat
  level : Nat
  addr : Nat
  index0 : Nat
  /-- Generation of its scope's entry as captured at parse (R212). -/
  gen : Nat
  /-- Releases that its completion's release passes on: of the cores that ran it (R91). -/
  rels : List Release
  /-- The final status section of the region that it has destroyed: the region that its control block is translated in, the block's address, the
  section (R130). -/
  final : Option (Nat × Nat × Nat)
deriving DecidableEq, Repr

/-- The parse state of a hardware slot or of a stream queue (R86 to R91). -/
structure Parser where
  /-- Queue held, or none; a stream's hidden queue has none. -/
  queue : Option Nat
  /-- The WPTR the slot last read. -/
  wptr : Nat
  levels : List Level
  work : List Work
  /-- TLWAIT in progress: address, value, device time at which it expires. -/
  tlwait : Option (Nat × Nat × Option Nat)
  /-- The limit in µs that a saved wait record has left, for the TLWAIT that parses again (R100). -/
  waitLeft : Option Nat
  unmapping : Bool
  /-- A LAUNCH or BUNDLE waits at dispatch for the bucker's acceptance (R134, R135). -/
  stalled : Bool
  /-- Device time since which nothing is left to parse (R79). -/
  idleSince : Nat
  /-- The frame whose indirect buffer is parsed. -/
  frame : Option Nat
  /-- Releases that completed packets of the queue have made (R91). -/
  rels : List Release
deriving DecidableEq, Repr

/-- What of a queue's parse state its descriptor has no field for while it is unmapped (log 23): the units that each level still skips, the
LOOP packet of each level, the releases of its completed packets. -/
structure Kept where
  skips : List Nat
  loops : List (BitVec 512)
  rels : List Release
deriving DecidableEq, Repr

/-- Front-end registers and state (03). -/
structure FrontEnd where
  features : BitVec 256
  featack : Vector (BitVec 256) 10
  registered : Vector Bool 10
  qdbase : Nat
  lwbase : W32
  gated : Bool
  mbxDone : Vector (BitVec 8) 10
  /-- Doorbells rung and not yet answered (R71). -/
  mbxRung : Vector (BitVec 8) 10
  /-- Number of the next work packet dispatched. -/
  nextWork : Nat
  unmapDone : BitVec 128
  /-- Pages of 4 KiB of BAR0 that firmware has assigned to each virtual function (R36). -/
  vfPages : Vector (List Nat) 8
  /-- SLOTCTL.QUEUE as last written (R68). -/
  slotQueue : Vector Nat 128
  /-- Queue held by each slot, UNMAPPING bit (R68). -/
  parsers : Vector Parser 128
  /-- Work dispatched by queues no longer mapped (R99): queue, work. -/
  orphans : List (Nat × Work)
  /-- Wake latch (R79). -/
  latchMap : Sparse (Option Nat)
  latchBits : BitVec 128
  latchFifo : List Nat
  latchOverflow : Bool
  /-- Order in which queues became runnable (R76). -/
  runnableSince : List Nat
  /-- Parse state of unmapped queues beside their descriptors. -/
  kept : Sparse Kept
deriving DecidableEq, Repr

/-! ### Streams and encoders (04) -/

/-- What a status word of a frame ring says beside its sequence number (R117). -/
structure SlotWord where
  state : Nat
  frame : Nat
  rung : Nat
  interp : Bool
  late : Bool := false
  filled : Bool := false
  key : Bool := false
  trunc : Bool := false
  bytes : Nat := 0
deriving DecidableEq, Repr

/-- A tile as the encoder's image cache holds it (R119, R120): column, row, and its samples as the record brings them. -/
structure Tile where
  x : Nat
  y : Nat
  data : List Byte
deriving DecidableEq, Repr

/-- A frame job in flight (R110, R112). -/
structure FrameJob where
  frame : Nat
  release : Nat
  /-- The moment of its release (R112). -/
  releasedAt : Nat
  deadline : Nat
  rung : Nat
  est : Nat
  steps : Nat
  retired : Nat
  minSlack : Int
  neg : Bool
  cancelled : Bool
  /-- Slot of the frame ring, or none for a frame without output. -/
  slot : Option Nat
  /-- The slot has left ENCODING. -/
  left : Bool
  /-- A status word that a page-in holds up, and the master that writes it (R118, R85). -/
  owes : Option (Nat × SlotWord)
  /-- A fault has ended the job; it stays until its status word is written (R108). -/
  faulted : Bool
deriving DecidableEq, Repr

/-- A stream (R105 to R118). -/
structure Stream where
  region : Nat
  func : Nat
  scb : Nat
  /-- The region in whose context that address is translated (R80). -/
  scbCtx : Nat
  /-- 0 STOPPED, 1 RUNNING, 2 STOPPING. -/
  state : Nat
  /-- The SCB and the ECB as validated. -/
  img : BitVec 4096
  ecb : BitVec 512
  anchorA : Nat
  anchorF0 : Nat
  frame : Nat
  rung : Nat
  setrung : Option Nat
  dropPending : Bool
  /-- The DEFERRED count of the present frame has been made. -/
  deferredNow : Bool
  /-- How far the release of the present frame has come: 1 the rung is chosen, 2 the context map and 3 the frame-job block are written (R110). -/
  stage : Nat
  run : Nat
  released : Nat
  ontime : Nat
  late : Nat
  drops : Nat
  climbs : Nat
  deferred : Nat
  ringdrop : Nat
  negslack : Nat
  runghist : W64
  lastfin : Nat
  minslack : W64
  stopcause : Nat
  jobs : List FrameJob
  /-- Finished jobs whose write-back of the control block a page-in holds up (R85, R110). -/
  owedFin : Nat
  /-- Writes made to each slot's status word (R117). -/
  seqs : Vector Nat 64
  encoder : Option (Fin 8)
  /-- Destroy the stream when it has stopped. -/
  destroying : Bool
  parser : Parser
  /-- Indirect buffers released and not yet parsed: frame, address, packets (R110). -/
  parseQueue : List (Nat × Nat × Nat)
  /-- Encoding state: frames encoded since the last key frame, the next one must be a key frame, frames without output. -/
  sinceKey : Nat
  forceKey : Bool
  noOutput : List Nat
  /-- Frames without a slot that no encoded frame has followed (R124). -/
  noSlot : List Nat
  /-- The previous encoded frame (R121). -/
  prev : List Tile
deriving DecidableEq, Repr

/-- An encoder (R120 to R126). -/
structure Encoder where
  /-- The frame being assembled: stream, frame. -/
  current : Option (Nat × Nat)
  /-- Tiles arrived. -/
  tiles : List Tile
  /-- Records held for the next frame (R120): stream, record header, samples. -/
  held : List (Nat × BitVec 512 × List Byte)
  filled : Bool
deriving DecidableEq, Repr

/-! ### Regions, operators, steps (05) -/

/-- A region (R127 to R130), with its scope table entries 1 to 14 (R209). -/
structure Region where
  exist : Bool
  parent : Nat
  func : Nat
  /-- The control block as accepted. -/
  rcb : BitVec 2048
  rcbAddr : Nat
  /-- The region in whose context that address is translated (R80). -/
  rcbCtx : Nat
  /-- 0 ACTIVE, 1 QUIESCING, 2 QUIESCED. -/
  state : Nat
  retired : W64
  faults : W32
  frestart : W32
  fresume : W32
  promoted : W32
  scopes : Vector (BitVec 256) 16
  /-- Killed by a lost context record (R164). -/
  lost : Bool
  destroying : Bool
  swapped : Bool
  /-- A swap of its partition is under way (R142, R153). -/
  swapping : Bool
  /-- Step records and walk states that its save area holds while it is swapped out (R153). -/
  swapSteps : Nat
  swapWalks : Nat
deriving DecidableEq, Repr

/-- An operator accepted by the bucker (R134 to R137). -/
structure Operator where
  opseq : Nat
  region : Nat
  /-- Queue or stream parser, and work packet, that launched it; member index in a bundle. -/
  parser : Nat
  work : Nat
  member : Nat
  /-- The other members of its bundle: index and number of steps. -/
  peers : List (Nat × Nat)
  opbAddr : Nat
  opb : BitVec 512
  lpb : Nat
  hdr : BitVec 512
  /-- Parameter value of each patch record: word, kind, value (R134, R298). -/
  patches : List (Nat × Nat × Int)
  fmts : List (BitVec 256)
  image : Nat
  total : Nat
  scope : Nat
  fjpb : Nat
  rung : Nat
  stream : Option (Nat × Nat)
  /-- Next linear index of the walk, and steps retired. -/
  walk : Nat
  done : List Nat
  /-- No further step is dispatched (R95, R114). -/
  stopped : Bool
  /-- The acquire of its packet: the releases it may observe, its scope's entry and index (R91). -/
  acq : List Release
  acqEntry : BitVec 256
  acqIdx : Fin 16
  /-- Hand-overs along the ordered dimension: linear index of the step that retired, its release (R137). -/
  hand : List (Nat × Release)
deriving DecidableEq, Repr

/-- A tile step that is ready, placed, running or pre-empted: the record of R139 as fields. -/
structure Step where
  stepid : Nat
  op : Nat
  region : Nat
  coord : Nat
  /-- 0 READY, 1 PLACED, 2 RUNNING, 3 PREEMPTED, 4 SAVED. -/
  state : Nat
  core : Nat
  attempt : Nat
  eclass : Nat
  readyAt : Nat
  placedAt : Nat
  saveSlot : Option Nat
  pos : Nat
  /-- Device time of the last promotion or of readiness. -/
  since : Nat
  /-- The core it is not to run on after an abort (R162). -/
  avoid : Option Nat
  /-- A trap is pending in its context record (R271). -/
  trapPending : Bool
  /-- Promotions since it became ready (R141). -/
  promos : Nat
  /-- What its last placement gave it to work under (R131). -/
  ctx : Option StepCtx
  /-- The core whose step is being saved for its sake (R150, R151). -/
  claim : Option Nat
deriving DecidableEq, Repr

/-- A context record: the frozen core, in the shadow store or drained to the save area (R152). The bytes of its scratch, and their poison, lie
there in memory; its registers, accumulators and queues are held here (log 57). -/
structure CtxRecord where
  stepid : Nat
  region : Nat
  core : Core
  drained : Bool
  size : Nat
  /-- Where it lies in the shadow store or in the save area, in KiB. -/
  at' : Nat
deriving DecidableEq, Repr

/-- A step sampled by the cruiser (R169). -/
structure Sample where
  stepid : Nat
  core : Nat
  region : Nat
  sig : W64
  widths : List (Fin 4)
deriving DecidableEq, Repr

/-- An image in the loader's cache (R196): the ASID and the address it is kept by, its offset in the cache's Landing range, its length. -/
structure Cached where
  asid : Nat
  addr : Nat
  off : Nat
  len : Nat
deriving DecidableEq, Repr

/-- Regions and work (05). -/
structure Sched where
  regions : Sparse Region
  ops : List Operator
  /-- LAUNCHes and BUNDLEs that wait for operator slots: parser, work id. -/
  waiting : List (Nat × Nat)
  /-- The loader's image cache, most recent first (R196). -/
  images : List Cached
  steps : List Step
  records : List CtxRecord
  opseq : W32
deriving DecidableEq, Repr

/-! ### Reliability (06) -/

/-- RAS registers (R158), poison and the cruiser (R155, R169). -/
structure Ras where
  elogBase : Nat
  elogLog2 : Nat
  elogSeq : W32
  scrubCtl : W32
  scrubPass : W32
  /-- Line that the scrubber has read and is to write back poisoned (R156). -/
  scrubbing : Option Nat
  crCtl : W32
  crSeed : W32
  crSampled : W32
  crMatch : W32
  crMismatch : W32
  crDropped : W32
  samples : List Sample
  /-- Poisoned parts of 32 bytes, by address ÷ 32: both of a 64-byte block of device memory, or one SRAM sector (R155). -/
  poison : List Nat
  /-- Those among them whose integrity tag failed (R154, R159). -/
  tagBad : List Nat
deriving DecidableEq, Repr

/-! ### Flumes, scoped traffic, timestamps (08, 14) -/

/-- A flume (R373, R119). -/
structure Flume where
  /-- Bound to a region, or owned by a stream. -/
  region : Option Nat
  stream : Option Nat
  /-- Landing offset of slot 0, element size in bytes, log2 of the slots. -/
  base : Nat
  esize : Nat
  slog2 : Nat
  inn : W32
  out : W32
  /-- Elements reserved whose copy has not finished (R374). -/
  pending : List Nat
  /-- The releases of the elements that are in it, by element number (R227). -/
  rels : List (Nat × Release)
deriving DecidableEq, Repr

/-- Operation of a scoped write in flight. -/
inductive WriteOp where
  | data
  | red (op : MemRed)
  | line (op : LineOp)
deriving DecidableEq, Repr

/-- A reduction whose operand the target's write queue has combined with that of another (R221): its core, its strand with the handler's number,
the S sequence number and program-order number of its word, its number on `tl6`. -/
structure Joined where
  core : Fin 128
  strand : Strand
  hnum : Nat
  seq : Nat
  po : Nat
  cmd : Nat
deriving DecidableEq, Repr

/-- A scoped write issued and not yet performed or acknowledged (R207). -/
structure InFlight where
  core : Fin 128
  /-- The strand that made it, or that has acquired it since; of a handler strand its number on `tl7` (R185, R219). -/
  strand : Strand
  hnum : Nat
  op : WriteOp
  pa : Nat
  va : W64
  data : List Byte
  /-- Further bytes of the same granule, apart from those at `pa` (R206). -/
  more : List (Nat × List Byte)
  /-- S sequence number of the word. -/
  seq : Nat
  po : Nat
  /-- Its number on tl6, or 0 (R184). -/
  cmd : Nat
  performed : Bool
  stamp : Nat
  space : Space
  /-- Reductions whose operands its own holds (R221). -/
  joined : List Joined
deriving DecidableEq, Repr

/-- A dirty line of a crew cache (R192): the crew, the line, the mask of its dirty 32-byte sectors, and the bytes that the line's home still
holds. -/
structure DirtyLine where
  crew : Nat
  line : Nat
  sectors : Nat
  below : List Byte
deriving DecidableEq, Repr

/-- A clean line of a crew cache (R192, R201): the crew, the line, the lease that the crew holds it to, the WTS it was granted with, its bytes. -/
structure CrewLine where
  crew : Nat
  line : Nat
  valid : Nat
  wts : Nat
  data : List Byte
deriving DecidableEq, Repr

/-- Scoped traffic, clocks and timestamps outside the cores (08). -/
structure Fabric where
  inflight : List InFlight
  /-- WTS and RTS of lines plus 1, by line address, and for the Landing by table entry; 0 where none is held (R201). -/
  wts : Sparse Nat
  rts : Sparse Nat
  /-- Floor of each channel (R201). -/
  floors : Vector Nat 24
  /-- Clocks of other agents: engine contexts 0 to 7 of core n at 8 n, then ports, CXL, front end, encoders, cruiser, scrubber. -/
  eclock : Sparse Nat
  horizon : Nat
  flumes : Vector Flume 256
  /-- Barrier objects held in the sync caches, by physical address ÷ 32, most recent first (R195). -/
  sync : List Nat
  /-- Dirty lines of the crew caches, most recent first (R192); latent uncorrectable ones (R163). -/
  dirty : List DirtyLine
  badDirty : List Nat
  /-- Clean lines of the crew caches, most recent first (R192). -/
  clean : List CrewLine
  /-- Releases whose write, or a later one, an 8-byte granule holds (R214): the granule's address ÷ 8. -/
  rels : List (Nat × Release)
deriving DecidableEq, Repr

/-! ### Outside -/

/-- What the device has sent outside or posted to firmware. -/
inductive Note where
  /-- Firmware events: QWAKE, QSCAN, UNMAPDONE, PAGEIN, POOL_EMPTY, FRAME_RETURN (R78, R54). -/
  | qwake (q : Nat)
  | qscan
  | unmapDone (slot : Nat)
  | pagein (asid va old frame : Nat)
  | poolEmpty (pib : Nat)
  | frameReturn (asid frame size : Nat)
  | fwIrq
  /-- MSI-X vector of a function. -/
  | msix (func vec : Nat)
  /-- A read completion to a function; poisoned, or Unsupported Request as none. -/
  | data (func : Nat) (bytes : Option (List Byte)) (poison : Bool)
  | peerData (peer : Nat) (bytes : Option (List Byte)) (poison : Bool)
  /-- A configuration request: retry status, or a normal completion (R27). -/
  | config (func : Nat) (retry : Bool)
  | atsComplete (func : Nat)
  /-- An ATS translation request for a bus page (R49). -/
  | atsRequest (func page : Nat)
  /-- A memory request that leaves through a port: Translated or not, its bus address, its length, a write or a read (R49, R63). -/
  | outbound (port : Nat) (translated : Bool) (addr len : Nat) (write : Bool)
  /-- Unsupported Request for a write or a request on the wrong port (R17). -/
  | unsupported (func : Nat)
deriving DecidableEq, Repr

/-- Who moves next, when the machine itself does not decide (log 1). -/
inductive Input where
  /-- A step of the device or of the outside: one of the constructors of Instr that are no instruction words. -/
  | event (i : Instr)
  /-- The strand that moves when the agenda is empty. -/
  | focus (core : Fin 128) (strand : Strand)
  /-- The head of a queue of a core tries to issue. -/
  | issue (core : Fin 128) (q : Qid)
  /-- The head of a queue writes a vector or mask register while words of another queue issue that no order binds to it: before each of them the
  parts that it has written, as (16 × register + row, 64-byte part, or 4 for a mask row) (R176). -/
  | overlap (core : Fin 128) (q other : Qid) (parts : List (List (Nat × Nat)))
  /-- The queues of a core keep their words until they are asked to issue. -/
  | hold (core : Fin 128) (on : Bool)
  /-- Time passes, in ns. -/
  | tick (ns : Nat)
  /-- The owner of host or peer memory changes it (log 18). -/
  | poke (pa : Nat) (bytes : List Byte)
  /-- An error strikes a register: its parity is bad from now on (R157). -/
  | upset (core : Fin 128) (reg : RegTag)
  /-- An uncorrectable error strikes a granule, with its tag or its ECC, or a dirty line, or a context record (R155, R163, R164). -/
  | poison (pa : Nat) (tag : Bool)
  | badDirty (line : Nat)
  /-- A configuration write of the host: VF Enable of a virtual function, or the power state of a port's function (R14, R15). -/
  | vfEnable (vf : Fin 8) (on : Bool)
  | powerState (port : Fin 2) (d3hot : Bool)
  /-- A configuration write of the host: ATS enabled on a function (R49). -/
  | atsEnable (f : Fin 10) (on : Bool)
  /-- Configuration writes of the host: the control word of Access Control Services, Precision Time Measurement (R15). -/
  | acsControl (port : Fin 2) (v : BitVec 16)
  | ptmEnable (port : Fin 2) (on : Bool)
  /-- The board reads or writes a sideband register at an I3C address (R24, R25), or rewrites the flash (R28, R31). -/
  | sbRead (addr : Fin 128) (off : Nat)
  | sbWrite (addr : Fin 128) (off : Nat) (v : W32)
  | sbFlash (f : Flash)
  /-- The hottest junction's temperature changes, in units of 0.125 °C (R12, R25). -/
  | temperature (t : Int)
  /-- Boot step 3: PCI Express link training begins (R27). -/
  | trainingBegins
  /-- Firmware's self-test has passed, after its image has booted (R29). -/
  | selfTest
  /-- A demand read of a master meets a corrected error at an address (R154). -/
  | corrected (pa : Nat) (master : Fin 256)
  /-- A corrected error of an accumulator or of instruction memory of a core; a parity error of an L1 line (R154). -/
  | coreCorrected (core : Fin 128) (imem : Bool)
  | l1Parity (core : Fin 128) (line : Nat)
  /-- An uncorrectable error of an accumulator tile, or of the block at a position of an operand FIFO (R154). -/
  | accError (core : Fin 128) (tile : Fin 4)
  | fifoError (core : Fin 128) (b : Bool) (pos : Nat)
  /-- A walk for a core's miss begins (R47). -/
  | walkBegins (core : Fin 128) (va : Nat)
  /-- The host answers an ATS translation request (R49). -/
  | atsAnswer (f : Fin 10) (page xlat : Nat)
  /-- A target loads the access-table update under way (R59). -/
  | targetLoads (target : Nat)
  /-- Firmware assigns pages of BAR0 to a virtual function (R36). -/
  | assignPages (vf : Fin 8) (pages : List Nat)
  /-- The timestamp cache of a channel evicts a line (R201). -/
  | evictStamp (line : Nat)
  /-- Firmware changes a queue's PRIO, or its ERRVEC (R74). -/
  | queuePrio (q : Fin 4096) (prio : BitVec 8)
  | queueErrvec (q : Fin 4096) (vec : Fin 64)
  /-- Firmware swaps a queue's PWAKE for 0 after UNMAPDONE (R99). -/
  | pwakeSwap (q : Fin 4096)
  /-- The scrubber's write-back reaches the channel or bank (R156). -/
  | scrubWriteBack
  /-- A target's write queue combines the operands of two pending reductions to one element (R221): places in the list of writes in flight. -/
  | combine (i j : Nat)
  /-- A parser reads one granule of the packet that a level fetches next (R87, R88). -/
  | fetchGranule (p : Fin 1152) (level : Fin 5) (g : Fin 8)
deriving DecidableEq, Repr

end Sys2Proof.Machine
end

