-- ==== Sys2Proof/Machine/State.lean ====
section
/-! DEFINITION. The state of the device and its value after a cold reset (spec/01 R23, R26; the reset values that no rule gives
are named in log 3). -/

namespace Sys2Proof.Machine

/-- Why the machine stops. -/
inductive Fault where
  /-- Raised by `step` when hardware has stopped all clocks but the sideband (R12) and the next input is no sideband access.
  Safe: the spec says that the device stays stopped until a cold reset. -/
  | clocksStopped
deriving DecidableEq, Repr

/-- Why an instruction has no meaning. -/
inductive Refusal where
  /-- Raised by `exec` for an instruction that is not modelled yet, by its mnemonic. Safe: nothing can be proved of a run
  that goes on. -/
  | notModelled (mnemonic : String)
deriving DecidableEq, Repr

/-- The Gnoro ZG1. -/
structure State where
  cores : Vector Core 128
  /-- Queues of the core keep their words until asked to issue (log 1). -/
  held : Vector Bool 128
  mem : Memory
  board : Board
  tb : TimeBase
  trans : Trans
  fe : FrontEnd
  streams : Sparse (Option Stream)
  encoders : Vector Encoder 8
  sched : Sched
  ras : Ras
  fab : Fabric
  notes : List Note
  /-- Inputs still to come, first first (log 1). -/
  agenda : List Input
  /-- The strand that moves when the agenda is empty (log 1). -/
  focusCore : Fin 128
  focusStrand : Strand
  /-- Counter that free values are drawn with (log 11). -/
  fresh : Nat
deriving DecidableEq, Repr

/-! ### Reset values -/

def Regs.reset : Regs :=
  { s := Vector.replicate 32 0, p := (Vector.replicate 8 false).set 0 true, lc := Vector.replicate 4 0, v := [], k := [], acc := [] }

def SysRegs.reset : SysRegs :=
  { vl := 0, vtype := 0, fpcr := 0, fpsr := 0, ftbase := 0, rotb := 0, qwlim := 16777216, stepid := 0, argbase := 0, coord := 0,
    lpbaddr := 0, opbaddr := 0, fjpb := 0, stepinfo := 0, cycle := 0, trapcause := 0, trapaddr := 0, trapd0 := 0, trapd1 := 0 }

/-- NEST0 to NEST5 with N = 1, MGRP 0 (R398). -/
def MCfg.reset : MCfg := { nest := Vector.replicate 6 1, mgrp := 0 }

def MatRegs.reset : MatRegs :=
  { cfg := MCfg.reset, win := Vector.replicate 7 0, aprod := 0, bprod := 0, acons := 0, bcons := 0, ft := Vector.replicate 16 0, skipped := 0 }

def Engines.reset : Engines :=
  { cpy := Vector.replicate 2 [], deferred := [], gos := [], lastGo := none, wins := [], rings := [], sends := [],
    issued := Vector.replicate 8 0, tl := Vector.replicate 8 0, fcode := Vector.replicate 8 0, fifoA := [], fifoB := [], aDone := 0, bDone := 0, ranges := [] }

def Handler.reset : Handler :=
  { running := false, pc := 0, h := Vector.replicate 16 0, p := (Vector.replicate 4 false).set 0 true, qwlim := 16777216, num := 0, wait := none }

def MemState.reset : MemState :=
  { clock := 0, l1 := [], lob := [], tlb := [], handed := none, cc := [], epoch := 0, stamps := Vector.replicate 8 [], marks := Vector.replicate 11 none,
    fences := Vector.replicate 4 [], seen := Vector.replicate 4 [] }

def TilePoint.reset : TilePoint :=
  { po := 0, seqL := 0, seqX := 0, rotb := 0, aprod := 0, bprod := 0, acons := 0, bcons := 0, fifo := Vector.replicate 8 0,
    issued := Vector.replicate 8 0, nonIdem := false, written := 0, whole := Vector.replicate 4 0, unclean := 0 }

def TileStart.reset : TileStart :=
  { point := TilePoint.reset, next := none, reachedL := false, reachedX := false, retainedL := [], retainedX := [], stores := [], firstUe := none }

def TrapState.reset : TrapState :=
  { composite := 0, active := none, back := true, detected := none, engineFault := none, multi := false, later := none, outer := none, deferTraps := [], since := 0 }

def Image.reset : Image :=
  { addr := 0, asid := 0, patches := [], entry := 0, trapent := 0, hastrap := false, slip := 64, resumable := false, ncode := 0, carry := [], scrneed := 0 }

def StepCtx.reset : StepCtx :=
  { region := 0, coreMask := 0, scratchQuota := 0, landingBase := 0, landingQuota := 0, root := 0, asid := 0, pib := 0, opseq := 0 }

/-- No step has run: the numbers of the last region and operator are none that exists. -/
def Core.reset : Core :=
  { phase := .idle, mbx := 0, stepRec := 0, imem := [], img := Image.reset, ctx := StepCtx.reset, pc := 0, po := 0,
    seq := Vector.replicate 4 0, qL := [], qX := [], qS := [], heldC := none, waits := Vector.replicate 4 none,
    push := Vector.replicate 8 0, pop := Vector.replicate 8 0, regs := Regs.reset, sys := SysRegs.reset, mat := MatRegs.reset,
    eng := Engines.reset, hnd := Vector.replicate 3 Handler.reset, arrivals := [], enqOffer := none, enqAnswer := none,
    mem := MemState.reset, tile := TileStart.reset, trap := TrapState.reset, arrdrop := 0, loreplay := 0, parity := [], poison := [], origins := [],
    replay := Vector.replicate 3 [], sig := 0, replayable := true, widths := [], clean := true,
    lastRegion := 4096, lastOp := 4294967296, carryOk := false, loading := false, resumePhase := .running, idleSince := 0, saving := false, saveAt := 0, shown := 0, uePa := 0, ueStrand := .main, popped := false }

/-- The blob of the model's flash (log 15): tags on, no power limit, no HDM decoder, the image cache of R196, one root region for
the physical function of port 0, the thresholds of R166. -/
def Blob.dflt : Blob :=
  { tags := true, limit := none, hdm := [], cacheBase := 0x7C00000, cacheSize := 0x400000, roots := [], pft := Vector.replicate 18 64,
    deepest := Vector.replicate 18 60, digests := [] }

def Flash.dflt : Flash :=
  { dirOk := true, helperOk := true, cert := [], slotA := { chainOk := true, sigOk := true, version := 0, digest := 0 },
    slotB := { chainOk := true, sigOk := true, version := 0, digest := 0 }, secVersion := 0, secMacOk := true, blob := Blob.dflt, bank0 := [], bank1 := [], rsvd := [] }

/-- No counts. -/
def LifeCounts.zero : LifeCounts :=
  { counters := Vector.replicate 19 0, unclean := 0, widths := Vector.replicate 128 (Vector.replicate 6 0),
    monitors := Vector.replicate 128 (Vector.replicate 3 0), corrected := Vector.replicate 18 (Vector.replicate 16 0),
    rollback := Vector.replicate 8 0, cruise := Vector.replicate 4 0 }

def Board.reset : Board :=
  { bootStep := 0, bootErr := 0, slotB := false, throttle := false, fatal := false, predfail := false, capMhz := 3300, clockMhz := 3300,
    clockTarget := 3300, samples := [], belowRun := 0, stepping := 0, temp := 0, power := 0, limit := 1500, meas := 0, measPos := 0, sbData := 0,
    i3cAddr := none, ibi := [], runVersion := 0, minVersion := 0, idKey := false, flash := Flash.dflt, lifeBank := false, lifeSlot := 0,
    lifeSeq := 0, life := LifeCounts.zero, voff := Vector.replicate 18 0, vrun := Vector.replicate 18 0,
    vquiet := Vector.replicate 18 0, vlock := Vector.replicate 18 0, domCount := Vector.replicate 18 0, trained := Vector.replicate 2 false, retry := true,
    d3hot := Vector.replicate 2 false, vfEnable := Vector.replicate 8 false, acs := Vector.replicate 2 0, ptmEnable := Vector.replicate 2 false, flr := Vector.replicate 10 false, warm := false, watchdog := false, tags := false,
    blob := Blob.dflt, hdm := [], lostCxl := [] }

def TimeBase.reset : TimeBase := { now := 0, ctl := 0, dialogAt := none, offset := 0, steps := 0, slewPpm := 0, remaining := 0, frac := 0 }

/-- The one window that master 0x8C has after a reset: everything, with R, W and A (R60). -/
def fullWindow : BitVec 128 := BitVec.ofNat 128 (0x3FFFFFFFF * 2 ^ 94 + 15)

def Trans.reset : Trans :=
  { crewTlb := Vector.replicate 16 [], walkCache := [], walks := [], ats := [], atsEnable := Vector.replicate 10 false, invq := 0, queue := [],
    accepted := [], invAcc := 0, invDone := 0, invIrq := 0, nextSeq := 0, pageIns := [], atupdAddr := 0, atQueue := [], atDone := 0,
    windows := (Vector.replicate 256 (Vector.replicate 8 0)).set 0x8C ((Vector.replicate 8 0).set 0 fullWindow),
    domainSelf := 0, peers := Vector.replicate 16 0, exports := Vector.replicate 64 0 }

def Parser.reset : Parser :=
  { queue := none, wptr := 0, levels := [], work := [], tlwait := none, waitLeft := none, unmapping := false, stalled := false,
    idleSince := 0, frame := none, rels := [] }

def FrontEnd.reset : FrontEnd :=
  { features := 0, featack := Vector.replicate 10 0, registered := Vector.replicate 10 false, qdbase := 0x2000000000, lwbase := 0,
    gated := false, mbxDone := Vector.replicate 10 0, mbxRung := Vector.replicate 10 0, nextWork := 0, unmapDone := 0, vfPages := Vector.replicate 8 [], slotQueue := Vector.replicate 128 0, parsers := Vector.replicate 128 Parser.reset, orphans := [],
    latchMap := [], latchBits := 0, latchFifo := [], latchOverflow := false, runnableSince := [],
    kept := [] }

def Encoder.reset : Encoder := { current := none, tiles := [], held := [], filled := false }

def Sched.reset : Sched := { regions := [], ops := [], waiting := [], images := [], steps := [], records := [], opseq := 0 }

/-- What a region number that no region has reads as. -/
def Region.none : Region :=
  { exist := false, parent := 0, func := 0, rcb := 0, rcbAddr := 0, rcbCtx := 0, state := 2, retired := 0, faults := 0, frestart := 0, fresume := 0,
    promoted := 0, scopes := Vector.replicate 16 0, lost := false, destroying := false, swapped := false, swapping := false, swapSteps := 0, swapWalks := 0 }

/-- SCRUB_CTL resets to 24 hours, enabled (R158). -/
def Ras.reset : Ras :=
  { elogBase := 0x2100000000, elogLog2 := 8, elogSeq := 0, scrubCtl := 0x10018, scrubPass := 0, scrubbing := none, crCtl := 0, crSeed := 0, crSampled := 0,
    crMatch := 0, crMismatch := 0, crDropped := 0, samples := [], poison := [], tagBad := [] }

def Flume.reset : Flume := { region := none, stream := none, base := 0, esize := 0, slog2 := 0, inn := 0, out := 0, pending := [], rels := [] }

def Fabric.reset : Fabric :=
  { inflight := [], wts := [], rts := [], floors := Vector.replicate 24 0, eclock := [], horizon := 0, flumes := Vector.replicate 256 Flume.reset, sync := [], dirty := [], badDirty := [], clean := [], rels := [] }

/-- The machine right after a cold reset: boot step 0, nothing in memory, every core idle. -/
def State.reset : State :=
  { cores := Vector.replicate 128 Core.reset, held := Vector.replicate 128 false, mem := [], board := Board.reset, tb := TimeBase.reset,
    trans := Trans.reset, fe := FrontEnd.reset, streams := [], encoders := Vector.replicate 8 Encoder.reset, sched := Sched.reset,
    ras := Ras.reset, fab := Fabric.reset, notes := [], agenda := [], focusCore := 0, focusStrand := .main, fresh := 0 }

end Sys2Proof.Machine
end

