-- ==== Sys2Proof/Machine/Base.lean ====
section
/-! DEFINITION. Named operations over sparse arrays, memory, cores, registers, queues and tokens, and the error log. -/

namespace Sys2Proof.Machine

/-! ### Sparse arrays -/

/-- The value at a key; `d` is what an unlisted key reads as. -/
def sget {β : Type} (d : β) : Sparse β → Nat → β
  | [], _ => d
  | (k, v) :: t, a => if k = a then v else sget d t a

/-- The array with every entry of a key removed. -/
def sdel {β : Type} : Sparse β → Nat → Sparse β
  | [], _ => []
  | (k, v) :: t, a => if k = a then sdel t a else (k, v) :: sdel t a

/-- The array with an entry put before the first greater key. -/
def sins {β : Type} : Sparse β → Nat → β → Sparse β
  | [], a, x => [(a, x)]
  | (k, v) :: t, a, x => if a < k then (a, x) :: (k, v) :: t else (k, v) :: sins t a x

/-- Write in canonical form: the value an unlisted key reads as removes the entry. -/
def sset {β : Type} [DecidableEq β] (d : β) (m : Sparse β) (a : Nat) (x : β) : Sparse β :=
  if x = d then sdel m a else sins (sdel m a) a x

/-- The canonical form: keys strictly rising, no entry equal to `d`. -/
def swf {β : Type} [DecidableEq β] (d : β) : Sparse β → Bool
  | [] => true
  | [(_, v)] => v != d
  | (k, v) :: (k', v') :: t => v != d && k < k' && swf d ((k', v') :: t)

/-! ### Bytes -/

/-- What a byte of memory that nothing has written reads as (log 4). -/
def Memory.dflt : Byte := 0

/-- The canonical form of memory. -/
def Memory.wf (m : Memory) : Bool := swf Memory.dflt m

/-- Bytes as an unsigned number, least significant first (R3). -/
def leNat : List Byte → Nat
  | [] => 0
  | b :: t => b.toNat + 256 * leNat t

/-- The `n` low bytes of a number, least significant first (R3). -/
def natLe : Nat → Nat → List Byte
  | 0, _ => []
  | n + 1, v => BitVec.ofNat 8 v :: natLe n (v / 256)

/-- `n` bytes of memory from a physical address upward. -/
def memRead (m : Memory) (pa : Nat) : Nat → List Byte
  | 0 => []
  | n + 1 => sget Memory.dflt m pa :: memRead m (pa + 1) n

/-- Memory with bytes written from a physical address upward. -/
def memWrite (m : Memory) (pa : Nat) : List Byte → Memory
  | [] => m
  | b :: t => memWrite (sset Memory.dflt m pa b) (pa + 1) t

/-- A little-endian number of `n` bytes in memory. -/
def memNat (m : Memory) (pa n : Nat) : Nat := leNat (memRead m pa n)

/-- Bits `lo` up of a bit vector, as a number (R7). -/
def fld {w : Nat} (x : BitVec w) (lo len : Nat) : Nat := bits x.toNat lo len

/-- A bit vector with one field replaced. -/
def setFld {w : Nat} (x : BitVec w) (lo len v : Nat) : BitVec w :=
  BitVec.ofNat w (x.toNat - bits x.toNat lo len * 2 ^ lo + v % 2 ^ len * 2 ^ lo)

/-- A structure of `n` bytes read from memory as a bit vector. -/
def readStruct (m : Memory) (pa n : Nat) : BitVec (8 * n) := BitVec.ofNat (8 * n) (memNat m pa n)

/-! ### State updates -/

/-- The state with one core replaced. -/
def State.setCore (s : State) (n : Fin 128) (c : Core) : State := { s with cores := s.cores.set n c }

/-- The state with one core changed. -/
def State.modCore (s : State) (n : Fin 128) (f : Core → Core) : State := s.setCore n (f s.cores[n])

/-- The core whose strand moves. -/
def State.cur (s : State) : Core := s.cores[s.focusCore]

def State.setMem (s : State) (m : Memory) : State := { s with mem := m }

/-- Something sent outside or posted to firmware. -/
def State.note (s : State) (x : Note) : State := { s with notes := s.notes ++ [x] }

/-! ### Register mapping (R284) -/

/-- Physical number of a logical scalar. -/
def physS (rotb : W64) (r : Reg) : Reg := if r.val < 16 then r else Fin.ofNat 32 (16 + (r.val - 16 + fld rotb 0 4) % 16)

/-- Physical number of a logical predicate. -/
def physP (rotb : W64) (r : Fin 8) : Fin 8 := if r.val < 4 then r else Fin.ofNat 8 (4 + (r.val - 4 + fld rotb 8 2) % 4)

/-- A physical scalar: `s0` reads zero (R283). -/
def Core.phys (c : Core) (r : Reg) : W64 := if r.val = 0 then 0 else c.regs.s[r]

/-- Tag files of parity and poison marks: scalars, vector registers, masks, the mark of an error met in memory, predicates. -/
def tagS : Nat := 0
def tagV : Nat := 1
def tagK : Nat := 2
def tagUe : Nat := 3
def tagP : Nat := 4
/-- Handler registers of context h at `tagH + h`; words of instruction memory; scalars that a consumed error was met in. -/
def tagH : Nat := 5
def tagI : Nat := 8
def tagHit : Nat := 9
/-- Accumulator tiles, format-table entries (R154, R157). -/
def tagAcc : Nat := 10
def tagFt : Nat := 11

/-- The mark of a scalar, of vector registers, of masks; registers that read as constants have none. -/
def stag (d : Reg) : List RegTag := if d.val = 0 then [] else [{ file := tagS, num := d.val }]
def vtags (d k : Nat) : List RegTag := (List.range k).map (fun i => { file := tagV, num := d + i })
def ktags (d k : Nat) : List RegTag := if d = 0 then [] else (List.range k).map (fun i => { file := tagK, num := d + i })

/-- Registers of a listed load are written by a later word. -/
def LobEntry.lose (e : LobEntry) (l : List RegTag) : LobEntry := { e with gone := e.gone ++ e.dst.filter (fun t => l.contains t && !e.gone.contains t) }

/-- Registers are written by a word that is no part of the load-order buffer: loads listed for them no more give their value, and words of the
replay queues no more produce it (R157, R180). -/
def Core.overwrite (c : Core) (l : List RegTag) : Core :=
  { c with mem := { c.mem with lob := c.mem.lob.map (fun e => e.lose l) },
           replay := c.replay.map (fun q => q.map (fun e => { e with dst := e.dst.filter (fun t => !l.contains t) })) }

/-- A register written whole loses its marks (R155, R157). -/
def Core.untag (c : Core) (l : List RegTag) : Core :=
  { c with poison := c.poison.filter (fun t => !l.contains t), parity := c.parity.filter (fun t => !l.contains t), origins := c.origins.filter (fun x => !l.contains x.1) }

/-- Some register is poisoned or its parity is bad (R155, R157). -/
def Core.tainted (c : Core) (l : List RegTag) : Bool := l.any (fun t => c.poison.contains t || c.parity.contains t)

/-- A physical scalar written: writes to `s0` are discarded (R283). -/
def Core.setPhys (c : Core) (r : Reg) (v : W64) : Core :=
  if r.val = 0 then c else (Core.untag { c with regs := { c.regs with s := c.regs.s.set r v } } (stag r)).overwrite (stag r)

/-- A scalar of a strand: mapped through ROTB in the main strand, `h0` to `h15` in a handler strand (R283, R284). -/
def Core.rdS (c : Core) : Strand → Reg → W64
  | .main, r => c.phys (physS c.sys.rotb r)
  | .ctx h, r => if r.val = 0 then 0 else c.hnd[h].h[Fin.ofNat 16 r.val]

/-- The handler context with one field changed. -/
def Core.setHnd (c : Core) (h : Fin 3) (x : Handler) : Core := { c with hnd := c.hnd.set h x }

/-- The mark of a scalar of a handler context. -/
def htag (h : Fin 3) (r : Reg) : List RegTag := if r.val = 0 then [] else [{ file := tagH + h.val, num := r.val }]

/-- A scalar of a handler strand written. -/
def Core.setH (c : Core) (h : Fin 3) (r : Reg) (v : W64) : Core :=
  if r.val = 0 then c else Core.untag (c.setHnd h { c.hnd[h] with h := c.hnd[h].h.set (Fin.ofNat 16 r.val) v }) (htag h r)

/-- The mark of a scalar that a word of a strand reads, and of the scalar destination of a routed word. -/
def Core.stagOf (c : Core) : Strand → Reg → List RegTag
  | .main, r => stag (physS c.sys.rotb r)
  | .ctx h, r => htag h r
def dtag : Strand → Reg → List RegTag
  | .main, d => stag d
  | .ctx h, d => htag h d

/-- A consumed uncorrectable error is met by the word or command of program-order number `po`: the mark that CONSUMED_UE takes (R161). -/
def Core.meet (c : Core) (po : Nat) (st : Strand := .main) : Core :=
  if c.poison.any (fun t => t.file == tagUe) then c else { c with poison := c.poison ++ [{ file := tagUe, num := po }], ueStrand := st }

/-- The same error met in registers: the address that a trap record names is where the first bad one of them was loaded from, 0 for a register whose own
parity failed (R161, R261; log 41). -/
def Core.meetIn (c : Core) (po : Nat) (st : Strand) (l : List RegTag) : Core :=
  if c.poison.any (fun t => t.file == tagUe) then c
  else { c.meet po st with uePa := ((c.origins.find? (fun x => l.contains x.1)).map (·.2)).getD 0 }

/-- Something that counts for rollback happens for a word: in the tile-start point, and in a later one the word comes after. -/
def Core.notePoint (c : Core) (po : Nat) (f : TilePoint → TilePoint) : Core :=
  { c with tile := { c.tile with point := f c.tile.point, next := c.tile.next.map (fun p => if p.po ≤ po then f p else p) } }

/-- A scalar destination of a word the strand itself executes. -/
def Core.wrS (c : Core) : Strand → Reg → W64 → Core
  | .main, r, v => c.setPhys (physS c.sys.rotb r) v
  | .ctx h, r, v => c.setH h r v

/-- A scalar destination of a routed word: already physical in the main strand. -/
def Core.wrDst (c : Core) : Strand → Reg → W64 → Core
  | .main, r, v => c.setPhys r v
  | .ctx h, r, v => c.setH h r v

/-- A predicate of a strand; `p0` is all-true (R281, R309). -/
def Core.rdP (c : Core) : Strand → Fin 8 → Bool
  | .main, r => if r.val = 0 then true else c.regs.p[physP c.sys.rotb r]
  | .ctx h, r => if r.val = 0 then true else c.hnd[h].p[Fin.ofNat 4 r.val]

/-- A predicate written; writes to `p0` do not arise (R283). -/
def Core.wrP (c : Core) : Strand → Fin 8 → Bool → Core
  | .main, r, v =>
    if r.val = 0 then c
    else Core.untag { c with regs := { c.regs with p := c.regs.p.set (physP c.sys.rotb r) v } } [{ file := tagP, num := (physP c.sys.rotb r).val }]
  | .ctx h, r, v => if r.val = 0 then c else c.setHnd h { c.hnd[h] with p := c.hnd[h].p.set (Fin.ofNat 4 r.val) v }

/-- The link register of a strand (R310). -/
def linkReg : Reg := 15

/-- A 5-bit field as a 3-bit predicate number. -/
def p3 (r : Reg) : Fin 8 := Fin.ofNat 8 r.val

/-- Index of the next word of a strand. -/
def Core.pcOf (c : Core) : Strand → Nat
  | .main => c.pc
  | .ctx h => c.hnd[h].pc

def Core.setPc (c : Core) : Strand → Nat → Core
  | .main, n => { c with pc := n }
  | .ctx h, n => c.setHnd h { c.hnd[h] with pc := n }

/-- The queue-wait limit of a strand (R179, R301). -/
def Core.limit (c : Core) : Strand → Nat
  | .main => c.sys.qwlim.toNat
  | .ctx h => c.hnd[h].qwlim.toNat

/-- A QWLIM value clamped to its range (R285). -/
def clampQw (v : Nat) : Nat := min (max v Config.qwMin) Config.qwMax

/-! ### Vector rows, masks, accumulators -/

/-- Row `i` of vector register `n`. -/
def Core.vrow (c : Core) (n i : Nat) : VRow := sget 0 c.regs.v (16 * n + i)

def Core.setVrow (c : Core) (n i : Nat) (x : VRow) : Core :=
  { c with regs := { c.regs with v := sset 0 c.regs.v (16 * n + i) x } }

/-- Row `i` of mask register `n`; `k0` is all-true (R333). -/
def Core.krow (c : Core) (n i : Nat) : KRow := if n = 0 then BitVec.allOnes 256 else sget 0 c.regs.k (16 * n + i)

def Core.setKrow (c : Core) (n i : Nat) (x : KRow) : Core :=
  if n = 0 then c else { c with regs := { c.regs with k := sset 0 c.regs.k (16 * n + i) x } }

/-- Element (i, j) of tile `n` (R38). -/
def accKey (n i j : Nat) : Nat := n * 16384 + i * 128 + j

def Core.accWord (c : Core) (n i j : Nat) : W32 := sget 0 c.regs.acc (accKey n i j)

def Core.setAcc (c : Core) (n i j : Nat) (x : W32) : Core :=
  { c with regs := { c.regs with acc := sset 0 c.regs.acc (accKey n i j) x } }

/-! ### Instruction memory -/

/-- A word of instruction memory. -/
def Core.word (c : Core) (i : Nat) : W32 := sget 0 c.imem i

/-! ### Queues and tokens (R177, R178) -/

def Core.queue (c : Core) : Qid → List Routed
  | .l => c.qL
  | .x => c.qX
  | .s => c.qS

def Core.setQueue (c : Core) : Qid → List Routed → Core
  | .l, q => { c with qL := q }
  | .x, q => { c with qX := q }
  | .s, q => { c with qS := q }

/-- Number of a queue in the records: 0 C, 1 L, 2 X, 3 S (R266). -/
def Qid.num : Qid → Fin 4
  | .l => 1
  | .x => 2
  | .s => 3

/-- FIFOs (R272): into queue `q` from the queue before it. -/
def fifoInBefore (q : Fin 4) : Fin 8 := match q with | 0 => 3 | 1 => 0 | 2 => 1 | 3 => 2
/-- Into queue `q` from the queue after it. -/
def fifoInAfter (q : Fin 4) : Fin 8 := match q with | 0 => 4 | 1 => 5 | 2 => 6 | 3 => 7
/-- From queue `q` to the queue before it. -/
def fifoOutBefore (q : Fin 4) : Fin 8 := match q with | 0 => 7 | 1 => 4 | 2 => 5 | 3 => 6
/-- From queue `q` to the queue after it. -/
def fifoOutAfter (q : Fin 4) : Fin 8 := match q with | 0 => 0 | 1 => 1 | 2 => 2 | 3 => 3

/-- Tokens in a FIFO: none while a rollback has its pushes behind its pops, so that no token is given twice (R161). -/
def Core.tokens (c : Core) (f : Fin 8) : Nat := (c.push[f] - c.pop[f]).toInt.toNat

/-- Both pops of a word are possible: it takes both together or neither (R178). -/
def Core.canPop (c : Core) (q : Fin 4) (t : Tok) : Bool :=
  (!t.wb || c.tokens (fifoInBefore q) != 0) && (!t.wa || c.tokens (fifoInAfter q) != 0)

def Core.canPush (c : Core) (q : Fin 4) (t : Tok) : Bool :=
  (!t.sb || c.tokens (fifoOutBefore q) < Config.fifoDepth) && (!t.sa || c.tokens (fifoOutAfter q) < Config.fifoDepth)

def Core.popTok (c : Core) (f : Fin 8) (on : Bool) : Core := if on then { c with pop := c.pop.set f (c.pop[f] + 1) } else c
def Core.pushTok (c : Core) (f : Fin 8) (on : Bool) : Core := if on then { c with push := c.push.set f (c.push[f] + 1) } else c

/-- The pops of a word. -/
def Core.pops (c : Core) (q : Fin 4) (t : Tok) : Core := (c.popTok (fifoInBefore q) t.wb).popTok (fifoInAfter q) t.wa
/-- The pushes of a word. -/
def Core.pushes (c : Core) (q : Fin 4) (t : Tok) : Core := (c.pushTok (fifoOutBefore q) t.sb).pushTok (fifoOutAfter q) t.sa

/-- The wait on a token pop: the FIFO found empty (R272 kind 1). -/
def Core.popWait (c : Core) (q : Fin 4) (t : Tok) : Wait :=
  let f := if t.wb && c.tokens (fifoInBefore q) == 0 then fifoInBefore q else fifoInAfter q
  { rkind := 1, rindex := f.val, d0 := c.push[f], d1 := c.pop[f], faddr := 0, limit := some c.sys.qwlim.toNat }

/-- The wait on a token push: the FIFO found full (R272 kind 2). -/
def Core.pushWait (c : Core) (q : Fin 4) (t : Tok) : Wait :=
  let f := if t.sb && !(c.tokens (fifoOutBefore q) < Config.fifoDepth) then fifoOutBefore q else fifoOutAfter q
  { rkind := 2, rindex := f.val, d0 := c.push[f], d1 := c.pop[f], faddr := 0, limit := some c.sys.qwlim.toNat }

/-- Note a wait; a wait already in progress on the same resource keeps the limit and the scope it began with (R212, R318). -/
def keepLimit (old : Option Wait) (w : Wait) : Wait :=
  match old with
  | some o => if o.rkind = w.rkind ∧ o.rindex = w.rindex then { w with limit := o.limit, cap := o.cap } else w
  | none => w

def Core.setWait (c : Core) (q : Fin 4) (w : Option Wait) : Core := { c with waits := c.waits.set q w }

/-- A wait noted for the queue a strand's word is at. -/
def Core.waitAt (c : Core) (st : Strand) (q : Fin 4) (w : Wait) : Core :=
  match st with
  | .main => c.setWait q (some (keepLimit c.waits[q] w))
  | .ctx h => c.setHnd h { c.hnd[h] with wait := some (keepLimit c.hnd[h].wait w) }

def Core.clearWait (c : Core) (st : Strand) (q : Fin 4) : Core :=
  match st with
  | .main => c.setWait q none
  | .ctx h => c.setHnd h { c.hnd[h] with wait := none }

/-! ### Regions -/

/-- The region of a number. -/
def State.region (s : State) (r : Nat) : Region := sget Region.none s.sched.regions r

/-- A region is `root` or a descendant of it. -/
def State.underAt (s : State) (root : Nat) : Nat → Nat → Bool
  | 0, _ => false
  | k + 1, r => r == root || (r != 0 && s.underAt root k (s.region r).parent)
def State.under (s : State) (root r : Nat) : Bool := (s.region r).exist && s.underAt root 4096 r

/-! ### The error log (R158, R159) -/

/-- The fields of an error-log record that its class gives; the others are 0. -/
structure LogRec where
  cls : Nat
  addr : Nat := 0
  stepid : Nat := 0
  data0 : Nat := 0
  data1 : Nat := 0
  tag : Nat := 0
  region : Nat := 0
  level : Nat := 0
  queue : Nat := 0xFFFF
  master : Nat := 0
  target : Nat := 0
  companion : Nat := 0
  cause : Nat := 0
  unit : Nat := 0
deriving DecidableEq, Repr

/-- The 64 bytes of a record (R158). -/
def logBits (time seq : Nat) (r : LogRec) : Nat :=
  time % 2 ^ 64 * 2 ^ 448 + r.addr % 2 ^ 64 * 2 ^ 384 + r.stepid % 2 ^ 64 * 2 ^ 320 + r.data0 % 2 ^ 64 * 2 ^ 256 + r.data1 % 2 ^ 64 * 2 ^ 192
    + r.tag % 2 ^ 32 * 2 ^ 160 + r.region % 2 ^ 12 * 2 ^ 148 + r.level % 2 ^ 4 * 2 ^ 144 + r.queue % 2 ^ 16 * 2 ^ 128 + r.master % 2 ^ 8 * 2 ^ 120
    + r.target % 2 ^ 8 * 2 ^ 112 + r.companion % 2 ^ 8 * 2 ^ 104 + r.cause % 2 ^ 8 * 2 ^ 96 + r.cls % 2 ^ 8 * 2 ^ 88 + r.unit % 2 ^ 16 * 2 ^ 64 + seq % 2 ^ 32

/-- A 64-bit counter that saturates (R171). -/
def satUp (x : Nat) : Nat := min (x + 1) (2 ^ 64 - 1)

/-- A lifetime counter raised (R171). -/
def Board.count (b : Board) (cls : Nat) : Board :=
  { b with life := { b.life with counters := b.life.counters.set (Fin.ofNat 19 cls) (satUp b.life.counters[Fin.ofNat 19 cls]) } }

/-- The voltage domain whose corrected errors and parity errors a record is counted with (R166): a crew, the Landing (16), the fabric (17). -/
def LogRec.domain (r : LogRec) : Option (Fin 18) :=
  if r.cls = 6 then some (Fin.ofNat 18 (r.unit / 8))
  else if r.cls ≠ 4 then none
  else if Config.landingBase ≤ r.addr ∧ r.addr < Config.landingBase + Config.landingSize then some 16
  else if Config.shadowBase ≤ r.addr ∧ r.addr < Config.scratchBase then some 17
  else if Config.scratchBase ≤ r.addr ∧ r.addr < Config.cxlBase then some (Fin.ofNat 18 ((r.addr - Config.scratchBase) / Config.scratchSize / 8))
  else some (Fin.ofNat 18 (r.unit / 8))

/-- The count of the governor's window raised for a domain (R166). -/
def Board.countDomain (b : Board) : Option (Fin 18) → Board
  | some d => { b with domCount := b.domCount.set d (b.domCount[d] + 1) }
  | none => b

/-- A record appended to the error log; a full ring overwrites its oldest record (R158), and its class is counted (R171). -/
def State.log (s : State) (r : LogRec) : State :=
  let seq := s.ras.elogSeq.toNat
  let pa := s.ras.elogBase + seq % 2 ^ s.ras.elogLog2 * 64
  { s with mem := memWrite s.mem pa (natLe 64 (logBits s.tb.now.toNat seq r)), ras := { s.ras with elogSeq := s.ras.elogSeq + 1 },
           board := (s.board.count r.cls).countDomain r.domain }

end Sys2Proof.Machine
end

