-- ==== Sys2Proof/Machine/Flags.lean ====
section
/-! DEFINITION. Floating-point formats, rounding, flags and NaNs (spec/09 R230 to R246), over exact dyadic numbers. Flags are a
number in FPSR's layout (R236): NV 1, DZ 2, OF 4, UF 8, NX 16, RI 32. -/

namespace Sys2Proof.Machine

/-- How a format treats infinities and NaNs (R230). -/
inductive FmtKind where
  | ieee | e4m3 | e2m1
deriving DecidableEq, Repr

/-- A floating-point format: exponent width, mantissa width, bias (R230). -/
structure Fmt where
  ew : Nat
  mw : Nat
  bias : Nat
  kind : FmtKind
deriving DecidableEq, Repr

def fmtE2M1 : Fmt := ⟨2, 1, 1, .e2m1⟩
def fmtE4M3 : Fmt := ⟨4, 3, 7, .e4m3⟩
def fmtE5M2 : Fmt := ⟨5, 2, 15, .ieee⟩
def fmtBF16 : Fmt := ⟨8, 7, 127, .ieee⟩
def fmtF16 : Fmt := ⟨5, 10, 15, .ieee⟩
def fmtF32 : Fmt := ⟨8, 23, 127, .ieee⟩

/-- Width of a format in bits. -/
def Fmt.width (f : Fmt) : Nat := 1 + f.ew + f.mw

/-- A decoded operand: a number (−1)^sign × m × 2^e, an infinity, or a NaN with its mantissa as a fraction of 2^64. -/
inductive FVal where
  | num (sign : Bool) (m : Nat) (e : Int)
  | inf (sign : Bool)
  | nan (sign : Bool) (frac : Nat) (quiet : Bool)
deriving DecidableEq, Repr

/-- A result with the flags it raises. -/
structure FRes where
  bits : Nat
  flags : Nat
deriving DecidableEq, Repr

/-- The value of a code (R230, R232); the one NaN of E4M3 is quiet and its payload is zero. -/
def Fmt.decode (f : Fmt) (code : Nat) : FVal :=
  let s := bits code (f.ew + f.mw) 1 == 1
  let e := bits code f.mw f.ew
  let m := bits code 0 f.mw
  let finite : FVal := if e = 0 then .num s m (1 - f.bias - f.mw) else .num s (2 ^ f.mw + m) (e - f.bias - f.mw)
  match f.kind with
  | .e2m1 => finite
  | .e4m3 => if e = 15 ∧ m = 7 then .nan s 0 true else finite
  | .ieee =>
    if e = 2 ^ f.ew - 1 then
      if m = 0 then .inf s else .nan s (m * 2 ^ (64 - f.mw)) (bits m (f.mw - 1) 1 == 1)
    else finite

/-- Sign bit of a code. -/
def Fmt.signBit (f : Fmt) (s : Bool) : Nat := if s then 2 ^ (f.ew + f.mw) else 0

/-- Code of the largest finite magnitude (R230). -/
def Fmt.maxCode (f : Fmt) : Nat :=
  match f.kind with
  | .e2m1 => 7
  | .e4m3 => 0x7E
  | .ieee => (2 ^ f.ew - 1) * 2 ^ f.mw - 1

/-- Code of infinity; the formats without one saturate (R241). -/
def Fmt.infCode (f : Fmt) : Nat :=
  match f.kind with
  | .ieee => (2 ^ f.ew - 1) * 2 ^ f.mw
  | _ => f.maxCode

/-- The default NaN (R232); E2M1 has none and takes +0 (R241). -/
def Fmt.defaultNaN (f : Fmt) : Nat :=
  match f.kind with
  | .e2m1 => 0
  | .e4m3 => 0x7F
  | .ieee => (2 ^ f.ew - 1) * 2 ^ f.mw + 2 ^ (f.mw - 1)

/-- A NaN operand as a result: quiet, with its sign and its payload cut to the mantissa (R239 rule 1, R241). -/
def Fmt.quiet (f : Fmt) (s : Bool) (frac : Nat) : Nat :=
  match f.kind with
  | .e2m1 => 0
  | .e4m3 => f.signBit s + 0x7F
  | .ieee => f.signBit s + (2 ^ f.ew - 1) * 2 ^ f.mw + 2 ^ (f.mw - 1) + bits (frac / 2 ^ (64 - f.mw)) 0 (f.mw - 1)

/-- Whether a magnitude `q` with remainder `r` of `2^k` rounds up (R235). -/
def roundsUp (rm : Fin 4) (s : Bool) (q r k : Nat) : Bool :=
  match rm with
  | 0 => decide (2 ^ k < 2 * r) || (decide (2 * r = 2 ^ k) && decide (0 < r) && q % 2 == 1)
  | 1 => false
  | 2 => s && decide (0 < r)
  | 3 => !s && decide (0 < r)

/-- A magnitude m × 2^e rounded to a multiple of 2^q: the multiple, and whether it is inexact. -/
def roundAt (rm : Fin 4) (s : Bool) (m : Nat) (e q : Int) : Nat × Bool :=
  if q ≤ e then (m * 2 ^ (e - q).toNat, false)
  else
    let k := (q - e).toNat
    let t := m / 2 ^ k
    let r := m % 2 ^ k
    (if roundsUp rm s t r k then t + 1 else t, decide (0 < r))

/-- RoundTo of an exact value (R235, R237, R241): code and flags. -/
def Fmt.round (f : Fmt) (rm : Fin 4) (s : Bool) (m : Nat) (e : Int) : FRes :=
  if m = 0 then ⟨f.signBit s, 0⟩ else
  let ex : Int := (Nat.log2 m : Int) + e
  let emin : Int := 1 - f.bias
  let q := max ex emin - f.mw
  let (t, inexact) := roundAt rm s m e q
  let (tu, _) := roundAt rm s m e (ex - f.mw)
  -- tininess after rounding, with the exponent unbounded
  let tiny := decide (ex < emin) && !(decide (ex = emin - 1) && decide (tu = 2 ^ (f.mw + 1)))
  let code := (q + f.mw + f.bias - 1).toNat * 2 ^ f.mw + t
  if f.maxCode < code then
    let toInf := match rm with | 0 => true | 1 => false | 2 => s | 3 => !s
    match f.kind with
    | .ieee => ⟨f.signBit s + (if toInf then f.infCode else f.maxCode), 4 + 16⟩
    | _ => ⟨f.signBit s + f.maxCode, 4 + 16⟩
  else ⟨f.signBit s + code, (if inexact then 16 else 0) + (if inexact && tiny then 8 else 0)⟩

/-- A signed exact value n × 2^e rounded; an exact zero takes the sign given. -/
def Fmt.roundInt (f : Fmt) (rm : Fin 4) (n : Int) (e : Int) (zeroSign : Bool) : FRes :=
  if n = 0 then ⟨f.signBit zeroSign, 0⟩ else f.round rm (decide (n < 0)) n.natAbs e

def FVal.isNaN : FVal → Bool
  | .nan .. => true
  | _ => false

def FVal.isSignalling : FVal → Bool
  | .nan _ _ q => !q
  | _ => false

/-- The first NaN of a list of operands (R239). -/
def firstNaN : List FVal → Option (Bool × Nat)
  | [] => none
  | .nan s p _ :: _ => some (s, p)
  | _ :: t => firstNaN t

/-- NV when an operand is a signalling NaN (R239 rule 3). -/
def sigFlag (l : List FVal) : Nat := if l.any FVal.isSignalling then 1 else 0

/-- The sign of an exact zero sum of two numbers: their common sign, otherwise minus only under RDN. -/
def zeroSum (rm : Fin 4) (s t : Bool) : Bool := if s = t then s else decide (rm = 2)

/-- Signed significand of a number at exponent `e0 ≤ e`. -/
def sigAt (s : Bool) (m : Nat) (e e0 : Int) : Int := (if s then -1 else 1) * ((m * 2 ^ (e - e0).toNat : Nat) : Int)

/-- The sum of two values, rounded (R342). -/
def Fmt.addV (f : Fmt) (rm : Fin 4) (a b : FVal) : FRes :=
  match firstNaN [a, b] with
  | some (s, p) => ⟨f.quiet s p, sigFlag [a, b]⟩
  | none =>
    match a, b with
    | .inf s, .inf t => if s = t then ⟨f.signBit s + f.infCode, 0⟩ else ⟨f.defaultNaN, 1⟩
    | .inf s, _ => ⟨f.signBit s + f.infCode, 0⟩
    | _, .inf t => ⟨f.signBit t + f.infCode, 0⟩
    | .num s m e, .num t n d => let e0 := min e d; f.roundInt rm (sigAt s m e e0 + sigAt t n d e0) e0 (zeroSum rm s t)
    | _, _ => ⟨f.defaultNaN, 0⟩

/-- A value with its sign inverted; a NaN stands as it is. -/
def FVal.neg : FVal → FVal
  | .num s m e => .num (!s) m e
  | .inf s => .inf (!s)
  | v => v

/-- The product of two values, rounded (R342). -/
def Fmt.mulV (f : Fmt) (rm : Fin 4) (a b : FVal) : FRes :=
  match firstNaN [a, b] with
  | some (s, p) => ⟨f.quiet s p, sigFlag [a, b]⟩
  | none =>
    match a, b with
    | .inf s, .inf t => ⟨f.signBit (s != t) + f.infCode, 0⟩
    | .inf s, .num t m _ => if m = 0 then ⟨f.defaultNaN, 1⟩ else ⟨f.signBit (s != t) + f.infCode, 0⟩
    | .num s m _, .inf t => if m = 0 then ⟨f.defaultNaN, 1⟩ else ⟨f.signBit (s != t) + f.infCode, 0⟩
    | .num s m e, .num t n d => f.round rm (s != t) (m * n) (e + d)
    | _, _ => ⟨f.defaultNaN, 0⟩

/-- a × b + c with one rounding; NaN order addend, a, b (R239, R240, R343). `np` and `nc` negate the product and the addend. -/
def Fmt.fmaV (f : Fmt) (rm : Fin 4) (np nc : Bool) (c a b : FVal) : FRes :=
  let zeroInf := match a, b with
    | .inf _, .num _ m _ => decide (m = 0)
    | .num _ m _, .inf _ => decide (m = 0)
    | _, _ => false
  match firstNaN [c, a, b] with
  | some (s, p) => ⟨f.quiet s p, if zeroInf then 1 else sigFlag [c, a, b]⟩
  | none =>
    if zeroInf then ⟨f.defaultNaN, 1⟩ else
    let c' := if nc then c.neg else c
    let p : FVal := match a, b with
      | .num s m e, .num t n d => .num ((s != t) != np) (m * n) (e + d)
      | .inf s, .inf t => .inf ((s != t) != np)
      | .inf s, .num t _ _ => .inf ((s != t) != np)
      | .num s _ _, .inf t => .inf ((s != t) != np)
      | x, _ => x
    f.addV rm p c'

/-- Comparison of two numbers or infinities, −0 equal to +0. -/
def FVal.lt : FVal → FVal → Bool
  | .inf s, .inf t => s && !t
  | .inf s, _ => s
  | _, .inf t => !t
  | .num s m e, .num t n d => let e0 := min e d; decide (sigAt s m e e0 < sigAt t n d e0)
  | _, _ => false

def FVal.eq : FVal → FVal → Bool
  | .inf s, .inf t => s == t
  | .num s m e, .num t n d => let e0 := min e d; decide (sigAt s m e e0 = sigAt t n d e0)
  | _, _ => false

def FVal.sign : FVal → Bool
  | .num s _ _ => s
  | .inf s => s
  | .nan s _ _ => s

/-- minimumNumber or maximumNumber of two codes (R239): a NaN loses to a number, −0 orders below +0. -/
def Fmt.minMax (f : Fmt) (isMax : Bool) (x y : Nat) : FRes :=
  let a := f.decode x
  let b := f.decode y
  let fl := sigFlag [a, b]
  match a, b with
  | .nan s p _, .nan _ _ _ => ⟨f.quiet s p, fl⟩
  | .nan .., _ => ⟨y, fl⟩
  | _, .nan .. => ⟨x, fl⟩
  | _, _ =>
    let less := a.lt b || (a.eq b && a.sign && !b.sign)
    ⟨if less != isMax then x else y, 0⟩

/-- A code of one format converted to another (R241). -/
def Fmt.convert (src dst : Fmt) (rm : Fin 4) (x : Nat) : FRes :=
  match src.decode x with
  | .nan s p q =>
    match dst.kind with
    | .e2m1 => ⟨0, 1⟩
    | _ => ⟨dst.quiet s p, if q then 0 else 1⟩
  | .inf s =>
    match dst.kind with
    | .ieee => ⟨dst.signBit s + dst.infCode, 0⟩
    | _ => ⟨dst.signBit s + dst.maxCode, 4⟩
  | .num s m e => dst.round rm s m e

/-- The integer that an exact value rounds to (R242), and whether it is inexact. -/
def roundToInt (rm : Fin 4) (s : Bool) (m : Nat) (e : Int) : Int × Bool :=
  let (t, inexact) := roundAt rm s m e 0
  ((if s then -1 else 1) * (t : Int), inexact)

/-- Conversion to an integer of `w` bits between `lo` and `hi` (R242). -/
def Fmt.toInt (f : Fmt) (rm : Fin 4) (w : Nat) (lo hi : Int) (x : Nat) : FRes :=
  let enc (i : Int) : Nat := (BitVec.ofInt w i).toNat
  match f.decode x with
  | .nan .. => ⟨0, 1⟩
  | .inf s => ⟨enc (if s then lo else hi), 1⟩
  | .num s m e =>
    let (i, inexact) := roundToInt rm s m e
    if i < lo then ⟨enc lo, 1⟩ else if hi < i then ⟨enc hi, 1⟩ else ⟨enc i, if inexact then 16 else 0⟩

/-- Conversion from an integer (R242). -/
def Fmt.ofInt (f : Fmt) (rm : Fin 4) (i : Int) : FRes := f.roundInt rm i 0 false

/-- The residual of an error-feedback narrowing and its RI flag (R244). -/
def efResidual (src dst : Fmt) (x n : Nat) : FRes :=
  match src.decode x with
  | .nan s p _ => ⟨src.quiet s p, 0⟩
  | .inf s => (match dst.decode n with | .inf t => if s = t then ⟨0, 0⟩ else ⟨x, 0⟩ | _ => ⟨x, 0⟩)
  | .num s m e =>
    match dst.decode n with
    | .num t k d =>
      let e0 := min e d
      let diff := sigAt s m e e0 - sigAt t k d e0
      if diff = 0 then ⟨0, 0⟩
      else
        let r := src.roundInt 0 diff e0 false
        ⟨r.bits, if r.flags % 32 / 16 = 1 then 32 else 0⟩
    | .inf t =>
      -- a finite value rounded to infinity leaves an infinite difference of the other sign, which is not rounded (log 19)
      ⟨src.signBit (!t) + src.infCode, 0⟩
    | .nan .. => ⟨0, 0⟩

/-! ### Special functions (R246) -/

/-- Integer square root by bits: the greatest `r` with `r * r ≤ n`, from `2^k` down. -/
def isqrtBits (n : Nat) : Nat → Nat → Nat
  | 0, r => r
  | k + 1, r => if (r + 2 ^ k) * (r + 2 ^ k) ≤ n then isqrtBits n k (r + 2 ^ k) else isqrtBits n k r

def isqrt (n : Nat) : Nat := isqrtBits n (Nat.log2 n / 2 + 1) 0

/-- 2^f × 2^128 for a fraction f = Σ of the bits of `x` below 2^`k`, by factors 2^(1/2), 2^(1/4), …; `c` is the present factor. -/
def exp2Frac (x : Nat) : Nat → Nat → Nat → Nat
  | 0, _, acc => acc
  | k + 1, c, acc =>
    let c' := isqrt (c * 2 ^ 128)
    exp2Frac x k c' (if x / 2 ^ k % 2 = 1 then acc * c' / 2 ^ 128 else acc)

/-- log2 of `y` / 2^160, in [1, 2), as `k` binary digits, by squaring. -/
def log2Frac : Nat → Nat → Nat → Nat
  | 0, _, acc => acc
  | k + 1, y, acc =>
    let z := y * y / 2 ^ 160
    if 2 ^ 161 ≤ z then log2Frac k (z / 2) (2 * acc + 1) else log2Frac k z (2 * acc)

/-- log2(e) × 2^128. -/
def log2e : Nat := 490923683258796565746369346286093237521

/-- 2^(n × 2^e) as a dyadic number close to it (relative error below 2^−90); `n` may be negative. -/
def exp2Approx (n : Int) (e : Int) : Nat × Int :=
  -- fixed point with 96 fraction bits
  let fx : Int := if 0 ≤ e + 96 then n * 2 ^ (e + 96).toNat else n / 2 ^ (-(e + 96)).toNat
  let ip := fx / 2 ^ 96
  let fr := (fx % 2 ^ 96).toNat
  (exp2Frac fr 96 (2 ^ 129) (2 ^ 128), ip - 128)

/-- log2 of a positive number m × 2^e as a dyadic number (absolute error below 2^−90). -/
def log2Approx (m : Nat) (e : Int) : Int × Int :=
  let l := Nat.log2 m
  let y := m * 2 ^ 160 / 2 ^ l
  (((l : Int) + e) * 2 ^ 96 + (log2Frac 96 y 0 : Nat), -96)

/-- An FP32 code as an integer that orders as its value. -/
def ordF32 (code : Nat) : Int := if code / 2 ^ 31 % 2 = 1 then -((code % 2 ^ 31 : Nat) : Int) else (code % 2 ^ 31 : Nat)

/-- The FP32 code of an ordered integer. -/
def unordF32 (i : Int) : Nat := if i < 0 then 2 ^ 31 + i.natAbs else i.natAbs

/-- A free FP32 code between two bounds n × 2^e − δ and n × 2^e + δ, δ = `dn` × 2^`de` (R246, log 11). -/
def freeWithin (fn : Nat) (x : Nat) (n : Int) (e : Int) (dn : Nat) (de : Int) : Nat :=
  let e0 := min e de
  let c := n * 2 ^ (e - e0).toNat
  let d : Int := (dn * 2 ^ (de - e0).toNat : Nat)
  let lo := ordF32 (fmtF32.roundInt 3 (c - d) e0 true).bits
  let hi := ordF32 (fmtF32.roundInt 2 (c + d) e0 false).bits
  if hi ≤ lo then unordF32 lo
  else unordF32 (lo + ((Config.specialResult fn (BitVec.ofNat 32 x)).toNat : Int) % (hi - lo + 1))

/-- Exponent of an FP32 ulp at a value of exponent `ex`. -/
def ulpExp (ex : Int) : Int := max ex (-126) - 23

/-- UF of an inexact result below the smallest normal. -/
def tinyFlag (code : Nat) : Nat := if code % 2 ^ 31 < 2 ^ 23 then 8 else 0

/-- An FP32 result inside `k` ulp of n × 2^e, n ≠ 0; `exact` says that the value is exact where the result equals it. -/
def ulpResult (fn x : Nat) (n : Int) (e : Int) (k : Nat) (exact : Bool) : FRes :=
  let ex : Int := (Nat.log2 n.natAbs : Int) + e
  if (fmtF32.roundInt 0 n e false).flags / 4 % 2 = 1 then ⟨fmtF32.signBit (decide (n < 0)) + fmtF32.infCode, 4 + 16⟩
  else
    let r := freeWithin fn x n e k (ulpExp ex)
    if exact && (fmtF32.decode r).eq (.num (decide (n < 0)) n.natAbs e) then ⟨r, 0⟩ else ⟨r, 16 + tinyFlag r⟩

/-- exp2 of an FP32 code. -/
def sfExp2 (x : Nat) : FRes :=
  match fmtF32.decode x with
  | .nan s p q => ⟨fmtF32.quiet s p, if q then 0 else 1⟩
  | .inf s => ⟨if s then 0 else fmtF32.infCode, 0⟩
  | .num s m e =>
    let v : Int := sigAt s m e e
    if FVal.lt (.num s m e) (.num false 128 0) = false then ⟨fmtF32.infCode, 4 + 16⟩
    else if FVal.lt (.num s m e) (.num true 150 0) then ⟨0, 8 + 16⟩
    else
      let (a, ea) := exp2Approx v e
      ulpResult 0 x a ea 2 (decide (0 ≤ e) || decide (m % 2 ^ (-e).toNat = 0))

/-- log2 of an FP32 code. -/
def sfLog2 (x : Nat) : FRes :=
  match fmtF32.decode x with
  | .nan s p q => ⟨fmtF32.quiet s p, if q then 0 else 1⟩
  | .inf s => if s then ⟨fmtF32.defaultNaN, 1⟩ else ⟨fmtF32.infCode, 0⟩
  | .num s m e =>
    if m = 0 then ⟨fmtF32.signBit true + fmtF32.infCode, 2⟩
    else if s then ⟨fmtF32.defaultNaN, 1⟩
    else if FVal.eq (.num s m e) (.num false 1 0) then ⟨0, 0⟩
    else
      let (a, ea) := log2Approx m e
      let near := !FVal.lt (.num s m e) (.num false 1 (-1)) && !FVal.lt (.num false 2 0) (.num s m e)
      let exact := decide (m = 2 ^ Nat.log2 m)
      if near then
        let r := freeWithin 1 x a ea 1 (-22)
        if exact && (fmtF32.decode r).eq (.num (decide (a < 0)) a.natAbs ea) then ⟨r, 0⟩ else ⟨r, 16 + tinyFlag r⟩
      else ulpResult 1 x a ea 2 exact

/-- 1 ÷ x of an FP32 code. -/
def sfRcp (x : Nat) : FRes :=
  match fmtF32.decode x with
  | .nan s p q => ⟨fmtF32.quiet s p, if q then 0 else 1⟩
  | .inf s => ⟨fmtF32.signBit s, 0⟩
  | .num s m e =>
    if m = 0 then ⟨fmtF32.signBit s + fmtF32.infCode, 2⟩
    else
      -- 2^128 / m, with the exponent of the quotient
      ulpResult 2 x ((if s then -1 else 1) * ((2 ^ 128 / m : Nat) : Int)) (-128 - e) 1 (decide (m = 2 ^ Nat.log2 m))

/-- 1 ÷ √x of an FP32 code. -/
def sfRsqrt (x : Nat) : FRes :=
  match fmtF32.decode x with
  | .nan s p q => ⟨fmtF32.quiet s p, if q then 0 else 1⟩
  | .inf s => if s then ⟨fmtF32.defaultNaN, 1⟩ else ⟨0, 0⟩
  | .num s m e =>
    if m = 0 then ⟨fmtF32.signBit s + fmtF32.infCode, 2⟩
    else if s then ⟨fmtF32.defaultNaN, 1⟩
    else
      -- with an even exponent: 1 ÷ √(m 2^e) = √(2^256 ÷ m) 2^(−128 − e/2)
      let m' := if e % 2 = 0 then m else 2 * m
      let e' := if e % 2 = 0 then e else e - 1
      ulpResult 3 x (isqrt (2 ^ 256 / m') : Nat) (-128 - e' / 2) 1 (decide (m' = 2 ^ Nat.log2 m') && decide (Nat.log2 m' % 2 = 0))

/-- tanh of an FP32 code: (E − 1) ÷ (E + 1) with E = 2^(2 x log2 e). -/
def sfTanh (x : Nat) : FRes :=
  match fmtF32.decode x with
  | .nan s p q => ⟨fmtF32.quiet s p, if q then 0 else 1⟩
  | .inf s => ⟨fmtF32.signBit s + 0x3F800000, 0⟩
  | .num s m e =>
    if m = 0 then ⟨fmtF32.signBit s, 0⟩
    else if FVal.lt (.num false 64 0) (.num false m e) then
      ulpResult 4 x ((if s then -1 else 1) * (2 ^ 100 - 1)) (-100) 2 false
    else
      let (a, ea) := exp2Approx ((2 * m * log2e : Nat) : Int) (e - 128)
      -- E ≥ 1, scaled by 2^160
      let big : Nat := if 0 ≤ ea + 160 then a * 2 ^ (ea + 160).toNat else a / 2 ^ (-(ea + 160)).toNat
      let t : Nat := (big - 2 ^ 160) * 2 ^ 100 / (big + 2 ^ 160)
      let v : Int := (if s then -1 else 1) * (t : Int)
      if !FVal.lt (.num false 1 0) (.num false m e) then
        let r := freeWithin 4 x v (-100) 1 (-23)
        ⟨r, 16 + tinyFlag r⟩
      else ulpResult 4 x v (-100) 2 false

end Sys2Proof.Machine
end

