-- ==== Sys2Proof/Machine/Memory.lean ====
section
/-! DEFINITION. The physical map and access tables (spec/02 R33 to R61), page tables and translation (R38 to R53), timestamps
(spec/08 R201), poison (spec/06 R155), scopes (R209 to R213), and the performing of reads and writes. -/

namespace Sys2Proof.Machine

/-! ### The physical map (R33 to R35, R160) -/

/-- The usable top of device memory (R22, R33). -/
def State.usableTop (s : State) : Nat := if s.board.tags then Config.topTagsOn else Config.topTagsOff

/-- The CXL port that claims an address, if a decoder does (R20). -/
def cxlPort : List Hdm → Nat → Option Nat
  | [], _ => none
  | d :: t, pa =>
    if d.enabled ∧ d.base ≤ pa ∧ pa < d.base + d.size then some (if d.interleave then pa / 4096 % 2 else d.port.val) else cxlPort t pa

/-- Peer table entry of an address in the peer ranges. -/
def State.peerEntry (s : State) (pa : Nat) : BitVec 128 := s.trans.peers[Fin.ofNat 16 ((pa - Config.peerBase) / Config.peerSize)]

/-- Slice, bank and bank row of a Landing offset (R35). -/
def landingSlice (o : Nat) : Nat := bits o 7 4
def landingBank (o : Nat) : Nat := bits o 11 4
def landingRow (o : Nat) : Nat := bits o 15 12

/-- A range lies in the Landing; in the shadow store. -/
def inLanding (pa : Nat) : Bool := decide (Config.landingBase ≤ pa) && decide (pa < Config.landingBase + Config.landingSize)
def inShadow (pa n : Nat) : Bool := decide (Config.shadowBase ≤ pa) && decide (pa + n ≤ Config.shadowBase + Config.shadowSize)

/-- The target of an address (R160); `none` where it is unbacked (R33, R34) or its peer entry has V = 0 (R63). -/
def State.targetOf (s : State) (pa : Nat) : Option Nat :=
  if pa < 0x4000000000 then (if pa < s.usableTop then some (1 + pa / 1024 % 24) else none)
  else if pa < Config.landingBase + Config.landingSize then some (0x20 + landingSlice (pa - Config.landingBase))
  else if Config.regBase ≤ pa ∧ pa < Config.regBase + Config.regSize then some 0x40
  else if Config.scratchBase ≤ pa ∧ pa < Config.scratchBase + 128 * Config.scratchSize then some 0x41
  else if Config.cxlBase ≤ pa ∧ pa < Config.cxlBase + Config.cxlSize then (cxlPort s.board.hdm pa).map (0x30 + ·)
  else if Config.peerBase ≤ pa ∧ pa < Config.peerBase + 16 * Config.peerSize then
    (if fld (s.peerEntry pa) 0 1 = 1 then some (0x38 + fld (s.peerEntry pa) 1 1) else none)
  else if Config.host0Base ≤ pa ∧ pa < Config.host0Base + Config.hostSize then some 0x38
  else if Config.host1Base ≤ pa ∧ pa < Config.host1Base + Config.hostSize then some 0x39
  else none

/-- The channel of a device-memory address (R35). -/
def channelOf (pa : Nat) : Nat := pa / 1024 % 24
/-- The offset of a device-memory address in its channel (R35). -/
def channelOffset (pa : Nat) : Nat := pa / 24576 * 1024 + pa % 1024

/-- A window contains a request and is valid (R57, R58). -/
def winContains (w : BitVec 128) (pa n : Nat) : Bool :=
  decide (fld w 0 1 = 1) && decide (fld w 30 34 ≤ pa / 65536) && decide ((pa + n - 1) / 65536 ≤ fld w 94 34)

/-- The windows of a master grant a right, 1 R, 2 W, 3 A, to a request (R57). -/
def winGrant (ws : Vector (BitVec 128) 8) (right pa n : Nat) : Bool :=
  (List.finRange 8).any (fun i => winContains ws[i] pa n && decide (fld ws[i] right 1 = 1))

/-- Master IDs of the firmware core and the translation service (R56). -/
def fwMaster : Fin 256 := 0x8C
def xlMaster : Fin 256 := 0x8A

/-- The windows of a master at a target: the new ones once the target has loaded the update under way (R59). -/
def State.windowsAt (s : State) (master : Fin 256) (target : Nat) : Vector (BitVec 128) 8 :=
  match s.trans.atQueue with
  | u :: _ => if u.master = master ∧ u.loaded.contains target then u.wins else s.trans.windows[master]
  | [] => s.trans.windows[master]

/-- The targets of a request's bytes in order: each of them checks the request (R57). -/
def State.targetsOf (s : State) (pa n : Nat) : List Nat :=
  ((List.range ((pa + n + 127) / 128 - pa / 128)).filterMap (fun k => s.targetOf (max pa ((pa / 128 + k) * 128)))).eraseDups

/-- The access table's answer to a request (R34, R57): `none` to perform, or the target that refuses it. The shadow store answers to firmware
alone (R33); it has no target ID of its own, so a request that its windows refuse names NONE. -/
def State.refusal (s : State) (master : Fin 256) (right pa n : Nat) : Option Nat :=
  if inShadow pa n then (if master = fwMaster ∧ winGrant s.trans.windows[master] right pa n then none else some 0)
  else match s.targetOf pa, s.targetOf (pa + n - 1) with
    | some _, some _ => (s.targetsOf pa n).find? (fun t => !winGrant (s.windowsAt master t) right pa n)
    | _, _ => some 0

/-- Master ID of a core (R56). -/
def coreMaster (n : Fin 128) : Fin 256 := ⟨n.val, Nat.lt_trans n.isLt (by decide)⟩

/-! ### Page tables (R41 to R45) -/

/-- Why a translation fails. -/
inductive XFault where
  /-- PAGE with its subcause: 1 NONCANON, 2 NOTPRESENT, 3 MALFORMED, 4 RIGHTS. -/
  | page (sub : Nat)
  | tier (leaf : W64)
  /-- A PREFETCH access is dropped. -/
  | drop
  /-- The walk's read of an entry is refused at a target (R34, R57): PAGE with subcause MALFORMED. -/
  | walk (pa target : Nat)
  /-- The miss waits: it joins the walk in flight for its page, or finds no walker free (R47). -/
  | wait
deriving DecidableEq, Repr

/-- ADDR of an entry. -/
def pteAddr (e : W64) : Nat := fld e 12 38 * 4096

/-- An address lies in the range that TIER names (R44). -/
def inTier (tier pa : Nat) : Bool :=
  match tier with
  | 0 => decide (pa < 0x4000000000) || (decide (Config.landingBase ≤ pa) && decide (pa < Config.landingBase + Config.landingSize))
  | 1 => decide (Config.cxlBase ≤ pa) && decide (pa < Config.cxlBase + Config.cxlSize)
  | 2 => decide (Config.peerBase ≤ pa) && decide (pa < Config.peerBase + 16 * Config.peerSize)
  | _ => decide (Config.host0Base ≤ pa) && decide (pa < Config.host1Base + Config.hostSize)

/-- An address lies inside the device's own peer range (R44, R62). -/
def State.ownPeer (s : State) (pa : Nat) : Bool :=
  let b := Config.peerBase + fld s.trans.domainSelf 0 4 * Config.peerSize
  decide (b ≤ pa) && decide (pa < b + Config.peerSize)

/-- An entry with V = 1 that R44 calls MALFORMED at a level; `first` says that it is the first entry of its group of 16. -/
def State.pteBad (s : State) (level : Nat) (first : Bool) (e : W64) : Bool :=
  let a := pteAddr e
  let leaf := fld e 1 1
  let tier := fld e 62 2
  let c64 := fld e 59 1
  let mtype := fld e 56 2
  let tmiss := fld e 60 1
  fld e 61 1 != 0 || fld e 58 1 != 0 || fld e 50 6 != 0 || fld e 6 6 != 0 ||
  (if leaf = 0 then level == 0 || fld e 2 4 != 0 || fld e 56 8 != 0 || decide (s.usableTop < a + 4096)
   else
    level == 3 || (c64 == 1 && level != 0) || (c64 == 1 && fld e 12 4 != 0) || (c64 == 1 && !first) || (level == 1 && fld e 12 9 != 0)
    || (level == 2 && fld e 12 18 != 0) || !inTier tier a || s.ownPeer a || mtype == 3 || (mtype == 0 && decide (2 ≤ tier))
    || (fld e 4 1 == 1 && decide (2 ≤ tier)) || (fld e 3 1 == 1 && fld e 2 1 == 0) || (fld e 4 1 == 1 && fld e 2 2 != 3)
    || (tmiss == 1 && tier == 0) || (tmiss == 1 && level != 0))

/-- A leaf found by a walk: the entry, the page size as a shift, the entry's address. -/
structure LeafAt where
  leaf : W64
  shift : Nat
  addr : Nat
deriving DecidableEq, Repr

/-- A byte as the home of its line holds it, below the crew caches (R47, R192). -/
def State.homeByte (s : State) (pa : Nat) : Byte :=
  match s.fab.dirty.find? (fun d => d.line == pa / 128) with
  | some d => d.below.getD (pa % 128) 0
  | none => sget Memory.dflt s.mem pa

/-- A table entry as a walk reads it: master 0x8A, from the memory channel (R47, R56, R57). -/
def State.pteRead (s : State) (ea : Nat) : Except XFault W64 :=
  match s.refusal xlMaster 1 ea 8 with
  | some t => .error (.walk ea t)
  | none => .ok (BitVec.ofNat 64 (leNat ((List.range 8).map (fun k => s.homeByte (ea + k)))))

/-- The walk from a table at a level (R41, R43, R44). -/
def State.walkFrom (s : State) (va : Nat) : Nat → Nat → Except XFault LeafAt
  | 0, tbl =>
    let ga := tbl + bits va 16 5 * 16 * 8
    match s.pteRead ga with
    | .error f => .error f
    | .ok g =>
      if fld g 0 2 = 3 ∧ fld g 59 1 = 1 then (if s.pteBad 0 true g then .error (.page 3) else .ok ⟨g, 16, ga⟩)
      else
        let ea := tbl + bits va 12 9 * 8
        match s.pteRead ea with
        | .error f => .error f
        | .ok e => if fld e 0 1 = 0 then .error (.page 2) else if s.pteBad 0 (bits va 12 4 == 0) e then .error (.page 3) else .ok ⟨e, 12, ea⟩
  | l + 1, tbl =>
    let ea := tbl + bits va (12 + 9 * (l + 1)) 9 * 8
    match s.pteRead ea with
    | .error f => .error f
    | .ok e =>
      if fld e 0 1 = 0 then .error (.page 2) else if s.pteBad (l + 1) false e then .error (.page 3)
      else if fld e 1 1 = 1 then .ok ⟨e, 12 + 9 * (l + 1), ea⟩ else s.walkFrom va l (pteAddr e)

/-- The table that the walk cache names for a level's entries: of the lowest level that it holds (R46). -/
def walkStart (l : List (Nat × Nat × Nat × Nat)) (asid va root : Nat) : Nat × Nat :=
  let at' (k : Nat) : Option Nat := (l.find? (fun e => e.1 == asid && e.2.1 == k && e.2.2.1 == va / 2 ^ (12 + 9 * k))).map (·.2.2.2)
  match at' 1 with
  | some t => (0, t)
  | none => match at' 2 with
    | some t => (1, t)
    | none => match at' 3 with
      | some t => (2, t)
      | none => (3, root)

/-- A walk in a translation context, through the walk cache (R41, R46). -/
def State.walk (s : State) (root asid va : Nat) : Except XFault LeafAt :=
  let x := walkStart s.trans.walkCache asid va root
  s.walkFrom va x.1 x.2

/-- Access kinds (R45, R261). -/
abbrev kRead : Nat := 1
abbrev kWrite : Nat := 2
abbrev kAtomic : Nat := 3
abbrev kImage : Nat := 4
abbrev kPrefetch : Nat := 5

/-- Bit of the right that a kind needs (R45). -/
def rightBit (kind : Nat) : Nat := match kind with | 2 => 3 | 3 => 4 | 4 => 5 | _ => 2

/-- A TLB entry that holds a translation. -/
def tlbHit (asid va : Nat) : List TlbEntry → Option TlbEntry
  | [] => none
  | e :: t => if e.asid = asid ∧ va / 2 ^ e.shift = e.va / 2 ^ e.shift then some e else tlbHit asid va t

/-- The rights and tier checks of Translate after the walk (R45): the physical address and the leaf. -/
def applyLeaf (leaf : W64) (shift va kind : Nat) : Except XFault (Nat × W64) :=
  if fld leaf (rightBit kind) 1 = 0 then .error (if kind = kPrefetch then .drop else .page 4)
  else if fld leaf 60 1 = 1 then .error (if kind = kPrefetch then .drop else .tier leaf)
  else .ok (pteAddr leaf / 2 ^ shift * 2 ^ shift + va % 2 ^ shift, leaf)

/-- An address lies in a lost CXL range (R21). -/
def inLost (l : List (Nat × Nat)) (pa : Nat) : Bool := l.any (fun r => decide (r.1 ≤ pa) && decide (pa < r.1 + r.2))

/-- A page that maps to a lost CXL range is absent: its leaf reads with TMISS set (R21). `va` names the page of a larger leaf that is accessed. -/
def State.marked (s : State) (leaf : W64) (shift va : Nat) : W64 :=
  if inLost s.board.lostCxl (pteAddr leaf / 2 ^ shift * 2 ^ shift + va % 2 ^ shift) then leaf ||| (1 <<< 60) else leaf

/-- Translation by a walk (R45). -/
def State.walked (s : State) (root asid va kind : Nat) : Except XFault (Nat × W64) :=
  match s.walk root asid va with
  | .ok l => applyLeaf (s.marked l.leaf l.shift va) l.shift va kind
  | .error f => .error (match f with | .walk pa t => .walk pa t | f => if kind = kPrefetch then .drop else f)

/-- Translate (R45): through the TLBs given, or by a walk. A cached leaf without the right that the access needs is no failure of the access:
no cache holds a RIGHTS failure, so the entry is walked again (R48). -/
def State.translate (s : State) (tlb : List TlbEntry) (root asid va kind : Nat) : Except XFault (Nat × W64) :=
  if va / 2 ^ 48 ≠ 0 then .error (if kind = kPrefetch then .drop else .page 1)
  else match tlbHit asid va tlb with
    | some e => if fld e.leaf (rightBit kind) 1 = 1 then applyLeaf (s.marked e.leaf e.shift va) e.shift va kind else s.walked root asid va kind
    | none => s.walked root asid va kind

/-- Crew of a core (R193). -/
def crewOf (n : Fin 128) : Fin 16 := ⟨n.val / 8, by omega⟩

/-- Walks that run at once (R47). -/
def walkers : Nat := 4096

/-- A walk in flight is for the page of an address, and no invalidation has covered it (R47, R51). -/
def Walk.serves (w : Walk) (asid va : Nat) : Bool := decide (w.asid = asid) && decide (w.va / 4096 = va / 4096) && !w.stale

/-- A core's miss waits: a walk for its page is in flight, or every walker is busy; a core waits on for a walk that it has joined (R47, R51). -/
def State.missWaits (s : State) (n : Fin 128) (va : Nat) : Bool :=
  s.trans.walks.any (fun w => w.serves s.cores[n].ctx.asid va || (w.cores.contains n && decide (w.asid = s.cores[n].ctx.asid) && decide (w.va / 4096 = va / 4096)))
    || decide (walkers ≤ s.trans.walks.length)

/-- A core's miss joins the walk in flight for its page, or takes a free walker, or waits (R47). -/
def State.walkBegins (s : State) (n : Fin 128) (va : Nat) : State :=
  let c := s.cores[n]
  if c.phase = .idle ∨ va / 2 ^ 48 ≠ 0 then s
  else if s.trans.walks.any (fun w => w.serves c.ctx.asid va) then
    { s with trans := { s.trans with walks := s.trans.walks.map (fun w => if w.serves c.ctx.asid va && !w.cores.contains n then { w with cores := w.cores ++ [n] } else w) } }
  else if walkers ≤ s.trans.walks.length then s
  else { s with trans := { s.trans with walks := s.trans.walks ++ [{ asid := c.ctx.asid, root := c.ctx.root, va := va, cores := [n], stale := false }] } }

/-- Translation for a core's strands and engines: what a walk that it joined has handed it, core TLB, crew TLB, a walk (R46, R47, R51). -/
def State.coreTranslate (s : State) (n : Fin 128) (va kind : Nat) : Except XFault (Nat × W64) :=
  let c := s.cores[n]
  let tlb := c.mem.handed.toList ++ c.mem.tlb ++ s.trans.crewTlb[crewOf n]
  if va / 2 ^ 48 = 0 ∧ (tlbHit c.ctx.asid va tlb).isNone ∧ s.missWaits n va then .error .wait else s.translate tlb c.ctx.root c.ctx.asid va kind

/-! ### Accesses of a core (R38 to R40, R198, R356, R357) -/

/-- A part of an access that performs as one event: its physical address, its length, whether it is ordinary (R198). -/
structure Piece where
  pa : Nat
  len : Nat
  ordinary : Bool
deriving DecidableEq, Repr

/-- Number of a queue that a word of a memory instruction stands in (R266). -/
def accessTrap (q : Nat) (st : Strand) (cause : Nat) (faddr d0 d1 : Nat) : Trap :=
  { cause := cause, faddr := BitVec.ofNat 64 faddr, d0 := BitVec.ofNat 64 d0, d1 := BitVec.ofNat 64 d1, queue := q, engine := 0xFF, strand := st,
    after := false, rkind := 0, rindex := 0 }

/-- The trap of a failed translation (R261); a dropped access has none, and an access that waits for a walk has cause 0, which is no trap. -/
def xTrap (q : Nat) (st : Strand) (va kind : Nat) : XFault → Trap
  | .page sub => accessTrap q st 0x20 va sub kind
  | .tier leaf => accessTrap q st 0x21 va leaf.toNat kind
  | .drop => accessTrap q st 0x20 va 0 kind
  | .walk ea t => { accessTrap q st 0x20 va 3 kind with reqKind := 1, reqPa := ea, reqWalk := some t }
  | .wait => accessTrap q st 0 va 0 kind

/-- A leaf makes ordinary accesses: COHERENT memory, or the Landing whatever MTYPE says (R42, R198). -/
def leafOrdinary (leaf : W64) (pa : Nat) : Bool :=
  decide (fld leaf 56 2 = 0) || (decide (Config.landingBase ≤ pa) && decide (pa < Config.landingBase + Config.landingSize))

/-- Right bit of an access table for a kind: 1 R, 2 W, 3 A (R57). -/
def winRight (kind : Nat) : Nat := match kind with | 2 => 2 | 3 => 3 | _ => 1

/-- The single-byte or whole parts of an access (R357). -/
def splitAccess (ea len : Nat) : List (Nat × Nat) :=
  if ea % len = 0 then [(ea, len)] else (List.range len).map (fun k => (ea + k, 1))

/-- Physical address of a scratch offset of a core (R33). -/
def scratchPa (n : Fin 128) (off : Nat) : Nat := Config.scratchBase + n.val * Config.scratchSize + off

/-- Check one part of a global access: translation, then the access table. -/
def State.globalPiece (s : State) (n : Fin 128) (q : Nat) (st : Strand) (seq kind : Nat) (a : Nat × Nat) : Except Trap Piece :=
  match s.coreTranslate n a.1 kind with
  | .error f => .error (xTrap q st a.1 kind f)
  | .ok (pa, leaf) =>
    match s.refusal (coreMaster n) (winRight kind) pa a.2 with
    | some t => .error { accessTrap q st 0x22 a.1 t seq with reqKind := kind, reqPa := pa }
    | none => .ok ⟨pa, a.2, leafOrdinary leaf pa⟩

/-- Check one part of a Landing access within the quota: the access table of its slice (R57). -/
def State.landingPiece (s : State) (n : Fin 128) (q : Nat) (st : Strand) (seq kind : Nat) (a : Nat × Nat) : Except Trap Piece :=
  let pa := Config.landingBase + s.cores[n].ctx.landingBase + a.1
  match s.refusal (coreMaster n) (winRight kind) pa a.2 with
  | some t => .error { accessTrap q st 0x22 a.1 t seq with reqKind := kind, reqPa := pa }
  | none => .ok ⟨pa, a.2, true⟩

/-- Check of an access of `len` bytes (R356): the parts that perform, or the trap. -/
def State.checkAccess (s : State) (n : Fin 128) (q : Nat) (st : Strand) (seq : Nat) (sp : Space) (kind : Nat) (ea : W64) (len : Nat) : Except Trap (List Piece) :=
  let c := s.cores[n]
  match sp with
  | .g => (splitAccess ea.toNat len).mapM (s.globalPiece n q st seq kind)
  | .x =>
    if ea.toNat + len ≤ c.ctx.scratchQuota then .ok ((splitAccess ea.toNat len).map (fun a => ⟨scratchPa n a.1, a.2, false⟩))
    else .error (accessTrap q st 0x22 ea.toNat 0x42 seq)
  | .l =>
    if ea.toNat + len ≤ c.ctx.landingQuota then (splitAccess ea.toNat len).mapM (s.landingPiece n q st seq kind)
    else .error (accessTrap q st 0x22 ea.toNat 0x43 seq)

/-! ### Poison (R155) -/

/-- Some granule of a range is poisoned, or lies in a dirty line that is uncorrectable (R163). -/
def State.poisoned (s : State) (pa len : Nat) : Bool :=
  (List.range ((pa + len - 1) / 32 - pa / 32 + 1)).any (fun k => s.ras.poison.contains (pa / 32 + k) || s.fab.badDirty.contains ((pa / 32 + k) / 4))

/-- Size of the granule that holds an address: a 64-byte block of device memory, or a 32-byte SRAM sector (R155). -/
def granSize (pa : Nat) : Nat := if pa < 0x4000000000 ∨ Config.cxlBase ≤ pa then 64 else 32

/-- The granule that holds part `g` is wholly covered by the runs of bytes given, each an address and a length. -/
def granCovered (runs : List (Nat × Nat)) (g : Nat) : Bool :=
  let n := granSize (g * 32)
  let a := g * 32 / n * n
  runs.any (fun r => decide (r.1 ≤ a) && decide (a + n ≤ r.1 + r.2))
    || (List.range n).all (fun k => runs.any (fun r => decide (r.1 ≤ a + k) && decide (a + k < r.1 + r.2)))

/-- A full overwrite of a granule clears its poison; a partial one leaves it. -/
def clearRuns (p : List Nat) (runs : List (Nat × Nat)) : List Nat := p.filter (fun g => !granCovered runs g)
def clearPoison (p : List Nat) (pa len : Nat) : List Nat := clearRuns p [(pa, len)]

/-- Granules of a range made poisoned. -/
def State.setPoison (s : State) (pa len : Nat) : State :=
  let lo := pa / granSize pa * granSize pa
  let hi := (pa + len + granSize pa - 1) / granSize pa * granSize pa
  let gs := (List.range (hi / 32 - lo / 32)).map (· + lo / 32)
  { s with ras := { s.ras with poison := s.ras.poison ++ gs.filter (fun g => !s.ras.poison.contains g) } }

/-- Runs of a range that are poisoned, as offsets and lengths. -/
def State.poisonRuns (s : State) (pa len : Nat) : List (Nat × Nat) :=
  ((List.range ((pa + len - 1) / 32 - pa / 32 + 1)).filter (fun k => s.poisoned ((pa / 32 + k) * 32) 32)).map (fun k =>
    let lo := max pa ((pa / 32 + k) * 32)
    (lo - pa, min (pa + len) ((pa / 32 + k) * 32 + 32) - lo))

/-- Poison that travels with data: the runs given, at a destination (R155). -/
def State.carryPoison (s : State) (dst : Nat) (runs : List (Nat × Nat)) : State := runs.foldl (fun s r => s.setPoison (dst + r.1) r.2) s

/-- The offset of an address that a record of its array gives: in the channel, or in the Landing, the shadow store or the scratch (R159). -/
def arrayOffset (pa : Nat) : Nat :=
  if pa < Config.landingBase then channelOffset pa
  else if pa < Config.shadowBase then pa - Config.landingBase
  else if pa < Config.scratchBase then pa - Config.shadowBase
  else if pa < Config.cxlBase then pa - Config.scratchBase else pa

/-- Reporting unit of an address: channel, Landing slice, core, port (R158). -/
def State.unitOf (s : State) (pa : Nat) : Nat :=
  if pa < Config.landingBase then channelOf pa
  else if inLanding pa then landingSlice (pa - Config.landingBase)
  else if Config.scratchBase ≤ pa ∧ pa < Config.cxlBase then (pa - Config.scratchBase) / Config.scratchSize
  else (s.targetOf pa).getD 0 % 16

/-- An array that is SRAM, not memory behind a channel or port. -/
def isSram (pa : Nat) : Bool := decide (Config.landingBase ≤ pa) && decide (pa < Config.cxlBase)

/-- The record of an uncorrectable error or a failed tag that a read of device memory, of an SRAM or of a dirty line in its crew cache meets (R154, R159):
`how` is 1 scrub, 2 demand, 3 eviction; syndromes, tags, array kinds, the place in a crew cache and symbol positions are free values (log 11). -/
def State.logRead (s : State) (master pa stepid region how : Nat) : State :=
  let free (k : Nat) : Nat := (Config.freeW64 (s.fresh + k)).toNat
  let tag := s.ras.tagBad.contains (pa / 32)
  let crew := (s.fab.dirty.find? (fun d => d.line == pa / 128 && s.fab.badDirty.contains d.line)).map (·.crew)
  let sram := isSram pa || crew.isSome
  ({ s with fresh := s.fresh + 3 } : State).log
    { cls := if sram then 5 else if tag then 3 else 2, addr := pa / 32 * 32, stepid := stepid, data0 := free 0,
      data1 := if crew.isSome || (tag && !sram) then free 1 else arrayOffset pa, companion := if sram then free 2 % 256 else how, region := region,
      master := master, target := (s.targetOf pa).getD 0, unit := crew.getD (s.unitOf pa) }

/-- The record of a demand read. -/
def State.logDemand (s : State) (master pa stepid region : Nat) : State := s.logRead master pa stepid region 2

/-! ### Releases that writes carry (R214) -/

/-- An agent is a member of a release's scope: a core where CORES names it, an agent of another kind where the scope is entry 15. -/
def Release.reaches (r : Release) (agent : Nat) : Bool := if agent < 128 then fld r.cores agent 1 == 1 else r.all

/-- An agent is a member of a scope-table entry: a core where CORES names it, an agent of another kind in entry 15 alone. -/
def entryHas (e : BitVec 256) (idx agent : Nat) : Bool := if agent < 128 then fld e agent 1 == 1 else idx == 15

/-- A release synchronises with an acquire of an agent at an entry, where the acquire observes it (R214). -/
def Release.syncs (r : Release) (agent : Nat) (e : BitVec 256) (idx : Nat) : Bool := r.reaches agent && entryHas e idx r.agent

/-- The greatest stamp among the releases that an acquire synchronises with (R216). -/
def acquired (l : List Release) (agent : Nat) (e : BitVec 256) (idx : Nat) : Nat :=
  l.foldl (fun t r => if r.syncs agent e idx then max t r.stamp else t) 0

/-- A list of releases with one more; of two of one agent at one scope the later stamp stands for both. -/
def mergeRel (l : List Release) (r : Release) : List Release :=
  let same (x : Release) : Bool := x.agent == r.agent && x.cores == r.cores && x.all == r.all
  { r with stamp := l.foldl (fun t x => if same x then max t x.stamp else t) r.stamp } :: l.filter (fun x => !same x)

/-- 8-byte granules that a range of bytes meets. -/
def octets (pa len : Nat) : List Nat := (List.range ((pa + len + 7) / 8 - pa / 8)).map (· + pa / 8)

/-- The releases whose write, or a later one, a range of bytes holds. -/
def Fabric.relsAt (f : Fabric) (pa len : Nat) : List Release := (f.rels.filter (fun x => (octets pa len).contains x.1)).map (·.2)

/-- A release's write, or a write after it in coherence order, at a range of bytes. -/
def Fabric.addRel (f : Fabric) (pa len : Nat) (r : Release) : Fabric :=
  { f with rels := (octets pa len).foldl (fun l g => (mergeRel ((l.filter (fun x => x.1 == g)).map (·.2)) r).map (fun x => (g, x)) ++ l.filter (fun x => x.1 != g)) f.rels }

/-- Releases carried by a write. -/
def State.carryRels (s : State) (pa len : Nat) (l : List Release) : State := { s with fab := l.foldl (fun f r => f.addRel pa len r) s.fab }

/-- Place of a strand in the lists of releases that a core keeps. -/
def Strand.slot : Strand → Fin 4
  | .main => 0
  | .ctx h => ⟨h.val + 1, by omega⟩

/-- The strand's later writes carry a release, made by a fence (R214, R217). -/
def Core.fenced (c : Core) (st : Strand) (r : Release) : Core :=
  { c with mem := { c.mem with fences := c.mem.fences.set st.slot (mergeRel c.mem.fences[st.slot] r) } }

/-- What a strand's read of a range of bytes observes. -/
def State.observe (s : State) (n : Fin 128) (st : Strand) (ps : List Piece) : State :=
  s.modCore n (fun c => { c with mem := { c.mem with
    seen := c.mem.seen.set st.slot ((ps.flatMap (fun p => s.fab.relsAt p.pa p.len)).foldl mergeRel c.mem.seen[st.slot]) } })

/-! ### Bytes written and read -/

/-- The bytes of a list of parts, in order. -/
def readPieces (m : Memory) (ps : List Piece) : List Byte := ps.flatMap (fun p => memRead m p.pa p.len)

/-- The scrubber's write-back that is still to come after a write of bytes: dropped where the write reaches the line's target, which it does
unless a crew cache keeps the line dirty (R156). -/
def State.scrubAfter (s : State) (pa len : Nat) : Option Nat :=
  s.ras.scrubbing.filter (fun x => len == 0 || decide (pa + len ≤ x * 128) || decide (x * 128 + 128 ≤ pa) || s.fab.dirty.any (fun d => d.line == x))

/-- Bytes written to memory, with the poison of wholly covered granules cleared. -/
def State.writeBytes (s : State) (pa : Nat) (b : List Byte) : State :=
  { s with mem := memWrite s.mem pa b, ras := { s.ras with
      poison := clearPoison s.ras.poison pa b.length, tagBad := clearPoison s.ras.tagBad pa b.length, scrubbing := s.scrubAfter pa b.length } }

/-- Poison of the granules that several runs of bytes cover together goes (R155). -/
def State.clearCovered (s : State) (runs : List (Nat × Nat)) : State :=
  { s with ras := { s.ras with poison := clearRuns s.ras.poison runs, tagBad := clearRuns s.ras.tagBad runs } }

/-- Bytes distributed over parts. -/
def writePieces (s : State) : List Piece → List Byte → State
  | [], _ => s
  | p :: t, b => writePieces (s.writeBytes p.pa (b.take p.len)) t (b.drop p.len)

/-! ### Logical clocks (R201) -/

/-- Entry that keeps the timestamps of a line: the line itself, or an entry of its Landing bank's table, by the hash that the spec leaves open
(R201, log 11). -/
def tsKey (line : Nat) : Nat :=
  if inLanding (line * 128) then
    Config.landingBase / 128 + bits line 0 8 * 256 + Config.landingHash line % 256
  else line

/-- What a line takes whose timestamps are not held: the floor of its channel (R201). -/
def Fabric.floorOf (f : Fabric) (line : Nat) : Nat :=
  if line * 128 < Config.landingBase then f.floors[(Fin.ofNat 24 (channelOf (line * 128)) : Fin 24)] else 0

/-- WTS and RTS of a line (R201). -/
def Fabric.wtsOf (f : Fabric) (line : Nat) : Nat := match sget 0 f.wts (tsKey line) with | 0 => f.floorOf line | n + 1 => n
def Fabric.rtsOf (f : Fabric) (line : Nat) : Nat := match sget 0 f.rts (tsKey line) with | 0 => f.floorOf line | n + 1 => n

/-- Timestamps of a line set. -/
def Fabric.setTs (f : Fabric) (line w r : Nat) : Fabric := { f with wts := sset 0 f.wts (tsKey line) (w + 1), rts := sset 0 f.rts (tsKey line) (r + 1) }

/-- The timestamp cache of a channel evicts a line: the floor rises to its RTS (R201). -/
def Fabric.evictStamp (f : Fabric) (line : Nat) : Fabric :=
  if line * 128 < Config.landingBase ∧ sget 0 f.rts line ≠ 0 then
    let c : Fin 24 := Fin.ofNat 24 (channelOf (line * 128))
    { f with floors := f.floors.set c (max f.floors[c] (f.rtsOf line)), wts := sset 0 f.wts line 0, rts := sset 0 f.rts line 0 }
  else f

/-- WTS of a line after a write by an agent whose clock is `t`: Max(T, RTS + 1). -/
def Fabric.writeStamp (f : Fabric) (line t : Nat) : Nat := max t (f.rtsOf line + 1)

/-- WriteAt's timestamps. -/
def Fabric.stampWrite (f : Fabric) (line t : Nat) : Fabric := f.setTs line (f.writeStamp line t) (f.writeStamp line t)

/-- WriteAt's timestamps for the lines of a write in order, with the clock that the agent comes to. -/
def Fabric.stampLines (f : Fabric) : List Nat → Nat → Fabric × Nat
  | [], t => (f, t)
  | x :: l, t => (f.stampWrite x t).stampLines l (f.writeStamp x t)

/-- Lines that a range of bytes meets. -/
def linesOf (pa len : Nat) : List Nat := (List.range ((pa + len + 127) / 128 - pa / 128)).map (· + pa / 128)

/-- LoadGrant's lease: RTS becomes Max(RTS, T + 1). -/
def Fabric.grant (f : Fabric) (line t : Nat) : Fabric := f.setTs line (f.wtsOf line) (max (f.rtsOf line) (t + 1))

/-- The L1 copy of a line. -/
def l1Find (line : Nat) : List L1Line → Option L1Line
  | [] => none
  | x :: t => if x.line = line then some x else l1Find line t

/-- The L1 takes a copy: its set of 8 ways is the line modulo 128, and the copy fetched first leaves a full set (R191, log 5). -/
def l1Put (x : L1Line) (l : List L1Line) : List L1Line :=
  let rest := l.filter (fun y => y.line != x.line)
  let mates := rest.filter (fun y => y.line % 128 == x.line % 128)
  x :: (if 8 ≤ mates.length then rest.filter (fun y => y.line % 128 != x.line % 128 || (mates.take 7).contains y) else rest)

/-- Place in its crew cache's set of 16 ways that a line takes (R192). -/
def crewSet (line : Nat) : Nat := line % 2048

/-- The clean copy that a crew cache holds of a line. -/
def Fabric.cleanAt (f : Fabric) (crew line : Nat) : Option CrewLine := f.clean.find? (fun y => y.crew == crew && y.line == line)

/-- A crew cache holds no clean copy of a line any more. -/
def Fabric.dropClean (f : Fabric) (crew line : Nat) : Fabric := { f with clean := f.clean.filter (fun y => !(y.crew == crew && y.line == line)) }

/-- A crew cache takes a clean copy; of a full set the clean line taken longest ago leaves (R192, log 5). -/
def Fabric.putClean (f : Fabric) (x : CrewLine) : Fabric :=
  let rest := (f.dropClean x.crew x.line).clean
  let mates := rest.filter (fun y => y.crew == x.crew && crewSet y.line == crewSet x.line)
  let used := mates.length + (f.dirty.filter (fun d => d.crew == x.crew && crewSet d.line == crewSet x.line)).length
  { f with clean := x :: (match (if 16 ≤ used then mates.getLast? else none) with | some y => rest.filter (· != y) | none => rest) }

/-- The L1 of a core keeps a copy, and its clock rises to the copy's WTS (R201 LoadBind). -/
def Core.take (c : Core) (x : L1Line) (cache : Bool) : Core :=
  { c with mem := { c.mem with clock := max c.mem.clock x.wts, l1 := if cache then l1Put x c.mem.l1 else c.mem.l1 } }

/-- LoadGrant at a line's owner for a core whose clock is T, with LoadBind's rise of that clock (R201): the copy. -/
def State.loadGrant (s : State) (n : Fin 128) (line : Nat) (cache : Bool) : State × L1Line :=
  let t := s.cores[n].mem.clock
  let x : L1Line := { line := line, valid := t + 1, wts := s.fab.wtsOf line, data := memRead s.mem (line * 128) 128 }
  (({ s with fab := s.fab.grant line t }).modCore n (fun c => c.take x cache), x)

/-- LoadGrant by way of the crew cache (R192, R201): from its clean copy while T lies within the lease that the crew holds, the copy bounded by that
lease; else from the line's owner, and the crew keeps a copy where it does not hold the line dirty. -/
def State.crewGrant (s : State) (n : Fin 128) (line : Nat) (cache : Bool) : State × L1Line :=
  let t := s.cores[n].mem.clock
  let k := (crewOf n).val
  match (s.fab.cleanAt k line).filter (fun y => decide (t ≤ y.valid)) with
  | some y =>
    let x : L1Line := { line := line, valid := min y.valid (t + 1), wts := y.wts, data := y.data }
    (s.modCore n (fun c => c.take x cache), x)
  | none =>
    let (s1, x) := s.loadGrant n line cache
    (if s.fab.dirty.any (fun d => d.crew == k && d.line == line) then s1
     else { s1 with fab := s1.fab.putClean { crew := k, line := line, valid := x.valid, wts := x.wts, data := x.data } }, x)

/-- Lines that the L1 and the crew caches hold: COHERENT global ones, never Landing lines (R191, R192). -/
def l1Holds (pa : Nat) : Bool := decide (pa < 0x4000000000) || decide (Config.cxlBase ≤ pa)

/-- LoadBind of one line by a core (R201): the L1's copy while T lies within its lease, else a new one from the crew cache or the owner; of a Landing
line from its bank. -/
def State.loadBind (s : State) (n : Fin 128) (line : Nat) : State × L1Line :=
  if !l1Holds (line * 128) then s.loadGrant n line false
  else match (l1Find line s.cores[n].mem.l1).filter (fun x => decide (s.cores[n].mem.clock ≤ x.valid)) with
    | some x => (s, x)
    | none => s.crewGrant n line true

/-- A core and its crew cache hold no clean copy of a line any more: a scoped read has been made of it past them, and no later read may return an
older value (R200). -/
def State.dropLine (s : State) (n : Fin 128) (line : Nat) : State :=
  ({ s with fab := s.fab.dropClean (crewOf n).val line }).modCore n (fun c => { c with mem := { c.mem with l1 := c.mem.l1.filter (fun x => x.line != line) } })

/-- One part of a load bound (R199, R201): an ordinary part to the copy that the part before it read if that is of its line, else anew; a barrier
object that a sync cache holds is read there (R195). -/
def State.bindPart (s : State) (n : Fin 128) (last : Option L1Line) (p : Piece) : State × Option L1Line :=
  let line := p.pa / 128
  if !p.ordinary then (if l1Holds p.pa then s.dropLine n line else s, none)
  else if s.fab.sync.contains (p.pa / 32) then (match s.loadGrant n line false with | (s1, x) => (s1, some x))
  else match last.filter (fun x => x.line == line) with
    | some x => (s, some x)
    | none => (match s.loadBind n line with | (s1, x) => (s1, some x))

/-- The parts of a load bound in order (R203, R206): the copies that they read, none for parts that are not ordinary. -/
def State.bindPieces (s : State) (n : Fin 128) : Option L1Line → List Piece → State × List (Option L1Line)
  | _, [] => (s, [])
  | last, p :: t =>
    match s.bindPart n last p with
    | (s1, x) => (match s1.bindPieces n (x.or last) t with | (s2, r) => (s2, x :: r))

/-- The bytes of a part: from the copy it is bound to, or from memory. -/
def pieceBytes (m : Memory) (x : Option L1Line) (p : Piece) : List Byte :=
  match x with
  | some x => (x.data.drop (p.pa % 128)).take p.len
  | none => memRead m p.pa p.len

/-- The bytes of a list of parts as a load reads them. -/
def loadPieces (m : Memory) (copies : List (Option L1Line)) (ps : List Piece) : List Byte := (ps.zip copies).flatMap (fun x => pieceBytes m x.2 x.1)

/-- What the load-order buffer keeps of a copy. -/
def L1Line.seen (x : L1Line) : Nat × Nat × Nat := (x.line, x.wts, x.valid)

/-! ### Signatures (R168) -/

/-- One bit step of the CRC-64 of ECMA-182. -/
def crc64Bit (r : W64) : W64 := if r.msb then (r <<< 1) ^^^ 0x42F0E1EBA9EA3693#64 else r <<< 1

/-- One byte, most significant bit first. -/
def crc64Byte (r : W64) (b : Byte) : W64 :=
  (List.range 8).foldl (fun r _ => crc64Bit r) (r ^^^ (b.setWidth 64 <<< 56))

def crc64 (l : List Byte) : W64 := l.foldl crc64Byte 0

/-- The byte that runs of bytes, each an address and its bytes, write at an address. -/
def runByte (runs : List (Nat × List Byte)) (a : Nat) : Option Byte :=
  (runs.find? (fun r => decide (r.1 ≤ a) && decide (a < r.1 + r.2.length))).map (fun r => r.2.getD (a - r.1) 0)

/-- The term of one 8-byte granule `g` of one write of runs of bytes. -/
def sigGranule (space : Nat) (runs : List (Nat × List Byte)) (g : Nat) : W64 :=
  let data := (List.range 8).map (fun k => (runByte runs (8 * g + k)).getD 0)
  let mask := (List.range 8).foldl (fun m k => if (runByte runs (8 * g + k)).isSome then m + 2 ^ k else m) 0
  crc64 (natLe 8 (8 * g) ++ data ++ [BitVec.ofNat 8 mask, BitVec.ofNat 8 space])

/-- The 8-byte granules that runs of bytes touch, each once. -/
def runGranules (runs : List (Nat × List Byte)) : List Nat :=
  (runs.flatMap (fun r => if r.2.isEmpty then [] else (List.range ((r.1 + r.2.length - 1) / 8 - r.1 / 8 + 1)).map (· + r.1 / 8))).eraseDups

/-- The terms of one write added up: runs of bytes at virtual addresses. -/
def sigTerm (space : Nat) (runs : List (Nat × List Byte)) : W64 := (runGranules runs).foldl (fun acc g => acc + sigGranule space runs g) 0

/-- A write to global memory (1), the Landing (2) or a flume (3) folded into the step's signature. -/
def State.signRuns (s : State) (n : Fin 128) (space : Nat) (runs : List (Nat × List Byte)) : State := s.modCore n (fun c => { c with sig := c.sig + sigTerm space runs })
def State.sign (s : State) (n : Fin 128) (space va : Nat) (b : List Byte) : State := s.signRuns n space [(va, b)]

/-- Space number of the signature; scratch writes are not included. -/
def signSpace : Space → Option Nat
  | .g => some 1
  | .l => some 2
  | .x => none

/-! ### Crew caches (R192, R163) -/

/-- Poisoned 64-byte blocks of a dirty line that an eviction writes in part: it meets them as it reads them (R155, R159). -/
def State.evictMeets (s : State) (d : DirtyLine) : List Nat :=
  ([0, 1].filter (fun k => decide (bits d.sectors (2 * k) 2 = 1 ∨ bits d.sectors (2 * k) 2 = 2) && s.poisoned (d.line * 128 + 64 * k) 64)).map (fun k => d.line * 128 + 64 * k)

/-- A crew's dirty line is written back; where its ECC is uncorrectable it is an orphan, written back poisoned (R163); poison that the write-back
of some sectors of a block meets there is logged as of an eviction (R159). -/
def State.writeBack (s : State) (crew line master : Nat) : State :=
  match s.fab.dirty.find? (fun d => d.crew == crew && d.line == line) with
  | none => s
  | some d =>
    let s1 : State := { s with fab := { s.fab with dirty := s.fab.dirty.filter (fun d => !(d.crew == crew && d.line == line)), badDirty := s.fab.badDirty.filter (· != line) },
                               ras := { s.ras with scrubbing := s.ras.scrubbing.filter (· != line) } }
    if s.fab.badDirty.contains line then
      ({ (s1.setPoison (line * 128) 128) with fresh := s.fresh + 1 } : State).log
        { cls := 0x09, addr := line * 128, data0 := (Config.freeW64 s.fresh).toNat, data1 := crew, master := master, target := (s.targetOf (line * 128)).getD 0, unit := crew }
    else (s.evictMeets d).foldl (fun s pa => s.logRead 0x88 pa 0 0 3) s1

/-- The home recalls a line that a crew cache holds dirty (R192, R201). -/
def State.recallLine (s : State) (line master : Nat) : State :=
  match s.fab.dirty.find? (fun d => d.line == line) with
  | some d => s.writeBack d.crew line master
  | none => s

/-- Sectors of its line that a range of bytes meets, as a mask. -/
def sectorMask (pa len : Nat) : Nat := (List.range 4).foldl (fun m k => if pa % 128 < 32 * k + 32 ∧ 32 * k < pa % 128 + len then m + 2 ^ k else m) 0

/-- A crew cache holds a line dirty from now on, in place of its clean copy, or of a clean line of a full set (R192). -/
def State.addDirty (s : State) (crew line pa len : Nat) : State :=
  let f := s.fab.dropClean crew line
  let mates := f.clean.filter (fun y => y.crew == crew && crewSet y.line == crewSet line)
  let used := mates.length + (f.dirty.filter (fun d => d.crew == crew && crewSet d.line == crewSet line)).length
  { s with fab := { f with clean := (match (if 16 ≤ used then mates.getLast? else none) with | some y => f.clean.filter (· != y) | none => f.clean),
                           dirty := { crew := crew, line := line, sectors := sectorMask pa len, below := memRead s.mem (line * 128) 128 } :: f.dirty } }

/-- A crew is about to hold a line dirty: another crew's dirty copy is recalled first, and where the set of 16 ways is full of dirty lines the
one written longest ago is evicted (R192, R201; log 5). -/
def State.own (s : State) (crew line pa len master : Nat) : State :=
  match s.fab.dirty.find? (fun d => d.line == line) with
  | some d =>
    if d.crew = crew then
      { s with fab := { s.fab with dirty := { d with sectors := d.sectors ||| sectorMask pa len } :: s.fab.dirty.filter (fun d => d.line != line) } }
    else
      (s.writeBack d.crew line master).addDirty crew line pa len
  | none =>
    let mates := s.fab.dirty.filter (fun d => d.crew == crew && crewSet d.line == crewSet line)
    (if 16 ≤ mates.length then (match mates.getLast? with | some d => s.writeBack crew d.line master | none => s) else s).addDirty crew line pa len

/-! ### Performing writes -/

/-- A cache of `k` entries takes one more; the oldest leaves. -/
def cachePut {α : Type} [DecidableEq α] (k : Nat) (x : α) (l : List α) : List α := (x :: l.filter (fun y => decide (y ≠ x))).take k

/-- Capacity of the ATS cache (R46). -/
def atsSize : Nat := 4096

/-- Bus page of a host address. -/
def busPage (pa : Nat) : Nat := pa % Config.hostSize / 4096

/-- The ATS cache's entry for a host page, by the function and the ASID of the request (R46, R49). -/
def State.atsAt (s : State) (func asid pa : Nat) : Option AtsEntry := s.trans.ats.find? (fun x => x.func == func && x.asid == asid && x.page == busPage pa)

/-- The host has enabled ATS on a function (R49). -/
def State.atsOn (s : State) (func : Nat) : Bool := s.trans.atsEnable[(Fin.ofNat 10 func : Fin 10)]

/-- A host page that a function uses: the ATS cache is asked for it, and where it has no entry a translation request goes out (R49). -/
def State.askAts (s : State) (func asid pa : Nat) : State :=
  if pa < Config.host0Base ∨ !s.atsOn func ∨ (s.atsAt func asid pa).isSome then s
  else ({ s with trans := { s.trans with ats := cachePut atsSize { func := func, asid := asid, page := busPage pa, xlat := none } s.trans.ats } } : State).note
    (.atsRequest func (busPage pa))

/-- A request leaves through a port, on behalf of a function and in the context of an ASID: to the host, Translated where the ATS cache holds the
page's translation, or to a peer at BUS ++ q[34:0] (R33, R49, R63). -/
def State.sendOut (s : State) (func asid pa len : Nat) (write : Bool) : State :=
  if pa < Config.peerBase then s
  else if pa < Config.peerBase + 16 * Config.peerSize then
    let e := s.peerEntry pa
    s.note (.outbound (fld e 1 1) false (fld e 83 29 * 2 ^ 35 + (pa - Config.peerBase) % Config.peerSize) len write)
  else
    let s1 := s.askAts func asid pa
    let bus := pa % Config.hostSize
    match (if s.atsOn func then (s.atsAt func asid pa).bind (·.xlat) else none) with
    | some y => s1.note (.outbound (if pa < Config.host1Base then 0 else 1) true (y * 4096 + bus % 4096) len write)
    | none => s1.note (.outbound (if pa < Config.host1Base then 0 else 1) false bus len write)

/-- A request of a core leaves: for its region's function, in its ASID. -/
def State.coreOut (s : State) (n : Fin 128) (pa len : Nat) (write : Bool) : State :=
  s.sendOut (s.region s.cores[n].ctx.region).func s.cores[n].ctx.asid pa len write

/-- Bytes replaced in the copy of a line. -/
def L1Line.patch (x : L1Line) (pa : Nat) (b : List Byte) : List Byte :=
  if x.line = pa / 128 then x.data.take (pa % 128) ++ b ++ x.data.drop (pa % 128 + b.length) else x.data

/-- The place at which an ordinary write performs (R201, R220): its crew cache, which takes ownership first; or the line's home, which recalls the line
from any owner. -/
inductive WriteAt where
  | crew
  | home
deriving DecidableEq, Repr

/-- A write's runs of bytes in one line come to where they perform: a Landing line's at its bank, a barrier object's that a sync cache holds there
(R195). -/
def State.arriveAt (s : State) (n : Fin 128) (place : WriteAt) (line : Nat) (runs : List (Nat × List Byte)) : State :=
  if !l1Holds (line * 128) then s
  else match place with
    | .home => s.recallLine line n.val
    | .crew => (runs.filter (fun r => !s.fab.sync.contains (r.1 / 32))).foldl (fun s r => s.own (crewOf n).val line r.1 r.2.length n.val) s

/-- An ordinary write of a core performs as one event: runs of bytes in one line (R201 WriteAt, R205); a resident copy of the line is updated in
place and keeps its lease (R191). -/
def State.performRuns (s : State) (n : Fin 128) (place : WriteAt) (line : Nat) (runs : List (Nat × List Byte)) : State :=
  let s0 := s.arriveAt n place line runs
  let w := s0.fab.writeStamp line s0.cores[n].mem.clock
  let f := s0.fab.stampWrite line s0.cores[n].mem.clock
  let s1 : State := { (runs.foldl (fun s r => s.writeBytes r.1 r.2) s0) with fab := f }
  s1.modCore n (fun c => { c with mem := { c.mem with clock := w, l1 := c.mem.l1.map (fun x =>
    if x.line = line then { x with data := runs.foldl (fun d r => L1Line.patch { x with data := d } r.1 r.2) x.data } else x) } })
/-- The same for one part of an access. -/
def State.performOrdinary (s : State) (n : Fin 128) (place : WriteAt) (p : Piece) (b : List Byte) : State := s.performRuns n place (p.pa / 128) [(p.pa, b)]

/-- Clock key of an engine context or of another agent (log 5). -/
def eclockKey (n : Fin 128) (ctx : Nat) : Nat := 8 * n.val + ctx

/-- Master in whose name a line is recalled for an agent: the core of an engine context, else the front end. -/
def agentMaster (agent : Nat) : Nat := if agent < 1024 then agent / 8 else 0x88

/-- A scoped write of bytes performs at its home with the clock of an agent, line by line; the home recalls owned lines first (R201, R207); what a core
or an engine of it writes to a host or peer tier leaves through the port. The stamp it takes. -/
def State.performScoped (s : State) (agent : Nat) (pa : Nat) (b : List Byte) : State × Nat :=
  let s0 := (linesOf pa b.length).foldl (fun s x => s.recallLine x (agentMaster agent)) s
  let (f, w) := s0.fab.stampLines (linesOf pa b.length) (sget 0 s0.fab.eclock agent)
  let s1 : State := { (s0.writeBytes pa b) with fab := { f with eclock := sset 0 f.eclock agent w } }
  (if agent < 1024 then s1.coreOut (Fin.ofNat 128 (agent / 8)) pa b.length true else s1, w)

/-- A two's complement number of the bytes given. -/
def leInt (b : List Byte) : Int := (BitVec.ofNat (8 * b.length) (leNat b)).toInt

/-- What a reduction at memory leaves (R371): the memory value first. -/
def redResult (op : MemRed) (m v : List Byte) : List Byte :=
  let a := leNat m
  let b := leNat v
  match op with
  | .addW => natLe 4 (a + b)
  | .addD => natLe 8 (a + b)
  | .addF32 => natLe 4 (fmtF32.addV 0 (fmtF32.decode a) (fmtF32.decode b)).bits
  | .minW => if leInt m ≤ leInt v then m else v
  | .maxW => if leInt v ≤ leInt m then m else v
  | .orD => natLe 8 (a ||| b)

/-- One element of `lupd` (R372). -/
def lineElem (op : LineOp) (a b : Nat) : Nat :=
  match op with
  | .addI32 => (a + b) % 2 ^ 32
  | .addF32 => (fmtF32.addV 0 (fmtF32.decode a) (fmtF32.decode b)).bits
  | .maxF32 => (fmtF32.minMax true a b).bits
  | .minF32 => (fmtF32.minMax false a b).bits

/-- The 32 elements of `lupd`. -/
def lineResult (op : LineOp) (m v : List Byte) : List Byte :=
  (List.range 32).flatMap (fun k => natLe 4 (lineElem op (leNat ((m.drop (4 * k)).take 4)) (leNat ((v.drop (4 * k)).take 4))))

/-- Bytes that a scoped write in flight leaves. -/
def InFlight.result (x : InFlight) (m : Memory) : List Byte :=
  match x.op with
  | .data => x.data
  | .red op => redResult op (memRead m x.pa x.data.length) x.data
  | .line op => lineResult op (memRead m x.pa 128) x.data

/-- A reduction or `lupd` on a poisoned target is not performed (R155). -/
def InFlight.blocked (x : InFlight) (s : State) : Bool := x.op != .data && s.poisoned x.pa x.data.length

/-- Entry `i` of a list replaced. -/
def setAt {α : Type} (l : List α) (i : Nat) (x : α) : List α := l.set i x

/-- The bytes of an in-flight write performed (R207); they carry the releases of the strand's fences (R214). -/
def State.performBytes (s : State) (x : InFlight) : State × Nat :=
  let l := s.cores[x.core].mem.fences[x.strand.slot]
  let a := x.more.foldl (fun a r => a.1.performScoped (eclockKey x.core 6) r.1 r.2) (s.performScoped (eclockKey x.core 6) x.pa (x.result s.mem))
  (x.more.foldl (fun s r => s.carryRels r.1 r.2.length l) (a.1.carryRels x.pa x.data.length l), a.2)

/-- A write to a host or peer tier, which leaves through a port (R228). -/
def InFlight.outward (x : InFlight) : Bool := decide (Config.peerBase ≤ x.pa)

/-- The byte runs of a write in flight. -/
def InFlight.runs (x : InFlight) : List (Nat × Nat) := (x.pa, x.data.length) :: x.more.map (fun r => (r.1, r.2.length))

/-- Two byte ranges overlap. -/
def overlaps (a b : Nat × Nat) : Bool := decide (a.1 < b.1 + b.2) && decide (b.1 < a.1 + a.2)

/-- A write in flight must perform before a later one of its strand: both leave through a port (R228), or both are parts of one word at a byte that
it writes twice (R365). -/
def InFlight.before (y x : InFlight) : Bool :=
  decide (y.core = x.core) && decide (y.strand = x.strand) && !y.performed
    && ((y.outward && x.outward) || (y.op == .data && x.op == .data && decide (y.po = x.po) && y.runs.any (fun a => x.runs.any (overlaps a))))

/-- The write in flight at a place may perform now. -/
def State.mayPerform (s : State) (i : Nat) : Bool :=
  match s.fab.inflight[i]? with
  | some x => !x.performed && !(s.fab.inflight.take i).any (fun y => y.before x)
  | none => false

/-- The writes that a reduction performs together with its own: those whose operands it holds (R221). -/
def InFlight.others (x : InFlight) : List InFlight :=
  x.joined.map (fun k => { x with core := k.core, strand := k.strand, hnum := k.hnum, seq := k.seq, po := k.po, cmd := k.cmd, joined := [] })

/-- An operation that met poison at its target: the record, and the consumed uncorrectable error of its core (R155). -/
def State.blockedAt (s : State) (x : InFlight) : State :=
  (s.logDemand x.core.val x.pa s.cores[x.core].sys.stepid.toNat s.cores[x.core].ctx.region).modCore x.core (fun c =>
    { (c.meet x.po x.strand) with uePa := x.pa / 32 * 32 })

/-- The runs of the writes of one word that have performed: a granule that they cover together loses its poison (R155). -/
def State.wordRuns (s : State) (x : InFlight) : List (Nat × Nat) :=
  (s.fab.inflight.filter (fun y => y.performed && y.op == .data && decide (y.core = x.core) && decide (y.strand = x.strand) && decide (y.hnum = x.hnum) && decide (y.po = x.po))).flatMap InFlight.runs

/-- A scoped write in flight performs, with those whose operands it holds (R207, R221); a reduction then counts as an operation that cannot be repeated
(R161). -/
def State.performInFlight (s : State) (i : Nat) : State :=
  match s.fab.inflight[i]? with
  | none => s
  | some x =>
    if x.performed then s else
    let (s1, w) := if x.blocked s then ((x :: x.others).foldl State.blockedAt s, 0) else s.performBytes x
    let s2 := if x.blocked s then s1 else x.joined.foldl (fun s k => s.carryRels x.pa x.data.length s.cores[k.core].mem.fences[k.strand.slot]) s1
    let more := x.others.map (fun (y : InFlight) => { y with performed := true, stamp := w })
    let s3 : State := { s2 with fab := { s2.fab with inflight := setAt s2.fab.inflight i { x with performed := true, stamp := w, joined := [] } ++ more } }
    if x.blocked s then s3
    else match x.op with
      | .data => s3.clearCovered (s3.wordRuns x)
      | _ => (x :: x.others).foldl (fun s y => s.modCore y.core (fun c => c.notePoint y.po (fun p => { p with nonIdem := true }))) s3

/-- A write in flight is of a core, or holds an operand of it. -/
def InFlight.ofCore (x : InFlight) (n : Fin 128) : Bool := decide (x.core = n) || x.joined.any (fun k => decide (k.core = n))

/-- Every scoped write of a core in flight performs (R262 step 4). -/
def State.performAll (s : State) (n : Fin 128) : State :=
  (List.range s.fab.inflight.length).foldl (fun s i => match s.fab.inflight[i]? with | some x => if x.ofCore n then s.performInFlight i else s | none => s) s

/-- The operands of two pending reductions of one operation to one element become one (R221). -/
def State.combine (s : State) (i j : Nat) : State :=
  match s.fab.inflight[i]?, s.fab.inflight[j]? with
  | some x, some y =>
    match x.op, y.op with
    | .red a, .red b =>
      if i < j ∧ a = b ∧ x.pa = y.pa ∧ x.performed = false ∧ y.performed = false then
        let z : InFlight := { x with data := redResult a x.data y.data,
                                     joined := x.joined ++ { core := y.core, strand := y.strand, hnum := y.hnum, seq := y.seq, po := y.po, cmd := y.cmd } :: y.joined }
        { s with fab := { s.fab with inflight := (setAt s.fab.inflight i z).eraseIdx j } }
      else s
    | _, _ => s
  | _, _ => s

/-! ### Scopes (R209 to R214) -/

/-- Entry `i` of the scope table of a core's region (R209, R210). -/
def State.scopeEntry (s : State) (n : Fin 128) (i : Fin 16) : BitVec 256 :=
  let c := s.cores[n]
  let r := sget Region.none s.sched.regions c.ctx.region
  if i.val = 0 then BitVec.ofNat 256 (2 ^ n.val + 2 ^ 185)
  else if i.val = 15 then
    BitVec.ofNat 256 (fld r.scopes[i] 0 128 + (2 ^ 32 - 1) * 2 ^ 128 + fld r.scopes[i] 168 16 * 2 ^ 168 + 3 * 2 ^ 184)
  else r.scopes[i]

/-- GEN, SGEN, V of an entry. -/
def scopeGen (e : BitVec 256) : Nat := fld e 168 8
def scopeSgen (e : BitVec 256) : Nat := fld e 176 8
def scopeV (e : BitVec 256) : Bool := fld e 185 1 == 1

/-- STALE_SCOPE (R261). -/
def staleTrap (q : Nat) (st : Strand) (i captured current : Nat) : Trap :=
  accessTrap q st 0x02 0 (i + captured * 256 + current * 65536) 0

/-- Capture of a scope (R212). -/
def State.capture (s : State) (n : Fin 128) (q : Nat) (st : Strand) (i : Fin 16) : Except Trap Cap :=
  let e := s.scopeEntry n i
  if scopeV e then .ok ⟨i, scopeGen e⟩ else .error (staleTrap q st i.val (scopeGen e) (scopeGen e))

/-- CheckScope at the performing point (R213): the entry's present membership. -/
def State.checkScope (s : State) (n : Fin 128) (q : Nat) (st : Strand) (cap : Cap) : Except Trap (BitVec 256) :=
  let e := s.scopeEntry n cap.idx
  if cap.gen = scopeGen e then .ok e
  else
    let d := (scopeGen e + 256 - cap.gen) % 256
    let g := (scopeSgen e + 256 - cap.gen) % 256
    if scopeV e && (g == 0 || decide (d < g)) then .ok e else .error (staleTrap q st cap.idx.val cap.gen (scopeGen e))

/-- The release of a core at an entry, with the stamp that its clock has come to (R215). -/
def State.releaseOf (s : State) (n : Fin 128) (e : BitVec 256) (idx : Nat) : Release :=
  { agent := n.val, cores := BitVec.ofNat 128 (fld e 0 128), all := idx == 15, stamp := s.cores[n].mem.clock }

/-- Some member of an entry leaves with a new image: V, SLICES, CREWS or CORES (R209). -/
def scopeShrinks (old new : BitVec 256) : Bool :=
  let gone (lo len : Nat) : Bool := decide (fld old lo len &&& fld new lo len ≠ fld old lo len)
  gone 0 128 || gone 128 16 || gone 144 16 || gone 185 1

/-- Update of an entry (R213): `img` gives CORES, CREWS, SLICES and V. -/
def scopeUpdate (old img : BitVec 256) : BitVec 256 :=
  let g := (scopeGen old + 1) % 256
  let base := fld img 0 160 + fld img 185 1 * 2 ^ 185
  let sgen := if scopeShrinks old img then g else if scopeSgen old = g then (g + 1) % 256 else scopeSgen old
  BitVec.ofNat 256 (base + g * 2 ^ 168 + sgen * 2 ^ 176)

/-! ### Page-ins (R54) -/

/-- A page-in of the page that holds `va` is running, with a waiter more. -/
def joinPageIn (asid va : Nat) (w : PageWaiter) : List PageIn → Option (List PageIn)
  | [] => none
  | x :: t =>
    if x.asid = asid ∧ va / 2 ^ x.shift = x.va / 2 ^ x.shift then some ({ x with waiters := if x.waiters.contains w then x.waiters else x.waiters ++ [w] } :: t)
    else (joinPageIn asid va w t).map (x :: ·)

/-- A tier miss asks for a page-in, or waits for the one that runs (R54). -/
def State.requestPageIn (s : State) (root asid pib va : Nat) (w : PageWaiter) : State :=
  match joinPageIn asid va w s.trans.pageIns with
  | some l => { s with trans := { s.trans with pageIns := l } }
  | none =>
    match s.walk root asid va with
    | .error _ => s
    | .ok l =>
      let x : PageIn := { pib := pib, asid := asid, va := va / 2 ^ l.shift * 2 ^ l.shift, shift := l.shift, leafAddr := l.addr, old := l.leaf, frame := none, emptied := false, waiters := [w] }
      { s with trans := { s.trans with pageIns := s.trans.pageIns ++ [x] } }

end Sys2Proof.Machine
end

