-- ==== Sys2Proof/Machine/Ops.lean ====
section
/-! DEFINITION. Taking an exception (spec/10 R260 to R269) as one shared operation, the return from it (R268), and the
execution of a word by its strand: judgement, tokens, guard, scalar hazards, completion (R278, R279, R300). -/

namespace Sys2Proof.Machine

/-! ### Traps -/

/-- A trap that is no bounded wait and no engine fault. -/
def mkTrap (cause : Nat) (q : Nat) (st : Strand) (faddr d0 d1 : W64) : Trap :=
  { cause := cause, faddr := faddr, d0 := d0, d1 := d1, queue := q, engine := 0xFF, strand := st, after := false, rkind := 0, rindex := 0 }

/-- The trap of a bounded wait that has expired (R272). -/
def waitTrap (q : Nat) (st : Strand) (w : Wait) : Trap :=
  { cause := 0x01, faddr := w.faddr, d0 := w.d0, d1 := w.d1, queue := q, engine := 0xFF, strand := st, after := false, rkind := w.rkind, rindex := w.rindex }

/-- Causes at or above 0x20 are of system class (R261). -/
def Trap.system (t : Trap) : Bool := 0x20 ≤ t.cause

/-- STRAND of the record (R266). -/
def Strand.num : Strand → Nat
  | .main => 0
  | .ctx h => h.val + 1

/-- HDR of the composite record (R266). -/
def trapHdr (t : Trap) (multi : Bool) : Nat :=
  t.rkind * 2 ^ 40 + t.rindex * 2 ^ 32 + multi.toNat * 2 ^ 25 + t.after.toNat * 2 ^ 24 + t.engine * 2 ^ 16 + t.strand.num * 2 ^ 14 + t.queue * 2 ^ 11
    + t.system.toNat * 2 ^ 9 + t.cause

/-- Commands accepted and not finished in an engine context (R186); none while a rollback has the count of accepted ones behind. -/
def Engines.pending (e : Engines) (k : Fin 8) : Nat := (e.issued[k] - e.tl[k]).toInt.toNat

/-- Slots that a block takes in its operand FIFO (R183). -/
def Block.slots (b : Block) : Nat := if b.null then 0 else if b.fmt = 2 then 2 else 1

/-- Positions of a FIFO below which every chunk that reads them has promoted. -/
def Engines.lowA (e : Engines) : Nat :=
  match e.gos with
  | g :: _ => (match g.todo with | x :: t => g.abase + t.foldl (fun m y => min m y.pa) x.pa | [] => g.abase + g.na)
  | [] => e.aDone
def Engines.lowB (e : Engines) : Nat :=
  match e.gos with
  | g :: _ => (match g.todo with | x :: t => g.bbase + t.foldl (fun m y => min m y.pb) x.pb | [] => g.bbase + g.nb)
  | [] => e.bDone

/-- A position of a FIFO is still to be read by a chunk of the go it belongs to, or belongs to no go accepted yet. -/
def Engines.wantsA (e : Engines) (p : Nat) : Bool :=
  decide (e.aDone ≤ p) && (match e.gos.find? (fun g => decide (g.abase ≤ p) && decide (p < g.abase + g.na)) with
    | some g => g.todo.any (fun x => decide (g.abase + x.pa = p))
    | none => true)
def Engines.wantsB (e : Engines) (p : Nat) : Bool :=
  decide (e.bDone ≤ p) && (match e.gos.find? (fun g => decide (g.bbase ≤ p) && decide (p < g.bbase + g.nb)) with
    | some g => g.todo.any (fun x => decide (g.bbase + x.pb = p))
    | none => true)

/-- A FIFO has slots for a block at a position: the blocks held take theirs, and each earlier position that is still to come and to be read keeps
those that its own block will take, so that positions are served in order (R183). -/
def slotFree (held : List Block) (wants : Nat → Bool) (width : Nat → Nat) (low : Nat) (b : Block) : Bool :=
  let missing := (List.range (b.pos - low)).filter (fun k => wants (low + k) && !held.any (fun x => x.pos == low + k))
  b.null || decide ((held.map Block.slots).foldl (· + ·) 0 + (missing.map (fun k => width (low + k))).foldl (· + ·) 0 + b.slots ≤ 4)

/-- Slots that the block of a position of FIFO A will take: as the command that pushes it or the go that reads it says, else the most that a block
takes (R183; log 52). -/
def Core.widthA (c : Core) (p : Nat) : Nat :=
  let slots (bf16 : Bool) : Nat := if bf16 then 2 else 1
  let of (pos n : Nat) : Bool := decide (pos ≤ p) && decide (p < pos + n)
  match (c.eng.cpy[(0 : Fin 2)] ++ c.eng.cpy[(1 : Fin 2)]).find? (fun m => m.cls == 1 && of m.pos (((m.dims.drop 2).map (fun d => fld d 0 32)).foldl (· * ·) 1)) with
  | some m => slots (fld m.hdr 33 2 == 2)
  | none => match c.eng.wins.find? (fun w => of w.pos w.nb) with
    | some w => slots (fld w.cfg[5] 0 1 == 1)
    | none => match c.qX.find? (fun r => match r.uop with | .wgo _ pos n => of pos n | _ => false) with
      | some r => slots (match r.uop with | .wgo cfg _ _ => fld cfg[5] 0 1 == 1 | _ => true)
      | none => match c.eng.gos.find? (fun g => of g.abase g.na) with
        | some g => slots (fld g.ent 16 1 == 1)
        | none => 2

/-- Slots for the next block of a command are free at its position; a block of FIFO B takes one (R402). -/
def Core.slotAt (c : Core) (b : Bool) (pos fmt : Nat) : Bool :=
  let k : Block := { pos := pos, null := false, fmt := fmt, bs := 0, bytes := [], poison := false }
  if b then !c.eng.wantsB pos || slotFree c.eng.fifoB c.eng.wantsB (fun _ => 1) c.eng.lowB k
  else !c.eng.wantsA pos || slotFree c.eng.fifoA c.eng.wantsA c.widthA c.eng.lowA k

/-- PEND of a context: commands accepted and not finished; of context 7, handler strands that it started and that have not ended (R186). -/
def Core.pend (c : Core) (k : Fin 8) : Nat :=
  if k.val = 7 then ((List.finRange 3).filter (fun h => c.hnd[h].running && c.hnd[h].num != 0)).length else c.eng.pending k

/-- The oldest command of a context waits for an earlier command whose range conflicts with its own (R182). -/
def Core.rangeHeld (c : Core) (k : Fin 8) : Bool :=
  match c.eng.ranges.find? (fun e => e.ctx == k.val) with
  | none => false
  | some x =>
    let meet (a b c d : Nat) : Bool := decide (a < b) && decide (c < d) && decide (a < d) && decide (c < b)
    c.eng.ranges.any (fun e => decide (e.po < x.po) && (meet x.wlo x.whi e.rlo e.rhi || meet x.rlo x.rhi e.wlo e.whi || meet x.wlo x.whi e.wlo e.whi))

/-- STATE of an engine status word (R186). -/
def Core.estate (c : Core) (k : Fin 8) : Nat :=
  if c.eng.fcode[k] != 0 then 7
  else if c.pend k = 0 then 0
  else if c.phase = .frozen ∨ c.phase = .trapStrand then 6
  else if c.rangeHeld k then 2
  else match k.val with
    | 0 | 1 => (match c.eng.cpy[Fin.ofNat 2 k.val] with
      | m :: _ => if (if fld m.hdr 20 3 = 3 then !c.slotAt (decide (m.cls = 2)) (m.pos + m.progress) (fld m.hdr 33 2) else m.held) then 3 else 1
      | [] => 1)
    | 2 => (match c.eng.gos with
      | g :: _ => (match g.todo with
        | ch :: _ => if c.eng.fifoA.any (fun b => b.pos == g.abase + ch.pa) && c.eng.fifoB.any (fun b => b.pos == g.bbase + ch.pb) then 1 else 4
        | [] => 1)
      | [] => 1)
    | 3 => (match c.eng.wins with
      | w :: _ => if c.slotAt false (w.pos + w.pushed) (2 * fld w.cfg[5] 0 1) then 1 else 3
      | [] => 1)
    | 4 => 5
    | _ => 1

/-- An engine status word (R186). -/
def Core.estat (c : Core) (k : Fin 8) : Nat :=
  (c.eng.issued[k]).toNat % 2 ^ 32 * 2 ^ 32 + (c.eng.fcode[k]).toNat * 2 ^ 8 + min (c.pend k) 15 * 2 ^ 4 + c.estate k

/-- QSEQ of a queue: sequence number of its first word that has not completed (R263). -/
def Core.qseq (c : Core) (q : Fin 4) : Nat :=
  (c.seq[q]).toNat - (match q with | 0 => (if c.heldC.isSome then 1 else 0) | 1 => c.qL.length | 2 => c.qX.length | 3 => c.qS.length)

/-- Class and token bits of the word at an index, and its length with an EXT prefix (R277, R282). -/
def Core.wordAt (c : Core) (i : Nat) : Nat × Tok × Nat :=
  let w := (c.word i).toNat
  if bits w 22 6 = 4 then
    let x := (c.word (i + 1)).toNat
    (bits x 26 2, tokOf x, 2)
  else (bits w 26 2, tokOf w, 1)

/-- The index that follows a word in program order, where the word itself fixes it: the target of a `br` or `call` that no predicate guards, else
the next index (R265, R310; log 9). -/
def Core.following (c : Core) (i : Nat) : Nat :=
  let w := (c.word i).toNat
  if (bits w 22 6 = 7 ∨ bits w 22 6 = 8) ∧ bits w 19 3 = 0 then (((i : Int) + sext 19 (bits w 0 19)) % 16384).toNat else i + (c.wordAt i).2.2

/-- The index of the first word from `i` whose class is `cls`, looking at `n` words; of an extended word its EXT's (R265, R282, for an empty queue;
log 9). -/
def Core.nextOfClass (c : Core) (cls : Nat) : Nat → Nat → Nat
  | i, 0 => i
  | i, n + 1 => if (c.wordAt i).1 = cls then i else c.nextOfClass cls (c.following i) n

/-- The queue program counter of a queue (R265). -/
def Core.qpc (c : Core) (q : Qid) : Nat :=
  match c.queue q with
  | r :: _ => r.idx
  | [] => c.nextOfClass q.num.val c.pc c.img.ncode % 16384

/-- The cut fields of the composite record, from CLOCK up (R265). -/
def Core.cut (c : Core) : Nat :=
  let v (x : Vector W64 8) : Nat := (List.finRange 8).foldr (fun k acc => (x[k]).toNat + 2 ^ 64 * acc) 0
  let e : Nat := (List.finRange 8).foldr (fun k acc => c.estat k + 2 ^ 64 * acc) 0
  c.mem.clock % 2 ^ 64 * 2 ^ 320 + c.qseq 0 * 2 ^ 384 + c.qseq 1 * 2 ^ 448 + c.qseq 2 * 2 ^ 512 + c.qseq 3 * 2 ^ 576 + c.pc % 16384 * 2 ^ 640
    + c.qpc .l * 2 ^ 704 + c.qpc .x * 2 ^ 768 + c.qpc .s * 2 ^ 832 + e * 2 ^ 896 + v c.eng.tl * 2 ^ 1408

/-- The trap fields of the composite record (R265). -/
def trapFields (t : Trap) (multi : Bool) (stepid : Nat) : Nat :=
  trapHdr t multi + stepid % 2 ^ 64 * 2 ^ 64 + t.faddr.toNat * 2 ^ 128 + t.d0.toNat * 2 ^ 192 + t.d1.toNat * 2 ^ 256

/-- The composite record of a freeze (R265): its status words show the contexts FROZEN (R262 step 3). -/
def Core.composite (c : Core) (t : Trap) (multi : Bool) : BitVec 2048 :=
  BitVec.ofNat 2048 (trapFields t multi c.sys.stepid.toNat + Core.cut { c with phase := .frozen })

/-- Offsets 0x080 to 0x157 of the status page as they stand (R197). -/
def Core.liveFields (c : Core) : BitVec 1728 :=
  let v (x : Vector W64 8) : Nat := (List.finRange 8).foldr (fun k acc => (x[k]).toNat + 2 ^ 64 * acc) 0
  let e : Nat := (List.finRange 8).foldr (fun k acc => c.estat k + 2 ^ 64 * acc) 0
  let q := c.qseq 0 + c.qseq 1 * 2 ^ 64 + c.qseq 2 * 2 ^ 128 + c.qseq 3 * 2 ^ 192
  let pc := c.pc % 16384 + c.qpc .l * 2 ^ 64 + c.qpc .x * 2 ^ 128 + c.qpc .s * 2 ^ 192
  BitVec.ofNat 1728 (e + v c.eng.tl * 2 ^ 512 + q * 2 ^ 1024 + pc * 2 ^ 1280 + c.arrdrop.toNat * 2 ^ 1536 + c.loreplay.toNat * 2 ^ 1600
    + c.mem.clock % 2 ^ 64 * 2 ^ 1664)

/-- The cut that the status page shows while the core is frozen (R197). -/
def Core.showCut (c : Core) : Core := { c with shown := Core.liveFields { c with phase := .frozen } }

/-- The composite record rewritten for a trap of the trap strand: the cut stays as it was (R269). -/
def rewriteComposite (old : BitVec 2048) (t : Trap) (multi : Bool) : BitVec 2048 :=
  BitVec.ofNat 2048 (old.toNat / 2 ^ 320 * 2 ^ 320 + trapFields t multi (fld old 64 64))

/-- The trap as it is delivered: a user trap without a trap entry, or while the trap strand runs, becomes NESTED_USER, which names no resource
(R260, R266). -/
def Core.classify (c : Core) (t : Trap) : Trap :=
  if !t.system && (!c.img.hastrap || c.phase == .trapStrand) then { t with cause := 0x28, d0 := BitVec.ofNat 64 t.cause, rkind := 0, rindex := 0 } else t

/-- The trap strand: context 2 at the trap entry with HDR, FADDR, DETAIL0 and DETAIL1 in `h1` to `h4` (R267). -/
def Core.startTrapStrand (c : Core) (t : Trap) (multi : Bool) : Core :=
  let hdr := BitVec.ofNat 64 (trapHdr t multi)
  let h := (((((Vector.replicate 16 (0 : W64)).set 1 hdr).set 2 t.faddr).set 3 t.d0).set 4 t.d1)
  { c with phase := .trapStrand, poison := c.poison.filter (fun t => t.file != tagH + 2), origins := c.origins.filter (fun x => x.1.file != tagH + 2),
           hnd := c.hnd.set 2 { running := true, pc := c.img.trapent, h := h, p := (Vector.replicate 4 false).set 0 true, qwlim := c.sys.qwlim,
                                num := 0, wait := none },
           sys := { c.sys with trapcause := hdr, trapaddr := t.faddr, trapd0 := t.d0, trapd1 := t.d1 } }

/-- Step 5 of the freeze (R262): the composite record is written and the trap delivered to the trap strand or to firmware. -/
def Core.deliver (c : Core) (t0 : Trap) : Core :=
  let t := c.classify t0
  if c.phase = .trapStrand then
    -- a trap of the trap strand, with firmware now (R264, R269)
    { c with phase := .frozen, trap := { c.trap with composite := rewriteComposite c.trap.composite { t with strand := .ctx 2, queue := 5, engine := 0xFF, after := false, rkind := 0, rindex := 0 } c.trap.multi,
                                                     outer := c.trap.active, active := some t, detected := none } }
  else
    let c1 := { c.showCut with trap := { c.trap with composite := c.composite t c.trap.multi, active := some t, detected := none, back := c.phase != Phase.draining } }
    if t.system || c.trap.later.isSome then { c1 with phase := .frozen } else c1.startTrapStrand t c.trap.multi

/-- A trap is detected: nothing more is routed, executed or issued (R262 steps 1 to 3); the first one stands (R264). -/
def Core.detect (c : Core) (t : Trap) : Core :=
  match c.trap.detected with
  | some _ => c
  | none => { c with trap := { c.trap with detected := some t } }

/-- The cut lies before the C-class word at the control slot: pops that it has made and waits behind are not in it (R263). -/
def Core.unpop (c : Core) : Core :=
  let t := (c.wordAt c.pc).2.1
  let back (c : Core) (f : Fin 8) (on : Bool) : Core := if on then { c with pop := c.pop.set f (c.pop[f] - 1) } else c
  if c.popped then { back (back c (fifoInBefore 0) t.wb) (fifoInAfter 0) t.wa with popped := false } else c

/-- The drain of step 4 leaves the load-order buffer empty (R262), and the queues stand at the cut. -/
def Core.drained (c : Core) : Core := { c.unpop with mem := { c.mem with lob := [], handed := none } }

/-- The record that a target makes of a core's request it refused (R61). -/
def State.logRefusal (s : State) (n : Fin 128) (t : Trap) : State :=
  if t.reqKind = 0 then s
  else s.log { cls := 0x0B, addr := t.reqPa, stepid := s.cores[n].sys.stepid.toNat, data0 := t.reqKind, region := s.cores[n].ctx.region,
               master := if t.reqWalk.isSome then xlMaster.val else n.val, target := t.reqWalk.getD t.d0.toNat, unit := n.val }

/-- The drain of a freeze (R262 step 4): every access issued before it performs. An uncorrectable error that one of them meets is a later fault of
the drain, which sets MULTI and leaves no error to be consumed (R264). -/
def State.drain (s : State) (n : Fin 128) : State :=
  let met (c : Core) : List RegTag := c.poison.filter (fun t => t.file == tagUe)
  let old := met s.cores[n]
  let s1 := (s.modCore n (fun c => { c with poison := c.poison.filter (fun t => t.file != tagUe) })).performAll n
  s1.modCore n (fun c =>
    let later := if (met c).isEmpty then c.trap.later else some (mkTrap 0x23 5 .main (BitVec.ofNat 64 c.uePa) 0 0)
    { c with poison := c.poison.filter (fun t => t.file != tagUe) ++ old, trap := { c.trap with multi := c.trap.multi || !(met c).isEmpty, later := later } })

/-- The end of a freeze: every access issued before it performs, and the trap is delivered (R262 steps 4 and 5). -/
def State.freezeEnd (s : State) (n : Fin 128) (t : Trap) : State := ((s.drain n).logRefusal n t).modCore n (fun c => let d := c.drained.deliver t; { d with trap := { d.trap with since := s.tb.now.toNat } })

/-- TAKING AN EXCEPTION that a word raises, as one step: detection, the freeze, and its delivery (R260 to R267). An access that waits for a walk raises
none, and its word tries again (R47). -/
def takeTrap (n : Fin 128) (t : Trap) (s : State) : State := if t.cause = 0 then s.walkBegins n t.faddr.toNat else s.freezeEnd n t

/-! ### Return from an exception (R268) -/

/-- The chunk that a freeze finds unpromoted is abandoned: it begins again at FLOOR (R257, R262). -/
def Core.abandonChunk (c : Core) : Core :=
  match c.eng.gos with
  | g :: t => { c with eng := { c.eng with gos := { g with width := fld g.ent 2 2, coarse := none } :: t } }
  | [] => c

/-- Every strand restarts from its cut. -/
def Core.unfreeze (c0 : Core) : Core :=
  let c := c0.abandonChunk
  { c with phase := if c.loading then .starting else if c.trap.back then .running else .draining,
           hnd := c.hnd.set 2 { c.hnd[(2 : Fin 3)] with running := if c.phase = .trapStrand ∨ c.trap.outer.isSome then false else c.hnd[(2 : Fin 3)].running },
           sys := { c.sys with trapcause := 0, trapaddr := 0, trapd0 := 0, trapd1 := 0 },
           trap := { c.trap with active := none, outer := none, multi := false, later := none } }

/-- Queue 1 L, 2 X, 3 S of a trap record. -/
def qidOf (q : Nat) : Option Qid := match q with | 1 => some .l | 2 => some .x | 3 => some .s | _ => none

/-- The scope that a routed word holds. -/
def Uop.cap : Uop → Option Cap
  | .flgetX _ _ _ k | .flgetV _ _ k | .amo _ _ _ _ _ _ k | .red _ _ _ k | .lupd _ _ _ k | .flput _ _ k | .push _ _ _ k | .barArrive _ _ k => some k
  | _ => none

/-- A routed word with the scope that it captures now. -/
def Uop.recap (u : Uop) (k : Cap) : Uop :=
  match u with
  | .flgetX d f o _ => .flgetX d f o k
  | .flgetV d f _ => .flgetV d f k
  | .amo op w d e a v _ => .amo op w d e a v k
  | .red op a v _ => .red op a v k
  | .lupd op a o _ => .lupd op a o k
  | .flput f o _ => .flput f o k
  | .push t g a _ => .push t g a k
  | .barArrive d a _ => .barArrive d a k
  | u => u

/-- The head of a queue that trapped with STALE_SCOPE captures its scope afresh, where the entry has members (R212, R268). -/
def State.recapture (s : State) (n : Fin 128) (t : Trap) : State :=
  match t.strand, qidOf t.queue with
  | .main, some q =>
    s.modCore n (fun c => match c.queue q with
      | r :: rest => (match r.uop.cap with
        | some k => let e := s.scopeEntry n k.idx; if t.cause = 2 ∧ scopeV e then c.setQueue q ({ r with uop := r.uop.recap { k with gen := scopeGen e } } :: rest) else c
        | none => c)
      | [] => c)
  | _, _ => s

/-- The wait of the faulting word ends: it begins afresh (R268). -/
def Core.clearFault (c : Core) (t : Trap) : Core :=
  match t.strand with
  | .main => c.setWait (Fin.ofNat 4 t.queue) none
  | .ctx h => c.setHnd h { c.hnd[h] with wait := none }

/-- The engine context of a faulted command may go on (R262, R268). -/
def Core.clearEngine (c : Core) (t : Trap) : Core :=
  if h : t.engine < 8 then { c with eng := { c.eng with fcode := c.eng.fcode.set t.engine 0 h } } else c

/-- RESUME: every strand restarts from its cut, and the faulting word issues again (R268). -/
def Core.resume (c : Core) (t : Trap) : Core := ((c.clearFault t).clearEngine t).unfreeze

/-- A C-class word completes without its effect: its pushes and not its pops (R268). -/
def Core.skipC (c : Core) (tok : Tok) (len : Nat) : Core :=
  let c1 := { c with pc := c.pc + len, po := c.po + 1, seq := c.seq.set 0 (c.seq[(0 : Fin 4)] + 1) }
  if c1.canPush 0 tok then c1.pushes 0 tok else { c1 with heldC := some tok }

/-- A word that trapped while it was routed is routed without its effect (R268). -/
def Core.skipRouted (c : Core) (q : Qid) (tok : Tok) (len : Nat) : Core :=
  let r : Routed := { uop := .nop, tok := tok, on := true, strand := .main, idx := c.pc, po := c.po, vtype := c.sys.vtype, vl := c.sys.vl.toNat,
                      rm := Fin.ofNat 4 (fld c.sys.fpcr 0 2), fpe := fld c.sys.fpcr 8 5, done := false, noPop := true }
  { (c.setQueue q (c.queue q ++ [r])) with pc := c.pc + len, po := c.po + 1, seq := c.seq.set q.num (c.seq[q.num] + 1) }

/-- The markers of a `tsm` that L and X have reached; once both have, the new point replaces the old one (R324). -/
def Core.passMarkers (c : Core) : Core :=
  match c.tile.next with
  | none => c
  | some p =>
    let l := !c.tile.reachedL && decide (p.seqL ≤ c.qseq 1)
    let x := !c.tile.reachedX && decide (p.seqX ≤ c.qseq 2)
    let p1 := if l then { p with fifo := (((p.fifo.set 0 c.pop[(0 : Fin 8)]).set 1 c.push[(4 : Fin 8)]).set 2 c.push[(1 : Fin 8)]).set 3 c.pop[(5 : Fin 8)],
                                 issued := (p.issued.set 0 c.eng.issued[(0 : Fin 8)]).set 1 c.eng.issued[(1 : Fin 8)] } else p
    let p2 := if x then { p1 with fifo := (((p1.fifo.set 4 c.pop[(1 : Fin 8)]).set 5 c.push[(5 : Fin 8)]).set 6 c.push[(2 : Fin 8)]).set 7 c.pop[(6 : Fin 8)],
                                  issued := (p1.issued.set 2 c.eng.issued[(2 : Fin 8)]).set 3 c.eng.issued[(3 : Fin 8)] } else p1
    let rl := c.tile.reachedL || l
    let rx := c.tile.reachedX || x
    if rl && rx then
      { c with tile := { c.tile with point := p2, next := none, reachedL := false, reachedX := false,
                                     retainedL := c.tile.retainedL.filter (fun r => decide (p.po ≤ r.po)),
                                     retainedX := c.tile.retainedX.filter (fun r => decide (p.po ≤ r.po)),
                                     stores := c.tile.stores.filter (fun x => decide (p.po ≤ x.po)),
                                     firstUe := c.tile.firstUe.filter (fun x => decide (p.po ≤ x)) } }
    else { c with tile := { c.tile with next := some p2, reachedL := rl, reachedX := rx } }

/-- The faulting word completes without its effect (R268 SKIP). -/
def Core.skipWord (c : Core) (t : Trap) : Core :=
  match t.strand with
  | .ctx h => let (_, _, len) := c.wordAt c.hnd[h].pc; c.setPc (.ctx h) (c.hnd[h].pc + len)
  | .main =>
    if t.rkind = 2 then
      -- the word has made its effect and leaves; its pushes are discarded
      match qidOf t.queue with
      | some q => (c.setQueue q (c.queue q).tail).passMarkers
      | none => { c with heldC := none }
    else match qidOf t.queue with
      | some q => (match c.queue q with
        | r :: rest => c.setQueue q ({ r with uop := .nop, on := true, noPop := true } :: rest)
        | [] => c)
      | none =>
        let (cls, tok, len) := c.wordAt c.pc
        match qidOf cls with
        | some q => c.skipRouted q tok len
        | none => c.skipC tok len

/-- SKIP (R268): with AFTER set, or an engine command or no queue, as RESUME. -/
def Core.skip (c : Core) (t : Trap) : Core :=
  if t.after ∨ 4 ≤ t.queue then c.resume t else ((c.clearFault t).skipWord t).unfreeze

/-- The trap strand ends the step: COMPOSITE is rewritten and firmware is told (R269). -/
def Core.endStep (c : Core) (cause : Nat) (d1 : W64) : Core :=
  let orig := match c.trap.active with | some t => BitVec.ofNat 64 t.cause | none => 0
  let t : Trap := { cause := cause, faddr := 0, d0 := orig, d1 := d1, queue := 5, engine := 0xFF, strand := .ctx 2, after := false, rkind := 0, rindex := 0 }
  { c with phase := .frozen, hnd := c.hnd.set 2 { c.hnd[(2 : Fin 3)] with running := false },
           trap := { c.trap with composite := rewriteComposite c.trap.composite t c.trap.multi, active := some t, outer := none } }

/-! ### Execution of words -/

/-- What the effect of a word comes to. -/
inductive Res where
  /-- It is done. -/
  | ok (s : State)
  /-- It is done, and the strand goes on at this word index. -/
  | goto (s : State) (pc : Nat)
  /-- It waits, and the wait counts (R179). -/
  | wait (w : Wait)
  /-- It waits, with some part done or without a limit. -/
  | stall (s : State)
  /-- It raises a trap. -/
  | trap (t : Trap)
  /-- It is done, and raises a trap with AFTER set (R320, R238). -/
  | after (s : State) (t : Trap)
deriving DecidableEq, Repr

/-- What a word's fields ask of the judgement (R278, R279): reserved fields zero, allowed in handler strands, the scalar and
predicate numbers it names, its operands inside their limits. -/
structure Judge where
  res : Bool
  handler : Bool
  /-- Scalars read, scalars written. -/
  ss : List Reg
  sd : List Reg
  /-- Predicates read (the guard among them), predicates written. -/
  ps : List Reg
  pd : List Reg
  lim : Bool
deriving DecidableEq, Repr

/-- Some token bit is set. -/
def tokAny (t : Tok) : Bool := t.wb || t.wa || t.sb || t.sa

/-- A guard as a register number. -/
def guardReg (g : Guard) : Reg := g.castLE (by decide)

/-- The ILLEGAL subcause of a decoded word, in the order of R279. -/
def Judge.sub (j : Judge) (st : Strand) (t : Tok) : Option Nat :=
  if !j.res then some 2
  else if st != .main && (!j.handler || tokAny t || (j.ss ++ j.sd).any (fun r => decide (16 ≤ r.val)) || (j.ps ++ j.pd).any (fun r => decide (4 ≤ r.val) && decide (r.val ≤ 7)))
  then some 4
  else if !j.lim then some 3 else none

/-- ILLEGAL of the word at which a strand stands (R261, R279, R282); `len` is 2 for an extended word, whose second half has
the defect. -/
def Core.illegal (c : Core) (st : Strand) (len sub : Nat) : Trap :=
  let i := c.pcOf st
  mkTrap 0x24 0 st 0 (BitVec.ofNat 64 (c.word (i + len - 1)).toNat) (BitVec.ofNat 64 (i % 16384 + sub * 65536))

/-- A wait that counts against no limit. -/
def freeWait : Wait := { rkind := 0, rindex := 0, d0 := 0, d1 := 0, faddr := 0, limit := none }

/-- Destination scalars of a routed word (R176). -/
def Uop.dst : Uop → Option Reg
  | .load _ _ _ d _ => some d
  | .ldc _ _ d _ => some d
  | .flgetX d _ _ _ => some d
  | .amo op _ d _ _ _ _ => if op = .st then none else some d
  | .barArrive d _ _ => some d
  | _ => none

/-- A physical scalar is still to be written by a routed word, or by a load that may be replayed (R176, R180). -/
def Core.scalarPending (c : Core) (r : Reg) : Bool :=
  r.val != 0 && ((c.qL ++ c.qS).any (fun x => x.on && !x.done && x.uop.dst == some r)
    || c.mem.lob.any (fun e => e.word.uop.dst == some r))

/-- A word of the main strand waits: some scalar of its is not yet there (R176). -/
def Core.hazard (c : Core) (st : Strand) (j : Judge) : Bool :=
  match st with
  | .main => (j.ss ++ j.sd).any (fun r => c.scalarPending (physS c.sys.rotb r))
  | .ctx _ => false

/-- Marks of the predicates, and of the scalars, that a word reads (R155, R157). -/
def Core.predTags (c : Core) (st : Strand) (j : Judge) : List RegTag :=
  match st with
  | .main => j.ps.map (fun r => { file := tagP, num := (physP c.sys.rotb (p3 r)).val })
  | .ctx _ => []

/-- Tags of the scalars that a word reads. -/
def Core.scalarTags (c : Core) (st : Strand) (j : Judge) : List RegTag := j.ss.flatMap (c.stagOf st)

/-- The word at which a strand stands meets a consumed uncorrectable error in registers that it reads: it waits (R160, R161). -/
def Core.meetRegs (c : Core) (st : Strand) (j : Judge) : Core :=
  let hit := ((c.scalarTags st j).filter (fun t => c.tainted [t])).map (fun t => { file := tagHit, num := if st = .main then t.num else 32 : RegTag })
  let c1 := ({ c with poison := c.poison ++ hit } : Core).meetIn c.po st ((c.scalarTags st j ++ c.predTags st j).filter (fun t => c.tainted [t]))
  c1.waitAt st 0 freeWait

/-- The C-class word at which a strand stands completes: its pops, its place in the counts, the next word, its pushes (R178, R300). -/
def Core.cDone (c : Core) (st : Strand) (t : Tok) (pc : Nat) : Core :=
  match st with
  | .main =>
    let c1 := { (if c.popped then c else c.pops 0 t) with popped := false, pc := pc, po := c.po + 1, seq := c.seq.set 0 (c.seq[(0 : Fin 4)] + 1), waits := c.waits.set 0 none }
    if c1.canPush 0 t then c1.pushes 0 t else { c1 with heldC := some t }
  | .ctx h => c.setHnd h { c.hnd[h] with pc := pc, wait := none }

/-- The core at the focus changed. -/
def State.modCur (s : State) (f : Core → Core) : State := s.modCore s.focusCore f

/-- Tokens there for a C-class word, or popped already; handler strands have none. -/
def Core.cReady (c : Core) (st : Strand) (t : Tok) : Bool := match st with | .main => c.popped || c.canPop 0 t | .ctx _ => true

/-- A C-class word that waits behind its pops has made them (R300 step 1). -/
def Core.popFirst (c : Core) (st : Strand) (t : Tok) : Core :=
  match st with
  | .main => if c.popped || !(t.wb || t.wa) then c else { (c.pops 0 t) with popped := true }
  | .ctx _ => c

/-- A C-class word (R300): judged; its token pops, made before it waits for anything else; its guard; its scalar sources; its effect; its pushes. -/
def cWord (t : Tok) (g : Guard) (j : Judge) (len : Nat) (eff : State → Res) (s : State) : State :=
  let n := s.focusCore
  let st := s.focusStrand
  let c := s.cur
  let next := c.pcOf st + len
  match j.sub st t with
  | some sub => takeTrap n (c.illegal st len sub) s
  | none =>
    if !c.cReady st t then s.modCur (fun c => c.waitAt st 0 (c.popWait 0 t))
    else if c.tainted (c.predTags st j) then s.modCur (fun c => c.meetRegs st j)
    else if !c.rdP st g then s.modCur (fun c => c.cDone st t next)
    else if c.hazard st j then s.modCur (fun c => (c.popFirst st t).waitAt st 0 freeWait)
    else if c.tainted (c.scalarTags st j) then s.modCur (fun c => c.meetRegs st j)
    else match eff s with
      | .ok s' => s'.modCore n (fun c => c.cDone st t next)
      | .goto s' pc => s'.modCore n (fun c => c.cDone st t pc)
      | .wait w => s.modCur (fun c => (c.popFirst st t).waitAt st 0 w)
      | .stall s' => s'.modCore n (fun c => (c.popFirst st t).waitAt st 0 freeWait)
      | .trap tr => takeTrap n tr s
      | .after s' tr => takeTrap n tr (s'.modCore n (fun c => c.cDone st t next))

/-- The outcome of a meaning: the next state. -/
abbrev Out := Host.Outcome State Fault Refusal

/-- A judgement with nothing but scalar registers: written, read. -/
def jS (d l : List Reg) : Judge := { res := true, handler := true, ss := l, sd := d, ps := [], pd := [], lim := true }

/-- A judgement of a guarded word with scalar registers. -/
def jGS (g : Guard) (d l : List Reg) : Judge := { res := true, handler := true, ss := l, sd := d, ps := [guardReg g], pd := [], lim := true }

/-- A C-class word whose effect is on its core only. -/
def onCore (f : Core → Core) (s : State) : Res := .ok (s.modCur f)

end Sys2Proof.Machine
end

