-- ==== Sys2Proof/Machine/Boot.lean ====
section
/-! DEFINITION. Resets, boot steps, clocks and power, sideband, lifetime store, CXL loss, the time base (spec/01, spec/04 R103,
R104). Regions made at boot step 6, port resets and function resets are in Functions. -/

namespace Sys2Proof.Machine

/-- The outcome of an event: the next state; where what the event asks for does not hold, nothing changes. -/
def onlyIf (b : Bool) (s t : State) : Out := .next (if b then t else s)

/-- The board changed. -/
def State.modBoard (s : State) (f : Board → Board) : State := { s with board := f s.board }

/-- Memory outside the device: CXL expanders, peers and hosts (R33). -/
def outsideMem (m : Memory) : Memory := m.filter (fun e => decide (Config.cxlBase ≤ e.1))

/-! ### The flash (R31) -/

/-- What lies at a byte of the flash (R31): of a lifetime bank, the slot of its record. -/
inductive FlashPart where
  | directory
  | identity
  | slotA
  | slotB
  | blobs
  | life (bank : Bool) (slot : Nat)
  | secVersion
  | reserved
deriving DecidableEq, Repr

/-- Bytes of a lifetime bank, and of a record (R31, R32). -/
def bankBytes : Nat := Config.flashLife.2 / 2
def lifeRecordBytes : Nat := 4096

/-- Records that a bank holds (R32). -/
def bankSlots : Nat := bankBytes / lifeRecordBytes

/-- An offset lies in a part of the flash given by its offset and size. -/
def inPart (p : Nat × Nat) (off : Nat) : Bool := decide (p.1 ≤ off) && decide (off < p.1 + p.2)

/-- The layout of the flash (R31). -/
def flashPart (off : Nat) : FlashPart :=
  if inPart Config.flashDir off then .directory
  else if inPart Config.flashIdent off then .identity
  else if inPart Config.flashSlotA off then .slotA
  else if inPart Config.flashSlotB off then .slotB
  else if inPart Config.flashBlobs off then .blobs
  else if inPart Config.flashLife off then .life (decide (bankBytes ≤ off - Config.flashLife.1)) ((off - Config.flashLife.1) % bankBytes / lifeRecordBytes)
  else if inPart Config.flashSecVer off then .secVersion
  else .reserved

/-- The lifetime record that lies at an offset of the flash (R32). -/
def Flash.recordAt (f : Flash) (off : Nat) : Option LifeRec :=
  match flashPart off with
  | .life bank slot => (if bank then f.bank1 else f.bank0)[slot]?
  | _ => none

/-- A byte that lies at an offset of the reserved area; of the other parts the flash holds what they mean (R31, log 15). -/
def Flash.rsvdAt (f : Flash) (off : Nat) : Option Byte := if flashPart off = .reserved ∧ Config.flashRsvd ≤ off then some (sget 0 f.rsvd off) else none

/-! ### Resets (R23, R27, R60) -/

/-- Everything that a reset sets: the agenda, the focus and what was sent are the model's own; the flash and memory outside stay. -/
def State.restart (s : State) : State :=
  { State.reset with mem := outsideMem s.mem, notes := s.notes, agenda := s.agenda, held := s.held, focusCore := s.focusCore,
                     focusStrand := s.focusStrand, fresh := s.fresh, board := { Board.reset with flash := s.board.flash } }

/-- Boot step 1: the ROM reads the flash directory and checks its CRC (R27, R31). -/
def Board.step1 (b : Board) : Board := { b with bootStep := 1, bootErr := if b.flash.dirOk then 0 else 1 }

/-- A cold reset: all state is lost, and the boot sequence begins. -/
def State.coldReset (s : State) : State := s.restart.modBoard Board.step1

/-- The time base runs free, at the rate of the reference clock (R104). -/
def TimeBase.free (t : TimeBase) : TimeBase := { t with slewPpm := 0, remaining := 0, frac := 0 }

/-- A warm reset: device memory is kept in self-refresh; the time base, the power limit, the tags, the sideband, the thermal
state and the clock stay (R23, R25, R22, R103); with its links down a base that PTM disciplined runs free (R104). What the spec leaves open and the model
chooses (log 12): bytes that the crew caches hold dirty stand in device memory as if they had been written back, and TB_CTL, TB_OFFSET and TB_STEPS are
kept with the count, as is a slew in progress where the links stay up. -/
def State.warmReset (s : State) (watchdog : Bool) : State :=
  let b := s.board
  let r := s.restart
  { r with mem := s.mem.filter (fun e => decide (e.1 < 0x4000000000) || decide (Config.cxlBase ≤ e.1)), tb := if watchdog then s.tb else s.tb.free,
           ras := { r.ras with poison := s.ras.poison },
           board := Board.step1 { r.board with
             throttle := b.throttle, predfail := b.predfail, capMhz := b.capMhz, clockMhz := b.clockMhz, clockTarget := b.clockTarget,
             stepping := b.stepping, temp := b.temp, power := b.power, limit := b.limit, i3cAddr := b.i3cAddr, ibi := b.ibi, voff := b.voff,
             vrun := b.vrun, vquiet := b.vquiet, vlock := b.vlock, domCount := b.domCount, tags := b.tags, warm := true, watchdog := watchdog,
             trained := if watchdog then b.trained else Vector.replicate 2 false } }

/-- COLD_RESET (R27). -/
def execColdReset (s : State) : Out := .next s.coldReset

/-- COLDRST (R25): a write of SB_CMD; any value but 0x0000_0C01 is ignored. -/
def execColdrst (v : BitVec 32) (s : State) : Out := onlyIf (v == 0x00000C01) s s.coldReset

/-- WARM_RESET (R23): PERST# on both ports. -/
def execWarmReset (s : State) : Out := .next (s.warmReset false)

/-- FIRMWARE_WATCHDOG_EXPIRY (R23): links stay trained; there is no firmware to watch before it is started. -/
def execFirmwareWatchdogExpiry (s : State) : Out := onlyIf (decide (5 ≤ s.board.bootStep)) s (s.warmReset true)

/-! ### Boot steps (R27, R28) -/

/-- Step 2: the PUF response and the identity key. After a watchdog reset step 3 trains nothing. A step that fails here or at step 4 shows as the one
last reached (R26, log 15). -/
def Board.step2 (b : Board) : Board :=
  if b.flash.helperOk then { b with bootStep := if b.watchdog then 3 else 2, idKey := true } else { b with bootStep := 2, bootErr := 4 }

/-- PUF_RECONSTRUCTION (R27). -/
def execPufReconstruction (s : State) : Out := onlyIf (s.board.bootStep == 1 && s.board.bootErr == 0) s (s.modBoard Board.step2)

/-- Step 3: PCI Express link training begins; it overlaps the later steps (R27). -/
def Board.beginTraining (b : Board) : Board := if b.bootStep == 2 && b.bootErr == 0 then { b with bootStep := 3 } else b

/-- LINK_TRAINING (R27, R14): a link comes up, after its training has begun. -/
def execLinkTraining (port : Fin 2) (s : State) : Out :=
  onlyIf (decide (2 ≤ s.board.bootStep) && s.board.bootErr != 4 && !s.board.trained[port]) s
    (s.modBoard (fun b => { b with trained := b.trained.set port true, bootStep := max b.bootStep 3 }))

/-- The minimum security version: 0 where the record's MAC fails (R29). -/
def Flash.minVersion (f : Flash) : Nat := if f.secMacOk then f.secVersion else 0

/-- The three checks of a slot (R28). -/
def Flash.slotOk (f : Flash) (x : SlotImage) : Bool := x.chainOk && x.sigOk && decide (f.minVersion ≤ x.version)

/-- The newest record of a bank that checks. -/
def newestRec : List LifeRec → Option LifeRec
  | [] => none
  | x :: t =>
    match newestRec t with
    | some y => if x.ok && decide (y.seq < x.seq) then some x else some y
    | none => if x.ok then some x else none

/-- What boot finds in the lifetime banks (R32): the record in force, the bank and slot of the next record, and whether the last
record written does not check. -/
structure LifeScan where
  cur : Option LifeRec
  bank : Bool
  slot : Nat
  bad : Bool
deriving DecidableEq, Repr

/-- The last record of a bank does not check. -/
def lastBad (l : List LifeRec) : Bool := match l.getLast? with | some x => !x.ok | none => false

def Flash.scan (f : Flash) : LifeScan :=
  let r0 := newestRec f.bank0
  let r1 := newestRec f.bank1
  let in1 := match r0, r1 with | some a, some b => decide (a.seq < b.seq) | none, some _ => true | _, _ => false
  let cur := if in1 then f.bank1 else f.bank0
  let oth := if in1 then f.bank0 else f.bank1
  -- a full bank whose fellow has been erased: the last record written stands in the fellow
  if decide (bankSlots ≤ cur.length) && decide (oth.length < bankSlots) && (newestRec oth).isNone then
    { cur := if in1 then r1 else r0, bank := !in1, slot := oth.length, bad := if oth.isEmpty then lastBad cur else lastBad oth }
  else { cur := if in1 then r1 else r0, bank := in1, slot := cur.length, bad := lastBad cur }

/-- The counts in force after boot: the current record's, with UNCLEAN_STOPS raised where the last record does not check (R32). -/
def Board.readLife (b : Board) : Board :=
  let x := b.flash.scan
  let l := match x.cur with | some r => r.counts | none => LifeCounts.zero
  { b with life := if x.bad then { l with unclean := satUp l.unclean } else l, lifeBank := x.bank, lifeSlot := x.slot,
           lifeSeq := match x.cur with | some r => r.seq + 1 | none => 0 }

/-- Firmware of a slot is started, and its measurement recorded (R27 step 5). -/
def Board.start (b : Board) (slotB : Bool) (x : SlotImage) : Board :=
  Board.readLife { b with bootStep := 5, bootErr := if slotB then 2 else b.bootErr, slotB := slotB, meas := x.digest, measPos := 0,
                          runVersion := x.version, minVersion := b.flash.minVersion }

/-- Steps 4 and 5 (R27 to R29): slot A, else slot B, else the device stays in retry status. -/
def Board.verify (b : Board) : Board :=
  if b.flash.slotOk b.flash.slotA then b.start false b.flash.slotA
  else if b.flash.slotOk b.flash.slotB then b.start true b.flash.slotB
  else { b with bootStep := 4, bootErr := 3 }

/-- SLOT_VERIFICATION (R28). -/
def execSlotVerification (s : State) : Out :=
  onlyIf (s.board.bootStep == 3 && s.board.bootErr == 0) s (s.modBoard Board.verify)

/-- Feature bits 0 to 8 (R69). -/
def publishedFeatures : BitVec 256 := 0x1FF

/-! ### Power and clocks (R11 to R13) -/

/-- The clock that R11 and R12 together ask for: the lower one (R12). -/
def Board.wanted (b : Board) : Nat := if b.throttle then min 1650 b.capMhz else b.capMhz

/-- The sum of the samples of the last 1 ms. -/
def sumPower (l : List Nat) : Nat := l.foldl (· + ·) 0

/-- One power sample of firmware, in W: the stepping of R11 on the average over 1 ms, which pauses while the throttle holds the clock (R12,
log 2); SB_POWER holds the average in units of 0.25 W (R25). -/
def Board.sample (b : Board) (watts : Nat) : Board :=
  let l := (watts :: b.samples).take 10
  let sum := sumPower l
  let b1 := { b with samples := l, power := 4 * sum / l.length }
  let b2 :=
    if b.throttle then { b1 with belowRun := 0 }
    else if b.limit * l.length < sum then { b1 with capMhz := max 1650 (b.capMhz - 50), belowRun := 0 }
    else if 100 * sum < 95 * b.limit * l.length then
      (if b.belowRun + 1 < 100 then { b1 with belowRun := b.belowRun + 1 } else { b1 with capMhz := min 3300 (b.capMhz + 50), belowRun := 0 })
    else { b1 with belowRun := 0 }
  { b2 with clockTarget := b2.wanted }

/-- POWER_SAMPLE (R11). -/
def execPowerSample (watts : Nat) (s : State) : Out := onlyIf (decide (5 ≤ s.board.bootStep)) s (s.modBoard (fun b => b.sample watts))

/-- ARITH_CLOCK_STEP_DONE (R13): one step of 50 MHz towards the clock asked for. -/
def execArithClockStepDone (s : State) : Out :=
  onlyIf (s.board.clockMhz != s.board.clockTarget) s
    (s.modBoard (fun b => { b with clockMhz := if b.clockMhz < b.clockTarget then min b.clockTarget (b.clockMhz + 50) else max b.clockTarget (b.clockMhz - 50) }))

/-- The hottest junction's temperature changes (R12, R25): trip, throttle, release, or no threshold crossed; a stopped device only measures
it. -/
def Board.setTemp (b : Board) (t : Int) : Board :=
  if b.fatal then { b with temp := t }
  else if 920 ≤ t then { b with temp := t, fatal := true, ibi := b.ibi ++ [2] }
  else if 840 ≤ t ∧ !b.throttle then { b with temp := t, throttle := true, clockMhz := min b.clockMhz 1650, clockTarget := 1650, ibi := b.ibi ++ [1] }
  else if t < 800 ∧ b.throttle then { b with temp := t, throttle := false, clockTarget := b.capMhz }
  else { b with temp := t }

/-- JUNCTION_THROTTLE (R12, R24): at 105 °C, in units of 0.125 °C. -/
def execJunctionThrottle (temp : Int) (s : State) : Out :=
  onlyIf (decide (840 ≤ temp ∧ temp < 920) && !s.board.throttle) s (s.modBoard (fun b => b.setTemp temp))

/-- THROTTLE_RELEASE (R12): below 100 °C. -/
def execThrottleRelease (temp : Int) (s : State) : Out :=
  onlyIf (decide (temp < 800) && s.board.throttle) s (s.modBoard (fun b => b.setTemp temp))

/-- THERMAL_TRIP (R12, R24, R26): at 115 °C. -/
def execThermalTrip (temp : Int) (s : State) : Out :=
  onlyIf (decide (920 ≤ temp)) s (s.modBoard (fun b => b.setTemp temp))

/-! ### Sideband (R24 to R26) -/

/-- SB_STATUS (R26). -/
def Board.status (b : Board) : W32 :=
  BitVec.ofNat 32 (b.bootStep % 16 * 2 ^ 12 + b.bootErr % 16 * 2 ^ 8 + b.slotB.toNat * 2 ^ 7 + b.throttle.toNat * 2 ^ 6 + b.fatal.toNat * 2 ^ 5
    + b.predfail.toNat * 2 ^ 4 + (decide (b.capMhz < 3300)).toNat * 2 ^ 3)

/-- ENTDAA (R24). -/
def execEntdaa (addr : Fin 128) (s : State) : Out := .next (s.modBoard (fun b => { b with i3cAddr := some addr }))

/-- The board power limit clamped to its range (R10, R25). -/
def clampLimit (w : Nat) : Nat := min (max w 900) 1650

/-- SB_LIMIT_WRITE (R25). -/
def execSbLimitWrite (v : BitVec 32) (s : State) : Out := .next (s.modBoard (fun b => { b with limit := clampLimit v.toNat }))

/-- SB_MEAS_READ (R25). -/
def execSbMeasRead (s : State) : Out :=
  .next (s.modBoard (fun b => { b with sbData := BitVec.ofNat 32 (fld b.meas (32 * b.measPos.val) 32), measPos := b.measPos + 1 }))

/-- The I3C address that the device answers at: the static one until ENTDAA has given another (R24). -/
def Board.sbAddr (b : Board) : Nat := match b.i3cAddr with | some a => a.val | none => 0x52

/-- A sideband register as it reads (R25); an offset of none, and the write-only SB_CMD, read 0. -/
def Board.sbWord (b : Board) (off : Nat) : W32 :=
  match off with
  | 0x00 => BitVec.ofNat 32 (0x0001 * 2 ^ 16 + b.stepping.toNat)
  | 0x04 => b.status
  | 0x08 => BitVec.ofNat 32 (BitVec.ofInt 16 b.temp).toNat
  | 0x0C => BitVec.ofNat 32 b.power
  | 0x10 => BitVec.ofNat 32 b.limit
  | 0x18 => BitVec.ofNat 32 (fld b.meas (32 * b.measPos.val) 32)
  | _ => 0

/-- A sideband read (R24, R25): SB_MEAS moves on to the next word, and after the eighth to the first again, where the spec says nothing (DESIGN CHOICE,
log 40). -/
def Board.sbRead (b : Board) (off : Nat) : Board := { b with sbData := b.sbWord off, measPos := if off = 0x18 then b.measPos + 1 else b.measPos }

/-- A sideband write (R25). -/
def State.sbWrite (s : State) (off : Nat) (v : W32) : State :=
  match off with
  | 0x10 => s.modBoard (fun b => { b with limit := clampLimit v.toNat })
  | 0x14 => if v = 0x00000C01 then s.coldReset else s
  | _ => s

/-- Firmware raises the sealed minimum to the running version once its image has booted and passed its self-test (R29). -/
def Board.raiseMinimum (b : Board) : Board :=
  if b.bootStep = 7 ∧ b.flash.minVersion < b.runVersion then
    { b with minVersion := b.runVersion, flash := { b.flash with secVersion := b.runVersion, secMacOk := true } }
  else b

/-! ### Lifetime records (R32) -/

/-- A record appended to the current bank, or to slot 0 of the other bank, erased, where the current one is full. -/
def Board.putRecord (b : Board) (ok : Bool) : Board :=
  let r : LifeRec := { seq := b.lifeSeq, ok := ok, counts := b.life }
  let sw := decide (bankSlots ≤ b.lifeSlot)
  let bank := if sw then !b.lifeBank else b.lifeBank
  let old := if sw then [] else if bank then b.flash.bank1 else b.flash.bank0
  let f := if bank then { b.flash with bank1 := old ++ [r] } else { b.flash with bank0 := old ++ [r] }
  { b with flash := f, lifeBank := bank, lifeSlot := old.length + 1, lifeSeq := b.lifeSeq + 1 }

/-- Firmware runs and can write records. -/
def Board.firmware (b : Board) : Bool := decide (5 ≤ b.bootStep)

/-- LIFETIME_RECORD_TIMER (R32). -/
def execLifetimeRecordTimer (s : State) : Out := onlyIf s.board.firmware s (s.modBoard (fun b => b.putRecord true))

/-- ORDERLY_SHUTDOWN (R32). -/
def execOrderlyShutdown (s : State) : Out := onlyIf s.board.firmware s (s.modBoard (fun b => b.putRecord true))

/-- POWER_LOSS (R32): all state is lost; a record that was being written stays damaged in the flash. -/
def execPowerLoss (mid : Bool) (s : State) : Out :=
  .next (State.restart (if mid && s.board.firmware then s.modBoard (fun b => b.putRecord false) else s))

/-! ### CXL (R20, R21) -/

/-- The ranges that lose their memory with a port: its own, and those interleaved over both. -/
def lostRanges (l : List Hdm) (port : Fin 2) : List (Nat × Nat) :=
  (l.filter (fun d => d.enabled && (d.interleave || d.port == port))).map (fun d => (d.base, d.size))

/-- CXL_LINK_LOSS (R21): outstanding writes complete and write nothing, the pages of the range are absent from now on, the loss is
logged. -/
def execCxlLinkLoss (port : Fin 2) (s : State) : Out :=
  let l := (lostRanges s.board.hdm port).filter (fun r => !s.board.lostCxl.contains r)
  let s1 := { s with board := { s.board with lostCxl := s.board.lostCxl ++ l },
                     fab := { s.fab with inflight := s.fab.inflight.map (fun x => if inLost l x.pa then { x with performed := true } else x) } }
  .next (l.foldl (fun s r => s.log { cls := 0x12, addr := r.1, data0 := r.1, data1 := r.2, companion := port.val, unit := port.val, target := 0x30 + port.val }) s1)

/-! ### Time base (R103, R104) -/

/-- A PTM dialog's adjustment for an offset in ns: slewed, stepped forward, or slowed. -/
def TimeBase.dialog (t : TimeBase) (off : Int) : TimeBase :=
  let t1 := { t with dialogAt := some t.now.toNat, offset := BitVec.ofInt 32 (min (max off (-2147483647)) 2147483647) }
  if 1000000 < off then { t1 with now := t.now + BitVec.ofInt 64 off, steps := t.steps + 1, slewPpm := 0, remaining := 0, frac := 0 }
  else if off < -1000000 then { t1 with slewPpm := -1000, remaining := off, frac := 0 }
  else { t1 with slewPpm := min (max (if 0 ≤ off then (off + 49) / 50 else -((49 - off) / 50)) (-100)) 100, remaining := off, frac := 0 }

/-- TB_CTL is written (R103, R104): without PTM the base runs free, and so it does where another port is named. -/
def TimeBase.setCtl (t : TimeBase) (v : Nat) : TimeBase :=
  let t1 := { t with ctl := BitVec.ofNat 32 (bits v 0 2) }
  if bits v 0 1 = 0 ∨ bits v 1 1 ≠ fld t.ctl 1 1 then t1.free else t1

/-- PTM is off on a port from now on: its link is down, or its host has disabled it; a base that it disciplined runs free (R104). -/
def TimeBase.ptmOff (t : TimeBase) (port : Nat) : TimeBase := if fld t.ctl 1 1 = port then t.free else t

/-- TB_STAT (R103). -/
def TimeBase.stat (t : TimeBase) : W32 :=
  match t.dialogAt with
  | some d => if t.now.toNat ≤ d + 150000000 ∧ -1000000 ≤ t.offset.toInt ∧ t.offset.toInt ≤ 1000000 then 1 else 0
  | none => 0

/-- PTM_DIALOG (R104): while TB_CTL.PTM is 1, and the port that PORTSEL names is up with Precision Time Measurement enabled by its host. -/
def execPtmDialog (off : Int) (s : State) : Out :=
  let port := Fin.ofNat 2 (fld s.tb.ctl 1 1)
  onlyIf (fld s.tb.ctl 0 1 == 1 && s.board.trained[port] && s.board.ptmEnable[port] && s.board.firmware) s { s with tb := s.tb.dialog off }

/-- TB_STEPS_READ (R103): the count is returned and cleared. -/
def execTbStepsRead (s : State) : Out :=
  .next ({ s with tb := { s.tb with steps := 0 } }.note (.data 0 (some (natLe 4 s.tb.steps.toNat)) false))

/-- CONFIGURATION_REQUEST (R27): retry status until step 7. -/
def execConfigurationRequest (f : Fin 10) (s : State) : Out := .next (s.note (.config f.val s.board.retry))

end Sys2Proof.Machine
end

