-- ==== Sys2Proof/Machine/Vector.lean ====
section
/-! DEFINITION. Vector elements, groups and masks, and what the vector words compute (spec/13). ZG1 keeps the old value of
inactive and tail elements under every policy (R334). -/

namespace Sys2Proof.Machine

/-! ### Types, groups, elements (R329, R332, R333) -/

/-- SEW of a VTYPE value. -/
def vsew (vt : W64) : Nat := 8 * 2 ^ fld vt 0 2
/-- Grouping G. -/
def vgrp (vt : W64) : Nat := 2 ^ fld vt 2 2
/-- VLMAX (R330). -/
def vlmax (vt : W64) : Nat := 2048 / vsew vt * vgrp vt
/-- Registers of an operand of EEW `e` (R332). -/
def gsize (vt : W64) (e : Nat) : Nat := max 1 (vgrp vt * e / vsew vt)
/-- Registers of a mask group (R333). -/
def msize (vt : W64) : Nat := gsize vt 8
/-- The vector format (R339); SEW 8 has none. -/
def vfmt (vt : W64) : Option Fmt :=
  match fld vt 0 2 with
  | 1 => some (if fld vt 6 1 = 1 then fmtF16 else fmtBF16)
  | 2 => some fmtF32
  | _ => none
/-- The vector format, FP32 where there is none. -/
def vfmtD (vt : W64) : Fmt := (vfmt vt).getD fmtF32

/-- Element (i, j) of an operand of EEW `e` whose group begins at `n` (R332). -/
def Core.elem (c : Core) (n e i j : Nat) : Nat := fld (c.vrow (n + j / (2048 / e)) i) (j % (2048 / e) * e) e

/-- The mask bit of element (i, j) in the group that begins at `m`; `k0` is all-true (R333). -/
def Core.mbit (c : Core) (m i j : Nat) : Bool := if m = 0 then true else fld (c.krow (m + j / 256) i) (j % 256) 1 == 1

/-- Columns `j0` up of a row written where `f` gives a value. -/
def rowWith (e : Nat) (f : Nat → Option Nat) (j0 : Nat) : Nat → VRow → VRow
  | 0, r => r
  | k + 1, r =>
    let r' := rowWith e f j0 k r
    match f (j0 + k) with
    | some v => setFld r' (k * e) e v
    | none => r'

/-- The elements of a group written where `f i j` gives a value; columns at or above `cols` are kept (R334). -/
def Core.writeGroup (c : Core) (n e cols : Nat) (f : Nat → Nat → Option Nat) : Core :=
  let per := 2048 / e
  (List.range ((cols + per - 1) / per)).foldl (fun c r =>
    (List.range 16).foldl (fun c i => c.setVrow (n + r) i (rowWith e (f i) (r * per) (min per (cols - r * per)) (c.vrow (n + r) i))) c) c

/-- Columns `j0` up of a mask row written where `f` gives a bit. -/
def maskWith (f : Nat → Option Bool) (j0 : Nat) : Nat → KRow → KRow
  | 0, r => r
  | k + 1, r =>
    let r' := maskWith f j0 k r
    match f (j0 + k) with
    | some v => setFld r' k 1 v.toNat
    | none => r'

/-- The bits of a mask group written where `f i j` gives one. -/
def Core.writeMask (c : Core) (n cols : Nat) (f : Nat → Nat → Option Bool) : Core :=
  (List.range ((cols + 255) / 256)).foldl (fun c r =>
    (List.range 16).foldl (fun c i => c.setKrow (n + r) i (maskWith (f i) (r * 256) (min 256 (cols - r * 256)) (c.krow (n + r) i))) c) c

/-- The union of the flags of the active elements (R237). -/
def orFlags (act : Nat → Nat → Bool) (vl : Nat) (f : Nat → Nat → Nat) : Nat :=
  (List.range 16).foldl (fun acc i => (List.range vl).foldl (fun acc j => if act i j then acc ||| f i j else acc) acc) 0

/-! ### Element operations -/

/-- A number of `w` bits as a signed integer. -/
def sgn (w x : Nat) : Int := (BitVec.ofNat w x).toInt
/-- The low `w` bits of an integer. -/
def wrapI (w : Nat) (i : Int) : Nat := (BitVec.ofInt w i).toNat
/-- An integer clamped to a signed or unsigned range of `w` bits (R233). -/
def clampS (w : Nat) (i : Int) : Nat := wrapI w (min (max i (-(2 ^ (w - 1) : Nat))) (2 ^ (w - 1) - 1 : Nat))
def clampN (w : Nat) (i : Int) : Nat := wrapI w (min (max i 0) (2 ^ w - 1 : Nat))

/-- Integer element operations (R340, R341). -/
def iop (op : IOp) (w a b : Nat) : Nat :=
  let sh := b % w
  match op with
  | .add => (a + b) % 2 ^ w
  | .sub => wrapI w (a - b)
  | .rsub => wrapI w (b - a)
  | .mul => a * b % 2 ^ w
  | .mulh => wrapI w (sgn w a * sgn w b / (2 ^ w : Nat))
  | .and => a &&& b
  | .or => a ||| b
  | .xor => a ^^^ b
  | .sll => a * 2 ^ sh % 2 ^ w
  | .srl => a / 2 ^ sh
  | .sra => wrapI w (sgn w a / (2 ^ sh : Nat))
  | .min => if sgn w a ≤ sgn w b then a else b
  | .max => if sgn w a ≤ sgn w b then b else a
  | .minN => min a b
  | .maxN => max a b
  | .addSat => clampS w (sgn w a + sgn w b)
  | .subSat => clampS w (sgn w a - sgn w b)
  | .addSatN => clampN w (a + b)

/-- Floating-point binary operations (R342). -/
def fop (op : FOp) (f : Fmt) (rm : Fin 4) (a b : Nat) : FRes :=
  match op with
  | .add => f.addV rm (f.decode a) (f.decode b)
  | .sub => f.addV rm (f.decode a) (f.decode b).neg
  | .mul => f.mulV rm (f.decode a) (f.decode b)
  | .min => f.minMax false a b
  | .max => f.minMax true a b

/-- Fused forms with addend c (R343). -/
def fmaop (op : FmaOp) (f : Fmt) (rm : Fin 4) (c a b : Nat) : FRes :=
  let (np, nc) := match op with | .ma => (false, false) | .ms => (false, true) | .nms => (true, false) | .nma => (true, true)
  f.fmaV rm np nc (f.decode c) (f.decode a) (f.decode b)

/-- Compares: the test and its flags (R344). -/
def cmpop (op : CmpOp) (f : Fmt) (w a b : Nat) : Bool × Nat :=
  let x := f.decode a
  let y := f.decode b
  let anyNaN := x.isNaN || y.isNaN
  let ord (r : Bool) : Bool × Nat := (!anyNaN && r, if anyNaN then 1 else 0)
  match op with
  | .eq => (a == b, 0)
  | .ne => (a != b, 0)
  | .lt => (decide (sgn w a < sgn w b), 0)
  | .le => (decide (sgn w a ≤ sgn w b), 0)
  | .gt => (decide (sgn w b < sgn w a), 0)
  | .ltN => (decide (a < b), 0)
  | .leN => (decide (a ≤ b), 0)
  | .feq => (!anyNaN && x.eq y, sigFlag [x, y])
  | .flt => ord (x.lt y)
  | .fle => ord (x.lt y || x.eq y)
  | .fgt => ord (y.lt x)
  | .fun' => (anyNaN, sigFlag [x, y])

/-- Special functions in a format (R246, R351): the FP32 result of the widened operand, rounded once under RNE. -/
def sfop (op : SfOp) (f : Fmt) (x : Nat) : FRes :=
  let run (y : Nat) : FRes := match op with | .exp2 => sfExp2 y | .log2 => sfLog2 y | .rcp => sfRcp y | .rsqrt => sfRsqrt y | .tanh => sfTanh y
  if f = fmtF32 then run x
  else
    let y := f.convert fmtF32 0 x
    let r := run y.bits
    let z := fmtF32.convert f 0 r.bits
    ⟨z.bits, y.flags ||| r.flags ||| z.flags⟩

/-- Source and destination EEW and the operation of a conversion (R346); error-feedback forms give the narrowed value. -/
def cvtFmts (op : CvtOp) (vt : W64) : Option Fmt × Option Fmt :=
  let v := vfmt vt
  match op with
  | .f32 => (v, some fmtF32)
  | .bf16 => (v, some fmtBF16)
  | .f16 => (v, some fmtF16)
  | .e4m3 => (v, some fmtE4M3)
  | .e5m2 => (v, some fmtE5M2)
  | .e2m1 => (v, some fmtE2M1)
  | .efE4m3 => (v, some fmtE4M3)
  | .efE2m1 => (v, some fmtE2M1)
  | .efBf16 => (v, some fmtBF16)
  | .widE4m3 => (some fmtE4M3, v)
  | .widE5m2 => (some fmtE5M2, v)
  | .widE2m1 => (some fmtE2M1, v)
  | .fI => (none, v)
  | .fN => (none, v)
  | .iF => (v, none)
  | .nF => (v, none)

/-- Whether a conversion is refused at a VTYPE (R346, the last column). -/
def cvtRefused (op : CvtOp) (vt : W64) : Bool :=
  match op with
  | .f32 => vsew vt != 16
  | .bf16 => vsew vt == 8 || vfmt vt == some fmtBF16
  | .f16 => vsew vt == 8 || vfmt vt == some fmtF16
  | .efBf16 => vsew vt != 32
  | _ => vsew vt == 8

/-- An error-feedback form (R348). -/
def cvtEf (op : CvtOp) : Bool := match op with | .efE4m3 => true | .efE2m1 => true | .efBf16 => true | _ => false

/-- Width of an operand of a conversion: of its format, or SEW for integers. -/
def cvtWidth (vt : W64) : Option Fmt → Nat
  | some f => f.width
  | none => vsew vt

/-- One element converted. -/
def cvtElem (op : CvtOp) (vt : W64) (rm : Fin 4) (x : Nat) : FRes :=
  let w := vsew vt
  match op with
  | .fI => (vfmtD vt).ofInt rm (sgn w x)
  | .fN => (vfmtD vt).ofInt rm (x : Int)
  | .iF => (vfmtD vt).toInt rm w (-(2 ^ (w - 1) : Nat)) (2 ^ (w - 1) - 1 : Nat) x
  | .nF => (vfmtD vt).toInt rm w 0 (2 ^ w - 1 : Nat) x
  | _ =>
    match cvtFmts op vt with
    | (some a, some b) => a.convert b rm x
    | _ => ⟨x, 0⟩

/-! ### Reductions (R245, R350) -/

/-- TreeSum over elements `lo` to `lo + n − 1`; an absent input is none. Fuel `n` is enough. -/
def treeRed (comb : Nat → Nat → FRes) (x : Nat → Option Nat) : Nat → Nat → Nat → Option Nat × Nat
  | 0, lo, _ => (x lo, 0)
  | fuel + 1, lo, n =>
    if n ≤ 1 then (x lo, 0)
    else
      -- the greatest power of 2 below n
      let m := 2 ^ Nat.log2 (n - 1)
      let (l, fl) := treeRed comb x fuel lo m
      let (r, fr) := treeRed comb x fuel (lo + m) (n - m)
      match l, r with
      | none, r => (r, fl ||| fr)
      | l, none => (l, fl ||| fr)
      | some a, some b => let c := comb a b; (some c.bits, fl ||| fr ||| c.flags)

/-- The combination of two elements of a reduction. -/
def redComb (op : RedOp) (f : Fmt) (rm : Fin 4) (w a b : Nat) : FRes :=
  match op with
  | .sum => ⟨(a + b) % 2 ^ w, 0⟩
  | .max => ⟨iop .max w a b, 0⟩
  | .min => ⟨iop .min w a b, 0⟩
  | .maxN => ⟨max a b, 0⟩
  | .minN => ⟨min a b, 0⟩
  | .fsum => fop .add f rm a b
  | .fmax => fop .max f rm a b
  | .fmin => fop .min f rm a b

/-! ### The words (R340 to R352) -/

/-- What a vector word leaves: the core, and the flags it raises. -/
structure VRes where
  core : Core
  flags : Nat

/-- An element-wise word: `op i j` for every active element (R336). -/
def Core.elementwise (c : Core) (r : Routed) (d e : Nat) (m : Guard) (op : Nat → Nat → FRes) : VRes :=
  let act (i j : Nat) : Bool := c.mbit m.val i j
  { core := c.writeGroup d e (vlmax r.vtype) (fun i j => if decide (j < r.vl) && act i j then some (op i j).bits else none),
    flags := orFlags act r.vl (fun i j => (op i j).flags) }

/-- A word that writes a mask bit for every active element. -/
def Core.maskwise (c : Core) (r : Routed) (d : Nat) (m : Guard) (op : Nat → Nat → Bool × Nat) : VRes :=
  let act (i j : Nat) : Bool := c.mbit m.val i j
  { core := c.writeMask d (vlmax r.vtype) (fun i j => if decide (j < r.vl) && act i j then some (op i j).1 else none),
    flags := orFlags act r.vl (fun i j => (op i j).2) }

/-- An element of a permute (R349); `none` keeps the old value. -/
def permElem (c : Core) (r : Routed) (op : PermOp) (a b : Nat) (n : W64) (i j : Nat) : Option Nat :=
  let e := vsew r.vtype
  let src (i j : Nat) : Nat := c.elem a e i j
  let x := c.elem b e i j
  match op with
  | .slideup => if n.toNat ≤ j then some (src i (j - n.toNat)) else none
  | .slidedn => some (if j + n.toNat < r.vl then src i (j + n.toNat) else 0)
  | .gatherC => some (if x < r.vl then src i x else 0)
  | .bcastC => some (if n.toNat < r.vl then src i n.toNat else 0)
  | .gatherR => some (if x < 16 then src x j else 0)
  | .rotR => some (src ((i + n.toNat % 16) % 16) j)
  | .bcastR => some (src (n.toNat % 16) j)
  | .tr16 => some (if j / 16 * 16 + i < r.vl then src (j % 16) (j / 16 * 16 + i) else 0)

/-- A permute: the mask governs only the destination. -/
def Core.permute (c : Core) (r : Routed) (op : PermOp) (d a b : Nat) (n : W64) (m : Guard) : Core :=
  c.writeGroup d (vsew r.vtype) (vlmax r.vtype) (fun i j => if decide (j < r.vl) && c.mbit m.val i j then permElem c r op a b n i j else none)

/-- A reduction: the result of each line goes to its active elements (R350). -/
def Core.reduce (c : Core) (r : Routed) (op : RedOp) (rows : Bool) (d a : Nat) (m : Guard) : VRes :=
  let w := vsew r.vtype
  let f := vfmtD r.vtype
  let inp (i j : Nat) : Option Nat := if c.mbit m.val i j then some (c.elem a w i j) else none
  let line (k : Nat) : Option Nat × Nat :=
    if rows then treeRed (redComb op f r.rm w) (fun i => inp i k) 16 0 16 else treeRed (redComb op f r.rm w) (fun j => inp k j) r.vl 0 r.vl
  { core := c.writeGroup d w (vlmax r.vtype) (fun i j => if decide (j < r.vl) && c.mbit m.val i j then (line (if rows then j else i)).1 else none),
    flags := if r.vl = 0 then 0 else (List.range (if rows then r.vl else 16)).foldl (fun acc k => acc ||| (line k).2) 0 }

/-- A mask word: bits of columns below VL (R345). -/
def kopBit (op : KOp) (a b : Bool) : Bool :=
  match op with
  | .and => a && b
  | .or => a || b
  | .xor => a != b
  | .andn => a && !b
  | .not => !a
  | .set => true
  | .clr => false

/-- A move or select (R352). -/
def moveElem (c : Core) (r : Routed) (op : MvOp) (a b : Nat) (s : W64) (m : Guard) (i j : Nat) : Nat :=
  let e := vsew r.vtype
  match op with
  | .mov => c.elem a e i j
  | .movS => s.toNat % 2 ^ e
  | .sel => if c.mbit m.val i j then c.elem a e i j else c.elem b e i j
  | .movk => c.elem a e i j
  | .movv => (c.mbit a i j).toNat
  | .id => j % 2 ^ e
  | .rid => i
  | .movi => s.toNat % 2 ^ e

/-- An error-feedback conversion writes the narrowed group at d and the residual group at d + G (R348). -/
def Core.cvtEfWord (c : Core) (r : Routed) (op : CvtOp) (rm : Fin 4) (d a : Nat) (m : Guard) : VRes :=
  let w := vsew r.vtype
  let src := vfmtD r.vtype
  let dst := ((cvtFmts op r.vtype).2).getD fmtBF16
  let nar (i j : Nat) : FRes := cvtElem op r.vtype rm (c.elem a w i j)
  let res (i j : Nat) : FRes := efResidual src dst (c.elem a w i j) (nar i j).bits
  let act (i j : Nat) : Bool := c.mbit m.val i j
  let c1 := c.writeGroup d dst.width (vlmax r.vtype) (fun i j => if decide (j < r.vl) && act i j then some (nar i j).bits else none)
  { core := c1.writeGroup (d + vgrp r.vtype) w (vlmax r.vtype) (fun i j => if decide (j < r.vl) && act i j then some (res i j).bits else none),
    flags := orFlags act r.vl (fun i j => (nar i j).flags ||| (res i j).flags) }

/-- The vector words of majors 0x20 to 0x2A; `none` for any other routed word. -/
def Core.vectorWord (c : Core) (r : Routed) : Option VRes :=
  let e := vsew r.vtype
  let f := vfmtD r.vtype
  let low (s : W64) : Nat := s.toNat % 2 ^ e
  match r.uop with
  | .vi op d a b m => some (c.elementwise r d.val e m (fun i j => ⟨iop op e (c.elem a.val e i j) (c.elem b.val e i j), 0⟩))
  | .vis op d a s m => some (c.elementwise r d.val e m (fun i j => ⟨iop op e (c.elem a.val e i j) (low s), 0⟩))
  | .vf op d a b m => some (c.elementwise r d.val e m (fun i j => fop op f r.rm (c.elem a.val e i j) (c.elem b.val e i j)))
  | .vfs op d a s m => some (c.elementwise r d.val e m (fun i j => fop op f r.rm (c.elem a.val e i j) (low s)))
  | .vfsign neg d a m =>
    some (c.elementwise r d.val e m (fun i j =>
      let x := c.elem a.val e i j
      ⟨if neg then x ^^^ 2 ^ (e - 1) else x % 2 ^ (e - 1), 0⟩))
  | .vfma op d a b m =>
    some (c.elementwise r d.val e m (fun i j => fmaop op f r.rm (c.elem d.val e i j) (c.elem a.val e i j) (c.elem b.val e i j)))
  | .vfmas d a s m => some (c.elementwise r d.val e m (fun i j => fmaop .ma f r.rm (c.elem d.val e i j) (c.elem a.val e i j) (low s)))
  | .vmacc d a b m =>
    some (c.elementwise r d.val e m (fun i j => ⟨(c.elem d.val e i j + c.elem a.val e i j * c.elem b.val e i j) % 2 ^ e, 0⟩))
  | .vmaccs d a s m => some (c.elementwise r d.val e m (fun i j => ⟨(c.elem d.val e i j + c.elem a.val e i j * low s) % 2 ^ e, 0⟩))
  | .vcmp op d a b m => some (c.maskwise r d.val m (fun i j => cmpop op f e (c.elem a.val e i j) (c.elem b.val e i j)))
  | .vcmps op d a s m => some (c.maskwise r d.val m (fun i j => cmpop op f e (c.elem a.val e i j) (low s)))
  | .kop op d a b => some (c.maskwise r d.val 0 (fun i j => (kopBit op (c.mbit a.val i j) (c.mbit b.val i j), 0)))
  | .cvt op rs rm d a m =>
    let rm' := if rs then rm else r.rm
    if cvtEf op then some (c.cvtEfWord r op rm' d.val a.val m)
    else
      let (sf, df) := cvtFmts op r.vtype
      some (c.elementwise r d.val (cvtWidth r.vtype df) m (fun i j => cvtElem op r.vtype rm' (c.elem a.val (cvtWidth r.vtype sf) i j)))
  | .perm op d a b n m => some { core := c.permute r op d.val a.val b.val n m, flags := 0 }
  | .vred op rows d a m => some (c.reduce r op rows d.val a.val m)
  | .sf op d a m => some (c.elementwise r d.val e m (fun i j => sfop op f (c.elem a.val e i j)))
  | .mv op d a b s m =>
    match op with
    | .movk => some (c.maskwise r d.val m (fun i j => (c.elem a.val e i j != 0, 0)))
    | .sel => some (c.elementwise r d.val e 0 (fun i j => ⟨moveElem c r .sel a.val b.val s m i j, 0⟩))
    | _ => some (c.elementwise r d.val e m (fun i j => ⟨moveElem c r op a.val b.val s m i j, 0⟩))
  | _ => none

/-! ### Vector accesses (R364, R365, R206) -/

/-- Address of element (i, j) of a vector access (R365): kinds 0 and 3 pitch, 1 pitch and stride, 2 byte offsets in `bi`. -/
def Core.vaddr (c : Core) (r : Routed) (kind : Fin 4) (a p : W64) (bi : Reg) (i j : Nat) : W64 :=
  let e := vsew r.vtype
  match kind with
  | 1 => w64 (a.toInt + (i : Int) * sext 32 (fld p 0 32) + (j : Int) * sext 32 (fld p 32 32))
  | 2 => a + BitVec.ofNat 64 (c.elem bi.val e i j)
  | _ => w64 (a.toInt + (i : Int) * p.toInt + (j : Int) * ((e / 8 : Nat) : Int))

/-- Active elements of row `i`, in ascending column. -/
def Core.activeCols (c : Core) (m : Guard) (vl i : Nat) : List Nat := (List.range vl).filter (fun j => c.mbit m.val i j)

end Sys2Proof.Machine
end

