-- ==== Sys2Proof/Machine/Matrix.lean ====
section
/-! DEFINITION. The arithmetic of a matrix chunk: scales, narrowing, exact sub-block sums, the window, monitors, promotion
(spec/09 R247 to R257), over the blocks of spec/15 R393. -/

namespace Sys2Proof.Machine

/-- Sub-block size of a BS code (R255). -/
def bsOf (code : Nat) : Nat := 16 * 2 ^ (code % 4)

/-- Format of a block's BFMT tag: 0 E4M3, 1 E2M1, 2 BF16 (R390). -/
def blockFmt (b : Block) : Fmt := match b.fmt with | 0 => fmtE4M3 | 1 => fmtE2M1 | _ => fmtBF16

/-- Bytes of a block row (R393). -/
def rowBytes (fmt : Nat) : Nat := match fmt with | 0 => 128 | 1 => 64 | _ => 256

/-- BLOCKBYTES (R393). -/
def blockBytes (fmt bs : Nat) : Nat := 128 * rowBytes fmt + 256 * (128 / bsOf bs)

/-- Code of element (row r, position k) of a block (R393). -/
def Block.code (b : Block) (r k : Nat) : Nat :=
  let base := r * rowBytes b.fmt
  match b.fmt with
  | 0 => (b.bytes.getD (base + k) 0).toNat
  | 1 => let x := (b.bytes.getD (base + k / 2) 0).toNat; if k % 2 = 0 then x % 16 else x / 16
  | _ => (b.bytes.getD (base + 2 * k) 0).toNat + 256 * (b.bytes.getD (base + 2 * k + 1) 0).toNat

/-- The S12 container of row r, sub-block q (R393). -/
def Block.scale (b : Block) (r q : Nat) : Nat :=
  let o := 128 * rowBytes b.fmt + (r * (128 / bsOf b.bs) + q) * 2
  (b.bytes.getD o 0).toNat + 256 * (b.bytes.getD (o + 1) 0).toNat

/-- A fine scale: zero, NaN with the exponent field it holds, or exponent and mantissa (R234). -/
inductive Scale where
  | zero
  | nan (e : Nat)
  | fin (e m : Nat)
deriving DecidableEq, Repr

def s12 (x : Nat) : Scale :=
  if x / 4096 ≠ 0 then .nan (x / 16 % 256)
  else match x / 16 % 256 with
    | 0 => .zero
    | 255 => .nan 255
    | e => .fin e (x % 16)

/-- The exponent field of a scale. -/
def Scale.exp : Scale → Nat
  | .zero => 0
  | .nan e => e
  | .fin e _ => e

/-- The scale with another exponent; a NaN scale stays one. -/
def Scale.withExp : Scale → Nat → Scale
  | .fin _ m, e => .fin e m
  | x, _ => x

/-- A NaN scale. -/
def Scale.isNaN : Scale → Bool
  | .nan _ => true
  | _ => false

/-- Elements of one fine-scale block after a pass's narrowing, its scale, and the SAT and UFL counts (R250). -/
structure Narrowed where
  xs : List FVal
  scale : Scale
  /-- Format of the elements for H (R251): 0 E4M3, 1 E2M1, 2 BF16. -/
  fmt : Nat
  sat : Nat
  ufl : Nat
deriving DecidableEq, Repr

/-- Magnitude order of finite values. -/
def FVal.absLt (a b : FVal) : Bool :=
  match a, b with
  | .num _ m e, .num _ n d => FVal.lt (.num false m e) (.num false n d)
  | _, _ => false

/-- The largest finite magnitude of a list, as a value. -/
def maxFinite (l : List FVal) : FVal :=
  l.foldl (fun a x => match x with | .num _ m e => if a.absLt (.num false m e) then .num false m e else a | _ => a) (.num false 0 0)

/-- The least k with m × 2^(e − k) ≤ 6, for m > 0 (R250). -/
def leastShift (m : Nat) (e : Int) : Int :=
  let k : Int := (Nat.log2 m : Int) + e - 2
  -- m 2^e lies in [4, 8) × 2^k
  if FVal.lt (.num false 6 k) (.num false m e) then k + 1 else k

/-- One element rounded into a format by RNE with clipping: the value, and whether it was clipped or flushed. -/
def narrowElem (f : Fmt) (x : FVal) : FVal × Bool × Bool :=
  match x with
  | .num s m e =>
    let r := f.round 0 s m e
    (f.decode r.bits, r.flags / 4 % 2 == 1, decide (m ≠ 0) && decide (r.bits % 2 ^ (f.ew + f.mw) = 0))
  | .inf s => (f.decode (f.signBit s + f.maxCode), true, false)
  | v => (v, false, false)

/-- A fine-scale block of elements narrowed by `f`, under the scale given. -/
def narrowWith (f : FVal → FVal × Bool × Bool) (fmt : Nat) (sc : Scale) (xs : List FVal) : Narrowed :=
  let rs := xs.map f
  { xs := rs.map (·.1), scale := sc, fmt := fmt, sat := (rs.filter (·.2.1)).length, ufl := (rs.filter (·.2.2)).length }

/-- A fine-scale block of elements at a pass's width; one with a NaN scale is narrowed as others are, one with a zero scale is not (R250). -/
def narrowBlock (width stored : Nat) (xs : List FVal) (sc : Scale) : Narrowed :=
  if sc = .zero then { xs := xs, scale := sc, fmt := stored, sat := 0, ufl := 0 }
  else if width = 0 ∧ stored ≠ 1 then
    let e' : Nat := match maxFinite xs with
      | .num _ m d => if m = 0 then sc.exp else (max 1 (min 254 ((sc.exp : Int) + leastShift m d))).toNat
      | _ => sc.exp
    narrowWith (fun x => narrowElem fmtE2M1 (match x with | .num s m d => .num s m (d + ((sc.exp : Int) - (e' : Int))) | v => v)) 1 (sc.withExp e') xs
  else if width = 1 ∧ stored = 2 then narrowWith (narrowElem fmtE4M3) 0 sc xs
  else { xs := xs, scale := sc, fmt := stored, sat := 0, ufl := 0 }

/-- The narrowed fine-scale blocks of a block row. -/
def narrowRow (width : Nat) (b : Block) (r : Nat) : List Narrowed :=
  let bs := bsOf b.bs
  (List.range (128 / bs)).map (fun q =>
    narrowBlock width b.fmt ((List.range bs).map (fun k => (blockFmt b).decode (b.code r (q * bs + k)))) (s12 (b.scale r q)))

/-- H of a list of elements (R251): the unbiased exponent of the largest magnitude plus 1, or the smallest normal exponent. -/
def hOf (fmt : Nat) (xs : List FVal) : Int :=
  let emin : Int := match fmt with | 0 => -6 | 1 => 0 | _ => -126
  match maxFinite xs with
  | .num _ m e =>
    if m = 0 then emin
    else
      let ex : Int := (Nat.log2 m : Int) + e
      if ex < emin then emin else ex + 1
  | _ => emin

/-- An exact dyadic number n × 2^e. -/
structure Dy where
  n : Int
  e : Int
deriving DecidableEq, Repr

def Dy.add (a b : Dy) : Dy := let e := min a.e b.e; ⟨a.n * 2 ^ (a.e - e).toNat + b.n * 2 ^ (b.e - e).toNat, e⟩
def Dy.abs (a : Dy) : Dy := ⟨a.n.natAbs, a.e⟩
/-- Strict order of dyadic numbers. -/
def Dy.lt (a b : Dy) : Bool := let e := min a.e b.e; decide (a.n * 2 ^ (a.e - e).toNat < b.n * 2 ^ (b.e - e).toNat)
/-- Floor (a ÷ 2^k). -/
def Dy.floorAt (a : Dy) (k : Int) : Int := if k ≤ a.e then a.n * 2 ^ (a.e - k).toNat else a.n / (2 ^ (k - a.e).toNat : Nat)

/-- A finite value as a dyadic number. -/
def FVal.dy : FVal → Dy
  | .num s m e => ⟨(if s then -1 else 1) * (m : Int), e⟩
  | _ => ⟨0, 0⟩

/-- Slice of a list. -/
def slice {α : Type} (l : List α) (lo n : Nat) : List α := (l.drop lo).take n

/-- One sub-block of an output element (R249, R251): its two scales and elements. -/
structure SubBlock where
  sa : Scale
  xa : List FVal
  fa : Nat
  sb : Scale
  xb : List FVal
  fb : Nat
deriving DecidableEq, Repr

/-- The sub-blocks of an output element, of g = min(bsA, bsB) positions each. -/
def subBlocks (bsA bsB : Nat) (ra rb : List Narrowed) : List SubBlock :=
  let g := min bsA bsB
  (List.range (128 / g)).filterMap (fun q =>
    match ra[q * g / bsA]?, rb[q * g / bsB]? with
    | some a, some b => some { sa := a.scale, xa := slice a.xs (q * g % bsA) g, fa := a.fmt, sb := b.scale, xb := slice b.xs (q * g % bsB) g, fb := b.fmt }
    | _, _ => none)

/-- What one product adds (R252): a number, an infinity of a sign, or a NaN. -/
inductive Prod where
  | num (d : Dy)
  | inf (s : Bool)
  | nan
deriving DecidableEq, Repr

def prod (a b : FVal) : Prod :=
  match a, b with
  | .nan .., _ => .nan
  | _, .nan .. => .nan
  | .inf s, .inf t => .inf (s != t)
  | .inf s, .num t m _ => if m = 0 then .nan else .inf (s != t)
  | .num s m _, .inf t => if m = 0 then .nan else .inf (s != t)
  | .num s m e, .num t n d => .num ⟨(if s != t then -1 else 1) * ((m * n : Nat) : Int), e + d⟩

/-- Both scales of a sub-block are nonzero numbers: exponent sum and significand product. -/
def SubBlock.scales (x : SubBlock) : Option (Int × Nat) :=
  match x.sa, x.sb with
  | .fin ea ma, .fin eb mb => some ((ea : Int) + eb - 254, (16 + ma) * (16 + mb))
  | _, _ => none

/-- A scale of the sub-block is a NaN scale. -/
def SubBlock.nanScale (x : SubBlock) : Bool := x.sa.isNaN || x.sb.isNaN

/-- Products of a sub-block. -/
def SubBlock.prods (x : SubBlock) : List Prod := (x.xa.zip x.xb).map (fun p => prod p.1 p.2)

/-- The exact term t[q] = S[q] × F[q], and its absolute form for the cancellation monitor (R251, R253). -/
def SubBlock.term (x : SubBlock) : Dy × Dy :=
  match x.scales with
  | none => (⟨0, 0⟩, ⟨0, 0⟩)
  | some (e, m) =>
    let ds : List Dy := x.prods.map (fun p => match p with | .num d => d | _ => ⟨0, 0⟩)
    let s : Dy := ds.foldl Dy.add ⟨0, 0⟩
    let a : Dy := ds.foldl (fun (acc : Dy) d => acc.add d.abs) ⟨0, 0⟩
    (⟨s.n * m, s.e + e - 8⟩, ⟨a.n * m, a.e + e - 8⟩)

/-- Some element is not zero. -/
def anyNonzero (l : List FVal) : Bool := l.any (fun x => match x with | .num _ m _ => decide (m ≠ 0) | _ => true)

/-- A sub-block is live: scales nonzero, xa, xb not all zero (R251). -/
def SubBlock.live (x : SubBlock) : Bool := x.scales.isSome && anyNonzero x.xa && anyNonzero x.xb

/-- top[q] (R251). -/
def SubBlock.top (x : SubBlock) (g : Nat) : Int := hOf x.fa x.xa + hOf x.fb x.xb + (match x.scales with | some (e, _) => e | none => 0) + Nat.log2 g + 2

/-- The chunk value of one output element before the coarse scales, as an FP32 code, and whether its cancellation exceeds the
threshold (R251 to R253). NaN chunks are found for the whole chunk. -/
def chunkElement (cth g : Nat) (qs : List SubBlock) : Nat × Bool :=
  let infs := qs.flatMap (fun q => if q.scales.isSome then q.prods.filterMap (fun p => match p with | .inf s => some s | _ => none) else [])
  match infs with
  | s :: _ => (fmtF32.signBit s + fmtF32.infCode, false)
  | [] =>
    let lives := qs.filter SubBlock.live
    match lives with
    | [] => (0, false)
    | l0 :: lt =>
      let top := lt.foldl (fun t q => max t (q.top g)) (l0.top g) + 3
      let u := top - 79
      let w : Int := qs.foldl (fun acc q => acc + q.term.1.floorAt u) 0
      let p : Dy := qs.foldl (fun (acc : Dy) q => acc.add q.term.2) ⟨0, 0⟩
      ((fmtF32.roundInt 0 w u false).bits, Dy.lt ⟨2 ^ cth * w.natAbs, u⟩ p)

/-- What of a sub-block makes the whole chunk a NaN by itself (R252). -/
def SubBlock.bad (q : SubBlock) : Bool :=
  q.nanScale || q.xa.any FVal.isNaN || q.xb.any FVal.isNaN || (q.scales.isSome && q.prods.contains .nan)

/-- The whole chunk is a NaN chunk: by one of its sub-blocks, or by products of both infinite signs anywhere in it (R252). -/
def chunkNaN (elems : List (List SubBlock)) : Bool :=
  let infinite (sign : Bool) : Bool := elems.any (fun qs => qs.any (fun q => q.scales.isSome && q.prods.contains (.inf sign)))
  elems.any (fun qs => qs.any SubBlock.bad) || (infinite true && infinite false)

/-- A NaN element stays a NaN at E4M3 and BF16; at width 0 it makes the chunk a NaN as well: both leave a NaN element here. -/
structure PassRes where
  /-- FP32 codes of rows × 128 columns, row first; the default NaN everywhere for a NaN chunk. -/
  vals : List Nat
  sat : Nat
  ufl : Nat
  cnc : Bool
deriving DecidableEq, Repr

/-- One pass over a chunk's rows (R251 to R253); `coarse i` is the coarse product of row i, an FP32 code. -/
def chunkPass (width cth : Nat) (a b : Block) (row0 rows : Nat) (coarse : Nat → Nat) : PassRes :=
  let ra := (List.range rows).map (fun i => narrowRow width a (row0 + i))
  let rb := (List.range 128).map (fun j => narrowRow width b j)
  let g := min (bsOf a.bs) (bsOf b.bs)
  let elems := ra.flatMap (fun x => rb.map (fun y => subBlocks (bsOf a.bs) (bsOf b.bs) x y))
  let bad := chunkNaN elems
  let raw := elems.map (chunkElement cth g)
  let vals := (List.range (rows * 128)).map (fun k =>
    if bad then fmtF32.defaultNaN
    else (fmtF32.mulV 0 (fmtF32.decode (raw.getD k (0, false)).1) (fmtF32.decode (coarse (k / 128)))).bits)
  { vals := vals, sat := (ra.flatten.map (·.sat)).foldl (· + ·) 0,
    ufl := (ra.flatten.map (·.ufl)).foldl (· + ·) 0 + (rb.flatten.map (·.ufl)).foldl (· + ·) 0,
    cnc := !bad && raw.any (·.2) }

/-- Promotion of rows of a tile (R251 step 6, R254), as one event. -/
def Core.promote (c : Core) (tile row0 rows : Nat) (vals : List Nat) : Core :=
  (List.range (rows * 128)).foldl (fun c k =>
    let i := row0 + k / 128
    let j := k % 128
    let old := fmtF32.decode (c.accWord tile i j).toNat
    c.setAcc tile i j (BitVec.ofNat 32 (fmtF32.addV 0 old (fmtF32.decode (vals.getD k 0))).bits)) c

/-- Saturating increment of a counter field. -/
def incSat {w : Nat} (x : BitVec w) (lo len : Nat) : BitVec w := if fld x lo len = 2 ^ len - 1 then x else setFld x lo len (fld x lo len + 1)

/-! ### Chunks of a go (R399 to R401) -/

/-- Fields of a NEST register (R398): N, DA, DB, DT. -/
def nestN (x : W64) : Nat := fld x 0 16
def nestDA (x : W64) : Nat := fld x 16 4
def nestDB (x : W64) : Nat := fld x 20 4
def nestDT (x : W64) : Nat := fld x 24 2

/-- Grouped mode of a configuration. -/
def MCfg.grouped (m : MCfg) : Bool := fld m.mgrp 0 1 == 1
/-- NG of a configuration. -/
def MCfg.ng (m : MCfg) : Nat := fld m.mgrp 8 6 + 1

/-- Positions that a go takes (R399 RouteGo). -/
def MCfg.positions (m : MCfg) : Nat × Nat :=
  if m.nest.toList.any (fun x => decide (nestN x = 0)) then (0, 0)
  else if m.grouped then (1 + (nestN m.nest[0] - 1) * nestDA m.nest[0], nestN m.nest[0] * m.ng)
  else (1 + (m.nest.toList.map (fun x => (nestN x - 1) * nestDA x)).foldl (· + ·) 0, 1 + (m.nest.toList.map (fun x => (nestN x - 1) * nestDB x)).foldl (· + ·) 0)

/-- Index digits of a chunk ordinal, level 0 fastest. -/
def digits : List Nat → Nat → List Nat
  | [], _ => []
  | n :: t, x => x % max n 1 :: digits t (x / max n 1)

/-- Dot product of index digits and increments. -/
def dot (a b : List Nat) : Nat := (a.zip b).foldl (fun acc p => acc + p.1 * p.2) 0

/-- The chunks of an ungrouped go on tile `n` (R399). -/
def MCfg.chunks (m : MCfg) (n : Nat) : List Chunk :=
  let ns := m.nest.toList.map nestN
  if ns.any (· == 0) then [] else
  (List.range (ns.foldl (· * ·) 1)).map (fun c =>
    let d := digits ns c
    { c := c, pa := dot d (m.nest.toList.map nestDA), pb := dot d (m.nest.toList.map nestDB), tile := (n + dot d (m.nest.toList.map nestDT)) % 4, row0 := 0, rows := 128 })

/-- The chunks of a grouped go with the row counts given (R401). -/
def MCfg.groupedChunks (m : MCfg) (n : Nat) (cnt : List Nat) : List Chunk :=
  let n0 := nestN m.nest[0]
  if m.nest.toList.any (fun x => decide (nestN x = 0)) then [] else
  (List.range (n0 * m.ng)).map (fun c =>
    let g := c % m.ng
    { c := c, pa := c / m.ng * nestDA m.nest[0], pb := c, tile := n, row0 := (cnt.take g).foldl (· + ·) 0, rows := cnt.getD g 0 })

/-- The first chunk that is not admissible, if any (R400). -/
def inadmissible (sa : Nat) : List Chunk → Option Nat
  | [] => none
  | x :: t =>
    let la := t.foldl (fun m y => min m y.pa) x.pa
    let lb := t.foldl (fun m y => min m y.pb) x.pb
    if x.pa - la < sa ∧ x.pb - lb < 4 then inadmissible sa t else some x.c

/-- An image that `ftld` refuses (R255). -/
def ftRefused (img : BitVec 256) : Bool :=
  fld img 0 1 == 1 &&
  (fld img 1 1 != 0 || fld img 6 10 != 0 || fld img 18 2 != 0 || fld img 24 2 != 0 || fld img 32 4 != 0 || fld img 69 3 != 0
   || fld img 2 2 == 3 || fld img 4 2 == 3 || decide (fld img 4 2 < fld img 2 2) || (fld img 4 2 == 2 && fld img 16 1 == 0)
   || fld img 72 2 != 0 || fld img 92 2 != 0)

end Sys2Proof.Machine
end

