-- ==== Sys2Proof/Machine/Engines.lean ====
section
/-! DEFINITION. The engine contexts: acceptance and finish of commands, the range checker (spec/07 R182 to R186), copies
(spec/15 R389 to R396), flumes (spec/14 R373), the window engine (R405 to R407), the crew ring (R193), gos (R399 to R402). -/

namespace Sys2Proof.Machine

/-! ### Contexts (R184, R185) -/

/-- A context has a free command slot. -/
def Core.roomIn (c : Core) (k : Fin 8) : Bool := decide (c.eng.pending k < Config.ctxDepth k.val)

/-- The wait for a command slot (R272 kind 3). -/
def Core.depthWait (c : Core) (st : Strand) (k : Fin 8) : Wait :=
  { rkind := 3, rindex := k.val, d0 := c.eng.issued[k], d1 := c.eng.tl[k], faddr := 0, limit := some (c.limit st) }

/-- A context accepts a command. -/
def Core.accept (c : Core) (k : Fin 8) : Core := { c with eng := { c.eng with issued := c.eng.issued.set k (c.eng.issued[k] + 1) } }

/-- A command's stamp among those that a context's finished commands reported: one that no earlier command reaches. -/
def noteStamp (l : List (Nat × Nat)) (num stamp : Nat) : List (Nat × Nat) :=
  if stamp = 0 ∨ l.any (fun x => decide (x.1 ≤ num) && decide (stamp ≤ x.2)) then l else (num, stamp) :: l.filter (fun x => !(decide (num ≤ x.1) && decide (x.2 ≤ stamp)))

/-- Command `num` of a context finishes: the counter reaches it, its range entry goes, its stamp is held for an acquire (R185, R218). -/
def Core.finish (c : Core) (k : Fin 8) (num stamp : Nat) : Core :=
  { c with eng := { c.eng with tl := c.eng.tl.set k (BitVec.ofNat 64 (max (c.eng.tl[k]).toNat num)), ranges := c.eng.ranges.filter (fun e => !(e.ctx == k.val && e.num == num)) },
           mem := { c.mem with stamps := c.mem.stamps.set k (noteStamp c.mem.stamps[k] num stamp) } }

/-- The greatest stamp that the commands of a context numbered `n` or below have reported (R218, R219). -/
def Core.stampUpTo (c : Core) (k : Fin 8) (n : Nat) : Nat := c.mem.stamps[k].foldl (fun m x => if x.1 ≤ n then max m x.2 else m) 0

/-- The next command of a context finishes. -/
def Core.finishNext (c : Core) (k : Fin 8) (stamp : Nat) : Core := c.finish k ((c.eng.tl[k]).toNat + 1) stamp

/-- A command of context `k`, issued by the word of program-order number `po`, has faulted: FCODE, and the trap that waits to be detected (R186,
R262). Of two that wait, the one of the lower program-order number is recorded; the other's command stands where it is and faults again (R264). -/
def Core.engineFault (c : Core) (k : Fin 8) (po : Nat) (t : Trap) : Core :=
  let raised : Core := { c with eng := { c.eng with fcode := c.eng.fcode.set k (BitVec.ofNat 8 t.cause) },
                                trap := { c.trap with engineFault := some { t with queue := 4, engine := k.val, strand := .main, po := po } } }
  if t.cause = 0 then c else match c.trap.engineFault with
  | some o => if po < o.po then (if h : o.engine < 8 then { raised with eng := { raised.eng with fcode := if o.engine = k.val then raised.eng.fcode else raised.eng.fcode.set o.engine 0 h } } else raised) else c
  | none => raised

/-- An engine context may go on: it is not frozen and has not faulted (R262). -/
def Core.engineRuns (c : Core) (k : Fin 8) : Bool :=
  decide (c.eng.fcode[k] = 0) && decide (c.phase = .running ∨ c.phase = .draining) && c.trap.detected.isNone

/-! ### Ranges (R182) -/

/-- A byte interval of scratch, read or written. -/
structure Span where
  lo : Nat
  hi : Nat
  write : Bool
deriving DecidableEq, Repr

/-- Two accesses share a byte and one of them writes. -/
def Span.conflicts (a b : Span) : Bool := (a.write || b.write) && decide (a.lo < b.hi) && decide (b.lo < a.hi)

def spansConflict (a b : List Span) : Bool := a.any (fun x => b.any x.conflicts)

/-- The enclosing span of a list of intervals. -/
def enclose (write : Bool) : List (Nat × Nat) → List Span
  | [] => []
  | (lo, hi) :: t =>
    match enclose write t with
    | [] => [⟨lo, hi, write⟩]
    | x :: _ => [⟨min lo x.lo, max hi x.hi, write⟩]

/-- The spans of a range-checker entry. -/
def RangeEntry.spans (e : RangeEntry) : List Span :=
  (if e.rlo < e.rhi then [⟨e.rlo, e.rhi, false⟩] else []) ++ (if e.wlo < e.whi then [⟨e.wlo, e.whi, true⟩] else [])

/-- An entry of the checker from spans. -/
def rangeOf (ctx num po : Nat) (l : List Span) : RangeEntry :=
  let r := enclose false ((l.filter (fun x => !x.write)).map (fun x => (x.lo, x.hi)))
  let w := enclose true ((l.filter (fun x => x.write)).map (fun x => (x.lo, x.hi)))
  { ctx := ctx, num := num, po := po, rlo := (r.head?.map (·.lo)).getD 0, rhi := (r.head?.map (·.hi)).getD 0,
    wlo := (w.head?.map (·.lo)).getD 0, whi := (w.head?.map (·.hi)).getD 0 }

/-! ### Copy descriptors (R390, R391) -/

/-- Fields of a descriptor header. -/
def dNdim (h : BitVec 512) : Nat := fld h 23 5
def dEsz (h : BitVec 512) : Nat := 2 ^ fld h 28 3
def dMode (h : BitVec 512) : Nat := fld h 31 2
def dBfmt (h : BitVec 512) : Nat := fld h 33 2
def dBs (h : BitVec 512) : Nat := fld h 35 2
def dTo (h : BitVec 512) : Nat := fld h 20 3
def dFrom (h : BitVec 512) : Nat := fld h 17 3
def dHandler (h : BitVec 512) : Nat := fld h 50 14
def dimCount (d : BitVec 128) : Nat := fld d 0 32
def dimFrom (d : BitVec 128) : Int := sext 48 (fld d 32 48)
def dimTo (d : BitVec 128) : Int := sext 48 (fld d 80 48)
/-- PADLO and PADHI of dimension k; 0 for k ≥ 4. -/
def dPadLo (h : BitVec 512) (k : Nat) : Nat := if k < 4 then fld h (64 + 16 * k) 8 else 0
def dPadHi (h : BitVec 512) (k : Nat) : Nat := if k < 4 then fld h (72 + 16 * k) 8 else 0

/-- The descriptor at a scratch offset. -/
def readHdr (m : Memory) (n : Fin 128) (off : Nat) : BitVec 512 := BitVec.ofNat 512 (memNat m (scratchPa n off) 64)
def readDims (m : Memory) (n : Fin 128) (off k : Nat) : List (BitVec 128) :=
  (List.range k).map (fun i => BitVec.ofNat 128 (memNat m (scratchPa n (off + 64 + 16 * i)) 16))

/-- Data elements of one block, scale elements of one block, blocks of a command (R394). -/
def CopyCmd.dataCount (c : CopyCmd) : Nat := ((c.dims.take 2).map dimCount).foldl (· * ·) 1
def CopyCmd.scaleCount (c : CopyCmd) : Nat := 128 * (128 / bsOf (dBs c.hdr))
def CopyCmd.blocks (c : CopyCmd) : Nat := ((c.dims.drop 2).map dimCount).foldl (· * ·) 1

/-- Elements of the walk. -/
def CopyCmd.total (c : CopyCmd) : Nat :=
  if dMode c.hdr = 1 then (if c.dims.any (fun d => dimCount d == 0) then 0 else c.blocks * (c.dataCount + c.scaleCount))
  else (c.dims.map dimCount).foldl (· * ·) 1

/-- One element of the walk: where it is read, or none for padding; where it goes; its bytes. -/
structure CopyElem where
  src : Option W64
  dst : W64
  len : Nat
deriving DecidableEq, Repr

/-- Signed sum of index × stride. -/
def strideSum (idx : List Nat) (st : List Int) : Int := (idx.zip st).foldl (fun acc p => acc + (p.1 : Int) * p.2) 0

/-- Some index lies in the padding of its dimension (R391). -/
def inPad (h : BitVec 512) (ds : List (BitVec 128)) (idx : List Nat) : Bool :=
  ((idx.zip ds).zipIdx).any (fun p =>
    decide (p.2 < 4) && (decide (p.1.1 < dPadLo h p.2) || decide (dimCount p.1.2 ≤ p.1.1 + dPadHi h p.2)))

/-- Element `i` of a command (R391, R394). -/
def CopyCmd.elem (c : CopyCmd) (i : Nat) : CopyElem :=
  let h := c.hdr
  let counts := c.dims.map dimCount
  let froms := c.dims.map dimFrom
  let srcOf (idx : List Nat) : Option W64 :=
    if dMode h = 2 ∨ inPad h c.dims idx then none
    else
      let shifted : List Int := (idx.zipIdx).map (fun p => (p.1 : Int) - (dPadLo h p.2 : Int))
      some (w64 ((fld h 384 64 : Int) + c.fromDelta.toInt + (shifted.zip froms).foldl (fun acc p => acc + p.1 * p.2) 0))
  if dMode h = 1 then
    let per := c.dataCount + c.scaleCount
    let b := i / per
    let r := i % per
    let hi := digits (counts.drop 2) b
    let base : Int := (fld h 448 64 : Int) + c.toDelta.toInt + strideSum hi ((c.dims.drop 2).map dimTo)
    let rb := rowBytes (dBfmt h)
    if r < c.dataCount then
      let lo := digits (counts.take 2) r
      { src := srcOf (lo ++ hi), dst := w64 (base + ((lo.getD 1 0 * rb + lo.getD 0 0 * dEsz h : Nat) : Int)), len := dEsz h }
    else
      let k := r - c.dataCount
      let q := 128 / bsOf (dBs h)
      { src := some (w64 ((fld h 192 64 : Int) + (b : Int) * sext 32 (fld h 256 32) + ((k / q : Nat) : Int) * sext 32 (fld h 160 32) + ((k % q : Nat) : Int) * sext 32 (fld h 128 32))),
        dst := w64 (base + ((128 * rb + k * 2 : Nat) : Int)), len := 2 }
  else
    let idx := digits counts i
    { src := srcOf idx, dst := w64 ((fld h 448 64 : Int) + c.toDelta.toInt + strideSum idx (c.dims.map dimTo)), len := dEsz h }

/-- The padding pattern of an element of `e` bytes (R390). -/
def padBytes (h : BitVec 512) (e : Nat) : List Byte := (List.range e).map (fun k => BitVec.ofNat 8 (fld h (288 + 8 * (k % 4)) 8))

/-- The enclosing scratch ranges of a command (R182, R389): read where FROMKIND is scratch, written where TOKIND is 0. -/
def CopyCmd.spans (c : CopyCmd) : List Span :=
  let es := (List.range c.total).map c.elem
  let rd := if dFrom c.hdr = 0 then es.filterMap (fun e => e.src.map (fun a => (a.toNat, a.toNat + e.len))) else []
  let wr := if dTo c.hdr = 0 then es.map (fun e => (e.dst.toNat, e.dst.toNat + e.len)) else []
  enclose false rd ++ enclose true wr

/-- Bytes of the walk. -/
def CopyCmd.byteCount (c : CopyCmd) : Nat :=
  if dMode c.hdr = 1 then c.blocks * (c.dataCount * dEsz c.hdr + 2 * c.scaleCount) else c.total * dEsz c.hdr

/-! ### Flumes (R373, R374) -/

/-- ACCESS of an engine word or command at a target; of a word with its queue sequence number (R61, R261). -/
def accessAt (q : Nat) (st : Strand) (faddr target : Nat) (seq : Nat := 0) : Trap := accessTrap q st 0x22 faddr target seq

/-- Elements in a flume. -/
def Flume.held (f : Flume) : Nat := (f.inn - f.out).toNat

/-- Physical address of a Landing offset of a core's region. -/
def Core.landingPa (c : Core) (off : Nat) : Nat := Config.landingBase + c.ctx.landingBase + off

/-- A request of a core at the Landing, checked by its slices' access tables (R57): ACCESS where one refuses it. -/
def State.landingAsk (s : State) (n : Fin 128) (q : Nat) (st : Strand) (faddr right pa len seq : Nat) : Option Trap :=
  (s.refusal (coreMaster n) right pa len).map (fun t => { accessAt q st faddr t seq with reqKind := right, reqPa := pa })

/-- The flume that a word of a core names: bound before, bound now from its descriptor, or refused with ACCESS at LANDING; the descriptor's read is
checked at its slice (R57). -/
def State.bindFlume (s : State) (n : Fin 128) (q : Nat) (st : Strand) (f : Nat) (seq : Nat := 0) : Except Trap (State × Fin 256) :=
  let c := s.cores[n]
  let bad : Except Trap (State × Fin 256) := .error (accessAt q st f 0x43 seq)
  if h : f < 256 then
    let fl := s.fab.flumes[f]
    match fl.stream with
    | some k => (match sget none s.streams k with
      | some x => if s.under x.region c.ctx.region then .ok (s, ⟨f, h⟩) else bad
      | none => bad)
    | none => match fl.region with
    | some r => if r = c.ctx.region then .ok (s, ⟨f, h⟩) else bad
    | none =>
      match s.landingAsk n q st f 1 (c.landingPa (32 * f)) 32 seq with
      | some t => .error t
      | none =>
      let d : BitVec 256 := BitVec.ofNat 256 (memNat s.mem (c.landingPa (32 * f)) 32)
      let slog := fld d 80 4
      let es := fld d 64 11
      let base := fld d 0 27
      if fld d 160 96 ≠ 0 ∨ fld d 84 12 ≠ 0 ∨ fld d 75 5 ≠ 0 ∨ fld d 27 37 ≠ 0 ∨ slog < 1 ∨ 12 < slog ∨ es < 1 ∨ 1024 < es ∨ base % 64 ≠ 0
          ∨ c.ctx.landingQuota < base + 2 ^ slog * (es * 64) ∨ base < 8192 then bad
      else
        let x : Flume := { region := some c.ctx.region, stream := none, base := c.ctx.landingBase + base, esize := es * 64, slog2 := slog,
                           inn := BitVec.ofNat 32 (fld d 96 32), out := BitVec.ofNat 32 (fld d 128 32), pending := [], rels := [] }
        .ok ({ s with fab := { s.fab with flumes := s.fab.flumes.set f x } }, ⟨f, h⟩)
  else bad

/-- A flume that would be bound now from a poisoned descriptor: its address (R155). -/
def State.flumePoison (s : State) (n : Fin 128) (f : Nat) : Option Nat :=
  let fl := s.fab.flumes[Fin.ofNat 256 f]
  let pa := s.cores[n].landingPa (32 * (f % 256))
  if fl.stream.isNone && fl.region.isNone && decide (f < 256) && s.poisoned pa 32 then some pa else none

/-- Physical address of the slot of element `k`. -/
def Flume.slotPa (f : Flume) (k : Nat) : Nat := Config.landingBase + f.base + k % 2 ^ f.slog2 * f.esize

/-- The wait on a full or empty flume (R272 kind 8); its object address is that of the flume's descriptor, a Landing offset (R261, R373; log 9). -/
def Flume.wait (f : Flume) (idx : Nat) (limit : Nat) : Wait :=
  { rkind := 8, rindex := idx, d0 := BitVec.ofNat 64 f.inn.toNat, d1 := BitVec.ofNat 64 f.out.toNat, faddr := BitVec.ofNat 64 (32 * idx), limit := some limit }

/-! ### Copies move their elements (R391, R392) -/

/-- Where a copy stands: all moved, blocked on a FIFO slot or a full flume, or stopped by a trap. -/
inductive CopyStop where
  | done
  | blocked
  | trap (t : Trap)
deriving DecidableEq, Repr

/-- Poisoned runs of the bytes of a list of parts, as offsets and lengths. -/
def State.pieceRuns (s : State) : Nat → List Piece → List (Nat × Nat)
  | _, [] => []
  | o, p :: t => (if s.poisoned p.pa p.len then (s.poisonRuns p.pa p.len).map (fun r => (o + r.1, r.2)) else []) ++ s.pieceRuns (o + p.len) t

/-- The granules of a list of parts that poisoned runs of the bytes written to them meet become poisoned (R155). -/
def State.markRuns (runs : List (Nat × Nat)) : Nat → List Piece → State → State
  | _, [], s => s
  | o, p :: t, s => State.markRuns runs (o + p.len) t (runs.foldl (fun s r =>
      let lo := max o r.1
      let hi := min (o + p.len) (r.1 + r.2)
      if lo < hi then s.setPoison (p.pa + (lo - o)) (hi - lo) else s) s)

/-- A read of a copy's element: its bytes, and the poisoned runs among them. -/
def State.copyRead (s : State) (n : Fin 128) (c : CopyCmd) (e : CopyElem) : Except Trap (List Byte × List (Nat × Nat)) :=
  match e.src with
  | none => .ok (padBytes c.hdr e.len, [])
  | some a =>
    let sp : Space := match dFrom c.hdr with | 0 => .x | 1 => .l | _ => .g
    match s.checkAccess n 4 .main 0 sp kRead a e.len with
    | .error t => .error t
    | .ok ps => .ok (readPieces s.mem ps, s.pieceRuns 0 ps)

/-- DEFER takes effect (R395). -/
def CopyCmd.defers (c : CopyCmd) : Bool := fld c.hdr 37 1 == 1 && dFrom c.hdr == 2 && (dTo c.hdr == 0 || dTo c.hdr == 1 || dTo c.hdr == 2 || dTo c.hdr == 4)

/-- A source page that meets a tier miss: its virtual address and size. -/
def State.tierPage (s : State) (n : Fin 128) (va : Nat) : Nat × Nat :=
  match s.walk s.cores[n].ctx.root s.cores[n].ctx.asid va with
  | .ok l => (va / 2 ^ l.shift * 2 ^ l.shift, 2 ^ l.shift)
  | .error _ => (va / 4096 * 4096, 4096)

/-- The target of a remote copy runs a step of the same operator (R392). -/
def State.sameOp (s : State) (n t : Fin 128) : Bool :=
  let a := s.cores[n]
  let b := s.cores[t]
  decide (b.phase ≠ .idle) && decide (b.ctx.opseq = a.ctx.opseq)

/-- A write of a copy's element to its destination. -/
def State.copyWrite (s : State) (n : Fin 128) (ctx : Fin 2) (c : CopyCmd) (dst : W64) (b : List Byte) (bad : List (Nat × Nat)) : Except Trap State :=
  let mark (s : State) (ps : List Piece) : State := State.markRuns bad 0 ps s
  match dTo c.hdr with
  | 0 =>
    match s.checkAccess n 4 .main 0 .x kWrite dst b.length with
    | .error t => .error t
    | .ok ps => .ok (mark (writePieces s ps b) ps)
  | 4 =>
    let t : Fin 128 := Fin.ofNat 128 (fld c.hdr 42 7)
    if s.cores[n].ctx.scratchQuota < dst.toNat + b.length then .error (accessAt 4 .main dst.toNat 0x42)
    else if s.sameOp n t then
      (match s.refusal (coreMaster n) 2 (scratchPa t dst.toNat) b.length with
        | some x => .error { accessAt 4 .main dst.toNat x with reqKind := 2, reqPa := scratchPa t dst.toNat }
        | none => .ok (mark ((s.performScoped (eclockKey n ctx.val) (scratchPa t dst.toNat) b).1) [⟨scratchPa t dst.toNat, b.length, false⟩]))
    else .ok s
  | k =>
    let sp : Space := if k = 1 then .l else .g
    match s.checkAccess n 4 .main 0 sp kWrite dst b.length with
    | .error t => .error t
    | .ok ps =>
      let (s1, _) := ps.foldl (fun (acc : State × List Byte) p => ((acc.1.performScoped (eclockKey n ctx.val) p.pa (acc.2.take p.len)).1, acc.2.drop p.len)) (s, b)
      .ok (mark (s1.sign n (if k = 1 then 2 else 1) dst.toNat b) ps)

/-- A deferral recorded once for each page (R395). -/
def Core.defer (c : Core) (ctx : Fin 2) (cmd : CopyCmd) (page size : Nat) : Core :=
  if c.eng.deferred.any (fun d => d.ctx == ctx && d.cmd.num == cmd.num && d.page == BitVec.ofNat 64 page) then c
  else { c with eng := { c.eng with deferred := c.eng.deferred ++ [{ ctx := ctx, cmd := cmd, page := BitVec.ofNat 64 page, size := size, ended := none }] } }

/-- The parts of an element's source. -/
def State.copySource (s : State) (n : Fin 128) (c : CopyCmd) (i : Nat) : List Piece :=
  match (c.elem i).src with
  | none => []
  | some a =>
    let sp : Space := match dFrom c.hdr with | 0 => .x | 1 => .l | _ => .g
    match s.checkAccess n 4 .main 0 sp kRead a (c.elem i).len with | .ok ps => ps | .error _ => []

/-- The poisoned granule that an element's source meets, if it does. -/
def State.copyBad (s : State) (n : Fin 128) (c : CopyCmd) (i : Nat) : Option Nat :=
  ((s.copySource n c i).find? (fun p => s.poisoned p.pa p.len)).map (fun p => p.pa / granSize p.pa * granSize p.pa)

/-- The record of a granule of poison that a copy met, made at the first element of the walk that meets it (R155). -/
def State.logCopyPoison (s : State) (n : Fin 128) (c : CopyCmd) (i : Nat) : State :=
  match s.copyBad n c i with
  | none => s
  | some a => if i ≠ 0 ∧ s.copyBad n c (i - 1) = some a then s else s.logDemand n.val a s.cores[n].sys.stepid.toNat s.cores[n].ctx.region

/-- Parts of the destination that a copy to memory has overwritten with sound data, one list an element. -/
def State.copyCover (s : State) (n : Fin 128) (c : CopyCmd) : List (Nat × Nat) :=
  (List.range c.total).flatMap (fun i =>
    let e := c.elem i
    if (s.copyBad n c i).isSome then []
    else match dTo c.hdr with
      | 4 => [(scratchPa (Fin.ofNat 128 (fld c.hdr 42 7)) e.dst.toNat, e.len)]
      | k => match s.checkAccess n 4 .main 0 (if k = 0 then .x else if k = 1 then .l else .g) kWrite e.dst e.len with
        | .ok ps => ps.map (fun p => (p.pa, p.len))
        | .error _ => [])

/-- A copy that is done has cleared the poison of the granules it covers entirely (R155). -/
def State.copyClear (s : State) (n : Fin 128) (c : CopyCmd) : State := if s.ras.poison.isEmpty then s else s.clearCovered (s.copyCover n c)

/-- Element `i` begins another 128-byte line of the destination than the element before it: a copy may stop there (R262). -/
def CopyCmd.atLine (c : CopyCmd) (i : Nat) : Bool := decide (i = 0) || decide ((c.elem i).dst.toNat / 128 ≠ (c.elem (i - 1)).dst.toNat / 128)

/-- Elements of a copy to memory from `i` on: the state, the elements moved, and why it stopped. `base` is the state, and the element next in it, at
the last 128-byte boundary of the destination: a trap finds the copy stopped there (R262). -/
def State.copyMemory (s : State) (n : Fin 128) (ctx : Fin 2) (c : CopyCmd) (base : State × Nat) : Nat → Nat → State × Nat × CopyStop
  | 0, i => (s, i, .done)
  | k + 1, i =>
    let e := c.elem i
    let base := if c.atLine i then (s, i) else base
    match s.copyRead n c e with
    | .error t =>
      if t.cause = 0x21 ∧ c.defers then
        let (page, size) := s.tierPage n t.faddr.toNat
        (s.modCore n (fun x => x.defer ctx c page size)).copyMemory n ctx c base k (i + 1)
      else (base.1, base.2, .trap t)
    | .ok (b, p) =>
      match s.copyWrite n ctx c e.dst b p with
      | .error t => (base.1, base.2, .trap t)
      | .ok s1 => (if p.isEmpty then s1 else s1.logCopyPoison n c i).copyMemory n ctx c base k (i + 1)

/-- The bytes of elements `i` to `i + k − 1`, `o` of the walk's bytes before them, with the poisoned runs among them. -/
def State.copyBytes (s : State) (n : Fin 128) (c : CopyCmd) : Nat → Nat → Nat → Except Trap (List Byte × List (Nat × Nat))
  | 0, _, _ => .ok ([], [])
  | k + 1, i, o =>
    match s.copyRead n c (c.elem i) with
    | .error t => .error t
    | .ok (b, p) =>
      match s.copyBytes n c k (i + 1) (o + b.length) with
      | .error t => .error t
      | .ok (r, q) => .ok (b ++ r, p.map (fun x => (o + x.1, x.2)) ++ q)

/-! ### Operand FIFOs (R183, R397) -/

/-- A block enters the A FIFO; a position that no chunk reads is discarded as it arrives (R397); `none` while no slot is free. -/
def Core.pushA (c : Core) (b : Block) : Option Core :=
  if !c.eng.wantsA b.pos then some c
  else if slotFree c.eng.fifoA c.eng.wantsA c.widthA c.eng.lowA b then some { c with eng := { c.eng with fifoA := c.eng.fifoA ++ [b] } } else none
def Core.pushB (c : Core) (b : Block) : Option Core :=
  if !c.eng.wantsB b.pos then some c
  else if slotFree c.eng.fifoB c.eng.wantsB (fun _ => 1) c.eng.lowB b then some { c with eng := { c.eng with fifoB := c.eng.fifoB ++ [b] } } else none

/-- Blocks that no chunk reads any more leave their slots. -/
def Core.freeSlots (c : Core) : Core :=
  { c with eng := { c.eng with fifoA := c.eng.fifoA.filter (fun b => c.eng.wantsA b.pos), fifoB := c.eng.fifoB.filter (fun b => c.eng.wantsB b.pos) } }

/-- Blocks of a copy to an operand FIFO, from block `b` on (R394). -/
def State.copyBlocks (s : State) (n : Fin 128) (c : CopyCmd) : Nat → Nat → State × Nat × CopyStop
  | 0, b => (s, b, .done)
  | k + 1, b =>
    let per := c.dataCount + c.scaleCount
    match s.copyBytes n c per (b * per) 0 with
    | .error t => (s, b, .trap t)
    | .ok (bytes, p) =>
      let blk : Block := { pos := c.pos + b, null := false, fmt := dBfmt c.hdr, bs := dBs c.hdr, bytes := bytes, poison := !p.isEmpty,
                           badPa := if p.isEmpty then 0 else ((List.range per).findSome? (fun j => s.copyBad n c (b * per + j))).getD 0 }
      match (if c.cls = 1 then s.cores[n].pushA blk else s.cores[n].pushB blk) with
      | none => (s, b, .blocked)
      | some core => ((if !p.isEmpty then (List.range per).foldl (fun s j => s.logCopyPoison n c (b * per + j)) s else s).setCore n core).copyBlocks n c k (b + 1)

/-- An element enters a flume with the release of its sender (R227, R374). -/
def Flume.enter (f : Flume) (r : Release) : Flume := { f with inn := f.inn + 1, rels := f.rels ++ [(f.inn.toNat, r)] }

/-- Poisoned runs of a range of bytes, counted from its beginning. -/
def runsIn (bad : List (Nat × Nat)) (o len : Nat) : List (Nat × Nat) :=
  (bad.filter (fun r => decide (r.1 < o + len) && decide (o < r.1 + r.2))).map (fun r => (max r.1 o - o, min (r.1 + r.2) (o + len) - max r.1 o))

/-- Elements of a copy of context `x` into a flume, `left` of `esize` bytes each, element `b` next, each a release at the copy's scope, written with the
context's clock where the slices' access tables let it (R57, R207, R392 TOKIND 5). -/
def State.copyFlume (s : State) (n : Fin 128) (x : Fin 2) (f : Fin 256) (bytes : List Byte) (bad : List (Nat × Nat)) (rel : Release) : Nat → Nat → State × Nat × CopyStop
  | 0, b => (s, b, .done)
  | k + 1, b =>
    let fl := s.fab.flumes[f]
    if fl.held = 2 ^ fl.slog2 then (s, b, .blocked)
    else
      let data := slice bytes (b * fl.esize) fl.esize
      let idx := fl.inn.toNat
      match s.landingAsk n 4 .main f.val 2 (fl.slotPa idx) fl.esize 0 with
      | some t => (s, b, .trap t)
      | none =>
        let (s0, w) := s.performScoped (eclockKey n x.val) (fl.slotPa idx) data
        let s1 := State.markRuns (runsIn bad (b * fl.esize) fl.esize) 0 [⟨fl.slotPa idx, fl.esize, true⟩] s0
        let s2 := { s1 with fab := { s1.fab with flumes := s1.fab.flumes.set f (fl.enter { rel with stamp := max rel.stamp w }) } }
        (s2.sign n 3 (f.val * 2 ^ 32) data).copyFlume n x f bytes bad rel k (b + 1)

/-! ### The window engine (R405 to R407) -/

/-- Fields of the window configuration. -/
structure WinGeo where
  lbrows : Nat
  ipitch : Nat
  ibase : Nat
  kh : Nat
  kw : Nat
  ih : Nat
  iw : Nat
  dy : Nat
  dx : Nat
  sy : Nat
  sx : Nat
  padv : Nat
  pt : Nat
  pl : Nat
  ch : Nat
  ow : Nat
  oy : Nat
  ox0 : Nat
  wsc : Nat
  bs : Nat
  ef : Nat
  hy0 : Nat
  hrows : Nat
  hmode : Nat
  hbase : Nat
deriving DecidableEq, Repr

/-- The configuration registers decoded (R405). -/
def winGeo (v : Vector W64 7) : WinGeo :=
  let nz (d x : Nat) : Nat := if x = 0 then d else x
  { lbrows := nz 256 (fld v[0] 40 8), ipitch := fld v[0] 20 20 / 32 * 32, ibase := fld v[0] 0 20 / 32 * 32,
    kh := nz 1 (fld v[1] 40 8), kw := nz 1 (fld v[1] 32 8), ih := fld v[1] 16 16, iw := fld v[1] 0 16,
    dy := fld v[2] 48 16, dx := fld v[2] 32 16, sy := fld v[2] 16 16, sx := fld v[2] 0 16,
    padv := fld v[3] 32 32, pt := fld v[3] 16 16, pl := fld v[3] 0 16,
    ch := fld v[4] 48 16, ow := fld v[4] 32 16, oy := fld v[4] 16 16, ox0 := fld v[4] 0 16,
    wsc := fld v[5] 16 16, bs := fld v[5] 1 2, ef := fld v[5] 0 1,
    hy0 := fld v[6] 48 16, hrows := fld v[6] 32 8, hmode := fld v[6] 27 1, hbase := fld v[6] 0 27 / 32 * 32 }

/-- Element size in bytes. -/
def WinGeo.e (g : WinGeo) : Nat := 1 + g.ef
/-- CC (R405). -/
def WinGeo.cc (g : WinGeo) : Nat := max 1 ((g.ch + 127) / 128)

/-- Where an element of a block comes from (R406). -/
inductive WinSrc where
  | zero
  | pad
  | landing (off : Nat)
  | scratch (off : Nat)
deriving DecidableEq, Repr

/-- Element(ky, kx, cc, ox0, oy, r, k) of R406. -/
def WinGeo.source (g : WinGeo) (ky kx cc ox0 oy r k : Nat) : WinSrc :=
  let ox := ox0 + r
  let ch := cc * 128 + k
  if g.ow ≤ ox ∨ g.ch ≤ ch then .zero
  else
    let iy : Int := (oy : Int) * g.sy - g.pt + (ky : Int) * g.dy
    let ix : Int := (ox : Int) * g.sx - g.pl + (kx : Int) * g.dx
    if iy < 0 ∨ (g.ih : Int) ≤ iy ∨ ix < 0 ∨ (g.iw : Int) ≤ ix then .pad
    else
      let off := (ix.toNat * g.ch + ch) * g.e
      if g.hmode = 1 ∧ (g.hy0 : Int) - g.hrows ≤ iy ∧ iy < g.hy0 then .landing (g.hbase + (iy + g.hrows - g.hy0).toNat * g.ipitch + off)
      else .scratch (g.ibase + iy.toNat % g.lbrows * g.ipitch + off)

/-- Block `n` of a command: ky, kx, cc, ox0, oy (R406). -/
def WinGeo.block (g : WinGeo) (n : Nat) : Nat × Nat × Nat × Nat × Nat :=
  let per := g.kh * g.kw * g.cc
  let i := n % per
  let t := n / per
  -- outputs along a row: ox0, ox0 + 128, … below OW, at least one
  let cols := max 1 ((g.ow - g.ox0 + 127) / 128)
  (i / (g.kw * g.cc), i / g.cc % g.kw, i % g.cc, g.ox0 + t % cols * 128, g.oy + t / cols)

/-- The bytes of one element, or the fault of its address. -/
def State.winByte (s : State) (n : Fin 128) (g : WinGeo) : WinSrc → Except Trap (List Byte)
  | .zero => .ok (List.replicate g.e 0)
  | .pad => .ok (natLe g.e g.padv)
  | .landing off => (s.checkAccess n 4 .main 0 .l kRead (BitVec.ofNat 64 off) g.e).map (readPieces s.mem)
  | .scratch off => (s.checkAccess n 4 .main 0 .x kRead (BitVec.ofNat 64 off) g.e).map (readPieces s.mem)

/-- An elided block reads no memory and holds only zeros (R407). -/
def WinGeo.elided (g : WinGeo) (l : List WinSrc) : Bool :=
  l.all (fun x => match x with | .zero => true | .pad => decide (g.padv % 2 ^ (8 * g.e) = 0) | _ => false)

/-- The sources of a block's elements, row first. -/
def WinGeo.sources (g : WinGeo) (n : Nat) : List WinSrc :=
  let (ky, kx, cc, ox0, oy) := g.block n
  (List.range (128 * 128)).map (fun i => g.source ky kx cc ox0 oy (i / 128) (i % 128))

/-- The scale plane: every scale WSC (R406). -/
def WinGeo.scales (g : WinGeo) : List Byte := (List.range (128 * (128 / bsOf g.bs))).flatMap (fun _ => natLe 2 g.wsc)

/-- Block `b` of a command, at its position. -/
def State.winBlock (s : State) (n : Fin 128) (w : WinCmd) (b : Nat) : Except Trap Block :=
  let g := winGeo w.cfg
  let src := g.sources b
  let fmt := if g.ef = 1 then 2 else 0
  if g.elided src then .ok { pos := w.pos + b, null := true, fmt := fmt, bs := g.bs, bytes := [], poison := false }
  else match src.mapM (s.winByte n g) with
    | .error t => .error t
    | .ok l => .ok { pos := w.pos + b, null := false, fmt := fmt, bs := g.bs, bytes := l.flatten ++ g.scales, poison := false }

/-- The read range of a command for the checker (R406). -/
def winSpans (v : Vector W64 7) : List Span :=
  let g := winGeo v
  if g.lbrows * g.ipitch = 0 then [] else [⟨g.ibase, g.ibase + g.lbrows * g.ipitch, false⟩]

/-! ### The crew ring (R193, R377) -/

/-- Fields of a `ring` out of range, or its core absent from MEMBERS (R377). -/
def ringBad (n : Fin 128) (d a b : W64) : Bool :=
  let len := fld d 32 21
  fld d 9 23 != 0 || fld d 53 11 != 0 || decide (len % 32 ≠ 0) || decide (len < 32) || decide (1048576 < len) || fld d (n.val % 8) 1 == 0
  || decide (2 ^ 20 ≤ a.toNat) || decide (2 ^ 20 ≤ b.toNat) || decide (a.toNat % 32 ≠ 0) || decide (b.toNat % 32 ≠ 0)

/-- RING_MISMATCH (R261): the lowest-numbered disagreeing member in DETAIL1. -/
def ringTrap (q : Nat) (d : W64) (member : Nat) : Trap := accessTrap q .main 0x07 0 d.toNat member

/-- Members of a ring, as core numbers in rising order. -/
def ringMembers (crew : Fin 16) (d : W64) : List Nat := ((List.range 8).filter (fun m => fld d m 1 == 1)).map (· + 8 * crew.val)

/-- The neighbour to whom a member sends: the next in its direction, wrapping. -/
def ringNext (up : Bool) (l : List Nat) (n : Nat) : Nat :=
  let l' := if up then l else l.reverse
  match (l'.dropWhile (· != n)).tail with
  | x :: _ => x
  | [] => l'.headD n

/-! ### Engine status for records -/

/-- RKIND 4: an earlier engine command conflicts, or the checker is full (R182, R272). -/
def Core.rangeWait (c : Core) (st : Strand) (e : RangeEntry) : Wait :=
  { rkind := 4, rindex := e.ctx, d0 := BitVec.ofNat 64 e.num, d1 := c.eng.tl[Fin.ofNat 8 e.ctx], faddr := 0, limit := some (c.limit st) }

end Sys2Proof.Machine
end

