-- ==== Sys2Proof/Machine/Issue.lean ====
section
/-! DEFINITION. What a routed word does when it issues (spec/07 R175 to R182, spec/13, 14, 15), and the issue, completion and
routing of words. -/

namespace Sys2Proof.Machine

/-! ### Sequence numbers, spans, program order -/

/-- Class of a routed word as a queue number of the records: 1 L, 2 X, 3 S. -/
def Uop.cls : Uop → Nat
  | .nop => 2
  | .load .. | .ldc .. | .vload .. | .flgetX .. | .flgetV .. | .ring .. | .cpy .. => 1
  | .cache op _ => (match op with | .cwb | .cev | .l1inv => 3 | _ => 1)
  | .store .. | .vstore .. | .amo .. | .red .. | .lupd .. | .flput .. | .push .. | .barArrive .. => 3
  | _ => 2

/-- The queue of a class number. -/
def Uop.qid (u : Uop) : Qid := match u.cls with | 1 => .l | 3 => .s | _ => .x

/-- Queue sequence number of a word at its head; 0 in a handler strand. -/
def Core.seqOf (c : Core) (r : Routed) : Nat := match r.strand with | .main => c.qseq (r.uop.qid.num) | .ctx _ => 0

/-- Addresses of the active elements of a vector access, rows in order, with their element. -/
def Core.vaccess (c : Core) (r : Routed) (kind : Fin 4) (m : Guard) (a p : W64) (bi : Reg) (vl : Nat) : List (Nat × Nat × W64) :=
  (List.range 16).flatMap (fun i => (c.activeCols m vl i).map (fun j => (i, j, c.vaddr r kind a p bi i j)))

/-- Registers that a routed word reads when it issues (R176). -/
def Uop.srcTags (u : Uop) (vt : W64) : List RegTag :=
  let g := vgrp vt
  let v (r : Reg) : List RegTag := vtags r.val g
  let k (r : Nat) : List RegTag := ktags r (msize vt)
  match u with
  | .vload _ kind _ m _ _ bi => k m.val ++ (if kind = 2 then v bi else [])
  | .vstore _ kind d m _ _ bi => k m.val ++ v d ++ (if kind = 2 then v bi else [])
  | .vi _ _ a b m | .vf _ _ a b m | .vcmp _ _ a b m => v a ++ v b ++ k m.val
  | .vis _ _ a _ m | .vfs _ _ a _ m | .vfsign _ _ a m | .vcmps _ _ a _ m | .vred _ _ _ a m | .sf _ _ a m => v a ++ k m.val
  | .cvt op _ _ _ a m => vtags a.val (gsize vt (cvtWidth vt (cvtFmts op vt).1)) ++ k m.val
  | .vfma _ d a b m | .vmacc d a b m => v d ++ v a ++ v b ++ k m.val
  | .vfmas d a _ m | .vmaccs d a _ m => v d ++ v a ++ k m.val
  | .kop _ _ a b => k a.val ++ k b.val
  | .perm op _ a b _ m => v a ++ (match op with | .gatherC | .gatherR => v b | _ => []) ++ k m.val
  | .mv op _ a b _ m => (match op with | .mov | .movk => v a | .sel => v a ++ v b | .movv => k a.val | _ => []) ++ k m.val
  | .accwr _ a _ => vtags a.val 1
  | .ftld _ a => vtags a.val 1
  | .accrd _ t _ => [{ file := tagAcc, num := t.val }]
  | .ftrd _ k => [{ file := tagFt, num := k.val }]
  | _ => []

/-- Registers that a routed word writes. -/
def Uop.dstTags (u : Uop) (vt : W64) : List RegTag :=
  let g := vgrp vt
  match u with
  | .load _ _ _ d _ | .ldc _ _ d _ | .flgetX d _ _ _ | .barArrive d _ _ => stag d
  | .amo op _ d _ _ _ _ => if op = .st then [] else stag d
  | .vload _ _ d _ _ _ _ | .flgetV d _ _ => vtags d.val g
  | .vi _ d _ _ _ | .vf _ d _ _ _ | .vis _ d _ _ _ | .vfs _ d _ _ _ | .vfsign _ d _ _ | .vfma _ d _ _ _ | .vfmas d _ _ _ | .vmacc d _ _ _ | .vmaccs d _ _ _
  | .perm _ d _ _ _ _ | .vred _ _ d _ _ | .sf _ d _ _ => vtags d.val g
  | .cvt op _ _ d _ _ => vtags d.val (gsize vt (cvtWidth vt (cvtFmts op vt).2)) ++ (if cvtEf op then vtags (d.val + g) g else [])
  | .vcmp _ d _ _ _ | .vcmps _ d _ _ _ | .kop _ d _ _ => ktags d.val (msize vt)
  | .mv op d _ _ _ _ => if op = .movk then ktags d.val (msize vt) else vtags d.val g
  | .mstat d | .accrd d _ _ | .ftrd d _ | .ftmon d => vtags d.val 1
  | .acczero t | .accwr t _ _ => [{ file := tagAcc, num := t.val }]
  | .mgo t _ _ _ _ _ _ => [{ file := tagAcc, num := t.val }]
  | .ftld k _ | .ftclr k => [{ file := tagFt, num := k.val }]
  | _ => []

/-- Registers of a word that an earlier word of L or X has yet to write. -/
def Core.unwritten (c : Core) (r : Routed) (l : List RegTag) : Bool :=
  (c.qL ++ c.qX).any (fun x => x.on && !x.done && decide (x.po < r.po) && (x.uop.dstTags x.vtype).any (fun t => l.contains t))

/-- The scratch range of a vector access: what encloses its active elements (R366); while an earlier word has yet to write its mask, its elements count
as active, and while one has yet to write its indices it may touch the whole quota (R182). -/
def Core.vspans (c : Core) (r : Routed) (write : Bool) (kind : Fin 4) (m : Guard) (a p : W64) (bi : Reg) : List Span :=
  if kind = 2 ∧ c.unwritten r (vtags bi.val (vgrp r.vtype)) then [⟨0, c.ctx.scratchQuota, write⟩]
  else
    let m' : Guard := if c.unwritten r (ktags m.val (msize r.vtype)) then 0 else m
    enclose write ((c.vaccess r kind m' a p bi r.vl).map (fun x => (x.2.2.toNat, x.2.2.toNat + vsew r.vtype / 8)))

/-- Scratch spans of a routed word, with the ranges of the engine command it would issue (R182). -/
def State.uopSpans (s : State) (n : Fin 128) (r : Routed) : List Span :=
  let c := s.cores[n]
  if !r.on then [] else
  match r.uop with
  | .load .x sz _ _ a => [⟨a.toNat, a.toNat + sz, false⟩]
  | .store .x sz a _ => [⟨a.toNat, a.toNat + sz, true⟩]
  | .vload .x k _ m a p bi => c.vspans r false k m a p bi
  | .vstore .x k _ m a p bi => c.vspans r true k m a p bi
  | .flgetX _ f off _ => [⟨off.toNat, off.toNat + s.fab.flumes[Fin.ofNat 256 f.toNat].esize, true⟩]
  | .flput f off _ => [⟨off.toNat, off.toNat + s.fab.flumes[Fin.ofNat 256 f.toNat].esize, false⟩]
  | .lupd _ _ off _ => [⟨off.toNat, off.toNat + 128, false⟩]
  | .ring d a b => [⟨a.toNat, a.toNat + fld d 32 21, false⟩, ⟨b.toNat, b.toNat + fld d 32 21, true⟩]
  | .wgo cfg _ _ => winSpans cfg
  | .cpy cls _ d a b pos =>
    let off := a.toNat / 64 * 64
    let h := readHdr s.mem n off
    let cmd : CopyCmd := { num := 0, po := r.po, hdr := h, dims := readDims s.mem n off (dNdim h), fromDelta := b, toDelta := if cls = 0 then d else 0,
                           cls := cls, pos := pos, progress := 0, faulted := false, held := false }
    ⟨off, off + 64 + 16 * dNdim h, false⟩ :: cmd.spans
  | _ => []

/-- Words of the three queues that are earlier in program order and have not issued. -/
def Core.earlierWords (c : Core) (po : Nat) : List Routed := (c.qL ++ c.qX ++ c.qS).filter (fun x => !x.done && decide (x.po < po))

/-- The oldest earlier engine command whose range conflicts with spans. -/
def Core.rangeConflict (c : Core) (po : Nat) (l : List Span) : Option RangeEntry :=
  (c.eng.ranges.filter (fun e => decide (e.po < po) && spansConflict e.spans l)).foldl
    (fun acc e => match acc with | some x => if e.po < x.po then some e else some x | none => some e) none

/-- A wait of the main strand for memory order (R272 kind 5): behind the word of program-order number `po`. -/
def Core.orderWait (c : Core) (po : Nat) : Wait :=
  { rkind := 5, rindex := 0, d0 := BitVec.ofNat 64 po, d1 := BitVec.ofNat 64 c.mem.lob.length, faddr := 0, limit := some (c.limit .main) }

/-- Why a scratch access of the main strand waits at its queue head, if it does (R182); behind an earlier scratch word that has not issued it
waits for memory order (log 5). -/
def State.scratchWait (s : State) (n : Fin 128) (r : Routed) (l : List Span) : Option Res :=
  match r.strand with
  | .ctx _ => none
  | .main =>
    let c := s.cores[n]
    if l.isEmpty then none
    else match c.rangeConflict r.po l with
      | some e => some (.wait (c.rangeWait .main e))
      | none => match (c.earlierWords r.po).filter (fun x => spansConflict (s.uopSpans n x) l) with
        | x :: t => some (.wait (c.orderWait (t.foldl (fun m y => min m y.po) x.po)))
        | [] => none

/-- The range checker has no free entry for an engine command (R182, R272 kind 4). -/
def Core.checkerFull (c : Core) : Option Res :=
  if c.eng.ranges.length < Config.rangeDepth then none else c.eng.ranges.head?.map (fun e => .wait (c.rangeWait .main e))

/-- The word is an ordinary load or store or an atomic of the strand (R203). -/
def Uop.isLoad : Uop → Bool
  | .load .g .. | .load .l .. | .vload .g .. | .vload .l .. => true
  | _ => false
def Uop.isStore : Uop → Bool
  | .store .g .. | .store .l .. | .vstore .g .. | .vstore .l .. | .amo .. | .barArrive .. => true
  | _ => false

/-- A load that is ordinary: its page says so, or no page does (R42, R198). -/
def State.ordinaryAt (s : State) (n : Fin 128) (a : W64) : Bool :=
  match s.coreTranslate n a.toNat kRead with
  | .ok (pa, leaf) => leafOrdinary leaf pa
  | .error _ => true
def State.ordinaryLoad (s : State) (n : Fin 128) (x : Routed) : Bool :=
  match x.uop with
  | .load .g _ _ _ a => s.ordinaryAt n a
  | .vload .g kind _ m a p bi => (s.cores[n].vaccess x kind m a p bi x.vl).any (fun e => s.ordinaryAt n e.2.2)
  | u => u.isLoad

/-- A store or atomic waits until every earlier ordinary load of its strand has performed (R203, kind 5). -/
def State.loadsFirst (s : State) (n : Fin 128) (r : Routed) : Option Res :=
  let c := s.cores[n]
  match r.strand with
  | .ctx _ => none
  | .main =>
    match c.qL.find? (fun x => x.on && !x.done && decide (x.po < r.po) && s.ordinaryLoad n x) with
    | some x => some (.wait (c.orderWait x.po))
    | none => none

/-- A scoped read of the main strand waits until every earlier atomic, which acquires, has performed (R216, kind 5). -/
def Core.acquireFirst (c : Core) (r : Routed) : Option Res :=
  match r.strand with
  | .ctx _ => none
  | .main => (c.qS.find? (fun x => x.on && !x.done && decide (x.po < r.po) && (match x.uop with | .amo .. => true | _ => false))).map (fun x => .wait (c.orderWait x.po))

/-- A full load-order buffer holds a load (R180, kind 5). -/
def Core.lobFull (c : Core) (r : Routed) : Option Res :=
  match r.strand, c.mem.lob with
  | .main, e :: t =>
    if t.length + 1 < Config.lobDepth then none
    else some (.wait (c.orderWait e.word.po))
  | _, _ => none

/-! ### Marks of reliability (R155, R157, R161) -/

/-- The first poisoned granule among the parts of an access. -/
def State.badPa (s : State) (ps : List Piece) : Option Nat := (ps.find? (fun p => s.poisoned p.pa p.len)).map (fun p => p.pa / 32 * 32)

/-- A word of program-order number `po` meets an uncorrectable error at a granule: a demand read's record, once (R159), and it waits for CONSUMED_UE. -/
def State.meetAt (s : State) (n : Fin 128) (po pa : Nat) (st : Strand := .main) : State :=
  if s.cores[n].poison.any (fun t => t.file == tagUe) then s
  else (s.logDemand n.val pa s.cores[n].sys.stepid.toNat s.cores[n].ctx.region).modCore n (fun c => { c.meet po st with uePa := pa / 32 * 32 })

/-- The destination of a load takes or loses its poison mark, with the granule that the poison came from. -/
def Core.markPoison (c : Core) (tags : List RegTag) (bad : Option Nat) : Core :=
  let c1 := c.untag tags
  match bad with
  | some pa => { c1 with poison := c1.poison ++ tags, origins := c1.origins ++ tags.map (fun t => (t, pa)) }
  | none => c1

/-- Operations that cannot be repeated and perform as they issue (R161 reason 2); a reduction does later, at its target. -/
def Uop.nonIdem : Uop → Bool
  | .amo .. | .flput .. | .flgetX .. | .flgetV .. | .push .. | .ring .. | .barArrive .. => true
  | _ => false

/-- Non-idempotent operations that also make a step non-replayable (R167): all but reductions at memory and `flput`. -/
def Uop.nonReplay : Uop → Bool
  | .flput .. => false
  | .lupd .. => true
  | u => u.nonIdem

/-! ### Loads -/

/-- What the load-order buffer keeps of the copies that a load read: each once. -/
def copiesSeen (l : List (Option L1Line)) : List (Nat × Nat × Nat) := (l.filterMap (fun x => x.map L1Line.seen)).eraseDups

/-- A performed load of the main strand enters the load-order buffer while an earlier store of the strand has not performed
(R180, R203). -/
def Core.noteLoad (c : Core) (r : Routed) (ps : List Piece) (copies : List (Nat × Nat × Nat)) : Core :=
  match r.strand with
  | .ctx _ => c
  | .main =>
    if c.qS.any (fun x => x.on && !x.done && x.uop.isStore && decide (x.po < r.po)) && ps.any (·.ordinary) then
      { c with mem := { c.mem with lob := c.mem.lob ++ [{ word := r, bytes := ps.map (fun p => (p.pa, p.len)), copies := copies, dst := r.uop.dstTags r.vtype, gone := [] }] } }
    else c

/-- A value of `sz` bytes extended to 64 bits (R359). -/
def extend (signed : Bool) (sz x : Nat) : W64 := if signed then w64 (sext (8 * sz) x) else BitVec.ofNat 64 x

/-- A demand read of a core that meets poison is recorded, and so is what leaves through a port (R49, R154). -/
def State.readDone (s : State) (n : Fin 128) (ps : List Piece) : State :=
  let r := s.cores[n].ctx.region
  let s1 := match s.badPa ps with | some a => s.logDemand n.val a s.cores[n].sys.stepid.toNat r | none => s
  ps.foldl (fun s p => s.coreOut n p.pa p.len false) s1

/-- A scalar load's parts read and its destination written (R361). -/
def State.finishLoad (s : State) (n : Fin 128) (r : Routed) (d : Reg) (sz : Nat) (signed : Bool) (ps : List Piece) : State :=
  let (s1, copies) := s.bindPieces n none ps
  let v := extend signed sz (leNat (loadPieces s.mem copies ps))
  ((s1.readDone n ps).modCore n (fun c =>
    ((c.wrDst r.strand d v).markPoison (dtag r.strand d) (s.badPa ps)).noteLoad r ps (copiesSeen copies))).observe n r.strand ps

/-- A load of a page that is not ordinary is a scoped read: it waits behind an acquire (R216). -/
def Core.scopedFirst (c : Core) (r : Routed) (sp : Space) (ps : List Piece) : Option Res := if sp != .x && ps.any (fun p => !p.ordinary) then c.acquireFirst r else none

/-- A scalar load (R361). -/
def State.doLoad (s : State) (n : Fin 128) (r : Routed) (sp : Space) (sz : Nat) (signed : Bool) (d : Reg) (a : W64) : Res :=
  let c := s.cores[n]
  match s.scratchWait n r (s.uopSpans n r) with
  | some w => w
  | none =>
    match c.lobFull r with
    | some w => w
    | none =>
      match s.checkAccess n 1 r.strand (c.seqOf r) sp kRead a sz with
      | .error t => .trap t
      | .ok ps =>
        match c.scopedFirst r sp ps with
        | some w => w
        | none => .ok (s.finishLoad n r d sz signed ps)

/-- A byte of the constant path: the constant cache's, or memory's (R224). -/
def Core.ccByte (c : Core) (m : Memory) (pa : Nat) : Byte := match sget none c.mem.cc pa with | some b => b | none => sget Memory.dflt m pa

/-- `ldc` (R362, R224): COHERENT pages through the constant cache, other pages at the target; lines that it fetches are dropped from the L1 and the
crew's clean copies, so that no later load returns an older value (R200). -/
def State.doLdc (s : State) (n : Fin 128) (r : Routed) (sz : Nat) (signed : Bool) (d : Reg) (a : W64) : Res :=
  let c := s.cores[n]
  match s.checkAccess n 1 r.strand (c.seqOf r) .g kRead a sz with
  | .error t => .trap t
  | .ok ps =>
    match c.acquireFirst r with
    | some w => w
    | none =>
      let one (p : Piece) : List Byte := if p.ordinary then (List.range p.len).map (fun k => c.ccByte s.mem (p.pa + k)) else memRead s.mem p.pa p.len
      let bytes := ps.flatMap one
      let keys := ps.flatMap (fun p => if p.ordinary then (List.range p.len).map (p.pa + ·) else [])
      let cc := keys.foldl (fun m k => sset none m k (some (c.ccByte s.mem k))) c.mem.cc
      let fetched := (keys.filter (fun k => (sget none c.mem.cc k).isNone) ++ (ps.filter (fun p => !p.ordinary)).map (·.pa)).filter l1Holds
      let s1 := ((fetched.map (· / 128)).eraseDups).foldl (fun s l => s.dropLine n l) s
      .ok (((s1.readDone n ps).modCore n (fun c => ({ c with mem := { c.mem with cc := cc } }.wrDst r.strand d (extend signed sz (leNat bytes))).markPoison (dtag r.strand d)
        (s.badPa ps))).observe n r.strand ps)

/-- The checks of the active elements of a vector access, in order (R356, R365): their parts, or the first trap. -/
def State.checkElems (s : State) (n : Fin 128) (q : Nat) (r : Routed) (sp : Space) (kind : Nat) (es : List (Nat × Nat × W64)) : Except Trap (List (Nat × Nat × List Piece)) :=
  es.mapM (fun x => (s.checkAccess n q r.strand (s.cores[n].seqOf r) sp kind x.2.2 (vsew r.vtype / 8)).map (fun ps => (x.1, x.2.1, ps)))

/-- The column at which `vld.ff` trims, with what stopped it there, or the trap it takes (R367). -/
def State.ffTrim (s : State) (n : Fin 128) (r : Routed) (sp : Space) (m : Guard) (a p : W64) : Nat → Nat → Except Trap (Nat × Option Trap)
  | 0, j => .ok (j, none)
  | k + 1, j =>
    let c := s.cores[n]
    let col := (List.range 16).filter (fun i => c.mbit m.val i j)
    match col.mapM (fun i => s.checkAccess n 1 r.strand (c.seqOf r) sp kRead (c.vaddr r 3 a p 0 i j) (vsew r.vtype / 8)) with
    | .ok _ => s.ffTrim n r sp m a p k (j + 1)
    | .error t => if j = 0 ∨ t.cause = 0x22 ∨ t.cause = 0 then .error t else .ok (j, some t)

/-- The values that a vector load gives its elements, each from the copies that its own parts were bound to. -/
def elemVals (m : Memory) : List (Nat × Nat × List Piece) → List (Option L1Line) → List (Nat × Nat × Nat)
  | [], _ => []
  | x :: t, copies => (x.1, x.2.1, leNat (loadPieces m (copies.take x.2.2.length) x.2.2)) :: elemVals m t (copies.drop x.2.2.length)

/-- The value of element (i, j). -/
def elemVal (l : List (Nat × Nat × Nat)) (i j : Nat) : Option Nat := (l.find? (fun x => x.1 == i && x.2.1 == j)).map (fun x => x.2.2)

/-- A vector load's active elements read in order and its destination group written (R206, R365). -/
def State.finishVload (s : State) (n : Fin 128) (r : Routed) (d : Reg) (l : List (Nat × Nat × List Piece)) : State :=
  let ps := l.flatMap (·.2.2)
  let (s1, copies) := s.bindPieces n none ps
  let vals := elemVals s.mem l copies
  ((s1.readDone n ps).modCore n (fun c =>
    ((c.writeGroup d.val (vsew r.vtype) (vlmax r.vtype) (elemVal vals)).markPoison (vtags d.val (vgrp r.vtype)) (s.badPa ps)).noteLoad r ps (copiesSeen copies))).observe n r.strand ps

/-- A vector load (R364 to R367). -/
def State.doVload (s : State) (n : Fin 128) (r : Routed) (sp : Space) (kind : Fin 4) (d : Reg) (m : Guard) (a p : W64) (bi : Reg) : Res :=
  let c := s.cores[n]
  match s.scratchWait n r (s.uopSpans n r) with
  | some w => w
  | none =>
    match c.lobFull r with
    | some w => w
    | none =>
      match (if kind = 3 then s.ffTrim n r sp m a p r.vl 0 else .ok (r.vl, none)) with
      | .error t => .trap t
      | .ok (vl, cut) =>
        match s.checkElems n 1 r sp kRead (c.vaccess r kind m a p bi vl) with
        | .error t => .trap t
        | .ok l =>
          match c.scopedFirst r sp (l.flatMap (·.2.2)) with
          | some w => w
          | none =>
            let s1 := (match cut with | some t => s.logRefusal n t | none => s).finishVload n { r with vl := vl } d l
            .ok (if kind = 3 then s1.modCore n (fun c => { c with sys := { c.sys with vl := BitVec.ofNat 64 vl } }) else s1)

/-! ### Replays of the load-order buffer (R180, R203) -/

/-- One register of a load's destination as it was before. -/
def Core.keepReg (old c : Core) (t : RegTag) : Core :=
  if t.file = tagV then (List.range 16).foldl (fun c i => c.setVrow t.num i (old.vrow t.num i)) c
  else if t.file = tagS then { c with regs := { c.regs with s := c.regs.s.set (Fin.ofNat 32 t.num) old.regs.s[(Fin.ofNat 32 t.num : Fin 32)] } }
  else c

/-- The registers that a load's replay leaves alone: those that a later word has written. -/
def Core.keepRegs (old c : Core) (gone : List RegTag) : Core :=
  let keep (new old : List RegTag) : List RegTag := new.filter (fun t => !gone.contains t) ++ old.filter gone.contains
  let c1 := gone.foldl old.keepReg c
  { c1 with poison := keep c1.poison old.poison, parity := keep c1.parity old.parity,
            origins := c1.origins.filter (fun x => !gone.contains x.1) ++ old.origins.filter (fun x => gone.contains x.1),
            replay := old.replay }

/-- A listed load again: it binds anew; its destination takes the value but for registers that a later word has written. -/
def State.reload (s : State) (n : Fin 128) (e : LobEntry) : State :=
  let c := s.cores[n]
  let r := e.word
  let t := match r.uop with
    | .load sp sz signed d a =>
      (match s.checkAccess n 1 r.strand 0 sp kRead a sz with | .ok ps => s.finishLoad n r d sz signed ps | .error _ => s)
    | .vload sp kind d m a p bi =>
      (match s.checkElems n 1 r sp kRead (c.vaccess r kind m a p bi r.vl) with | .ok l => s.finishVload n r d l | .error _ => s)
    | _ => s
  t.modCore n (fun x => let x1 := c.keepRegs x e.gone; { x1 with mem := { x1.mem with lob := x1.mem.lob.map (fun y => if y.word.po = r.po then { y with gone := e.gone } else y) } })

/-- A copy that a listed load read, at the core's present clock T: where it is valid only below T it is renewed at T, and stands if the renewal
returns the WTS that the load saw (R203). -/
def State.renewCopy (s : State) (n : Fin 128) (x : Nat × Nat × Nat) : State × Option (Nat × Nat × Nat) :=
  let t := s.cores[n].mem.clock
  if t ≤ x.2.2 then (s, some x)
  else if s.fab.wtsOf x.1 ≠ x.2.1 then (s, none)
  else
    let f := s.fab.grant x.1 t
    let s1 : State := { s with fab := { f with clean := f.clean.map (fun y => if y.crew = (crewOf n).val ∧ y.line = x.1 ∧ y.wts = x.2.1 then { y with valid := t + 1 } else y) } }
    (s1.modCore n (fun c => { c with mem := { c.mem with l1 := c.mem.l1.map (fun y => if y.line = x.1 ∧ y.wts = x.2.1 then { y with valid := t + 1 } else y) } }),
      some (x.1, x.2.1, t + 1))

/-- Every copy of a listed load renewed, in order; none where one of them has been written since. -/
def State.renewAll (s : State) (n : Fin 128) : List (Nat × Nat × Nat) → State × Option (List (Nat × Nat × Nat))
  | [] => (s, some [])
  | x :: t =>
    match s.renewCopy n x with
    | (s1, none) => (s1, none)
    | (s1, some y) => (match s1.renewAll n t with | (s2, some l) => (s2, some (y :: l)) | (s2, none) => (s2, none))

/-- The listed loads that a store or atomic leaves standing, with their copies renewed, and those from the first conflict on (R180, R203). -/
def State.lobCheck (s : State) (n : Fin 128) (r : Routed) (ps : List Piece) : List LobEntry → State × List LobEntry × List LobEntry
  | [] => (s, [], [])
  | e :: t =>
    if e.word.po < r.po then (match s.lobCheck n r ps t with | (s1, keep, again) => (s1, e :: keep, again))
    else if e.bytes.any (fun b => ps.any (fun p => overlaps b (p.pa, p.len))) then (s, [], e :: t)
    else match s.renewAll n e.copies with
      | (s1, none) => (s1, [], e :: t)
      | (s1, some l) => (match s1.lobCheck n r ps t with | (s2, keep, again) => (s2, { e with copies := l } :: keep, again))

/-- The ordinary and core-local parts of a store carry the releases of the strand's fences (R214). -/
def State.carryFences (s : State) (n : Fin 128) (st : Strand) (ps : List Piece) : State :=
  ps.foldl (fun s p => if p.ordinary then s.carryRels p.pa p.len s.cores[n].mem.fences[st.slot] else s) s

/-- After a store or atomic: its parts carry the strand's releases; in the main strand the listed loads that conflict and every later one
replay, and loads with no earlier store left go (R180, R203). -/
def State.afterStore (s' : State) (n : Fin 128) (r : Routed) (ps : List Piece) : State :=
  let s := s'.carryFences n r.strand ps
  match r.strand with
  | .ctx _ => s
  | .main =>
    let (s0, keep, again) := s.lobCheck n r ps s.cores[n].mem.lob
    let s1 := s0.modCore n (fun c => { c with mem := { c.mem with lob := keep }, loreplay := c.loreplay + BitVec.ofNat 64 again.length })
    let s2 := again.foldl (fun s e => s.reload n e) s1
    s2.modCore n (fun c => { c with mem := { c.mem with lob := c.mem.lob.filter (fun e =>
      c.qS.any (fun x => x.on && !x.done && x.uop.isStore && x.po != r.po && decide (x.po < e.word.po))) } })

/-! ### Stores -/

/-- The number that a strand's writes in flight bear: a handler's on `tl7` (R185). -/
def Core.strandNum (c : Core) : Strand → Nat
  | .main => 0
  | .ctx h => c.hnd[h].num

/-- A scoped write put in flight (R207), with its number on `tl6` where that counts it. -/
def State.launch (s : State) (n : Fin 128) (r : Routed) (op : WriteOp) (runs : List (Nat × List Byte)) (va : W64) (cmd : Nat) (sp : Space) : State :=
  match runs with
  | [] => s
  | (pa, data) :: more =>
    let x : InFlight := { core := n, strand := r.strand, hnum := s.cores[n].strandNum r.strand, op := op, pa := pa, va := va, data := data, more := more, seq := s.cores[n].seqOf r,
                          po := r.po, cmd := cmd, performed := false, stamp := 0, space := sp, joined := [] }
    { s with fab := { s.fab with inflight := s.fab.inflight ++ [x] } }

/-- The number that the next command of `tl6` takes. -/
def Core.nextAck (c : Core) : Nat := (c.eng.issued[(6 : Fin 8)]).toNat + 1

/-- A part of a store of the main strand is retained for a rollback, while one is still possible (R161). -/
def Core.retainStore (c : Core) (r : Routed) (sp : Space) (p : Piece) (ea : W64) (b : List Byte) : Core :=
  if r.strand = .main ∧ c.tile.retainedL.length ≤ 256 ∧ c.tile.retainedX.length ≤ 256 then
    { c with tile := { c.tile with stores := c.tile.stores ++ [{ po := r.po, space := sp, ordinary := p.ordinary, pa := p.pa, va := ea, bytes := b }] } }
  else c

/-- A part of a store performs: ordinary parts and scratch at once, scoped parts go in flight. -/
def State.storePiece (s : State) (n : Fin 128) (r : Routed) (sp : Space) (ea : W64) (p : Piece) (b : List Byte) : State :=
  if sp = .x then s.writeBytes p.pa b else if p.ordinary then s.performOrdinary n .crew p b else s.launch n r .data [(p.pa, b)] ea 0 sp

/-- The parts of a store. -/
def State.storePieces (s : State) (n : Fin 128) (r : Routed) (sp : Space) (ea : W64) : List Piece → List Byte → State
  | [], _ => s
  | p :: t, b =>
    ((s.storePiece n r sp ea p (b.take p.len)).modCore n (fun c => c.retainStore r sp p ea (b.take p.len))).storePieces n r sp ea t (b.drop p.len)

/-- Signature of a store's bytes (R168); scratch is not included. DESIGN CHOICE (log 62): g.va of a Landing store is the program's own offset, relative
to the region's part of the Landing. -/
def State.signStore (s : State) (n : Fin 128) (sp : Space) (ea : W64) (b : List Byte) : State :=
  match signSpace sp with
  | some k => s.sign n k ea.toNat b
  | none => s

/-- A dirty line of a crew cache whose error an ordinary store of the core meets: a consumed uncorrectable error (R163). -/
def State.badLine (s : State) (ps : List Piece) : Option Nat :=
  (ps.find? (fun p => p.ordinary && s.fab.badDirty.contains (p.pa / 128))).map (fun p => p.pa / 128 * 128)

/-- A scalar store (R361). -/
def State.doStore (s : State) (n : Fin 128) (r : Routed) (sp : Space) (sz : Nat) (a v : W64) : Res :=
  let c := s.cores[n]
  match s.scratchWait n r (s.uopSpans n r) with
  | some w => w
  | none =>
    match s.checkAccess n 3 r.strand (c.seqOf r) sp kWrite a sz with
    | .error t => .trap t
    | .ok ps =>
      match (if ps.any (·.ordinary) then s.loadsFirst n r else none) with
      | some w => w
      | none =>
        let b := natLe sz v.toNat
        match s.badLine ps with
        | some x => .stall (s.meetAt n r.po x r.strand)
        | none => .ok ((((s.storePieces n r sp a ps b).signStore n sp a b)).afterStore n r ps)

/-- The granule of R206 that an element of a unit-stride row belongs to: the row, the piece of 16 bytes, the sector; none for an element that is
accessed alone. -/
def granuleKey (unit : Bool) (e i j : Nat) (ea : W64) : Option (Nat × Nat × Nat) :=
  let base := ea.toNat - j * e
  let k := (ea.toNat - base) / 16
  if unit && decide ((base + 16 * k) % 8 = 0) then some (i, k, ea.toNat / 32) else none

/-- One element of a vector store: its granule, its address, its parts, its bytes. -/
structure StoreElem where
  key : Option (Nat × Nat × Nat)
  va : W64
  ps : List Piece
  bytes : List Byte

/-- Elements in order, those of one granule together. -/
def granules : List StoreElem → List (List StoreElem)
  | [] => []
  | x :: t =>
    match granules t with
    | (y :: l) :: rest => if x.key.isSome && x.key == y.key then (x :: y :: l) :: rest else [x] :: (y :: l) :: rest
    | rest => [x] :: rest

/-- Runs of bytes of elements: adjacent ones joined. -/
def joinRuns : List (Nat × List Byte) → List (Nat × List Byte)
  | [] => []
  | x :: t =>
    match joinRuns t with
    | y :: l => if x.1 + x.2.length = y.1 then (x.1, x.2 ++ y.2) :: l else x :: y :: l
    | [] => [x]

/-- The physical runs of the elements of one granule, each element in one part. -/
def granuleRuns (l : List StoreElem) : List (Nat × List Byte) := joinRuns (l.flatMap (fun x => match x.ps with | [p] => [(p.pa, x.bytes)] | _ => []))

/-- One granule of a vector store performs, or goes in flight, as one event (R205, R206). -/
def State.storeGranule (s : State) (n : Fin 128) (r : Routed) (sp : Space) (l : List StoreElem) : State :=
  match granuleRuns l with
  | [] => s
  | (pa, b) :: more =>
    let ord := l.any (fun x => x.ps.any (·.ordinary))
    let va := match l with | x :: _ => x.va | [] => 0
    let s1 := if sp = .x then ((pa, b) :: more).foldl (fun s x => s.writeBytes x.1 x.2) s
      else if ord then s.performRuns n .crew (pa / 128) ((pa, b) :: more)
      else s.launch n r .data ((pa, b) :: more) va 0 sp
    ((pa, b) :: more).foldl (fun s x => s.modCore n (fun c => c.retainStore r sp { pa := x.1, len := x.2.length, ordinary := ord } (va + BitVec.ofNat 64 (x.1 - pa)) x.2)) s1

/-- Elements or granules of a vector store, in order. -/
def State.storeGroup (s : State) (n : Fin 128) (r : Routed) (sp : Space) (l : List StoreElem) : State :=
  let s1 := match l with
    | [x] => (match x.ps with | [_] => s.storeGranule n r sp l | _ => s.storePieces n r sp x.va x.ps x.bytes)
    | _ => s.storeGranule n r sp l
  match signSpace sp with
  | some k => s1.signRuns n k (joinRuns (l.map (fun x => (x.va.toNat, x.bytes))))
  | none => s1

/-- The elements of a vector store; `nt` sends every global part past the caches. -/
def State.storeList (s : State) (n : Fin 128) (r : Routed) (kind : Fin 4) (nt : Bool) (l : List ((Nat × Nat × W64) × (Nat × Nat × List Piece))) : List StoreElem :=
  let e := vsew r.vtype
  let d := match r.uop with | .vstore _ _ d _ _ _ _ => d.val | _ => 0
  l.map (fun x =>
    { key := granuleKey (kind == 0 || kind == 3) (e / 8) x.1.1 x.1.2.1 x.1.2.2, va := x.1.2.2,
      ps := if nt then x.2.2.2.map (fun p => { p with ordinary := false }) else x.2.2.2,
      bytes := natLe (e / 8) (s.cores[n].elem d e x.1.1 x.1.2.1) })

/-- A vector store's elements stored in the order of R206; the granules of poison that it covers whole lose it (R155). -/
def State.storeElems (s : State) (n : Fin 128) (r : Routed) (sp : Space) (kind : Fin 4) (nt : Bool) (es : List (Nat × Nat × W64)) (l : List (Nat × Nat × List Piece)) : State :=
  let xs := s.storeList n r kind nt (es.zip l)
  ((granules xs).foldl (fun s g => s.storeGroup n r sp g) s).clearCovered (if xs.all (fun x => x.ps.all (fun p => p.ordinary || decide (sp = .x))) then xs.flatMap (fun x => x.ps.map (fun p => (p.pa, p.len))) else [])

/-- The writes in flight of a word count together as one command of `tl6` (R184). -/
def State.markAck (s : State) (n : Fin 128) (r : Routed) : State :=
  let cmd := s.cores[n].nextAck
  let num := s.cores[n].strandNum r.strand
  { s with fab := { s.fab with inflight := s.fab.inflight.map (fun (x : InFlight) =>
      if x.core = n ∧ x.strand = r.strand ∧ x.hnum = num ∧ x.po = r.po ∧ !x.performed ∧ x.cmd = 0 then { x with cmd := cmd } else x) } }.modCore n (·.accept 6)

/-- A vector store (R364 to R368): `vst.nt` is scoped, and counts on `tl6`, where its page is COHERENT. -/
def State.doVstore (s : State) (n : Fin 128) (r : Routed) (sp : Space) (kind : Fin 4) (m : Guard) (a p : W64) (bi : Reg) : Res :=
  let c := s.cores[n]
  match s.scratchWait n r (s.uopSpans n r) with
  | some w => w
  | none =>
    let es := c.vaccess r kind m a p bi r.vl
    match s.checkElems n 3 r sp kWrite es with
    | .error t => .trap t
    | .ok l =>
      let ps := l.flatMap (·.2.2)
      let nt := decide (kind = 3) && ps.any (·.ordinary)
      if nt ∧ !c.roomIn 6 then .wait (c.depthWait r.strand 6)
      else match (if ps.any (·.ordinary) && !nt then s.loadsFirst n r else none) with
      | some w => w
      | none =>
        match s.badLine ps with
        | some a => .stall (s.meetAt n r.po a r.strand)
        | none =>
          let s1 := s.storeElems n r sp kind nt es l
          .ok (if nt then (s1.markAck n r).afterStore n r (ps.map (fun p => { p with ordinary := false })) else s1.afterStore n r ps)

/-! ### Releases, acquires, atomics (R215 to R223, R358, R369 to R372) -/

/-- A write in flight that a release with these slices covers (R215). -/
def InFlight.covered (x : InFlight) (slices : Nat) : Bool :=
  match x.op with
  | .data => true
  | _ => !(decide (Config.landingBase ≤ x.pa) && decide (x.pa < Config.landingBase + Config.landingSize))
    || decide (bits slices (landingSlice (x.pa - Config.landingBase)) 1 = 1)

/-- A strand made a write in flight, or has acquired it (R219): of a handler context, the handler that runs there now. -/
def Core.owns (c : Core) (st : Strand) (strand : Strand) (hnum : Nat) : Bool := decide (strand = st) && (decide (st = .main) || decide (hnum = c.strandNum st))

/-- Writes of a strand that one in flight stands for: its own, and those whose operands it holds. -/
def State.ownCount (s : State) (n : Fin 128) (st : Strand) (x : InFlight) : Nat :=
  (if x.core = n ∧ s.cores[n].owns st x.strand x.hnum then 1 else 0) + (x.joined.filter (fun k => decide (k.core = n) && s.cores[n].owns st k.strand k.hnum)).length

/-- Covered writes of a strand that have not performed. -/
def State.outstanding (s : State) (n : Fin 128) (st : Strand) (slices : Nat) : Nat :=
  ((s.fab.inflight.filter (fun x => !x.performed && x.covered slices)).map (s.ownCount n st)).foldl (· + ·) 0

/-- The release stamp: Max(T, the stamps of the writes it covers). -/
def State.relStamp (s : State) (n : Fin 128) (st : Strand) (slices : Nat) : Nat :=
  s.fab.inflight.foldl (fun t x => if x.performed ∧ x.covered slices ∧ s.ownCount n st x ≠ 0 then max t x.stamp else t) s.cores[n].mem.clock

/-- The core's clock raised to a stamp; no clock decreases (R202). -/
def Core.raiseClock (c : Core) (t : Nat) : Core := { c with mem := { c.mem with clock := max c.mem.clock t } }

/-- A wait of RKIND 11 for `k` items (R272); a release at a queue head waits under subkind 0 (log 5). -/
def stallWait (c : Core) (st : Strand) (sub k : Nat) : Wait :=
  { rkind := 11, rindex := sub, d0 := BitVec.ofNat 64 k, d1 := 0, faddr := 0, limit := some (c.limit st) }

/-- The release itself: its stamp, and T at least that (R215); performed writes whose stamp it has taken, and that `tl6` does not wait for, need no
further notice. -/
def State.releaseNow (s : State) (n : Fin 128) (st : Strand) (slices : Nat) : State :=
  { s.modCore n (fun c => c.raiseClock (s.relStamp n st slices)) with
    fab := { s.fab with inflight := s.fab.inflight.filter (fun x => !(x.performed && decide (x.cmd = 0) && x.covered slices && decide (s.ownCount n st x ≠ 0))) } }

/-- SLICES of the entry that a captured scope names. -/
def State.slicesOf (s : State) (n : Fin 128) (cap : Cap) : Nat := fld (s.scopeEntry n cap.idx) 144 16

/-- A release by a word at its queue head: its waits, or the state with the stamp (R215). -/
def State.release (s : State) (n : Fin 128) (r : Routed) (cap : Cap) : Except Res State :=
  let c := s.cores[n]
  match s.loadsFirst n r with
  | some w => .error w
  | none =>
    let k := s.outstanding n r.strand (s.slicesOf n cap)
    if k = 0 then .ok (s.releaseNow n r.strand (s.slicesOf n cap)) else .error (.wait (stallWait c r.strand 0 k))

/-- A tagged address (R358): the part of `len` bytes, aligned down, or the trap. -/
def State.tagged (s : State) (n : Fin 128) (q : Nat) (r : Routed) (kind : Nat) (a : W64) (len : Nat) : Except Trap Piece :=
  let c := s.cores[n]
  match fld a 62 2 with
  | 0 =>
    if fld a 48 14 ≠ 0 then .error (accessTrap q r.strand 0x20 a.toNat 1 kind)
    else s.globalPiece n q r.strand (c.seqOf r) kind (fld a 0 48 / len * len, len)
  | 1 =>
    let off := fld a 0 27 / len * len
    if fld a 27 35 ≠ 0 ∨ c.ctx.landingQuota < off + len then .error (accessTrap q r.strand 0x22 (fld a 0 62) 0x43 (c.seqOf r))
    else s.landingPiece n q r.strand (c.seqOf r) kind (off, len)
  | _ => .error (accessTrap q r.strand 0x20 a.toNat 1 kind)

/-- Virtual address of a tagged part for the signature. -/
def taggedVa (a : W64) (len : Nat) : Nat := if fld a 62 2 = 1 then fld a 0 27 / len * len else fld a 0 48 / len * len
def taggedSpace (a : W64) : Nat := if fld a 62 2 = 1 then 2 else 1

/-- What an atomic leaves in memory (R369); none for `ld` and a failed `cas`. -/
def amoNew (op : AmoOp) (w old expect v : Nat) : Option Nat :=
  match op with
  | .ld => none
  | .st => some (v % 2 ^ w)
  | .swap => some (v % 2 ^ w)
  | .cas => if old = expect % 2 ^ w then some (v % 2 ^ w) else none
  | .add => some ((old + v) % 2 ^ w)
  | .or => some (old ||| v % 2 ^ w)
  | .min => some (iop .min w old (v % 2 ^ w))
  | .max => some (iop .max w old (v % 2 ^ w))

/-- The value an atomic returns: the old value, sign-extended from 32 bits (R369). -/
def amoOld (wide : Bool) (old : Nat) : W64 := if wide then BitVec.ofNat 64 old else w64 (sext 32 old)

/-- Where an atomic of a core performs (R220): its crew cache where the location is ordinary and the entry names no core and no crew outside that crew;
else the home, or the Landing bank. -/
def atomicPlace (n : Fin 128) (p : Piece) (e : BitVec 256) : WriteAt :=
  let k := (crewOf n).val
  if p.ordinary ∧ fld e 0 128 / 2 ^ (8 * k) % 256 * 2 ^ (8 * k) = fld e 0 128 ∧ (fld e 128 16 = 0 ∨ fld e 128 16 = 2 ^ k) then .crew else .home

/-- The event of an atomic at its meeting point (R220): its write performs there, or, where it writes nothing, its read. -/
def State.meetingPoint (s : State) (n : Fin 128) (place : WriteAt) (p : Piece) : Option (List Byte) → State
  | some b => s.performOrdinary n place p b
  | none => ((match place with | .home => s.recallLine (p.pa / 128) n.val | .crew => s).loadGrant n (p.pa / 128) false).1

/-- An atomic (R370): release, scope check, read-modify-write at the meeting point, acquire. -/
def State.doAmo (s : State) (n : Fin 128) (r : Routed) (op : AmoOp) (wide : Bool) (d : Reg) (expect a v : W64) (cap : Cap) : Res :=
  let w := if wide then 64 else 32
  match s.tagged n 3 r kAtomic a (w / 8) with
  | .error t => .trap t
  | .ok p =>
    match s.release n r cap with
    | .error x => x
    | .ok s1 =>
      match s1.checkScope n 3 r.strand cap with
      | .error t => .trap t
      | .ok e =>
        if s1.poisoned p.pa p.len then .stall (s1.meetAt n r.po p.pa r.strand)
        else
          let old := memNat s1.mem p.pa p.len
          let pc := { p with ordinary := true }
          let new := (amoNew op w old expect.toNat v.toNat).map (natLe p.len)
          let s0 := s1.meetingPoint n (atomicPlace n p e) pc new
          let s2 := match new with
            | some b => (s0.sign n (taggedSpace a) (taggedVa a p.len) b).carryRels p.pa p.len [s1.releaseOf n e cap.idx.val]
            | none => s0
          let t := acquired (s1.fab.relsAt p.pa p.len) n.val e cap.idx.val
          let s3 := (s2.modCore n (fun c => (if op = .st then c else c.wrDst r.strand d (amoOld wide old)).raiseClock t)).observe n r.strand [pc]
          .ok (s3.afterStore n r (if new.isSome then [pc] else []))

/-- Width of a reduction at memory (R371). -/
def redLen : MemRed → Nat
  | .addD | .orD => 8
  | _ => 4

/-- A reduction at memory: its scope is checked as the target's write queue accepts it (R371, R212). -/
def State.doRed (s : State) (n : Fin 128) (r : Routed) (op : MemRed) (a v : W64) (cap : Cap) : Res :=
  let c := s.cores[n]
  let len := redLen op
  if !c.roomIn 6 then .wait (c.depthWait r.strand 6)
  else match s.tagged n 3 r kAtomic a len with
    | .error t => .trap t
    | .ok p =>
      match s.checkScope n 3 r.strand cap with
      | .error t => .trap t
      | .ok _ =>
        let b := natLe len v.toNat
        let s1 := s.launch n r (.red op) [(p.pa, b)] a c.nextAck (if taggedSpace a = 2 then .l else .g)
        .ok ((s1.sign n (taggedSpace a) (taggedVa a len) b).modCore n (fun c => c.accept 6))

/-- `lupd` (R372). -/
def State.doLupd (s : State) (n : Fin 128) (r : Routed) (op : LineOp) (a off : W64) (cap : Cap) : Res :=
  let c := s.cores[n]
  match s.scratchWait n r (s.uopSpans n r) with
  | some w => w
  | none =>
    if !c.roomIn 6 then .wait (c.depthWait r.strand 6)
    else if fld a 62 2 = 0 then .trap (accessTrap 3 r.strand 0x22 a.toNat 0 (c.seqOf r))
    else if off.toNat % 128 ≠ 0 ∨ c.ctx.scratchQuota < off.toNat + 128 then .trap (accessTrap 3 r.strand 0x22 off.toNat 0x42 (c.seqOf r))
    else match s.tagged n 3 r kAtomic a 128 with
      | .error t => .trap t
      | .ok p =>
        match s.checkScope n 3 r.strand cap with
        | .error t => .trap t
        | .ok _ =>
          let b := memRead s.mem (scratchPa n off.toNat) 128
          if s.poisoned (scratchPa n off.toNat) 128 then .stall (s.meetAt n r.po (scratchPa n off.toNat) r.strand)
          else .ok (((s.launch n r (.line op) [(p.pa, b)] a c.nextAck .l).sign n 2 (taggedVa a 128) b).modCore n (fun c => c.accept 6))

/-- The fields of a barrier object (R222): EXPECT, COUNT, PHASE. -/
def barExpect (o : BitVec 256) : Nat := fld o 96 32
def barCount (o : BitVec 256) : Nat := fld o 64 32
def barPhase (o : BitVec 256) : Nat := fld o 0 64

/-- Home slice of a barrier object (R195). -/
def barHome (obj : Nat) : Nat := obj / 4 % 16

/-- Some strand waits on the object. -/
def State.barWaited (s : State) (obj : Nat) : Bool :=
  s.cores.toList.any (fun c => (c.waits.toList ++ c.hnd.toList.map (·.wait)).any (fun w => match w with | some w => w.obj == some obj | none => false))

/-- A global object is held in its home slice's sync cache from now on, which takes its line from any crew cache, where there is room for it or an
object that no strand waits on leaves: the one used least recently (R195). An object of the Landing stays at its bank. -/
def State.holdBarrier (s0 : State) (n : Fin 128) (pa : Nat) : State :=
  if inLanding pa then s0 else
  let s := s0.recallLine (pa / 128) n.val
  let obj := pa / 32
  let rest := s.fab.sync.filter (· != obj)
  let mates := rest.filter (fun x => barHome x == barHome obj)
  let l := if mates.length < 512 then obj :: rest
    else match mates.reverse.find? (fun x => !s.barWaited x) with
      | some x => obj :: rest.filter (· != x)
      | none => rest
  { s with fab := { s.fab with sync := l } }

/-- `bar.arrive` (R223, R381). -/
def State.doArrive (s : State) (n : Fin 128) (r : Routed) (d : Reg) (a : W64) (cap : Cap) : Res :=
  match s.tagged n 3 r kAtomic a 32 with
  | .error t => .trap t
  | .ok p =>
    match s.release n r cap with
    | .error x => x
    | .ok s1 =>
      match s1.checkScope n 3 r.strand cap with
      | .error t => .trap t
      | .ok e =>
        let o : BitVec 256 := BitVec.ofNat 256 (memNat s1.mem p.pa 32)
        if s1.poisoned p.pa 32 then .stall (s1.meetAt n r.po p.pa r.strand)
        else if fld o 128 128 ≠ 0 ∨ barExpect o = 0 ∨ barExpect o ≤ barCount o then
          .trap { (accessTrap 3 r.strand 0x06 (taggedVa a 32) 0 0) with d0 := BitVec.ofNat 64 (fld o 64 64), d1 := BitVec.ofNat 64 (barPhase o) }
        else
          let full := decide (barCount o + 1 = barExpect o)
          let o' := setFld (setFld o 64 32 (if full then 0 else barCount o + 1)) 0 64 (if full then barPhase o + 1 else barPhase o)
          let pc := { p with ordinary := true }
          let s2 := ((s1.holdBarrier n p.pa).performOrdinary n .home pc (natLe 32 o'.toNat)).sign n (taggedSpace a) (taggedVa a 32) (natLe 32 o'.toNat)
          let s3 := s2.carryRels p.pa 32 [s1.releaseOf n e cap.idx.val]
          .ok ((s3.modCore n (fun c => c.wrDst r.strand d (BitVec.ofNat 64 (barPhase o)))).afterStore n r [pc])

/-! ### Flumes, pushes (R373 to R376) -/

/-- A scratch offset of an element: 64-byte aligned and inside the quota. -/
def Core.elementOk (c : Core) (off size : Nat) : Bool := decide (off % 64 = 0) && decide (off + size ≤ c.ctx.scratchQuota)

/-- `flput` (R374). -/
def State.doFlput (s : State) (n : Fin 128) (r : Routed) (f off : W64) (cap : Cap) : Res :=
  let c := s.cores[n]
  match s.flumePoison n f.toNat with
  | some a => .stall (s.meetAt n r.po a r.strand)
  | none =>
  match s.bindFlume n 3 r.strand f.toNat (c.seqOf r) with
  | .error t => .trap t
  | .ok (s0, k) =>
    let fl := s0.fab.flumes[k]
    if !c.elementOk off.toNat fl.esize then .trap (accessTrap 3 r.strand 0x22 off.toNat 0x42 (c.seqOf r))
    else match s0.scratchWait n r (s0.uopSpans n r) with
      | some w => w
      | none =>
        match s0.release n r cap with
        | .error x => x
        | .ok s1 =>
          if !c.roomIn 5 then .wait (c.depthWait r.strand 5)
          else if fl.held = 2 ^ fl.slog2 then .wait (fl.wait k.val (c.limit r.strand))
          else match s1.checkScope n 3 r.strand cap with
            | .error t => .trap t
            | .ok e =>
              let idx := fl.inn.toNat
              let data := memRead s1.mem (scratchPa n off.toNat) fl.esize
              if s1.poisoned (scratchPa n off.toNat) fl.esize then .stall (s1.meetAt n r.po (scratchPa n off.toNat) r.strand)
              else
                let s2 := { s1 with fab := { s1.fab with flumes := s1.fab.flumes.set k { fl.enter (s1.releaseOf n e cap.idx.val) with pending := fl.pending ++ [idx] } } }
                .ok ((s2.sign n 3 (k.val * 2 ^ 32) data).modCore n (fun c =>
                  { (c.accept 5) with eng := { (c.accept 5).eng with sends := (c.accept 5).eng.sends ++ [.flume k.val idx data] } }))

/-- What `flget` pops: the element's number and bytes, the poisoned runs among them, the slot's address (R375). -/
structure Popped where
  idx : Nat
  data : List Byte
  bad : List (Nat × Nat)
  pa : Nat
deriving DecidableEq, Repr

/-- The element that `flget` pops, or why it waits (R375); its read is checked at the slot's slices (R57). -/
def State.popFlume (s : State) (n : Fin 128) (r : Routed) (f : W64) (cap : Cap) : Except Res (State × Popped) :=
  let c := s.cores[n]
  match s.flumePoison n f.toNat with
  | some a => .error (.stall (s.meetAt n r.po a r.strand))
  | none =>
  match s.bindFlume n 1 r.strand f.toNat (c.seqOf r) with
  | .error t => .error (.trap t)
  | .ok (s0, k) =>
    let fl := s0.fab.flumes[k]
    if fl.stream.isSome then .error (.trap (accessAt 1 r.strand f.toNat 0x43 (c.seqOf r)))
    else if fl.inn = fl.out ∨ fl.pending.contains fl.out.toNat then .error (.wait (fl.wait k.val (c.limit r.strand)))
    else
      let pa := fl.slotPa fl.out.toNat
      match s0.landingAsk n 1 r.strand f.toNat 1 pa fl.esize (c.seqOf r) with
      | some t => .error (.trap t)
      | none => match s0.checkScope n 1 r.strand cap with
      | .error t => .error (.trap t)
      | .ok e =>
        let idx := fl.out.toNat
        let mine := (fl.rels.filter (fun x => x.1 == idx)).map (·.2)
        let s1 := { s0 with fab := { s0.fab with flumes := s0.fab.flumes.set k { fl with out := fl.out + 1, rels := fl.rels.filter (fun x => x.1 != idx) } } }
        .ok (s1.modCore n (fun c => c.raiseClock (acquired mine n.val e cap.idx.val)),
          { idx := idx, data := memRead s1.mem pa fl.esize, bad := if s1.poisoned pa fl.esize then s1.poisonRuns pa fl.esize else [], pa := pa })

/-- A popped element that is poisoned is recorded as a demand read (R159). -/
def State.logPopped (s : State) (n : Fin 128) (x : Popped) : State :=
  match x.bad with
  | [] => s
  | r :: _ => s.logDemand n.val (x.pa + r.1) s.cores[n].sys.stepid.toNat s.cores[n].ctx.region

/-- `flget.x` (R375): poison travels at its granules (R155). -/
def State.doFlgetX (s : State) (n : Fin 128) (r : Routed) (d : Reg) (f off : W64) (cap : Cap) : Res :=
  let c := s.cores[n]
  match s.flumePoison n f.toNat with
  | some a => .stall (s.meetAt n r.po a r.strand)
  | none =>
  match s.bindFlume n 1 r.strand f.toNat (c.seqOf r) with
  | .error t => .trap t
  | .ok (s0, k) =>
    if !c.elementOk off.toNat s0.fab.flumes[k].esize then .trap (accessTrap 1 r.strand 0x22 off.toNat 0x42 (c.seqOf r))
    else match s0.scratchWait n r (s0.uopSpans n r) with
      | some w => w
      | none =>
        match s0.popFlume n r f cap with
        | .error x => x
        | .ok (s1, x) =>
          let s2 := (s1.logPopped n x).writeBytes (scratchPa n off.toNat) x.data
          .ok ((State.markRuns x.bad 0 [⟨scratchPa n off.toNat, x.data.length, false⟩] s2).modCore n (fun c => c.wrDst r.strand d (BitVec.ofNat 64 x.idx)))

/-- Byte `m` of a group at `d` goes to byte m mod 256 of row (m div 256) mod 16 of register d + m div 4096 (R375). -/
def Core.writeGroupBytes (c : Core) (d g : Nat) (data : List Byte) : Core :=
  (List.range (16 * g)).foldl (fun c k => c.setVrow (d + k / 16) (k % 16) (BitVec.ofNat 2048 (leNat (slice data (256 * k) 256)))) c

/-- `flget.v` (R375). -/
def State.doFlgetV (s : State) (n : Fin 128) (r : Routed) (d : Reg) (f : W64) (cap : Cap) : Res :=
  match s.popFlume n r f cap with
  | .error x => x
  | .ok (s1, x) => .ok ((s1.logPopped n x).modCore n (fun c =>
      (c.writeGroupBytes d.val (vgrp r.vtype) x.data).markPoison (vtags d.val (vgrp r.vtype)) (x.bad.head?.map (fun b => x.pa + b.1))))

/-- An arrival is discarded at its target (R187). -/
def Core.discards (c : Core) (ar : BitVec 256) : Bool :=
  decide (c.phase = .idle) || decide (c.phase = .starting) || decide (c.ctx.opseq ≠ fld ar 32 32) || decide (c.img.ncode ≤ fld ar 64 14)

/-- An arrival reaches a core: queued with its sender's release, or discarded and counted (R187, R188, R226). -/
def Core.arrive (c : Core) (ar : BitVec 256) (rel : Option Release) : Core :=
  if c.discards ar then { c with arrdrop := c.arrdrop + 1 } else { c with arrivals := c.arrivals ++ [{ bits := ar, rel := rel }], replayable := false }

/-- An arrival record (R187). -/
def arrivalRec (arg addr : W64) (len handler opseq src status kind : Nat) : BitVec 256 :=
  BitVec.ofNat 256 (arg.toNat * 2 ^ 192 + addr.toNat * 2 ^ 128 + len % 2 ^ 32 * 2 ^ 96 + handler % 2 ^ 14 * 2 ^ 64 + opseq % 2 ^ 32 * 2 ^ 32 + src % 256 * 2 ^ 16 + status % 256 * 2 ^ 8 + kind % 256)

/-- `push` (R376). -/
def State.doPush (s : State) (n : Fin 128) (r : Routed) (tgt arg addr : W64) (cap : Cap) : Res :=
  let c := s.cores[n]
  let t : Fin 128 := Fin.ofNat 128 (fld tgt 0 7)
  if fld tgt 7 9 ≠ 0 ∨ fld tgt 30 34 ≠ 0 ∨ fld c.ctx.coreMask t.val 1 = 0 then .trap (accessTrap 3 r.strand 0x22 tgt.toNat 0x41 (c.seqOf r))
  else match s.release n r cap with
    | .error x => x
    | .ok s1 =>
      let ar := arrivalRec arg addr 0 (fld tgt 16 14) c.ctx.opseq n.val 0 1
      if !c.roomIn 5 then .wait (c.depthWait r.strand 5)
      else if !s1.cores[t].discards ar && decide (Config.arrivalDepth ≤ s1.cores[t].arrivals.length) then
        .wait { rkind := 10, rindex := t.val, d0 := BitVec.ofNat 64 s1.cores[t].arrivals.length, d1 := 0, faddr := 0, limit := some (c.limit r.strand) }
      else match s1.checkScope n 3 r.strand cap with
        | .error tr => .trap tr
        | .ok e =>
          .ok ((s1.modCore t (fun x => x.arrive ar (some (s1.releaseOf n e cap.idx.val)))).modCore n (fun c => { (c.accept 5) with eng := { (c.accept 5).eng with sends := (c.accept 5).eng.sends ++ [.accepted] } }))

/-! ### Hints and cache operations (R363, R383) -/

/-- A hint or cache operation on the line at an address (R363, R383); a dropped or absent line, and one that no cache holds (R42), changes nothing.
`lrenew` asks the line's owner for a lease at the core's present clock. -/
def State.doCache (s : State) (n : Fin 128) (op : CacheOp) (a : W64) : State :=
  if op = .l1inv then s.modCore n (fun c => { c with mem := { c.mem with l1 := [] } })
  else match s.coreTranslate n a.toNat kPrefetch with
    | .error (.walk ea t) => s.logRefusal n { accessTrap 1 .main 0x20 a.toNat 3 kPrefetch with reqKind := 1, reqPa := ea, reqWalk := some t }
    | .error _ => s
    | .ok (pa, leaf) =>
      let line := pa / 128
      let crew := (crewOf n).val
      if fld leaf 56 2 ≠ 0 ∨ !l1Holds pa then s
      else match s.refusal (coreMaster n) 1 (line * 128) 128 with
      | some t => s.log { cls := 0x0B, addr := line * 128, stepid := s.cores[n].sys.stepid.toNat, data0 := 1, region := s.cores[n].ctx.region, master := n.val, target := t, unit := n.val }
      | none =>
      match op with
        | .pfL1 => (s.loadBind n line).1
        | .pfCrew => (s.crewGrant n line false).1
        | .lrenew => if (l1Find line s.cores[n].mem.l1).isSome then (({ s with fab := s.fab.dropClean crew line } : State).crewGrant n line true).1 else s
        | _ =>
          let s2 := s.writeBack crew line n.val
          if op = .cev then
            let s3 : State := { s2 with fab := s2.fab.dropClean crew line }
            { s3 with cores := s3.cores.mapFinIdx (fun i c _ => if i / 8 = crew then { c with mem := { c.mem with l1 := c.mem.l1.filter (fun x => x.line != line) } } else c) }
          else s2

/-! ### Engine words (spec/15) -/

/-- A descriptor that `cpy` refuses with ACCESS at NONE (R396). -/
def cpyRefused (cls : Fin 3) (nb : Nat) (c : CopyCmd) (flumeElem : Nat) : Bool :=
  let h := c.hdr
  fld h 0 17 != 0 || dNdim h == 0 || decide (16 < dNdim h) || dMode h == 3 || dBfmt h == 3 || decide (2 < dFrom h) || decide (5 < dTo h)
  || ((dTo h == 3) != (cls != 0))
  || (dMode h == 1 && (decide (dNdim h < 2) || decide ((c.dims.map dimCount).getD 0 0 ≠ if dBfmt h = 1 then 64 else 128) || decide ((c.dims.map dimCount).getD 1 0 ≠ 128)
        || decide (dEsz h ≠ if dBfmt h = 2 then 2 else 1)))
  || (dTo h == 3 && dMode h != 1)
  || (cls == 1 && dBfmt h == 1) || (cls == 2 && dBfmt h == 2)
  || (cls != 0 && decide (c.blocks ≠ nb))
  || (dTo h == 5 && decide (c.byteCount % max flumeElem 1 ≠ 0))

/-- `cpy` (R389, R396). -/
def State.doCpy (s : State) (n : Fin 128) (r : Routed) (cls : Fin 3) (ctx : Fin 2) (d a b : W64) (pos : Nat) : Res :=
  let c := s.cores[n]
  let off := a.toNat / 64 * 64
  let k : Fin 8 := Fin.ofNat 8 ctx.val
  if c.ctx.scratchQuota < off + 64 then .trap (accessTrap 1 .main 0x22 off 0x42 (c.seqOf r))
  else
    let h := readHdr s.mem n off
    if 1 ≤ dNdim h ∧ dNdim h ≤ 16 ∧ c.ctx.scratchQuota < off + 64 + 16 * dNdim h then .trap (accessTrap 1 .main 0x22 off 0x42 (c.seqOf r))
    else match s.scratchWait n r [⟨off, off + 64 + 16 * dNdim h, false⟩] with
      | some w => w
      | none =>
        if s.poisoned (scratchPa n off) (64 + 16 * min 16 (dNdim h)) then .stall (s.meetAt n r.po (scratchPa n off)) else
        match (if 1 ≤ dFrom h then c.acquireFirst r else none) with
        | some w => w
        | none =>
        let cmd : CopyCmd := { num := (c.eng.issued[k] + 1).toNat, po := r.po, hdr := h, dims := readDims s.mem n off (dNdim h), fromDelta := b,
                               toDelta := if cls = 0 then d else 0, cls := cls, pos := pos, progress := 0, faulted := false, held := false }
        let flume := s.fab.flumes[Fin.ofNat 256 (fld h 448 8)]
        let fl := if flume.region.isSome ∨ flume.stream.isSome then flume.esize
          else fld (BitVec.ofNat 256 (memNat s.mem (c.landingPa (32 * fld h 448 8)) 32)) 64 11 * 64
        if cpyRefused cls (fld d 0 16) cmd fl then .trap (accessTrap 1 .main 0x22 off 0 (c.seqOf r))
        else if dTo h = 4 ∧ fld c.ctx.coreMask (fld h 42 7) 1 = 0 then .trap (accessTrap 1 .main 0x22 off 0x41 (c.seqOf r))
        else match c.checkerFull with
          | some w => w
          | none =>
            if !c.roomIn k then .wait (c.depthWait .main k)
            else .ok (s.modCore n (fun c =>
              let c1 := c.accept k
              { c1 with eng := { c1.eng with cpy := c1.eng.cpy.set ctx (c1.eng.cpy[ctx] ++ [cmd]), ranges := c1.eng.ranges ++ [rangeOf ctx.val cmd.num r.po cmd.spans] } }))

/-- `ring` (R377). -/
def State.doRing (s : State) (n : Fin 128) (r : Routed) (d a b : W64) : Res :=
  let c := s.cores[n]
  if ringBad n d a b then .trap (ringTrap 1 d n.val)
  else match c.checkerFull with
    | some w => w
    | none =>
      if !c.roomIn 4 then .wait (c.depthWait .main 4)
      else .ok (s.modCore n (fun c =>
        let num := (c.eng.issued[(4 : Fin 8)] + 1).toNat
        let c1 := c.accept 4
        { c1 with eng := { c1.eng with rings := c1.eng.rings ++ [{ num := num, po := r.po, d := d, a := a, b := b }], ranges := c1.eng.ranges ++ [rangeOf 4 num r.po [⟨a.toNat, a.toNat + fld d 32 21, false⟩, ⟨b.toNat, b.toNat + fld d 32 21, true⟩]] } }))

/-- `wgo` (R406). -/
def State.doWgo (s : State) (n : Fin 128) (r : Routed) (cfg : Vector W64 7) (pos nb : Nat) : Res :=
  let c := s.cores[n]
  match (if (winGeo cfg).hmode = 1 then c.acquireFirst r else none).or c.checkerFull with
  | some w => w
  | none =>
    if !c.roomIn 3 then .wait (c.depthWait .main 3)
    else .ok (s.modCore n (fun c =>
      let num := (c.eng.issued[(3 : Fin 8)] + 1).toNat
      let c1 := c.accept 3
      { c1 with eng := { c1.eng with wins := c1.eng.wins ++ [{ num := num, po := r.po, cfg := cfg, pos := pos, nb := nb, pushed := 0 }],
                                     ranges := c1.eng.ranges ++ [rangeOf 3 num r.po (winSpans cfg)] } }))

/-- Row counts of a grouped go (R401). -/
def rowCounts (m : Memory) (n : Fin 128) (cfg : MCfg) : List Nat :=
  (List.range cfg.ng).map (fun g => memNat m (scratchPa n (fld cfg.mgrp 32 20 / 2 * 2 + 2 * g)) 2)

/-- ROWB of a configuration: 0 and values above 128 act as 128. -/
def MCfg.rowb (m : MCfg) : Nat := let x := fld m.mgrp 16 8; if x = 0 ∨ 128 < x then 128 else x

/-- A go finishes: its positions are done, and its totals are kept for `ftmon` (R184, R257). -/
def Core.goDone (c : Core) (g : Go) : Core :=
  let c1 := c.finish 2 g.num 0
  { c1 with eng := { c1.eng with gos := c1.eng.gos.tail, lastGo := some g, aDone := g.abase + g.na, bDone := g.bbase + g.nb } }

/-- `mgo` at the matrix engine's acceptance (R399 to R401). -/
def State.doMgo (s : State) (n : Fin 128) (r : Routed) (tile : Fin 4) (ft : Fin 16) (cfg : MCfg) (abase bbase na nb : Nat) : Res :=
  let c := s.cores[n]
  let e := c.mat.ft[ft]
  let acc (faddr target : Nat) : Res := .trap (accessTrap 2 .main 0x22 faddr target (c.seqOf r))
  if !c.roomIn 2 then .wait (c.depthWait .main 2)
  else if fld e 0 1 = 0 then .trap (accessTrap 2 .main 0x08 0 ft.val 1)
  else
    let rct := fld cfg.mgrp 32 20 / 2 * 2
    let counts := rowCounts s.mem n cfg
    if cfg.grouped ∧ c.ctx.scratchQuota < rct + 2 * cfg.ng then acc rct 0x42
    else if cfg.grouped ∧ s.poisoned (scratchPa n rct) (2 * cfg.ng) then .stall (s.meetAt n r.po (scratchPa n rct))
    else if c.poison.contains { file := tagAcc, num := tile.val } then .stall (s.meetAt n r.po 0)
    else if cfg.grouped ∧ cfg.rowb < counts.foldl (· + ·) 0 then acc (tile.val * 0x10000 + cfg.rowb * 512) 0
    else
      let chunks := if cfg.grouped then cfg.groupedChunks tile.val counts else cfg.chunks tile.val
      match inadmissible (if fld e 16 1 = 1 then 2 else 4) chunks with
      | some x => acc x 0
      | none =>
        let g : Go := { num := (c.eng.issued[(2 : Fin 8)] + 1).toNat, po := r.po, tile := tile, ft := ft, abase := abase, bbase := bbase, na := na, nb := nb,
                        ent := e, todo := chunks, width := fld e 2 2, coarse := none, satTotal := 0, uflTotal := 0, cncTotal := 0, chunksDone := 0, skipped := 0,
                        tiles := (chunks.map (·.tile)).eraseDups }
        .ok (s.modCore n (fun c =>
          let c1 := c.accept 2
          let c2 := { c1 with eng := { c1.eng with gos := c1.eng.gos ++ [g] } }
          if chunks.isEmpty ∧ c1.eng.gos.isEmpty then (c2.goDone g).freeSlots else c2.freeSlots))

/-- Tiles that an accepted go writes. -/
def Go.writes (g : Go) (t : Nat) : Bool := g.tile.val == t || g.tiles.contains t || g.todo.any (fun x => x.tile == t)

/-- An accumulator word behind accepted gos that write its tile (R257, kind 11 subkind 6). -/
def Core.accWait (c : Core) (t : Nat) : Option Res :=
  let k := (c.eng.gos.filter (fun g => g.writes t)).length
  if k = 0 then none
  else some (.wait { rkind := 11, rindex := 6, d0 := BitVec.ofNat 64 k, d1 := 0, faddr := 0, limit := some (c.limit .main) })

/-- A vector register whose row 0 is given and whose other rows are 0 (R388, R403, R409). -/
def Core.writeRow0 (c : Core) (d : Reg) (row : VRow) : Core :=
  (List.range 16).foldl (fun c i => c.setVrow d.val i (if i = 0 then row else 0)) c

/-- Row 0 from 32-bit elements. -/
def rowOf (l : List Nat) : VRow := BitVec.ofNat 2048 (l.foldr (fun x acc => x % 2 ^ 32 + 2 ^ 32 * acc) 0)

/-- `accrd` (R404). -/
def Core.accRead (c : Core) (d : Reg) (t : Fin 4) (s : W64) : Core :=
  let rb := fld s 0 3
  let cb := fld s 3 1
  (List.range 16).foldl (fun x i => x.setVrow d.val i (rowOf ((List.range 64).map (fun j => (c.accWord t.val (16 * rb + i) (64 * cb + j)).toNat)))) c

/-- Slabs of a tile cleared or written by the core (R161 reason 3, R404). -/
def Core.noteTile (c : Core) (po : Nat) (t : Fin 4) (slabs : BitVec 16) : Core :=
  c.notePoint po (fun p => { p with whole := p.whole.set t (p.whole[t] ||| slabs), written := p.written ||| (1 <<< t.val) })

/-- A chunk promotes into a tile: reason 3 where the tile was not whole. -/
def Core.notePromote (c : Core) (po : Nat) (t : Fin 4) : Core :=
  c.notePoint po (fun p => { p with written := p.written ||| (1 <<< t.val),
                                    unclean := if p.whole[t] = BitVec.allOnes 16 then p.unclean else p.unclean ||| (1 <<< t.val) })

/-- `accwr` (R404). -/
def Core.accWrite (c : Core) (po : Nat) (t : Fin 4) (a : Reg) (s : W64) : Core :=
  let rb := fld s 0 3
  let cb := fld s 3 1
  ((List.range (16 * 64)).foldl (fun x k => x.setAcc t.val (16 * rb + k / 64) (64 * cb + k % 64) (BitVec.ofNat 32 (c.elem a.val 32 (k / 64) (k % 64)))) c).noteTile po t
    (1 <<< fld s 0 4)

/-- A tile cleared: +0 in all 16,384 elements. -/
def Core.accClear (c : Core) (t : Fin 4) : Core :=
  { c with regs := { c.regs with acc := c.regs.acc.filter (fun e => !(decide (t.val * 16384 ≤ e.1) && decide (e.1 < (t.val + 1) * 16384))) } }

/-- `mstat` (R403). -/
def Core.statusRow (c : Core) : VRow :=
  let lo (x : Nat) : List Nat := [x % 2 ^ 32, x / 2 ^ 32 % 2 ^ 32]
  rowOf (lo (c.estat 2) ++ lo (c.eng.tl[(2 : Fin 8)]).toNat ++ lo (c.estat 3) ++ lo (c.eng.tl[(3 : Fin 8)]).toNat ++ [c.mat.skipped.toNat])

/-- `ftld` (R409, R255): configuration bits [111:0] of the entry from the image. -/
def Core.ftLoad (c : Core) (k : Fin 16) (img : BitVec 256) : Core :=
  { c with mat := { c.mat with ft := c.mat.ft.set k (BitVec.ofNat 256 (fld img 0 112 + fld c.mat.ft[k] 112 144 * 2 ^ 112)) } }

/-- `ftclr` (R409). -/
def Core.ftClear (c : Core) (k : Fin 16) : Core :=
  { c with mat := { c.mat with ft := c.mat.ft.set k (BitVec.ofNat 256 (fld c.mat.ft[k] 0 112)) } }

/-- `ftmon` (R409, R257). -/
def Core.monitorRow (c : Core) : VRow :=
  match c.eng.lastGo with
  | some g => rowOf [g.satTotal, g.uflTotal, g.cncTotal, g.chunksDone, g.skipped]
  | none => 0

/-- A word whose effect is on its core's state alone. -/
def coreRes (s : State) (n : Fin 128) (f : Core → Core) : Res := .ok (s.modCore n f)

/-- FP_EXC after a word whose flags are enabled (R238). -/
def fpTrap (seq flags : Nat) : Trap := { (mkTrap 0x03 2 .main 0 (BitVec.ofNat 64 seq) (BitVec.ofNat 64 flags)) with after := true }

/-- A vector word: its results, FPSR, and FP_EXC where a raised flag is enabled (R237, R238). -/
def State.doVector (s : State) (n : Fin 128) (r : Routed) : Res :=
  match s.cores[n].vectorWord r with
  | none => .ok s
  | some v =>
    let s1 := s.setCore n { v.core with sys := { v.core.sys with fpsr := v.core.sys.fpsr ||| BitVec.ofNat 64 v.flags } }
    if (v.flags &&& r.fpe) ≠ 0 then .after s1 (fpTrap (s.cores[n].seqOf r) v.flags) else .ok s1

/-- The effect of a routed word as it issues. -/
def execUop (s : State) (n : Fin 128) (r : Routed) : Res :=
  let c := s.cores[n]
  match r.uop with
  | .nop => .ok s
  | .load sp sz signed d a => s.doLoad n r sp sz signed d a
  | .ldc sz signed d a => s.doLdc n r sz signed d a
  | .cache op a => if op ≠ .l1inv ∧ s.coreTranslate n a.toNat kPrefetch = .error .wait then .stall (s.walkBegins n a.toNat) else .ok (s.doCache n op a)
  | .vload sp kind d m a p bi => s.doVload n r sp kind d m a p bi
  | .flgetX d f off cap => s.doFlgetX n r d f off cap
  | .flgetV d f cap => s.doFlgetV n r d f cap
  | .ring d a b => s.doRing n r d a b
  | .cpy cls ctx d a b pos => s.doCpy n r cls ctx d a b pos
  | .store sp sz a v => s.doStore n r sp sz a v
  | .vstore sp kind _ m a p bi => s.doVstore n r sp kind m a p bi
  | .amo op wide d expect a v cap => s.doAmo n r op wide d expect a v cap
  | .red op a v cap => s.doRed n r op a v cap
  | .lupd op a off cap => s.doLupd n r op a off cap
  | .flput f off cap => s.doFlput n r f off cap
  | .push tgt arg addr cap => s.doPush n r tgt arg addr cap
  | .barArrive d a cap => s.doArrive n r d a cap
  | .mgo tile ft cfg ab bb na nb => s.doMgo n r tile ft cfg ab bb na nb
  | .mstat d => coreRes s n (fun c => c.writeRow0 d c.statusRow)
  | .accrd d t x => (match c.accWait t.val with | some w => w | none => coreRes s n (fun c => c.accRead d t x))
  | .acczero t => (match c.accWait t.val with | some w => w | none => coreRes s n (fun c => (c.accClear t).noteTile r.po t (BitVec.allOnes 16)))
  | .accwr t a x => (match c.accWait t.val with | some w => w | none => coreRes s n (fun c => c.accWrite r.po t a x))
  | .wgo cfg pos nb => s.doWgo n r cfg pos nb
  | .ftld k a =>
    let img : BitVec 256 := BitVec.ofNat 256 (c.vrow a.val 0).toNat
    if ftRefused img then .trap (accessTrap 2 .main 0x08 0 k.val 0) else coreRes s n (fun c => c.ftLoad k img)
  | .ftclr k => coreRes s n (fun c => c.ftClear k)
  | .ftrd d k => coreRes s n (fun c => c.writeRow0 d (BitVec.ofNat 2048 (c.mat.ft[k]).toNat))
  | .ftmon d =>
    if c.eng.gos.isEmpty then coreRes s n (fun c => c.writeRow0 d c.monitorRow)
    else .wait { rkind := 11, rindex := 5, d0 := BitVec.ofNat 64 c.eng.gos.length, d1 := 0, faddr := 0, limit := some (c.limit .main) }
  | _ => s.doVector n r

/-! ### Issue and completion (R175, R178) -/

/-- An X word writes every byte of its destination registers. -/
def Routed.whole (r : Routed) : Bool :=
  let all (m : Guard) : Bool := decide (m.val = 0) && decide (r.vl = vlmax r.vtype)
  match r.uop with
  | .vi _ _ _ _ m | .vf _ _ _ _ m | .vis _ _ _ _ m | .vfs _ _ _ _ m | .vfsign _ _ _ m | .vfma _ _ _ _ m | .vfmas _ _ _ m | .vmacc _ _ _ m | .vmaccs _ _ _ m
  | .vcmp _ _ _ _ m | .vcmps _ _ _ _ m | .perm _ _ _ _ _ m | .vred _ _ _ _ m | .sf _ _ _ m | .mv _ _ _ _ _ m => all m
  | .kop _ _ _ _ => all 0
  | .mstat _ | .accrd _ _ _ | .ftrd _ _ | .ftmon _ | .acczero _ => true
  | _ => false

/-- Words whose re-execution is judged by its result: their sources are no registers (R157). -/
def Uop.rereads : Uop → Bool
  | .mstat _ | .accrd .. | .ftrd .. | .ftmon _ => true
  | _ => false

/-- What a register of a tag holds, as one number. -/
def Core.tagVal (c : Core) (t : RegTag) : Nat :=
  if t.file = tagV then (List.range 16).foldr (fun i acc => (c.vrow t.num i).toNat + 2 ^ 2048 * acc) 0
  else if t.file = tagK then (List.range 16).foldr (fun i acc => (c.krow t.num i).toNat + 2 ^ 256 * acc) 0
  else if t.file = tagS then (c.phys (Fin.ofNat 32 t.num)).toNat
  else 0

/-- What a queue remembers of an issued word for replay and rollback (R157, R161): the newest 32 words with the registers they wrote and what their
sources held. A word that is off wrote none. -/
def Core.remember (c : Core) (q : Qid) (seq : Nat) (r : Routed) (srcVals : List Nat) : Core :=
  let dst := if r.on then r.uop.dstTags r.vtype else []
  let isLd := match r.uop with | .load .. | .ldc .. | .vload .. | .flgetX .. | .flgetV .. | .amo .. | .barArrive .. => true | _ => false
  let fresh : ReplayEntry := { word := r, dst := dst, seq := seq, srcs := if r.on then r.uop.srcTags r.vtype else [], load := isLd, srcVals := srcVals }
  let k : Fin 3 := match q with | .l => 0 | .x => 1 | .s => 2
  let rp := c.replay.map (fun l => l.map (fun e => { e with dst := e.dst.filter (fun t => !dst.contains t) }))
  let newest (l : List Routed) : List Routed := let l' := l ++ [r]; l'.drop (l'.length - 257)
  let c0 := { c with mem := { c.mem with lob := c.mem.lob.map (fun (e : LobEntry) => if e.word.po = r.po then e else e.lose dst) } }
  let c1 := { c0 with replay := rp.set k ((fresh :: rp[k]).take 32), replayable := c.replayable && !(r.on && r.uop.nonReplay) }
  let c2 := if r.on && r.uop.nonIdem then c1.notePoint r.po (fun p => { p with nonIdem := true }) else c1
  let c3 := if r.on && r.whole then c2.untag dst else c2
  { c3 with tile := { c3.tile with retainedL := if q = .l then newest c3.tile.retainedL else c3.tile.retainedL,
                                   retainedX := if q = .x then newest c3.tile.retainedX else c3.tile.retainedX } }

/-- The head of a queue is done: its pops are made, and it leaves once its pushes fit (R178). -/
def Core.leave (c : Core) (q : Qid) (r : Routed) : Core :=
  let c1 := if r.noPop || r.done then c else c.pops q.num r.tok
  let c2 := c1.setWait q.num none
  if c2.canPush q.num r.tok then ((c2.setQueue q (c2.queue q).tail).pushes q.num r.tok).passMarkers
  else (c2.setQueue q ({ r with done := true } :: (c2.queue q).tail)).setWait q.num (some (c2.pushWait q.num r.tok))

/-- An X word waits while an earlier vector load of a register that it reads or writes has performed and may still be replayed (R176, R180,
log 5): that load. -/
def Core.vloadPending (c : Core) (q : Qid) (r : Routed) : Option LobEntry :=
  if q = .x then
    c.mem.lob.find? (fun e => match e.word.uop with
      | .vload .. => decide (e.word.po < r.po) && e.dst.any (fun t => (r.uop.srcTags r.vtype ++ r.uop.dstTags r.vtype).contains t)
      | _ => false)
  else none

/-- A re-executed word gives what its destination holds: its sources hold what it read (R157). -/
def State.sameAgain (s : State) (n : Fin 128) (e : ReplayEntry) : Bool :=
  let c := s.cores[n]
  match e.word.uop with
  | .mstat d => c.statusRow == c.vrow d.val 0
  | .accrd d t x => (List.range 16).all (fun i => (c.accRead d t x).vrow d.val i == c.vrow d.val i)
  | .ftrd d k => BitVec.ofNat 2048 (c.mat.ft[k]).toNat == c.vrow d.val 0
  | .ftmon d => c.monitorRow == c.vrow d.val 0
  | _ => e.srcs.map c.tagVal == e.srcVals

/-- A parity error met as a register is read: repaired where the word that wrote it is in a replay queue and can be run again
(R157), else the register is poisoned. -/
def State.repairTag (s : State) (n : Fin 128) (t : RegTag) : State :=
  let c := s.cores[n]
  let find (k : Fin 3) : Option (Nat × ReplayEntry) := (c.replay[k].find? (fun e => e.dst.contains t)).map (fun e => (k.val + 1, e))
  let s1 := s.modCore n (fun c => { c with parity := c.parity.filter (· != t) })
  let bad := s1.modCore n (fun c => { c with poison := c.poison ++ [t], origins := c.origins.filter (fun x => x.1 != t) })
  match (find 0).or ((find 1).or (find 2)) with
  | some (q, e) =>
    if e.load || !s1.sameAgain n e || s1.cores[n].tainted e.srcs then bad
    else s1.log { cls := 0x06, stepid := c.sys.stepid.toNat, data0 := t.file * 256 + t.num, data1 := e.seq, companion := q, unit := n.val, master := n.val, region := c.ctx.region }
  | none => bad

/-- Every parity error among the registers a word reads is met. -/
def State.repair (s : State) (n : Fin 128) (l : List RegTag) : State :=
  (l.filter (fun t => s.cores[n].parity.contains t)).foldl (fun s t => s.repairTag n t) s

/-- A word of L or S that has issued was the access that a handed translation was for (R51). -/
def Core.unhand (c : Core) (q : Qid) : Core := if q = .x then c else { c with mem := { c.mem with handed := none } }

/-- The head of a queue tries to issue: what it comes to, before traps are taken. -/
def State.issueRes (s0 : State) (n : Fin 128) (q : Qid) : Res :=
  match s0.cores[n].queue q with
  | [] => .stall s0
  | r :: _ =>
    if r.done then
      (if s0.cores[n].canPush q.num r.tok then .ok (s0.modCore n (fun c => c.leave q r)) else .wait (s0.cores[n].pushWait q.num r.tok))
    else if !r.noPop && !s0.cores[n].canPop q.num r.tok then .wait (s0.cores[n].popWait q.num r.tok)
    else
      let s := if r.on then s0.repair n (r.uop.srcTags r.vtype) else s0
      let c := s.cores[n]
      let srcVals := if r.on then (r.uop.srcTags r.vtype).map c.tagVal else []
      let fin (s' : State) : State := s'.modCore n (fun c' => ((c'.remember q (c.qseq q.num) r srcVals).leave q r).unhand q)
      if !r.on then .ok (fin s)
      else if c.tainted (r.uop.srcTags r.vtype) then .stall (s.modCore n (fun c => c.meetIn r.po r.strand ((r.uop.srcTags r.vtype).filter (fun t => c.tainted [t]))))
      else match c.vloadPending q r with
        | some e => .wait (c.orderWait e.word.po)
        | none => match execUop s n r with
          | .ok s' => .ok (fin s')
          | .goto s' _ => .ok (fin s')
          | .after s' t => .after (fin s') t
          | .wait w => .wait w
          | .stall s' => .stall s'
          | .trap t => if t.cause = 0 then .stall (s.walkBegins n t.faddr.toNat) else .trap t

/-- The words of a core may issue: no trap is detected and its strands are not frozen (R262). -/
def Core.live (c : Core) : Bool := decide (c.phase = .running ∨ c.phase = .draining) && c.trap.detected.isNone

/-- The head of a queue tries to issue. -/
def State.issueHead (s : State) (n : Fin 128) (q : Qid) : State :=
  if !s.cores[n].live then s else
  match s.issueRes n q with
  | .ok s' => s'
  | .goto s' _ => s'
  | .after s' t => takeTrap n t s'
  | .wait w => s.modCore n (fun c => c.waitAt .main q.num w)
  | .stall s' => s'
  | .trap t => takeTrap n t s

/-- The head of a queue can issue now. -/
def State.canIssue (s : State) (n : Fin 128) (q : Qid) : Bool :=
  s.cores[n].live && (match s.issueRes n q with | .wait _ => false | .stall _ => false | _ => true)

/-- The row `x` with its 64-byte part `k` as `y` has it (R176). -/
def mixRow (k : Nat) (x y : VRow) : VRow :=
  let m : VRow := BitVec.ofNat 2048 ((2 ^ 512 - 1) * 2 ^ (512 * k))
  (x &&& ~~~m) ||| (y &&& m)

/-- Parts of rows of the registers `l`, as (16 × register + row, 64-byte part, or 4 for a mask row), as another state of the core has them (R176). -/
def Core.takeParts (c other : Core) (l : List RegTag) (ps : List (Nat × Nat)) : Core :=
  ps.foldl (fun c p =>
    let r := p.1 / 16
    let i := p.1 % 16
    if p.2 < 4 then (if l.contains { file := tagV, num := r } then c.setVrow r i (mixRow p.2 (c.vrow r i) (other.vrow r i)) else c)
    else if l.contains { file := tagK, num := r } then c.setKrow r i (other.krow r i) else c) c

/-- The head of the queue `q` writes its registers part by part while words of `q'` issue that neither token nor order binds to it: before each of
them it has written the parts that `l` names, and the rest after them all (R176, R353). Nothing happens where a word of the two cannot issue, where
poison is on its way, or where the words between change the memory that a load reads. -/
def State.overlap (s : State) (n : Fin 128) (q q' : Qid) (l : List (List (Nat × Nat))) : State :=
  match s.cores[n].queue q, s.issueRes n q with
  | r :: _, .ok s1 =>
    if q = q' ∨ !s.cores[n].live ∨ s1.cores[n].poison ≠ s.cores[n].poison then s
    else
      let tags := r.uop.dstTags r.vtype
      let t := l.foldl (fun (t : State) ps =>
        let t1 := t.modCore n (fun c => c.takeParts s1.cores[n] tags ps)
        match t1.issueRes n q' with
        | .ok t2 => t2
        | _ => t1) s
      match t.issueRes n q with
      | .ok t2 => if q = .x ∨ t.mem = s.mem then t2.modCore n (fun c => c.takeParts t.cores[n] tags l.flatten) else s
      | _ => s
  | _, _ => s

/-! ### Routing (R173, R174, R278) -/

/-- A word that reads VL or VTYPE waits for an earlier `vld.ff` that has not been translated (R367). -/
def Core.ffPending (c : Core) : Bool := c.qL.any (fun r => r.on && !r.done && (match r.uop with | .vload _ 3 _ _ _ _ _ => true | _ => false))

/-- The word as the queue holds it. -/
def Core.routed (c : Core) (t : Tok) (on : Bool) (u : Uop) : Routed :=
  { uop := u, tok := t, on := on, strand := .main, idx := c.pc, po := c.po, vtype := c.sys.vtype, vl := c.sys.vl.toNat, rm := Fin.ofNat 4 (fld c.sys.fpcr 0 2),
    fpe := fld c.sys.fpcr 8 5, done := false, noPop := false }

/-- The word at the end of its queue; the control slot goes on. -/
def Core.append (c : Core) (q : Qid) (len : Nat) (r : Routed) : Core :=
  { (c.setQueue q (c.queue q ++ [r])) with pc := c.pc + len, po := c.po + 1, seq := c.seq.set q.num (c.seq[q.num] + 1), waits := c.waits.set 0 none }

/-- A queue of the main strand is given a word; if it is the head and the queue is not held, it tries to issue at once. -/
def State.put (s : State) (n : Fin 128) (q : Qid) (len : Nat) (r : Routed) : State :=
  let first := (s.cores[n].queue q).isEmpty
  let s1 := s.modCore n (fun c => c.append q len r)
  if first && !s1.held[n] then s1.issueHead n q else s1

/-- A handler strand has run a word: it goes on at the next (R189). -/
def Core.handlerRan (c : Core) (h : Fin 3) (len : Nat) (u : Uop) : Core :=
  let c1 := if u.nonIdem then c.notePoint c.po (fun p => { p with nonIdem := true }) else c
  { c1.setHnd h { c1.hnd[h] with pc := c1.hnd[h].pc + len, wait := none } with replayable := c1.replayable && !u.nonReplay }

/-- A word that a handler strand runs at once (R189): its effect, and the next word; while it waits it keeps the scope it captured (R212). -/
def State.handlerWord (s : State) (n : Fin 128) (h : Fin 3) (len : Nat) (u : Uop) : State :=
  let c := s.cores[n]
  let r : Routed := { c.routed ⟨false, false, false, false⟩ true u with strand := .ctx h, idx := c.hnd[h].pc, po := 0 }
  match execUop s n r with
  | .ok s' => s'.modCore n (fun c => c.handlerRan h len u)
  | .goto s' _ => s'
  | .after s' t => takeTrap n t s'
  | .wait w => s.modCore n (fun c => c.waitAt (.ctx h) 0 { w with cap := u.cap })
  | .stall s' => s'
  | .trap t => takeTrap n t s

/-- An L-, X- or S-class word at which a strand stands (R173, R278): judged; held by the slip depth, by scalars not yet written
and by a `vld.ff`; captured by `cap`, which sees the captured guard; routed. -/
def routeWord (q : Qid) (t : Tok) (g : Option Guard) (j : Judge) (len : Nat) (readsV : Bool) (cap : Bool → State → Except Trap (State × Uop)) (s : State) : State :=
  let n := s.focusCore
  let st := s.focusStrand
  let c := s.cur
  match j.sub st t with
  | some sub => takeTrap n (c.illegal st len sub) s
  | none =>
    match st with
    | .ctx h =>
      let on := match g with | some g => c.rdP st g | none => true
      if !on then s.modCur (fun c => c.cDone st t (c.pcOf st + len))
      else if c.tainted (c.scalarTags st j) then s.modCur (fun c => c.meetRegs st j)
      else match cap on s with
        | .error tr => takeTrap n tr s
        | .ok (s1, u) => s1.handlerWord n h len u
    | .main =>
      if c.img.slip ≤ ((c.queue q).filter (fun r => !r.done)).length ∨ c.hazard .main j ∨ (readsV ∧ c.ffPending)
      then s.modCur (fun c => c.waitAt .main 0 freeWait)
      else
        let on := match g with | some g => c.rdP .main g | none => true
        if c.tainted (c.predTags st j) || (on && c.tainted (c.scalarTags st j)) then s.modCur (fun c => c.meetRegs st j)
        else match cap on s with
        | .error tr => takeTrap n tr s
        | .ok (s1, u) => s1.put n q len (c.routed t on u)

end Sys2Proof.Machine
end

