-- ==== Sys2Proof/Machine/Operands.lean ====
section
/-! DEFINITION. The operand forms of the instruction words: immediates and EXT payloads (spec/11 R280, R282), register fields and
their limits (R283, R332, R333, R335), and the shapes in which words are judged and routed. -/

namespace Sys2Proof.Machine

/-! ### Immediates (R280, R282) -/

/-- The payload of an EXT prefix, if the word has one. -/
abbrev Payload := Option (Fin 4194304)

/-- A field of `w` bits, joined with the payload where there is one, as a signed number. -/
def immS (x : Payload) (w v : Nat) : Int := match x with | none => sext w v | some p => sext (22 + w) (p.val * 2 ^ w + v)

/-- The same field as an unsigned number. -/
def immN (x : Payload) (w v : Nat) : Nat := match x with | none => v | some p => p.val * 2 ^ w + v

/-- Words that an instruction takes: two with a prefix. -/
def wordLen (x : Payload) : Nat := match x with | none => 1 | some _ => 2

/-! ### Registers -/

/-- A scalar as a routed word holds it: physical in the main strand. -/
def Core.mapDst (c : Core) (st : Strand) (r : Reg) : Reg := match st with | .main => physS c.sys.rotb r | .ctx _ => r

/-- The strand is the trap strand (R267). -/
def Core.isTrapStrand (c : Core) (st : Strand) : Bool := decide (c.phase = .trapStrand) && decide (st = .ctx 2)

/-- No token bits. -/
def noTok : Tok := ⟨false, false, false, false⟩

/-- A vector group of EEW `e` begins at a multiple of its size (R332). -/
def vOk (vt : W64) (e : Nat) (r : Reg) : Bool := r.val % gsize vt e == 0

/-- A mask group read: `k0` to `k7`, at a multiple of Gm (R333). -/
def kSrc (vt : W64) (n : Nat) : Bool := decide (n ≤ 7) && n % msize vt == 0

/-- A mask group written: not `k0` (R283). -/
def kDst (vt : W64) (n : Nat) : Bool := decide (1 ≤ n) && kSrc vt n

/-- Two groups share no register. -/
def apart (a na b nb : Nat) : Bool := decide (a + na ≤ b) || decide (b + nb ≤ a)

/-- A vector format exists: SEW is 16 or 32 (R339). -/
def floatOk (vt : W64) : Bool := vsew vt != 8

/-- The VTYPE at the control slot. -/
def State.vtype (s : State) : W64 := s.cur.sys.vtype

/-! ### Judgements -/

/-- A word that handler strands may not run, with the scalars it writes and reads and the limits of its other operands. -/
def jMain (d l : List Reg) (lim : Bool) : Judge := { jS d l with handler := false, lim := lim }

/-- The same with a predicate guard. -/
def jMainG (g : Guard) (d l : List Reg) (lim : Bool) : Judge := { jGS g d l with handler := false, lim := lim }

/-- Three vector operands of EEW SEW and a mask. -/
def limVVV (vt : W64) (d a b : Reg) (m : Guard) : Bool := let e := vsew vt; vOk vt e d && vOk vt e a && vOk vt e b && kSrc vt m.val

/-- Two vector operands of EEW SEW and a mask. -/
def limVV (vt : W64) (d a : Reg) (m : Guard) : Bool := let e := vsew vt; vOk vt e d && vOk vt e a && kSrc vt m.val

/-- One vector operand of EEW SEW and a mask. -/
def limV (vt : W64) (d : Reg) (m : Guard) : Bool := vOk vt (vsew vt) d && kSrc vt m.val

/-- A permute's destination group overlaps no vector source (R335). -/
def permApart (vt : W64) (d a : Reg) : Bool := apart d.val (vgrp vt) a.val (vgrp vt)

/-- Limits of a conversion (R346 to R348): alignment by EEW, refused formats, and no overlap of groups of different EEW. -/
def limCvt (op : CvtOp) (vt : W64) (d a : Reg) (m : Guard) : Bool :=
  let (sf, df) := cvtFmts op vt
  let se := cvtWidth vt sf
  let de := cvtWidth vt df
  !cvtRefused op vt && vOk vt se a && kSrc vt m.val
    && (if cvtEf op then d.val % (2 * vgrp vt) == 0 && apart d.val (gsize vt de) a.val (gsize vt se) && apart (d.val + vgrp vt) (vgrp vt) a.val (gsize vt se)
        else vOk vt de d && (se == de || apart d.val (gsize vt de) a.val (gsize vt se)))

/-! ### Shapes -/

/-- A vector word: routed to X with what `u` makes of the control slot's state. -/
def xWord (t : Tok) (j : Judge) (u : Core → Uop) (s : State) : State := routeWord .x t none j 1 true (fun _ s => .ok (s, u s.cur)) s

/-- A word of queue `q` with a predicate guard, whose capture changes nothing. -/
def gWord (q : Qid) (t : Tok) (g : Guard) (j : Judge) (u : Core → Strand → Uop) (s : State) : State :=
  routeWord q t (some g) j 1 false (fun _ s => .ok (s, u s.cur s.focusStrand)) s

/-- An unguarded word of queue `q`, with or without a prefix. -/
def iWord (q : Qid) (x : Payload) (t : Tok) (j : Judge) (u : Core → Strand → Uop) (s : State) : State :=
  routeWord q t none j (wordLen x) false (fun _ s => .ok (s, u s.cur s.focusStrand)) s

/-- The scope of a word that waits where it stands, of the control slot or of a handler strand: as captured when its wait began, or captured now
(R212). -/
def State.heldCap (s : State) (n : Fin 128) (st : Strand) (i : Fin 16) : Except Trap Cap :=
  let w := match st with | .main => s.cores[n].waits[(0 : Fin 4)] | .ctx h => s.cores[n].hnd[h].wait
  match w.bind (·.cap) with
  | some k => if k.idx = i then .ok k else s.capture n 0 st i
  | none => s.capture n 0 st i

/-- A scoped word of queue `q`: it captures its scope as it is routed (R212). -/
def sWord (q : Qid) (t : Tok) (c : Fin 16) (j : Judge) (readsV : Bool) (u : Core → Strand → Cap → Uop) (s : State) : State :=
  routeWord q t none j 1 readsV (fun _ s =>
    (if s.focusStrand = .main then s.capture s.focusCore 0 s.focusStrand c else s.heldCap s.focusCore s.focusStrand c).map (fun k => (s, u s.cur s.focusStrand k))) s

/-- A C-class word that writes a scalar from two (R303, R305). -/
def alu2 (t : Tok) (g : Guard) (d a b : Reg) (f : W64 → W64 → W64) (s : State) : State :=
  cWord t g (jGS g [d] [a, b]) 1 (fun s => onCore (fun c => c.wrS s.focusStrand d (f (c.rdS s.focusStrand a) (c.rdS s.focusStrand b))) s) s

/-- A C-class word that writes a scalar from one (R305). -/
def alu1 (t : Tok) (g : Guard) (d a : Reg) (f : W64 → W64) (s : State) : State :=
  cWord t g (jGS g [d] [a]) 1 (fun s => onCore (fun c => c.wrS s.focusStrand d (f (c.rdS s.focusStrand a))) s) s

/-- A C-class word that writes a scalar from one and an immediate (R304). -/
def aluI (x : Payload) (t : Tok) (d a : Reg) (lim : Bool) (f : W64 → W64) (s : State) : State :=
  cWord t 0 { jS [d] [a] with lim := lim } (wordLen x) (fun s => onCore (fun c => c.wrS s.focusStrand d (f (c.rdS s.focusStrand a))) s) s

/-- A compare into a predicate (R308). -/
def cmp2 (t : Tok) (g : Guard) (d a b : Reg) (f : W64 → W64 → Bool) (s : State) : State :=
  cWord t g { jGS g [] [a, b] with pd := [d], lim := okPd d } 1
    (fun s => onCore (fun c => c.wrP s.focusStrand (p3 d) (f (c.rdS s.focusStrand a) (c.rdS s.focusStrand b))) s) s

/-- Predicate logic (R309). -/
def plog (t : Tok) (g : Guard) (d a b : Reg) (f : Bool → Bool → Bool) (s : State) : State :=
  cWord t g { jGS g [] [] with ps := [guardReg g, a, b], pd := [d], lim := okPd d && okP a && okP b } 1
    (fun s => onCore (fun c => c.wrP s.focusStrand (p3 d) (f (c.rdP s.focusStrand (p3 a)) (c.rdP s.focusStrand (p3 b)))) s) s

end Sys2Proof.Machine
end

