-- ==== Sys2Proof/Machine/Sync.lean ====
section
/-! DEFINITION. Fences, barriers' waits, markers, timelines, `scope.ld`, `cinv`, `enq` (spec/08 R209 to R225, spec/14 R378 to R382,
spec/12 R325 to R328). -/

namespace Sys2Proof.Machine

/-! ### Releases and acquires of the control slot (R215, R216) -/

/-- Memory words of the main strand that a release waits for: loads and every S word that has not issued. -/
def Core.memWords (c : Core) (st : Strand) : Nat :=
  match st with
  | .main => (c.qL.filter (fun r => r.on && !r.done && r.uop.isLoad)).length + (c.qS.filter (fun r => r.on && !r.done)).length
  | .ctx _ => 0

/-- Earlier ordinary loads of the strand that have not bound. -/
def Core.loadWords (c : Core) (st : Strand) : Nat :=
  match st with
  | .main => (c.qL.filter (fun r => r.on && !r.done && r.uop.isLoad)).length
  | .ctx _ => 0

/-- What a release by a C-class word at a captured scope waits for (R215). -/
def State.relCount (s : State) (n : Fin 128) (st : Strand) (cap : Cap) : Nat := s.cores[n].memWords st + s.outstanding n st (s.slicesOf n cap)

/-- A release by a C-class word at a captured scope: the count it waits for, or the state after it (R215). -/
def State.cRelease (s : State) (n : Fin 128) (st : Strand) (cap : Cap) : Except Wait State :=
  let c := s.cores[n]
  let k := s.relCount n st cap
  if k = 0 then .ok (s.releaseNow n st (s.slicesOf n cap)) else .error { stallWait c st 0 k with cap := some cap }

/-- A fence (R217): it releases, then acquires; its scope is checked as its waits end (R212). The strand's later writes carry its release; its
acquire takes the releases that the strand's reads have observed (R214). -/
def fenceWord (rel acq : Bool) (t : Tok) (i : Fin 16) (s : State) : State :=
  cWord t 0 (jS [] []) 1 (fun s =>
    let n := s.focusCore
    let st := s.focusStrand
    match s.heldCap n st i with
    | .error tr => .trap tr
    | .ok cap =>
      match (if rel then s.cRelease n st cap else .ok s) with
      | .error w => .wait w
      | .ok s1 =>
        let k := s1.cores[n].loadWords st
        if acq && k != 0 then .wait { stallWait s1.cores[n] st 0 k with cap := some cap }
        else match s1.checkScope n 0 st cap with
          | .error tr => .trap tr
          | .ok e =>
            let s2 := if rel then s1.modCore n (fun c => c.fenced st (s1.releaseOf n e i.val)) else s1
            .ok (if acq then s2.modCore n (fun c => c.raiseClock (acquired c.mem.seen[st.slot] n.val e i.val)) else s2)) s

/-- `fence.rel` (R217, R378). -/
def execFenceRel (t : Tok) (c : Fin 16) (s : State) : Out := .next (fenceWord true false t c s)
/-- `fence.acq` (R217, R378). -/
def execFenceAcq (t : Tok) (c : Fin 16) (s : State) : Out := .next (fenceWord false true t c s)
/-- `fence.ar` (R217, R378). -/
def execFenceAr (t : Tok) (c : Fin 16) (s : State) : Out := .next (fenceWord true true t c s)

/-- A limit operand (R382): 0 is QWLIM, another value is clamped. -/
def Core.limitOp (c : Core) (st : Strand) (v : W64) : Nat := if v = 0 then c.limit st else clampQw v.toNat

/-- A C-class word met an uncorrectable error in memory: it waits for the consumed error to be taken (R155, R160). -/
def State.meetUe (s : State) (n : Fin 128) (pa : Nat) : State := s.meetAt n s.cores[n].po pa s.focusStrand

/-- The object that a strand's wait names is loaded into its home slice's sync cache (R195). -/
def State.holdWaited (s : State) (n : Fin 128) (st : Strand) : State :=
  let w := match st with | .main => s.cores[n].waits[(0 : Fin 4)] | .ctx h => s.cores[n].hnd[h].wait
  match w.bind (·.obj) with
  | some o => s.holdBarrier n (32 * o)
  | none => s

/-- `bar.wait` (R223, R381). -/
def execBarWait (t : Tok) (c : Fin 16) (d a b : Reg) (s : State) : Out :=
  .next (State.holdWaited (cWord t 0 (jS [] [d, a, b]) 1 (fun s =>
    let n := s.focusCore
    let st := s.focusStrand
    let co := s.cur
    let p := co.rdS st d
    let addr := co.rdS st a
    let lim := co.limitOp st (co.rdS st b)
    match s.heldCap n st c with
    | .error tr => .trap tr
    | .ok cap =>
      match s.tagged n 0 { co.routed noTok true .nop with strand := st } kAtomic addr 32 with
      | .error tr => .trap tr
      | .ok pc =>
        if s.poisoned pc.pa 32 then .stall (s.meetUe n pc.pa)
        else
          let o : BitVec 256 := BitVec.ofNat 256 (memNat s.mem pc.pa 32)
          let s1 := s.holdBarrier n pc.pa
          if barPhase o = p.toNat then
            .wait { rkind := 7, rindex := 0, d0 := p, d1 := BitVec.ofNat 64 (barPhase o), faddr := BitVec.ofNat 64 (taggedVa addr 32), limit := some lim, cap := some cap, obj := some (pc.pa / 32) }
          else match s1.checkScope n 0 st cap with
            | .error tr => .trap tr
            | .ok e =>
              let t := acquired (s1.fab.relsAt pc.pa 8) n.val e c.val
              .ok ((s1.modCore n (fun c => { c.raiseClock t with replayable := false })).observe n st [{ pa := pc.pa, len := 8, ordinary := true }])) s) s.focusCore s.focusStrand)

/-! ### Markers and timelines (R218, R219, R379, R380) -/

/-- The queue sequence number a marker of a queue waits for, or the command number of a context. -/
def Core.markGoal (c : Core) (k : Fin 11) : Nat := if k.val < 3 then (c.seq[Fin.ofNat 4 (k.val + 1)]).toNat else (c.eng.issued[Fin.ofNat 8 (k.val - 3)]).toNat

/-- A marker has reached its head (R218). -/
def State.markReached (s : State) (n : Fin 128) (k : Fin 11) (goal : Nat) : Bool :=
  let c := s.cores[n]
  if k.val < 3 then decide (goal ≤ c.qseq (Fin.ofNat 4 (k.val + 1)))
    && (k.val != 2 || !s.fab.inflight.any (fun x => !x.performed && ((decide (x.core = n) && decide (x.strand = .main) && decide (x.hnum = 0) && decide (x.seq < goal))
      || x.joined.any (fun y => decide (y.core = n) && decide (y.strand = .main) && decide (y.hnum = 0) && decide (y.seq < goal)))))
  else decide (goal ≤ (c.eng.tl[Fin.ofNat 8 (k.val - 3)]).toNat)

/-- `blaze`: markers in the queues and contexts named (R218, R378). -/
def execBlaze (t : Tok) (q : Fin 8) (a : Reg) (b : Fin 8) (s : State) : Out :=
  let mask := q.val + a.val * 8 + b.val * 256
  .next (cWord t 0 { jMain [] [] true with res := mask != 0 } 1
    (onCore (fun c => { c with mem := { c.mem with marks := Vector.ofFn (fun k : Fin 11 => if bits mask k.val 1 = 1 then some (c.markGoal k) else c.mem.marks[k]) } })) s)

/-- Markers placed and not reached. -/
def State.marksLeft (s : State) (n : Fin 128) : Nat :=
  ((List.finRange 11).filter (fun k => match s.cores[n].mem.marks[k] with | some g => !s.markReached n k g | none => false)).length

/-- The largest stamp that the commands of the joined contexts reported, of those that the markers cover (R218). -/
def Core.joinStamps (c : Core) : Nat :=
  (List.finRange 8).foldl (fun m k => match c.mem.marks[Fin.ofNat 11 (k.val + 3)] with | some g => max m (c.stampUpTo k g) | none => m) 0

/-- A write of a handler strand numbered `m` or below, of a core (R219). -/
def InFlight.handled (x : InFlight) (n : Fin 128) (m : Nat) : Bool := decide (x.core = n) && decide (x.strand ≠ .main) && decide (x.hnum ≠ 0) && decide (x.hnum ≤ m)

/-- The main strand acquires the writes of the handler strands numbered `m` or below (R219): T rises to the stamps of those that have performed, and
its later releases cover those that have not (R215). -/
def State.takeHandlers (s : State) (n : Fin 128) (m : Nat) : State :=
  let t := s.fab.inflight.foldl (fun t x => if x.handled n m ∧ x.performed then max t x.stamp else t) 0
  { s.modCore n (fun c => c.raiseClock t) with fab := { s.fab with inflight := s.fab.inflight.map (fun x =>
    let x1 := if x.handled n m then { x with strand := .main } else x
    { x1 with joined := x1.joined.map (fun k => if k.core = n ∧ k.strand ≠ .main ∧ k.hnum ≠ 0 ∧ k.hnum ≤ m then { k with strand := .main } else k) }) } }

/-- `join` (R218, R219, R379). -/
def execJoin (t : Tok) (s : State) : Out :=
  .next (cWord t 0 (jMain [] [] true) 1 (fun s =>
    let n := s.focusCore
    let k := s.marksLeft n
    if k ≠ 0 then .wait (stallWait s.cur .main 1 k)
    else onCore (fun c => let c1 := c.raiseClock c.joinStamps; { c1 with mem := { c1.mem with marks := Vector.replicate 11 none } })
      (match s.cur.mem.marks[(10 : Fin 11)] with | some g => s.takeHandlers n g | none => s)) s)

/-- `tlwait` (R219, R380, R382). -/
def execTlwait (t : Tok) (k a b : Reg) (s : State) : Out :=
  .next (cWord t 0 (jMain [] [a, b] (decide (k.val ≤ 7))) 1 (fun s =>
    let c := s.cur
    let i : Fin 8 := Fin.ofNat 8 k.val
    let v := c.rdS .main a
    if c.eng.tl[i].toNat < v.toNat then
      .wait { rkind := 6, rindex := k.val, d0 := v, d1 := c.eng.tl[i], faddr := 0, limit := some (c.limitOp .main (c.rdS .main b)) }
    else onCore (fun c => { c.raiseClock (c.stampUpTo i v.toNat) with replayable := false }) (if k.val = 7 then s.takeHandlers s.focusCore v.toNat else s)) s)

/-- `tlrd` (R219, R380). -/
def execTlrd (t : Tok) (d k : Reg) (s : State) : Out :=
  .next (cWord t 0 (jMain [d] [] (decide (k.val ≤ 7))) 1 (onCore (fun c => c.wrS .main d c.eng.tl[(Fin.ofNat 8 k.val : Fin 8)])) s)

/-! ### Scope tables (R211, R213, R327) -/

/-- Words and waits of a core that hold generation `g` of entry `i`. -/
def Core.holds (c : Core) (i : Fin 16) (g : Nat) : Nat :=
  ((c.qL ++ c.qS).filter (fun r => r.on && !r.done && r.uop.cap == some ⟨i, g⟩)).length
  + (c.waits.toList.filter (fun w => w.bind (·.cap) == some ⟨i, g⟩)).length + (c.hnd.toList.filter (fun h => h.wait.bind (·.cap) == some ⟨i, g⟩)).length

/-- Work packets dispatched and not complete: of the queues in slots, of the streams, of queues no longer mapped. -/
def State.allWork (s : State) : List Work :=
  s.fe.parsers.toList.flatMap (·.work) ++ s.streams.flatMap (fun x => match x.2 with | some y => y.parser.work | none => []) ++ s.fe.orphans.map (·.2)

/-- In-flight captures of generation `g` of an entry in a region: of its cores' words, of the saved ones, and of its work packets (R213). -/
def State.captures (s : State) (r : Nat) (i : Fin 16) (g : Nat) : Nat :=
  s.cores.foldl (fun k c => if c.ctx.region = r ∧ c.phase ≠ .idle then k + c.holds i g else k) 0
    + ((s.sched.records.filter (fun x => x.region == r)).map (fun x => x.core.holds i g)).foldl (· + ·) 0
    + (s.allWork.filter (fun w => w.region == r && fld w.pkt 20 4 == i.val && w.gen == g)).length

/-- A region changed. -/
def State.modRegion (s : State) (r : Nat) (f : Region → Region) : State :=
  { s with sched := { s.sched with regions := sset Region.none s.sched.regions r (f (sget Region.none s.sched.regions r)) } }

/-- An image that `scope.ld` refuses (R211). -/
def scopeBad (mask : BitVec 128) (img : BitVec 256) : Bool :=
  fld img 186 70 != 0 || fld img 160 8 != 0 || decide (fld img 0 128 &&& mask.toNat ≠ fld img 0 128)

/-- SCOPE_LOAD (R261). -/
def scopeLoadTrap (st : Strand) (addr i : Nat) : Trap := accessTrap 0 st 0x05 addr i 0

/-- Stores and atomics of the main strand that have not issued. -/
def Core.storeWords (c : Core) (st : Strand) : Nat := match st with | .main => (c.qS.filter (fun r => r.on && !r.done && r.uop.isStore)).length | .ctx _ => 0

/-- In-flight captures of the generation that an update of an entry of a core's region would take (R213). -/
def State.updateHeld (s : State) (n : Fin 128) (i : Fin 16) : Nat :=
  let r := s.cores[n].ctx.region
  s.captures r i ((scopeGen (sget Region.none s.sched.regions r).scopes[i] + 1) % 256)

/-- `scope.ld` (R211, R213, R327): its reads are ordinary loads; the wait for earlier accesses, and for captures of the new generation, counts. -/
def execScopeLd (t : Tok) (g : Guard) (d a : Reg) (s : State) : Out :=
  .next (cWord t g { jGS g [] [a] with lim := decide (d.val ≤ 15) } 1 (fun s =>
    let n := s.focusCore
    let st := s.focusStrand
    let c := s.cur
    let i : Fin 16 := Fin.ofNat 16 d.val
    let addr := (c.rdS st a).toNat / 32 * 32
    if d.val = 0 ∨ d.val = 15 then .trap (scopeLoadTrap st addr d.val)
    else if c.loadWords st + c.storeWords st ≠ 0 then .wait (stallWait c st 4 (c.loadWords st + c.storeWords st))
    else match s.checkAccess n 0 st 0 .g kRead (BitVec.ofNat 64 addr) 32 with
      | .error tr => .trap tr
      | .ok ps =>
        if (s.badPa ps).isSome then .stall (s.meetUe n ((s.badPa ps).getD 0))
        else
          let (s1, copies) := s.bindPieces n none ps
          let img : BitVec 256 := BitVec.ofNat 256 (leNat (loadPieces s.mem copies ps))
          let r := c.ctx.region
          let old := (sget Region.none s.sched.regions r).scopes[i]
          let k := s.updateHeld n i
          if scopeBad c.ctx.coreMask img then .trap (scopeLoadTrap st addr d.val)
          else if k ≠ 0 then .wait (stallWait c st 4 k)
          else .ok ((s1.observe n st ps).modRegion r (fun x => { x with scopes := x.scopes.set i (scopeUpdate old img) }))) s)

/-- Stores, non-temporal stores and reductions of a strand that have not performed (R225): words that have not issued, and writes in flight. -/
def State.cinvCount (s : State) (n : Fin 128) (st : Strand) : Nat :=
  let word (u : Uop) : Bool := match u with | .store .. | .vstore .. | .red .. => true | _ => false
  (match st with | .main => (s.cores[n].qS.filter (fun r => r.on && !r.done && word r.uop)).length | .ctx _ => 0)
    + ((s.fab.inflight.filter (fun x => !x.performed && (match x.op with | .line _ => false | _ => true))).map (s.ownCount n st)).foldl (· + ·) 0

/-- `cinv` (R225, R328). -/
def execCinv (t : Tok) (g : Guard) (s : State) : Out :=
  .next (cWord t g (jGS g [] []) 1 (fun s =>
    let n := s.focusCore
    let st := s.focusStrand
    let c := s.cur
    let k := s.cinvCount n st
    if k ≠ 0 then .wait (stallWait c st 2 k)
    else onCore (fun c => { c with mem := { c.mem with cc := [], epoch := c.mem.epoch + 1 } }) s) s)

/-! ### `enq` (R326) -/

/-- The packet in eight scalars. -/
def Core.packet (c : Core) (st : Strand) (a : Reg) : BitVec 512 :=
  BitVec.ofNat 512 ((List.range 8).foldr (fun k acc => (c.rdS st (Fin.ofNat 32 (a.val + k))).toNat + 2 ^ 64 * acc) 0)

/-- The record of a packet that the dispatcher refuses (R96). -/
def State.logEnq (s : State) (n : Fin 128) (q cause : Nat) (pkt : BitVec 512) : State :=
  let c := s.cores[n]
  s.log { cls := 0x0C, stepid := c.sys.stepid.toNat, data0 := fld pkt 0 64, data1 := fld pkt 64 64, tag := fld pkt 32 32, region := c.ctx.region,
          queue := q % 65536, master := n.val, cause := cause, unit := n.val }

/-- The answer to the `enq` that waits is there. -/
def answered : List Send → List Send
  | [] => []
  | .enq :: t => .accepted :: t
  | x :: t => x :: answered t

/-- Sends at the head of context 5 that their targets have accepted finish on `tl5` (R184, R185). -/
def Core.settleSends : Nat → Core → Core
  | 0, c => c
  | k + 1, c =>
    match c.eng.sends with
    | .accepted :: t => Core.settleSends k (({ c with eng := { c.eng with sends := t } } : Core).finishNext 5 0)
    | _ => c

/-- The answer reaches the strand: `pd`; the command finishes at the answer (R326), once the sends before it have. -/
def State.enqDone (s : State) (st : Strand) (d : Reg) (ok : Bool) : State :=
  s.modCur (fun c => Core.settleSends c.eng.sends.length { (c.wrP st (p3 d) ok) with enqOffer := none, enqAnswer := none, eng := { c.eng with sends := answered c.eng.sends } })

/-- Feature DEVQ, number 6, is acknowledged by the function that a core's region belongs to (R66). -/
def State.devqAcked (s : State) (n : Fin 128) : Bool :=
  let r := sget Region.none s.sched.regions s.cores[n].ctx.region
  fld (s.fe.featack[Fin.ofNat 10 r.func]) 6 1 == 1

/-- `enq` (R96, R326). -/
def execEnq (t : Tok) (g : Guard) (d a b : Reg) (s : State) : Out :=
  .next (cWord t g { jGS g [] (b :: (if a.val = 8 ∨ a.val = 16 ∨ a.val = 24 then (List.range 8).map (fun k => Fin.ofNat 32 (a.val + k)) else [a])) with
                     pd := [d], lim := okPd d && (a.val == 8 || (decide (s.focusStrand = .main) && (a.val == 16 || a.val == 24))) } 1 (fun s =>
    let n := s.focusCore
    let st := s.focusStrand
    let c := s.cur
    match c.enqOffer with
    | some (owner, _, _) =>
      if owner ≠ st then .stall s
      else (match c.enqAnswer with
        | none => .stall s
        | some ok => .ok (s.enqDone st d ok))
    | none =>
      let q := (c.rdS st b).toNat
      let pkt := c.packet st a
      match s.heldCap n st (Fin.ofNat 16 (fld pkt 20 4)) with
      | .error tr => .trap tr
      | .ok cap =>
        match s.cRelease n st cap with
        | .error w => .wait w
        | .ok s1 =>
          match s1.checkScope n 0 st cap with
          | .error tr => .trap tr
          | .ok _ =>
            if !c.roomIn 5 then .wait { c.depthWait st 5 with cap := some cap }
            else
              let s2 := s1.modCore n (fun c =>
                let c1 := (c.accept 5).notePoint c.po (fun p => { p with nonIdem := true })
                { c1 with replayable := false, eng := { c1.eng with sends := c1.eng.sends ++ [.enq] } })
              if q / 4096 ≠ 0 then .ok ((s2.logEnq n q (if s.devqAcked n then 0x0A else 0x03) pkt).enqDone st d false)
              else .stall (s2.modCore n (fun c => { c with enqOffer := some (st, q, pkt), enqAnswer := none }))) s)

end Sys2Proof.Machine
end

