-- ==== Sys2Proof/Machine/DevOps.lean ====
section
/-! DEFINITION. Operations that the events of the device share: masters and functions, regions and what they inherit (spec/05
R127 to R130), queue descriptors (spec/03 R74), accesses of the front end (R85), page-ins (spec/02 R54), timeline signals (R81). -/

namespace Sys2Proof.Machine

/-! ### Masters, functions, agents -/

/-- Master of the front end, the translation service, a function's requests (R56). -/
def feMaster : Fin 256 := 0x88
def encMaster (e : Fin 8) : Fin 256 := Fin.ofNat 256 (0x80 + e.val)
def funcMaster (f : Fin 10) : Fin 256 := if f.val = 0 then 0x90 else if f.val = 9 then 0x91 else Fin.ofNat 256 (0x91 + f.val)

/-- Port of a function (R71). -/
def funcPort (f : Fin 10) : Fin 2 := if f.val = 9 then 1 else 0

/-- A virtual function (R71). -/
def isVf (f : Fin 10) : Bool := decide (1 ≤ f.val) && decide (f.val ≤ 8)

/-- Keys of the clocks of other agents (log 5). -/
def portKey (p : Fin 2) : Nat := 1024 + p.val
def feKey : Nat := 1028
def encKey (e : Fin 8) : Nat := 1029 + e.val
/-- Key of the clock of the translation service and the firmware (log 5). -/
def xlKey : Nat := 1039

/-- The host reaches a function: its link is up, the boot is over, a virtual function is enabled (R14, R27). -/
def State.funcOn (s : State) (f : Fin 10) : Bool :=
  s.board.trained[funcPort f] && s.board.bootStep == 7 && (!isVf f || s.board.vfEnable[(Fin.ofNat 8 (f.val - 1) : Fin 8)])

/-- An agent's clock raised (R201). -/
def Fabric.raiseAgent (f : Fabric) (key t : Nat) : Fabric := { f with eclock := sset 0 f.eclock key (max t (sget 0 f.eclock key)) }

/-- Entry `i` of a region's scope table as an agent that is no core names it: entry 0 then holds no member (R210). -/
def State.regionScope (s : State) (r i : Nat) : BitVec 256 :=
  let x := (sget Region.none s.sched.regions r).scopes[(Fin.ofNat 16 i : Fin 16)]
  if i = 0 then BitVec.ofNat 256 (2 ^ 185)
  else if i = 15 then BitVec.ofNat 256 (fld x 0 128 + (2 ^ 32 - 1) * 2 ^ 128 + fld x 168 16 * 2 ^ 168 + 3 * 2 ^ 184)
  else x

/-- An acquire by an agent, at an entry of a region's table, of what a range of bytes that it has read holds (R214, R216). -/
def State.acquireAt (s : State) (key r idx pa len : Nat) : State :=
  { s with fab := s.fab.raiseAgent key (acquired (s.fab.relsAt pa len) key (s.regionScope r idx) idx) }

/-- The release of an agent that is no core at an entry of a region's table, with the stamp its clock has come to (R215). -/
def State.releaseBy (s : State) (key r idx : Nat) : Release :=
  { agent := key, cores := BitVec.ofNat 128 (fld (s.regionScope r idx) 0 128), all := idx == 15, stamp := sget 0 s.fab.eclock key }

/-- An MSI-X vector of a function. -/
def State.msix (s : State) (func vec : Nat) : State := s.note (.msix func vec)

/-- Masters whose refused requests firmware is notified of: encoders, front end, cruiser, scrubber (R61). -/
def notifiesFw (master : Nat) : Bool := (decide (0x80 ≤ master) && decide (master ≤ 0x89)) || master == 0x8B

/-- The record of a refused request, and the notice to firmware (R61): kind 1 read, 2 write, 3 atomic. -/
def State.logAccess (s : State) (master kind pa target : Nat) : State :=
  let s1 := s.log { cls := 0x0B, addr := pa, data0 := kind, master := master, target := target, unit := master }
  if notifiesFw master then s1.note .fwIrq else s1

/-! ### Regions (R127 to R130) -/

def State.setRegion (s : State) (r : Nat) (x : Region) : State := { s with sched := { s.sched with regions := sset Region.none s.sched.regions r x } }

/-- The control block that gives a region field group `g`: its own where OVR says so, else its parent's (R128). -/
def State.groupAt (s : State) (g : Nat) : Nat → Nat → BitVec 2048
  | 0, _ => 0
  | k + 1, r => if fld (s.region r).rcb (288 + g) 1 = 1 ∨ r = 0 then (s.region r).rcb else s.groupAt g k (s.region r).parent
def State.group (s : State) (g r : Nat) : BitVec 2048 := s.groupAt g 4096 r

/-- Effective values (R128, R130). -/
def State.effMask (s : State) (r : Nat) : BitVec 128 := BitVec.ofNat 128 (fld (s.group 0 r) 0 128)
def State.effScrq (s : State) (r : Nat) : Nat := fld (s.group 1 r) 128 9
def State.effLbase (s : State) (r : Nat) : Nat := fld (s.group 2 r) 160 11
def State.effLq (s : State) (r : Nat) : Nat := fld (s.group 2 r) 176 12
def State.effClass (s : State) (r : Nat) : Nat := fld (s.group 3 r) 192 2
def State.effWeight (s : State) (r : Nat) : Nat := fld (s.group 4 r) 200 8
def State.effFdom (s : State) (r : Nat) : Nat := fld (s.group 5 r) 256 12
def State.effFdvec (s : State) (r : Nat) : Nat := fld (s.group 5 r) 272 6
def State.effFdpol (s : State) (r : Nat) : Nat := fld (s.group 5 r) 280 2
def State.effRoot (s : State) (r : Nat) : Nat := fld (s.group 6 r) 320 64
def State.effAsid (s : State) (r : Nat) : Nat := fld (s.group 6 r) 384 12
def State.effPib (s : State) (r : Nat) : Nat := fld (s.group 6 r) 448 64
def State.effStarve (s : State) (r : Nat) : Nat := let x := fld (s.group 7 r) 208 16; if x = 0 then 10000000 else x * 100000
def State.effPlat (s : State) (r : Nat) : Nat := fld (s.group 7 r) 224 32 * 1000

/-- Root region of a function (log 13). -/
def rootOf (f : Nat) : Nat := f + 1

/-- A region lies in a function's subtree (R82, R127). -/
def State.owns (s : State) (f r : Nat) : Bool := (s.region (rootOf f)).exist && decide ((s.region (rootOf f)).func = f) && s.under (rootOf f) r && r != 0

/-- Regions that exist, in rising number. -/
def State.regionIds (s : State) : List Nat := (s.sched.regions.filter (fun x => x.2.exist)).map (·.1)
/-- A region and its descendants. -/
def State.subtree (s : State) (r : Nat) : List Nat := s.regionIds.filter (s.under r)

/-- The record and the interrupt of a notice to a region's fault domain (R140, R108). -/
def State.faultNotice (s : State) (r trap cause stepid : Nat) : State :=
  let d := s.effFdom r
  (s.log { cls := 0x0D, stepid := stepid, data0 := trap, data1 := d, region := r, master := 0x88, cause := cause, companion := s.effFdpol r }).msix (s.region d).func (s.effFdvec r)

/-! ### Queue descriptors (R74) -/

def State.qdAddr (s : State) (q : Nat) : Nat := s.fe.qdbase + 256 * q
/-- A descriptor; SLOT of an unregistered one is at its reset value 0xFF. -/
def State.qd (s : State) (q : Nat) : BitVec 2048 :=
  let d : BitVec 2048 := BitVec.ofNat 2048 (memNat s.mem (s.qdAddr q) 256)
  if fld d 152 3 = 0 then setFld d 168 8 0xFF else d
def State.modQd (s : State) (q : Nat) (f : BitVec 2048 → BitVec 2048) : State := s.writeBytes (s.qdAddr q) (natLe 256 (f (s.qd q)).toNat)

def qdWptr (d : BitVec 2048) : Nat := fld d 64 32
def qdRptr (d : BitVec 2048) : Nat := fld d 96 32
def qdRegion (d : BitVec 2048) : Nat := fld d 128 12
def qdSize (d : BitVec 2048) : Nat := 2 ^ (fld d 140 4 + 4)
def qdPwake (d : BitVec 2048) : Bool := fld d 149 1 == 1
def qdPriv (d : BitVec 2048) : Bool := fld d 150 1 == 1
def qdDevq (d : BitVec 2048) : Bool := fld d 151 1 == 1
def qdState (d : BitVec 2048) : Nat := fld d 152 3
def qdSlot (d : BitVec 2048) : Nat := fld d 168 8
def qdWaiting (d : BitVec 2048) : Bool := fld d 2016 1 == 1
/-- The function that registered a queue (R74). -/
def qdFunc (d : BitVec 2048) : Nat := if fld d 148 1 = 1 then 9 else fld d 144 4
/-- Position of packet `i` of the ring. -/
def qdPacket (d : BitVec 2048) (i : Nat) : Nat := fld d 0 64 + i % qdSize d * 64

/-! ### Parsers -/

/-- Parser `p`: hardware slot `p`, or the stream queue of stream `p − 128`. -/
def State.parser (s : State) (p : Nat) : Option Parser :=
  if h : p < 128 then some s.fe.parsers[p] else (sget none s.streams (p - 128)).map (·.parser)

/-- A stream changed. -/
def State.modStream (s : State) (n : Nat) (f : Stream → Stream) : State :=
  { s with streams := sset none s.streams n ((sget none s.streams n).map f) }
def State.stream (s : State) (n : Nat) : Option Stream := sget none s.streams n

/-- A parser changed. -/
def State.modParser (s : State) (p : Nat) (f : Parser → Parser) : State :=
  if h : p < 128 then { s with fe := { s.fe with parsers := s.fe.parsers.set p (f s.fe.parsers[p]) } }
  else s.modStream (p - 128) (fun x => { x with parser := f x.parser })

/-- The region in whose context a parser's packets are translated (R80), and the function whose features judge them (R70). -/
def State.parserRegion (s : State) (p : Nat) : Nat :=
  if h : p < 128 then (match s.fe.parsers[p].queue with | some q => qdRegion (s.qd q) | none => 0)
  else match s.stream (p - 128) with | some x => x.region | none => 0
def State.parserFunc (s : State) (p : Nat) : Nat :=
  if h : p < 128 then (match s.fe.parsers[p].queue with | some q => qdFunc (s.qd q) | none => 0)
  else match s.stream (p - 128) with | some x => x.func | none => 0

/-! ### Accesses of the front end and the encoders (R85, R45, R57) -/

/-- Why an access of the front end does not perform. -/
inductive FeStop where
  /-- A page fault: cause PAGE. -/
  | page
  /-- A page fault, as the walk's read of an entry was refused (R34, R57): cause PAGE. -/
  | walk (pa target : Nat)
  /-- A refusal: cause RIGHTS, with the request's kind, address and target for the record; kind 0 where no target refused it. -/
  | rights (kind pa target : Nat)
  /-- A tier miss: a page-in runs. -/
  | miss (va : Nat)
deriving DecidableEq, Repr

/-- Cause code of a stop (R98); a tier miss has none. -/
def FeStop.cause : FeStop → Nat
  | .rights _ _ _ => 0x0E
  | _ => 0x0D

/-- Parts of a range that lie in one page of 4 KiB each: at most `k`. -/
def pageParts : Nat → Nat → Nat → List (Nat × Nat)
  | 0, _, _ => []
  | k + 1, va, len =>
    if len = 0 then []
    else
      let n := min len (4096 - va % 4096)
      (va, n) :: pageParts k (va + n) (len - n)

/-- One part of an access by a master, in the context of a region. -/
def State.devPiece (s : State) (m : Fin 256) (r kind : Nat) (a : Nat × Nat) : Except FeStop (Nat × Nat × W64) :=
  match s.translate [] (s.effRoot r) (s.effAsid r) a.1 kind with
  | .error (.tier _) => .error (.miss a.1)
  | .error (.walk pa t) => .error (.walk pa t)
  | .error _ => .error .page
  | .ok (pa, leaf) =>
    match s.refusal m (winRight kind) pa a.2 with
    | some t => .error (.rights (winRight kind) pa t)
    | none => .ok (pa, a.2, leaf)

/-- All parts of an access. -/
def State.devRange (s : State) (m : Fin 256) (r kind va len : Nat) : Except FeStop (List (Nat × Nat × W64)) :=
  (pageParts (len / 4096 + 2) va len).mapM (s.devPiece m r kind)

/-- The bytes of a range, whether some of them is poisoned, and the parts. -/
def State.devRead (s : State) (m : Fin 256) (r va len : Nat) : Except FeStop (List Byte × Bool × List (Nat × Nat × W64)) :=
  match s.devRange m r kRead va len with
  | .error e => .error e
  | .ok ps => .ok (ps.flatMap (fun p => memRead s.mem p.1 p.2.1), ps.any (fun p => s.poisoned p.1 p.2.1), ps)

/-- Bytes written to parts as scoped traffic of an agent (R84). -/
def State.devPut (s : State) (key : Nat) : List (Nat × Nat × W64) → List Byte → State
  | [], _ => s
  | p :: t, b => State.devPut ((s.performScoped key p.1 (b.take p.2.1)).1) key t (b.drop p.2.1)

/-- The parts of an access that leave through a port, for a region's function and in its ASID (R49, R63). -/
def State.partsOut (s : State) (r : Nat) (write : Bool) (ps : List (Nat × Nat × W64)) : State :=
  ps.foldl (fun s p => s.sendOut (s.region r).func (s.effAsid r) p.1 p.2.1 write) s

/-- What a read of a range sends out. -/
def State.devAsked (s : State) (m : Fin 256) (r va len : Nat) : State :=
  match s.devRange m r kRead va len with
  | .error _ => s
  | .ok ps => s.partsOut r false ps

/-- A write of a range. -/
def State.devWrite (s : State) (m : Fin 256) (key r va : Nat) (b : List Byte) : Except FeStop State :=
  match s.devRange m r kWrite va b.length with
  | .error e => .error e
  | .ok ps => .ok ((s.devPut key ps b).partsOut r true ps)

/-- A structure of `n` bytes that the front end reads: the number, or why not; poison reads as a page fault (R155). -/
def State.feStruct (s : State) (r va n : Nat) : Except FeStop Nat :=
  match s.devRead feMaster r va n with
  | .error e => .error e
  | .ok (b, bad, _) => if bad then .error .page else .ok (leNat b)

/-- The granule of the first poisoned part of a range that the front end reads. -/
def State.feBad (s : State) (r va n : Nat) : Option Nat :=
  match s.devRead feMaster r va n with
  | .ok (_, true, ps) => (ps.find? (fun p => s.poisoned p.1 p.2.1)).map (fun p =>
      ((List.range ((p.1 + p.2.1 - 1) / 32 - p.1 / 32 + 1)).map (· + p.1 / 32)).foldr (fun g x => if s.poisoned (g * 32) 32 then g * 32 else x) p.1)
  | _ => none

/-- The record of poison that the front end has read for a region, at its physical address (R155, R158). -/
def State.logPoison (s : State) (region pa : Nat) : State := s.logDemand 0x88 pa 0 region

/-- A refusal by an access table is recorded at its target (R61). -/
def State.noteStop (s : State) (m : Fin 256) : FeStop → State
  | .rights k pa t => if k = 0 then s else s.logAccess m.val k pa t
  | .walk pa t => s.logAccess xlMaster.val 1 pa t
  | _ => s

/-- The page-in that a tier miss of a region's access asks for. -/
def State.missIn (s : State) (r va : Nat) (w : PageWaiter) : State := s.requestPageIn (s.effRoot r) (s.effAsid r) (s.effPib r) va w

/-! ### Timeline objects (R81) -/

/-- A signal of value `v` at `va` in the context of a region, after a release at an entry of its table: an atomic maximum where the page grants
AT, else a store; either carries the release, and those in `more`. -/
def State.signal (s : State) (r idx va : Nat) (v : W64) (more : List Release) : Except FeStop State :=
  match s.devPiece feMaster r kWrite (va, 8) with
  | .error .page =>
    -- a page that grants no WR refuses the signal with RIGHTS
    (match s.walk (s.effRoot r) (s.effAsid r) va with
      | .ok l => .error (if va / 2 ^ 48 = 0 ∧ fld l.leaf 3 1 = 0 then .rights 0 0 0 else .page)
      | .error _ => .error .page)
  | .error e => .error e
  | .ok (pa, _, leaf) =>
    if fld leaf 4 1 = 1 ∧ fld leaf 62 2 ≤ 1 then
      match s.refusal feMaster 3 pa 8 with
      | some t => .error (.rights 3 pa t)
      | none => .ok (((s.performScoped feKey pa (natLe 8 (max (memNat s.mem pa 8) v.toNat))).1).carryRels pa 8 (s.releaseBy feKey r idx :: more))
    else .ok ((((s.performScoped feKey pa (natLe 8 v.toNat)).1).carryRels pa 8 (s.releaseBy feKey r idx :: more)).partsOut r true [(pa, 8, leaf)])

/-- The object as the front end reads it in TLWAIT: the page must grant AT, which is judged before the read performs (R84, R97). -/
inductive TlRead where
  | value (v pa : Nat)
  | noAt
  | stop (e : FeStop)
deriving DecidableEq, Repr

def State.readTimeline (s : State) (r va : Nat) : TlRead :=
  let noAt := match s.walk (s.effRoot r) (s.effAsid r) va with | .ok l => decide (va / 2 ^ 48 = 0) && decide (fld l.leaf 4 1 = 0) | .error _ => false
  if noAt then .noAt
  else match s.devPiece feMaster r kRead (va, 8) with
    | .error e => .stop e
    | .ok (pa, _, _) => if s.poisoned pa 8 then .stop .page else .value (memNat s.mem pa 8) pa

end Sys2Proof.Machine
end

