-- ==== Sys2Proof/Machine/StreamOps.lean ====
section
/-! DEFINITION. What the events of the front end and of the streams share about streams: control blocks, frame jobs, slots, the end of
frame jobs and of streams (spec/04 R105 to R118), and the work packets in flight. -/

namespace Sys2Proof.Machine

/-! ### Work packets everywhere -/

/-- Every work packet in flight changed: of mapped queues, of queues no longer mapped, of streams. -/
def Parser.mapWork (f : Work → Work) (p : Parser) : Parser := { p with work := p.work.map f }
def State.mapWorks (s : State) (f : Work → Work) : State :=
  { s with fe := { s.fe with parsers := s.fe.parsers.map (fun p => p.mapWork f), orphans := s.fe.orphans.map (fun x => (x.1, f x.2)) },
           streams := s.streams.map (fun e => (e.1, e.2.map (fun x => { x with parser := x.parser.mapWork f }))) }

/-- Type, argument, stream number and region of a packet (R80, R82). -/
def pkType (k : BitVec 512) : Nat := fld k 0 8
def pkArg (k : BitVec 512) : Nat := fld k 24 8
def pkTag (k : BitVec 512) : Nat := fld k 32 32
def pkOrder (k : BitVec 512) : Nat := fld k 16 2
def pkScope (k : BitVec 512) : Nat := fld k 20 4
def pkRegion (k : BitVec 512) : Nat := fld k 64 12
def pkStream (k : BitVec 512) : Nat := fld k 80 16

/-! ### Control blocks (R105, R106) -/

def Stream.pnum (x : Stream) : Nat := fld x.img 128 32
def Stream.pden (x : Stream) : Nat := fld x.img 160 16
def Stream.lowest (x : Stream) : Nat := fld x.img 180 3
def Stream.nrungs (x : Stream) : Nat := fld x.img 184 3 + 1
def Stream.cancels (x : Stream) : Bool := fld x.img 187 1 == 1
def Stream.overlap (x : Stream) : Nat := fld x.img 189 1
def Stream.climbn (x : Stream) : Nat := fld x.img 192 8
def Stream.flume (x : Stream) : Fin 256 := Fin.ofNat 256 (fld x.img 208 8)
def Stream.dloff (x : Stream) : Nat := fld x.img 224 32
def Stream.margin (x : Stream) : Nat := fld x.img 256 32
def Stream.ctxBase (x : Stream) : Nat := fld x.img 320 64
def Stream.ctxStride (x : Stream) : Nat := fld x.img 384 32
def Stream.ctxRing (x : Stream) : Nat := fld x.img 416 4 + 1
def Stream.aper (x : Stream) : Nat := fld x.img 420 8
def Stream.anchor (x : Stream) (k : Nat) : Nat := fld x.img (448 + 64 * k) 64
def Stream.cmap (x : Stream) : Nat := fld x.img 576 64
def Stream.fjbase (x : Stream) : Nat := fld x.img 640 64
def Stream.ringBase (x : Stream) : Nat := fld x.img 704 64
def Stream.payBase (x : Stream) : Nat := fld x.img 768 64
def Stream.slotBytes (x : Stream) : Nat := fld x.img 832 32
def Stream.nslots (x : Stream) : Nat := fld x.img 864 6 + 1
def Stream.ecbAddr (x : Stream) : Nat := fld x.img 896 64
def Stream.vec (x : Stream) : Nat := fld x.img 960 6
def Stream.irq (x : Stream) : Bool := fld x.img 966 1 == 1
/-- Fields of rung table entry `r`. -/
def Stream.rungAt (x : Stream) (r lo len : Nat) : Nat := fld x.img (2048 + 256 * r + lo) len
def Stream.ibAddr (x : Stream) (r : Nat) : Nat := x.rungAt r 0 64
def Stream.ibCount (x : Stream) (r : Nat) : Nat := x.rungAt r 64 21
def Stream.est (x : Stream) (r : Nat) : Nat := x.rungAt r 96 32
def Stream.stepsOf (x : Stream) (r : Nat) : Nat := x.rungAt r 128 32
def Stream.interp (x : Stream) (r : Nat) : Bool := x.rungAt r 160 1 == 1
def Stream.user (x : Stream) (r : Nat) : Nat := x.rungAt r 192 64

/-- release(f) and deadline(f) (R109). -/
def Stream.releaseOf (x : Stream) (f : Nat) : Nat := x.anchorA + (f - x.anchorF0) * x.pnum / x.pden
def Stream.deadlineOf (x : Stream) (f : Nat) : Nat := x.releaseOf f + x.dloff

/-- The status section of the control block (R105). -/
def Stream.status (x : Stream) : Nat :=
  x.runghist.toNat + x.released % 2 ^ 32 * 2 ^ 64 + x.ontime % 2 ^ 32 * 2 ^ 96 + x.late % 2 ^ 32 * 2 ^ 128 + x.drops % 2 ^ 32 * 2 ^ 160
    + x.climbs % 2 ^ 32 * 2 ^ 192 + x.deferred % 2 ^ 32 * 2 ^ 224 + x.ringdrop % 2 ^ 32 * 2 ^ 256 + x.negslack % 2 ^ 32 * 2 ^ 288
    + x.run % 2 ^ 8 * 2 ^ 320 + x.state % 4 * 2 ^ 328 + x.stopcause % 2 ^ 8 * 2 ^ 336 + x.lastfin % 2 ^ 64 * 2 ^ 384 + x.minslack.toNat * 2 ^ 448

/-- Memory written for a stream or a region by a master; where it does not translate or is refused, it is not written. -/
def State.tryWrite (s : State) (m : Fin 256) (key r va : Nat) (b : List Byte) : State :=
  match s.devWrite m key r va b with
  | .ok s1 => s1
  | .error e => s.noteStop m e

/-- A write that carries the agent's release at an entry of the region's table (R215). -/
def State.devWriteRel (s : State) (m : Fin 256) (key r va : Nat) (b : List Byte) (idx : Nat) : Except FeStop State :=
  match s.devRange m r kWrite va b.length with
  | .error e => .error e
  | .ok ps => .ok ((ps.foldl (fun t p => t.carryRels p.1 p.2.1 [s.releaseBy key r idx]) (s.devPut key ps b)).partsOut r true ps)

/-- The status section, FRAME and RUNG written back to the control block, with a release at scope 15 (R110). -/
def State.writeScb (s : State) (n : Nat) : Except FeStop State :=
  match s.stream n with
  | none => .ok s
  | some x =>
    match s.devPiece feMaster x.scbCtx kWrite (x.scb + 8, 184) with
    | .error e => .error e
    | .ok (pa, n, leaf) =>
      let put (t : State) (off : Nat) (b : List Byte) : State :=
        ((t.performScoped feKey (pa + off) b).1).carryRels (pa + off) b.length [s.releaseBy feKey x.scbCtx 15]
      .ok ((put (put (put s 120 (natLe 64 x.status)) 0 (natLe 8 x.frame)) 14 [BitVec.ofNat 8 (fld (setFld x.img 176 3 x.rung) 176 8)]).partsOut x.scbCtx true [(pa, n, leaf)])

/-! ### Slots (R117, R118) -/

/-- The 16 bytes of a status word (R117). -/
def SlotWord.word (w : SlotWord) (seq : Nat) : Nat :=
  w.state + w.rung % 8 * 2 ^ 4 + w.filled.toNat * 2 ^ 7 + w.late.toNat * 2 ^ 8 + w.interp.toNat * 2 ^ 9 + w.key.toNat * 2 ^ 10 + w.trunc.toNat * 2 ^ 11
    + w.frame % 2 ^ 32 * 2 ^ 16 + seq % 2 ^ 16 * 2 ^ 48 + w.bytes % 2 ^ 32 * 2 ^ 64 + seq % 2 ^ 16 * 2 ^ 112

/-- A hardware write of a slot's status word, after a release at scope 15: the slot's count rises with it. -/
def State.putStatus (s : State) (m : Fin 256) (key n slot : Nat) (w : SlotWord) : Except FeStop State :=
  match s.stream n with
  | none => .ok s
  | some x =>
    let seq := (x.seqs[(Fin.ofNat 64 slot : Fin 64)] + 1) % 65536
    match s.devWriteRel m key x.region (x.ringBase + 16 * slot) (natLe 16 (w.word seq)) 15 with
    | .error e => .error e
    | .ok s1 => .ok (s1.modStream n (fun x => { x with seqs := x.seqs.set (Fin.ofNat 64 slot : Fin 64) seq }))

/-- Clock of a master of the front end or of an encoder. -/
def masterKey (m : Fin 256) : Nat := if m = feMaster then feKey else encKey (Fin.ofNat 8 (m.val - 0x80))

/-! ### Frame jobs -/

/-- The frame job of a frame, unless a fault has ended it. -/
def Stream.job (x : Stream) (f : Nat) : Option FrameJob := x.jobs.find? (fun j => j.frame == f && !j.faulted)
def Stream.modJob (x : Stream) (f : Nat) (g : FrameJob → FrameJob) : Stream := { x with jobs := x.jobs.map (fun j => if j.frame = f then g j else j) }

/-- A frame's slot leaves ENCODING with a status word that a master writes (R118). Where the write meets a tier miss, the job owes the word until
the page is there; a word that faults or is refused is left out (log 31). LATE is judged as the word is written (R117). -/
def State.leaveSlot (s : State) (m : Fin 256) (n f : Nat) (w : SlotWord) : State :=
  match s.stream n with
  | none => s
  | some x =>
    match x.jobs.find? (fun j => j.frame == f) with
    | none => s
    | some j =>
      match j.slot with
      | none => s
      | some k =>
        let gone (t : State) : State := t.modStream n (fun x => x.modJob f (fun j => { j with left := true, owes := none }))
        let w' : SlotWord := { w with late := w.late || decide (j.deadline < s.tb.now.toNat) }
        match s.putStatus m (masterKey m) n k w' with
        | .ok s1 => gone s1
        | .error (.miss va) => (s.modStream n (fun x => x.modJob f (fun j => { j with owes := some (m.val, w) }))).missIn x.region va (.owed n)
        | .error e => gone (s.noteStop m e)

/-- The slot of a frame job that is still ENCODING becomes SKIPPED (R118). -/
def State.skipSlot (s : State) (n : Nat) (j : FrameJob) (late : Bool) : State :=
  match s.stream n with
  | none => s
  | some x => if j.left || j.owes.isSome then s
    else s.leaveSlot feMaster n j.frame { state := 3, frame := j.frame, rung := j.rung, interp := x.interp j.rung, late := late }

/-- The encoder gives up a frame: its tiles are discarded (R114, R120). -/
def State.dropTiles (s : State) (n f : Nat) : State :=
  { s with encoders := s.encoders.map (fun e =>
      let e := if e.current = some (n, f) then { e with current := none, tiles := [], filled := false } else e
      { e with held := e.held.filter (fun r => !(decide (r.1 = n) && decide (fld r.2.1 0 32 = f % 2 ^ 32))) }) }

/-- The operators of a work packet dispatch no further step; their steps that wait on no core are dropped (R95, R114). -/
def State.stopOps (s : State) (ops : List Nat) : State :=
  { s with sched := { s.sched with ops := s.sched.ops.map (fun o => if ops.contains o.opseq then { o with stopped := true } else o),
                                   steps := s.sched.steps.filter (fun t => !(ops.contains t.op && (decide (t.state = 0) || decide (t.state = 3)))) } }

/-- No page-in has anything more to say to a parser: what it waited for there is no more (R85). -/
def State.dropWaits (s : State) (p : Nat) : State :=
  let mine (w : PageWaiter) : Bool := match w with | .parser k => k == p | .accept k _ => k == p | _ => false
  { s with trans := { s.trans with pageIns := s.trans.pageIns.map (fun x => { x with waiters := x.waiters.filter (fun w => !mine w) }) } }

/-- Nothing more of a frame's indirect buffer parses (R108, R114): a packet of it that waits for the bucker is withdrawn. -/
def State.dropParse (s : State) (n f : Nat) : State :=
  match s.stream n with
  | none => s
  | some x =>
    if x.parser.frame = some f then
      let ids := (x.parser.work.filter (fun _ => x.parser.stalled)).map (·.id)
      let gone := ids.filter (fun i => s.sched.waiting.any (fun w => w.2 == i))
      let s1 := State.dropWaits { s with sched := { s.sched with waiting := s.sched.waiting.filter (fun w => !gone.contains w.2) } } (n + 128)
      s1.modStream n (fun x => { x with parser := { x.parser with levels := [], work := x.parser.work.filter (fun w => !gone.contains w.id), tlwait := none,
                                                                  stalled := false, frame := none } })
    else s.modStream n (fun x => { x with parseQueue := x.parseQueue.filter (fun e => e.1 != f) })

/-- The LAUNCHes and BUNDLEs of a cancelled frame drop their undispatched steps and end without completion (R114). -/
def State.cancelFrame (s : State) (n f : Nat) : State :=
  let s0 := s.dropParse n f
  match s0.stream n with
  | none => s0
  | some x =>
    let ws := x.parser.work.filter (fun w => decide (w.frame = some f) && decide (w.exec = 1))
    let ids := ws.map (·.id)
    (s0.stopOps (ws.flatMap (·.ops))).modStream n (fun x =>
      { x with parser := { x.parser with work := x.parser.work.map (fun w => if ids.contains w.id then { w with cancelled := true } else w) } })

/-- A level that begins at a packet, with a number of packets. -/
def freshLevel (next : Nat) (left : Option Nat) : Level :=
  { next := next, left := left, buf := [], early := [], active := false, loopPkt := 0, loopNew := false, passes := 0, bodyFrom := 0, body := [], bodyLen := 0,
    bodyPos := 0, skip := 0 }

/-- The levels of a stream queue: a ring that never holds a packet, and the indirect buffer of a frame (R110). -/
def ringLevel : Level := freshLevel 0 (some 0)
def bufferLevel (va count : Nat) : Level := freshLevel va (some count)

/-- The next indirect buffer of a stream queue begins, where none is being parsed (R110). -/
def Stream.feed (x : Stream) : Stream :=
  if x.parser.levels.length ≤ 1 then
    match x.parseQueue with
    | (f, va, c) :: t => { x with parser := { x.parser with levels := [ringLevel, bufferLevel va c], frame := some f }, parseQueue := t }
    | [] => { x with parser := { x.parser with levels := [], frame := none } }
  else x

/-! ### The end of frame jobs and of streams (R108, R110, R114) -/

/-- A stream is STOPPED: flume and encoder unbound, the control block written back, STOP and DESTROY ready to complete (R108); while the write
waits for a page, the stream stays STOPPING; `out` leaves the write out, where the page cannot be had. -/
def State.stoppedNow (s : State) (n : Nat) (out : Bool) : State :=
  match s.stream n with
  | none => s
  | some x =>
    let s1 := s.modStream n (fun x => { x with state := 0, encoder := none, stage := 0 })
    let fin (s2 : State) : State :=
      let s3 := { s2 with fab := { s2.fab with flumes := s2.fab.flumes.set x.flume { s2.fab.flumes[x.flume] with stream := none } } }
      let s4 := if x.destroying then { s3 with streams := sset none s3.streams n none } else s3
      s4.mapWorks (fun w => if w.exec = 3 ∧ pkStream w.pkt = n then { w with exec := 0 } else w)
    match s1.writeScb n with
    | .ok s2 => fin s2
    | .error (.miss va) => if out then fin s1 else s.missIn x.scbCtx va (.owed n)
    | .error e => fin (s1.noteStop feMaster e)

/-- A stopping stream without a frame job in flight is stopped. -/
def State.checkStopped (s : State) (n : Nat) : State :=
  match s.stream n with
  | some x => if x.state = 2 ∧ x.jobs.isEmpty ∧ x.owedFin = 0 then s.stoppedNow n false else s
  | none => s

/-- Every packet of a frame's indirect buffer has completed. -/
def Stream.packetsOver (x : Stream) (f : Nat) : Bool :=
  x.parser.frame != some f && !x.parseQueue.any (fun e => e.1 == f) && !x.parser.work.any (fun w => w.frame == some f)

/-- A frame job is over (R110, R114): its packets have completed, or it was cancelled, and its slot has left ENCODING. -/
def Stream.jobOver (x : Stream) (j : FrameJob) : Bool := !j.faulted && (j.cancelled || x.packetsOver j.frame) && (j.slot.isNone || j.left)

/-- The write-back that finished jobs wait for, and their interrupts after it (R110). -/
def State.payScb (s : State) (n : Nat) : State :=
  match s.stream n with
  | none => s
  | some x =>
    let fin (t : State) : State :=
      let t1 := t.modStream n (fun x => { x with owedFin := 0 })
      if x.irq then (List.range x.owedFin).foldl (fun t _ => t.msix x.func x.vec) t1 else t1
    if x.owedFin = 0 then s
    else match s.writeScb n with
      | .ok t => fin t
      | .error (.miss va) => s.missIn x.scbCtx va (.owed n)
      | .error e => fin (s.noteStop feMaster e)

/-- A frame job finishes (R110, R114): the counters, then the write-back. -/
def State.finishJob (s : State) (n f : Nat) : State :=
  match s.stream n with
  | none => s
  | some x =>
    match x.job f with
    | none => s
    | some j =>
      let t := s.tb.now.toNat
      let ok := decide (t ≤ j.deadline) && !j.cancelled
      let run := if !j.neg && decide (t + x.margin ≤ j.deadline) then min (x.run + 1) 255 else 0
      let s1 := s.modStream n (fun x =>
        { x with ontime := if ok then x.ontime + 1 else x.ontime, late := if ok then x.late else x.late + 1, run := run, lastfin := t,
                 minslack := BitVec.ofInt 64 j.minSlack, jobs := x.jobs.filter (fun j => j.frame != f), owedFin := x.owedFin + 1 })
      (s1.payScb n).checkStopped n

/-- What a stream owes is written, if it may be now; jobs that this ends are finished or removed, and a stopping stream stops. -/
def State.settleStream (s : State) (n : Nat) : State :=
  match s.stream n with
  | none => s
  | some x =>
    let s1 := x.jobs.foldl (fun s j => match j.owes with | some (m, w) => s.leaveSlot (Fin.ofNat 256 m) n j.frame w | none => s) s
    let s2 := s1.modStream n (fun x => { x with jobs := x.jobs.filter (fun j => !(j.faulted && (j.slot.isNone || j.left))) })
    let ends : List Nat := match s2.stream n with | some y => (y.jobs.filter (fun j => j.cancelled && y.jobOver j)).map (·.frame) | none => []
    ((ends.foldl (fun s f => s.finishJob n f) s2).payScb n).checkStopped n

/-- A page that a stream waited for to write what it owes cannot be had: what it owes there is left out. -/
def State.forgiveStream (s : State) (n : Nat) : State :=
  match s.stream n with
  | none => s
  | some x =>
    let s1 := s.modStream n (fun x => { x with jobs := x.jobs.map (fun j => if j.owes.isSome then { j with left := true, owes := none } else j), owedFin := 0 })
    let s2 := if x.irq then (List.range x.owedFin).foldl (fun t _ => t.msix x.func x.vec) s1 else s1
    if x.state = 2 ∧ x.jobs.isEmpty then s2.stoppedNow n true else s2.settleStream n

/-- A frame job ends without a finish; the stream stops with a cause (R108, R110). -/
def State.stopStream (s : State) (n cause : Nat) : State :=
  (s.modStream n (fun x => { x with state := if x.state = 1 then 2 else x.state, stopcause := cause, stage := 0 })).checkStopped n

/-- The present frame job of a stream queue is ended by a fault: its slot is SKIPPED, nothing more of it parses, the stream stops
(R97, R108); it does not go through Finish, so it counts neither as ONTIME nor as LATE, which the spec leaves open (R114; DESIGN CHOICE, log 28); `notice` for a fault that R140 does not notify. -/
def State.endJob (s : State) (n f cause : Nat) (notice : Bool) : State :=
  match s.stream n with
  | none => s
  | some x =>
    let s1 := match x.job f with
      | some j => (s.skipSlot n j false).dropTiles n f
      | none => s
    let s2 := (s1.dropParse n f).modStream n (fun x => Stream.feed (x.modJob f (fun j => { j with faulted := true })))
    let s3 := if notice then s2.faultNotice x.region 0 cause 0 else s2
    (s3.stopStream n cause).settleStream n

end Sys2Proof.Machine
end

