-- ==== Sys2Proof/Machine/Parse.lean ====
section
/-! DEFINITION. The parse of packets: faults of queues and stream queues (spec/03 R97, R108), the saving of parse state (R99), levels,
units, loops and skips (R86 to R89), the checks of a packet (R80 to R86, R97), and its dispatch (R90, R91). -/

namespace Sys2Proof.Machine

/-! ### Levels (R86, R87) -/

/-- The body of a loop in progress is held from `bodyFrom` on. -/
def Level.loaded (l : Level) : Bool := decide (l.body.length = l.bodyLen - l.bodyFrom)

/-- The level's next packet, if it is held or fetched. -/
def Level.head (l : Level) : Option (BitVec 512) :=
  if l.active then (if l.loaded && !l.loopNew && l.passes != 0 && decide (l.bodyFrom ≤ l.bodyPos) then l.body[l.bodyPos - l.bodyFrom]? else none) else l.buf.head?

/-- Position, counted from `next`, of the packet that the level fetches next. -/
def Level.fetchPos (l : Level) : Nat := if l.active && !l.loaded then l.bodyFrom + l.body.length else (if l.active then l.bodyLen else 0) + l.buf.length

/-- The innermost level and its number. -/
def Parser.top (p : Parser) : Option (Nat × Level) := p.levels.getLast?.map (fun l => (p.levels.length - 1, l))
def Parser.modTop (p : Parser) (f : Level → Level) : Parser :=
  { p with levels := match p.levels.getLast? with | some l => p.levels.dropLast ++ [f l] | none => [] }
def Parser.modLevel (p : Parser) (k : Nat) (f : Level → Level) : Parser :=
  { p with levels := match p.levels[k]? with | some l => p.levels.set k (f l) | none => p.levels }

/-- Place of the packet `n` after the level's `next`: `step` is 1 at the ring and 64 in a buffer. -/
def Level.after (l : Level) (step n : Nat) : Nat := if step = 1 then (l.next + n) % 2 ^ 32 else l.next + step * n

/-- Place of the packet before the level's `next`. -/
def Level.before (l : Level) (step : Nat) : Nat := if step = 1 then (l.next + 2 ^ 32 - 1) % 2 ^ 32 else l.next - step

/-- The level moves past `n` packets. -/
def Level.pass (l : Level) (step n : Nat) : Level :=
  { l with next := l.after step n, left := l.left.map (· - n), buf := l.buf.drop n, early := if n ≤ l.buf.length then l.early else [] }

/-- The loop in progress ends: the level goes on after its body. -/
def Level.endLoop (l : Level) (step : Nat) : Level :=
  { freshLevel (l.after step l.bodyLen) (l.left.map (· - l.bodyLen)) with buf := l.buf, early := l.early, skip := l.skip }

/-- A packet as a skip counts it: a LOOP takes its body with it (R86). -/
def skipTake (k : BitVec 512) : Nat := if pkType k = 5 ∧ 1 ≤ fld k 80 5 ∧ fld k 80 5 ≤ 16 then 1 + fld k 80 5 else 1

/-- The level's own step where it needs no new packet: the end of a pass or of a loop, a skip in a body, a skip of fetched packets, the
end of a skip at a buffer's end; `avail` packets of the ring are made available. A body of which a part was read afresh is read whole for the
next pass (R89). -/
def Level.move (l : Level) (step avail : Nat) : Option Level :=
  if l.active then
    if !l.loaded || l.loopNew then none
    else if l.passes = 0 then some (l.endLoop step)
    else if l.skip ≠ 0 then some { l with bodyPos := min l.bodyLen (l.bodyPos + l.skip), skip := 0 }
    else if l.bodyLen ≤ l.bodyPos then
      (if l.passes = 1 then some (l.endLoop step)
       else some { l with passes := l.passes - 1, bodyPos := 0, body := if l.bodyFrom = 0 then l.body else [], early := if l.bodyFrom = 0 then l.early else [], bodyFrom := 0 })
    else none
  else if l.skip = 0 then none
  else if l.left = some 0 then some { l with skip := 0 }
  else match l.buf.head? with
    | none => none
    | some k =>
      let take := match l.left with | some n => min n (skipTake k) | none => skipTake k
      if l.left = none ∧ avail < take then none else some { (l.pass step take) with skip := l.skip - 1 }

/-- Units skipped, passes turned and finished levels closed, until a packet parses or must be fetched. -/
def Parser.settle : Nat → Parser → Parser
  | 0, p => p
  | k + 1, p =>
    match p.top with
    | none => p
    | some (i, l) =>
      let step := if i = 0 then 1 else 64
      match l.move step ((p.wptr + 2 ^ 32 - l.next) % 2 ^ 32) with
      | some l1 => Parser.settle k (p.modTop (fun _ => l1))
      | none => if i ≠ 0 ∧ l.left = some 0 ∧ !l.active then Parser.settle k { p with levels := p.levels.dropLast } else p

def Parser.settled (p : Parser) : Parser := p.settle 512

/-- The packet at the parse point is consumed. -/
def Parser.consume (p : Parser) : Parser :=
  match p.top with
  | none => p
  | some (i, _) => p.modTop (fun l => if l.active then { l with bodyPos := l.bodyPos + 1 } else l.pass (if i = 0 then 1 else 64) 1)

/-- Address of the packet at a place of a level: in the ring its place in the ring (R158). -/
def State.placeAddr (s : State) (p i place : Nat) : Nat :=
  if i = 0 then (if h : p < 128 then (match s.fe.parsers[p].queue with | some q => qdPacket (s.qd q) place | none => 0) else 0) else place

/-- Address of the packet at the parse point, for records. -/
def State.packetAddr (s : State) (p : Nat) (x : Parser) : Nat :=
  match x.top with
  | none => 0
  | some (i, l) => s.placeAddr p i (l.after (if i = 0 then 1 else 64) (if l.active then l.bodyPos else 0))

/-- Level-0 index of the packet at the parse point (R74): inside an indirect buffer, of the IB packet that opened it. -/
def Parser.index0 (p : Parser) : Nat :=
  match p.levels[0]? with
  | none => 0
  | some l => (l.next + (if l.active then l.bodyPos else 0) + (if p.levels.length ≤ 1 then 0 else 2 ^ 32 - 1)) % 2 ^ 32

/-- RPTR (R74): the next level-0 packet; a LOOP whose body is not loaded yet has not been parsed (log 23). -/
def Parser.rptr (p : Parser) (dflt : Nat) : Nat := match p.levels[0]? with | some l => (if l.loopNew then l.before 1 else l.next) | none => dflt

/-! ### Saving and faults (R76, R97 to R99, R108) -/

/-- A level as it is saved: a LOOP whose body is not loaded yet parses again. -/
def Level.unparsed (l : Level) (step : Nat) : Level := if l.loopNew then { freshLevel (l.before step) (l.left.map (· + 1)) with skip := l.skip } else l

/-- The levels of a parser as they are saved. -/
def Parser.savedLevels (p : Parser) : List Level := (p.levels.zipIdx).map (fun x => x.1.unparsed (if x.2 = 0 then 1 else 64))

/-- LOOPST of a level (R74). -/
def Level.loopst (l : Level) : Nat := if l.active then l.passes % 65536 + l.bodyLen % 32 * 2 ^ 16 + l.bodyPos % 32 * 2 ^ 21 + 2 ^ 26 else 0
/-- LSTACK entry of a level. -/
def Level.lstack (l : Level) : Nat := l.next % 2 ^ 64 + (l.left.getD 0) % 2 ^ 32 * 2 ^ 64

/-- The parse state as a descriptor saves it, with the device time `now` for the limit left (R99); a wait record of a TLWAIT that has not
parsed again stays (R100). -/
def Parser.save (p : Parser) (now : Nat) (d : BitVec 2048) : BitVec 2048 :=
  let ls := p.savedLevels
  let loopst := (List.range 5).foldr (fun i acc => (match ls[i]? with | some l => l.loopst | none => 0) + 2 ^ 64 * acc) 0
  let lstack := (List.range 4).foldr (fun i acc => (match ls[i + 1]? with | some l => l.lstack | none => 0) + 2 ^ 128 * acc) 0
  let d1 := setFld (setFld (setFld d 96 32 (p.rptr (qdRptr d))) 1024 512 lstack) 1536 320 loopst
  match p.tlwait with
  | some (va, v, lim) =>
    let left := match lim with | some e => max 1 ((e - now + 999) / 1000) | none => 0
    setFld (setFld (setFld (setFld d1 1856 64 va) 1920 64 v) 1984 32 left) 2016 1 1
  | none => if p.waitLeft.isSome then d1 else setFld d1 1856 161 0

/-- What no unmapped queue has kept. -/
def Kept.none : Kept := { skips := [], loops := [], rels := [] }

/-- What the parse state keeps beside the descriptor (log 23). -/
def Parser.kept (p : Parser) : Kept :=
  let ls := p.savedLevels
  { skips := if ls.any (fun l => l.skip != 0) then ls.map (·.skip) else [], loops := if ls.any (·.active) then ls.map (·.loopPkt) else [], rels := p.rels }

/-- A slot gives its queue up: its packets in flight run on, the latch no longer maps it (R79, R99). -/
def State.freeSlot (s : State) (k : Fin 128) (q : Nat) : State :=
  let p := s.fe.parsers[k]
  let gone := (p.work.filter (fun w => s.sched.waiting.any (fun y => y.2 == w.id))).map (·.id)
  let s1 : State := { s with
    fe := { s.fe with
      parsers := s.fe.parsers.set k Parser.reset, latchMap := sset none s.fe.latchMap q none, kept := sset Kept.none s.fe.kept q p.kept,
      latchBits := setFld s.fe.latchBits k.val 1 0, orphans := s.fe.orphans ++ (p.work.filter (fun w => !gone.contains w.id)).map (fun w => (q, w)) },
    sched := { s.sched with waiting := s.sched.waiting.filter (fun w => !gone.contains w.2) } }
  s1.dropWaits k.val

/-- Steps 3 to 5 of an unmap (R99). -/
def State.saveSlot (s : State) (k : Fin 128) : State :=
  let p := s.fe.parsers[k]
  match p.queue with
  | none => s
  | some q =>
    let latch := fld s.fe.latchBits k.val 1
    let s1 := s.modQd q (fun d => setFld (setFld (setFld (p.save s.tb.now.toNat d) 149 1 (max (fld d 149 1) latch)) 152 3 1) 168 8 0xFF)
    let s2 := s1.freeSlot k q
    { s2 with fe := { s2.fe with unmapDone := setFld s2.fe.unmapDone k.val 1 1 }, notes := s2.notes ++ [.unmapDone k.val, .fwIrq] }

/-- What a fault of a queue reports (R97, R98). -/
structure PktFault where
  cause : Nat
  pkt : BitVec 512
  level : Nat
  addr : Nat
  index0 : Nat
  companion : Nat := 0
deriving DecidableEq, Repr

/-- A fault of a packet in flight. -/
def Work.fault (w : Work) (cause companion : Nat) : PktFault :=
  { cause := cause, pkt := w.pkt, level := w.level, addr := w.addr, index0 := w.index0, companion := companion }

/-- The FRONT_END record of a fault (R98, R159). -/
def State.logFrontEnd (s : State) (queue region : Nat) (f : PktFault) : State :=
  s.log { cls := 0x0C, addr := f.addr, data0 := fld f.pkt 0 64, data1 := fld f.pkt 64 64, tag := pkTag f.pkt, region := region, level := f.level, queue := queue,
          master := 0x88, companion := f.companion, cause := f.cause }

/-- A queue faults (R76, R97): it is not runnable any more. -/
def State.faultQueue (s : State) (q : Nat) (f : PktFault) : State :=
  let s1 := s.logFrontEnd q (qdRegion (s.qd q)) f
  let st := qdState (s.qd q)
  if st = 0 ∨ st = 4 then s1
  else
    let k : Fin 128 := Fin.ofNat 128 (qdSlot (s.qd q))
    let mapped := decide (st = 2) || decide (st = 3)
    let rptr := if mapped then s.fe.parsers[k].rptr (qdRptr (s.qd q)) else qdRptr (s.qd q)
    let latch := if mapped then fld s.fe.latchBits k.val 1 else 0
    -- from UNMAPPING the save completes first
    let s2 := if st = 3 then s1.saveSlot k else if st = 2 then s1.freeSlot k q else s1
    let s3 := s2.modQd q (fun d => setFld (setFld (setFld (setFld (setFld (setFld (setFld d 96 32 rptr) 149 1 (max (fld d 149 1) latch)) 152 3 4) 168 8 0xFF) 176 8 f.cause)
      192 32 f.index0) 224 32 (pkTag f.pkt))
    let s4 : State := { s3 with fe := { s3.fe with runnableSince := s3.fe.runnableSince.filter (· != q) } }
    s4.msix (qdFunc (s.qd q)) (fld (s.qd q) 160 6)

/-- A parser's queue faults, or its frame job ends (R97, R108); `notice` where R140 gives none. -/
def State.faultParser (s : State) (p : Nat) (f : PktFault) (frame : Option Nat) (notice : Bool) : State :=
  if h : p < 128 then (match s.fe.parsers[p].queue with | some q => s.faultQueue q f | none => s)
  else
    let n := p - 128
    let s1 := if notice then s.logFrontEnd 0xFFFF (s.parserRegion p) f else s
    match frame with
    | some k => s1.endJob n k f.cause notice
    | none => s1

/-- The packet at the parse point is refused, or faults as it performs. -/
def State.refuse (s : State) (p : Nat) (cause : Nat) : State :=
  match s.parser p with
  | none => s
  | some x =>
    match x.top with
    | none => s
    | some (i, l) => s.faultParser p { cause := cause, pkt := l.head.getD 0, level := i, addr := s.packetAddr p x, index0 := x.index0 } x.frame true

/-- A packet of the loop at the innermost level is refused as its body is loaded: the LOOP packet itself, or the packet at a position of the body. -/
def State.refuseBody (s : State) (p : Nat) (i : Nat) (l : Level) (cause : Nat) (at' : Option (Nat × BitVec 512)) : State :=
  match s.parser p with
  | none => s
  | some x =>
    let step := if i = 0 then 1 else 64
    let place := match at' with | some (k, _) => l.after step k | none => l.before step
    let idx := if i = 0 then place else x.index0
    s.faultParser p { cause := cause, pkt := (at'.map (·.2)).getD l.loopPkt, level := i, addr := s.placeAddr p i place, index0 := idx } x.frame true

/-- An access of the front end for a parser stops: a page-in starts and the access is tried again, or the queue faults (R85). -/
def State.stopParse (s : State) (p : Nat) (e : FeStop) : State :=
  match e with
  | .miss va => s.missIn (s.parserRegion p) va (.parser p)
  | e => (s.noteStop feMaster e).refuse p e.cause

/-! ### The level-0 index in the descriptor (R75) -/

/-- RPTR written back; a queue with nothing left to parse begins to be idle (R79). -/
def State.syncRptr (s : State) (p : Nat) : State :=
  if h : p < 128 then
    let x := s.fe.parsers[p]
    match x.queue with
    | some q =>
      let r := x.rptr (qdRptr (s.qd q))
      let s1 := if qdRptr (s.qd q) = r then s else s.modQd q (fun d => setFld d 96 32 r)
      s1.modParser p (fun x => { x with idleSince := s.tb.now.toNat })
    | none => s
  else s.modStream (p - 128) (fun x => if x.parser.levels.length ≤ 1 then x.feed else x)

/-- A parser's levels settle, and what that changes is written back. -/
def State.settleParser (s : State) (p : Nat) : State := (s.modParser p Parser.settled).syncRptr p

/-- The packet at the parse point is done with. -/
def State.advance (s : State) (p : Nat) : State := (s.modParser p Parser.consume).settleParser p

/-! ### The checks of a packet (R97) -/

/-- Bits that a type gives a meaning, above the header (R82). DESIGN CHOICE (log 36): RUNG of a STREAM packet and PARENT of a REGION packet count as
fields of every operation of their types, ignored where R82 says 'SETRUNG only' and 'CREATE only', which leaves open whether they are reserved there. -/
def usedBits (ty : Nat) : List (Nat × Nat) :=
  let tail := (384, 128)
  match ty with
  | 0x01 => [(64, 12), (128, 64), (192, 64), tail]
  | 0x02 => [(64, 12), (128, 64), (192, 64), (256, 64), (320, 64), tail]
  | 0x03 => [(64, 64), (128, 32)]
  | 0x04 => [(64, 64), (128, 64), (192, 64), (256, 4), (264, 8)]
  | 0x05 => [(64, 16), (80, 5)]
  | 0x07 => [(64, 64), (128, 64)]
  | 0x08 => [(64, 64), (128, 64), (192, 32)]
  | 0x09 => [(64, 64), (128, 384)]
  | 0x0A => [(64, 12), (80, 16), (128, 64), (192, 8), tail]
  | 0x0B => [(64, 12), (80, 12), (128, 64), tail]
  | 0x0C => [(64, 64), (128, 64)]
  | 0x0D => [(64, 64), (128, 64), (192, 32), tail]
  | _ => []

/-- Some bit outside the fields listed is set. -/
def strayBits (k : BitVec 512) (lo : Nat) (l : List (Nat × Nat)) : Bool :=
  decide ((l.foldl (fun x f => setFld x f.1 f.2 0) k).toNat / 2 ^ lo ≠ 0)

/-- Feature that a type needs (R69). -/
def typeFeature (ty : Nat) : Nat := match ty with | 0x02 => 1 | 0x04 => 2 | 0x05 => 2 | 0x0D => 3 | 0x0A => 4 | 0x0B => 5 | _ => 0

/-- A type has a completion tail (R81). -/
def hasTail (ty : Nat) : Bool := ty == 0x01 || ty == 0x02 || ty == 0x0D || ty == 0x0A || ty == 0x0B

/-- Alignments that a packet's addresses must have: address, alignment (R82). -/
def pkAligns (k : BitVec 512) : List (Nat × Nat) :=
  let ty := pkType k
  let a (lo al : Nat) : Nat × Nat := (fld k lo 64, al)
  (if hasTail ty then [a 384 8] else []) ++
  (match ty with
    | 0x01 => [a 128 64, a 192 64]
    | 0x02 => ([a 128 64, a 192 64, a 256 64, a 320 64]).take (pkArg k + 1)
    | 0x03 => [a 64 64]
    | 0x04 => [a 64 8]
    | 0x07 => [a 64 8]
    | 0x08 => [a 64 8]
    | 0x0A => if pkArg k ≤ 1 then [a 128 512] else []
    | 0x0B => if pkArg k ≤ 1 then [a 128 256] else []
    | 0x0C => [a 64 16]
    | _ => [])

/-- A count, length, PASSES, N, OP or ARG out of range (R82, R83, R86); `left` packets remain in the buffer. -/
def pkRange (k : BitVec 512) (left : Option Nat) : Bool :=
  match pkType k with
  | 0x02 => decide (3 < pkArg k)
  | 0x03 => decide (pkArg k ≠ 0) || decide (fld k 128 32 = 0) || decide (1048576 < fld k 128 32)
  | 0x04 => decide (pkArg k ≠ 0) || decide (8 ≤ fld k 256 4) || decide (fld k 264 8 = 0)
  | 0x05 => decide (pkArg k ≠ 0) || decide (fld k 80 5 = 0) || decide (16 < fld k 80 5) || (match left with | some n => decide (n ≤ fld k 80 5) | none => false)
  | 0x09 => decide (pkArg k = 0) || decide (48 < pkArg k)
  | 0x0A => decide (4 < pkArg k) || decide (1024 ≤ pkStream k)
  | 0x0B => decide (3 < pkArg k)
  | 0x0D => decide (pkArg k ≠ 0) || decide (fld k 192 32 = 0)
  | _ => decide (pkArg k ≠ 0)

/-- Why a loop body, held from a position on, refuses its loop, and the packet of it that is at fault: it holds a LOOP, or a PRED whose N reaches
past its last unit (R86). -/
def bodyCause (from' len : Nat) (body : List (BitVec 512)) : Option (Nat × Option (Nat × BitVec 512)) :=
  if body.any (fun k => decide (pkType k = 5)) then some (0x07, none)
  else ((body.zipIdx).find? (fun e => decide (pkType e.1 = 4) && decide (len < from' + e.2 + 1 + fld e.1 264 8))).map (fun e => (0x08, some (from' + e.2, e.1)))

/-- A parser's queue is privileged (R74). -/
def State.parserPriv (s : State) (p : Nat) : Bool :=
  if h : p < 128 then (match s.fe.parsers[p].queue with | some q => qdPriv (s.qd q) | none => false) else false

/-- Features that judge a parser's packets: BASE always (R69, R70). -/
def State.features (s : State) (func : Nat) : BitVec 256 := (s.fe.featack[(Fin.ofNat 10 func : Fin 10)] &&& s.fe.features) ||| 1

/-- The REGION field of a packet names a region outside the function's subtree; a region that CREATE makes names none yet (R82). -/
def State.regionOutside (s : State) (func : Nat) (k : BitVec 512) : Bool :=
  let r := pkRegion k
  match pkType k with
  | 0x01 | 0x02 | 0x0A => !s.owns func r
  | 0x0B => if pkArg k = 0 ∧ !(s.region r).exist then false else !s.owns func r
  | _ => false

/-- Two ranges share a byte. -/
def rangesMeet (a b n : Nat) : Bool := decide (a < b + n) && decide (b < a + n)

/-- A STREAM packet asks for an operation that the stream's present state does not allow, or for a rung that it does not have (R108); of a stream outside
the subtree of REGION nothing more is asked. -/
def State.streamRange (s : State) (k : BitVec 512) : Bool :=
  match s.stream (pkStream k) with
  | none => pkArg k != 0
  | some x =>
    s.under (pkRegion k) x.region && (match pkArg k with
      | 0 => true
      | 1 => x.state != 0
      | 2 => x.state != 1
      | 3 => x.state == 2 || decide (x.nrungs ≤ fld k 192 8)
      | _ => x.state == 2)

/-- The first cause for which the packet at the parse point is refused before it performs (R97), but for what its body, its object or its
block shows. -/
def State.packetCause (s : State) (p : Nat) (i : Nat) (left : Option Nat) (k : BitVec 512) : Option Nat :=
  let func := s.parserFunc p
  let ty := pkType k
  let feat := s.features func
  if 0x0D < ty then some 0x02
  else if fld k 14 2 ≠ 0 ∨ fld k 19 1 ≠ 0 ∨ pkOrder k = 3 ∨ strayBits k 64 (usedBits ty) ∨ (1 ≤ func ∧ func ≤ 8 ∧ 8 ≤ fld k 8 6) then some 0x01
  else if fld feat (typeFeature ty) 1 = 0 ∨ (pkScope k ≠ 15 ∧ fld feat 7 1 = 0) then some 0x03
  else if (pkAligns k).any (fun a => decide (a.1 % a.2 ≠ 0)) then some 0x04
  else if pkRange k left || (ty = 0x0A && s.streamRange k) then some 0x05
  else if ty = 3 ∧ i = 4 then some 0x06
  else if ty = 0x0B ∧ !s.parserPriv p then some 0x09
  else if s.regionOutside func k then some 0x0A
  else if ty = 0x0D ∧ rangesMeet (fld k 64 64) (fld k 128 64) (fld k 192 32) then some 0x0C
  else none

/-! ### Parsing the packet at the parse point -/

/-- The parser may parse: nothing holds it (R84, R90, R99, R134). -/
def Parser.free (x : Parser) : Bool := !x.stalled && !x.unmapping && x.tlwait.isNone && decide (x.work.length < 64)

/-- The ORDER condition of a packet (R91); FFENCE waits for all (R89). -/
def Parser.ordered (x : Parser) (k : BitVec 512) : Bool :=
  let o := if pkType k = 6 then 2 else pkOrder k
  match o with
  | 1 => !x.work.any (·.latest)
  | 2 => x.work.isEmpty
  | _ => true

/-- The parser's next packet is of a type, and nothing holds it. -/
def State.ready (s : State) (p : Nat) (ty : Nat) : Option (Nat × Level × BitVec 512) :=
  match s.parser p with
  | none => none
  | some x =>
    match x.top with
    | none => none
    | some (i, l) =>
      match l.head with
      | none => none
      | some k => if x.free && (x.ordered k || decide (pkOrder k = 3)) && (decide (pkType k = ty) || decide (0x0D < pkType k)) && l.skip == 0 then some (i, l, k) else none

/-- A packet of type `ty` parses: refused, or performed by `eff`; where none stands at the parse point, nothing changes. -/
def State.parseAs (s : State) (p ty : Nat) (sel : BitVec 512 → Bool) (eff : Nat → Level → BitVec 512 → State → State) : State :=
  match s.ready p ty with
  | none => s
  | some (i, l, k) =>
    if 0x0D < pkType k then s.refuse p 0x02
    else if !sel k then s
    else match s.packetCause p i (if l.active then some (l.bodyLen - l.bodyPos) else l.left) k with
      | some c => s.refuse p c
      | none => eff i l k s

/-- A non-work packet completes at parse (R92). -/
def State.completeAtParse (s : State) (p : Nat) (k : BitVec 512) : State :=
  let s1 := if fld k 18 1 = 1 then s.msix (s.parserFunc p) (fld k 8 6) else s
  s1.advance p

/-- The acquire with which a work packet starts, unless its ORDER is NONE: of the releases that the queue's completed packets have made (R91). -/
def State.startAcquire (s : State) (p : Nat) (k : BitVec 512) : State :=
  match s.parser p with
  | none => s
  | some x => if pkOrder k = 0 then s else { s with fab := s.fab.raiseAgent feKey (acquired x.rels feKey (s.regionScope (s.parserRegion p) (pkScope k)) (pkScope k)) }

/-- A work packet as it leaves parse (R90, R212). -/
def State.workOfPacket (s : State) (p : Nat) (x : Parser) (k : BitVec 512) (exec : Nat) : Work :=
  { id := s.fe.nextWork, pkt := k, exec := exec, latest := true, frame := x.frame, ops := [], faulted := none, cancelled := false, copied := 0, region := s.parserRegion p,
    func := s.parserFunc p, level := x.levels.length - 1, addr := s.packetAddr p x, index0 := x.index0, gen := scopeGen (s.regionScope (s.parserRegion p) (pkScope k)), rels := [], final := none }

/-- The work packet `id` is its queue's most recent one (R91). -/
def Parser.onlyLatest (x : Parser) (id : Nat) : Parser := { x with work := x.work.map (fun w => { w with latest := w.id == id }) }

/-- A work packet is handed to an executor: it is in flight under a number of its own. -/
def State.enlist (s : State) (p : Nat) (k : BitVec 512) (exec : Nat) : State :=
  let s1 : State := { s.startAcquire p k with fe := { s.fe with nextWork := s.fe.nextWork + 1 } }
  s1.modParser p (fun x => { x with work := x.work ++ [s.workOfPacket p x k exec] })

/-- A work packet is dispatched (R90): it is the queue's most recent one. -/
def State.addWork (s : State) (p : Nat) (k : BitVec 512) (exec : Nat) : State := (s.enlist p k exec).modParser p (fun x => x.onlyLatest s.fe.nextWork)

/-- A work packet leaves parse for its executor. -/
def State.dispatchTo (s : State) (p : Nat) (k : BitVec 512) (exec : Nat) : State := (s.addWork p k exec).advance p

/-- A block that the front end reads whole for a parser: the number, or the state in which the read has stopped. -/
def State.readBlock (s : State) (p va n : Nat) : Except State Nat :=
  let r := s.parserRegion p
  match s.feStruct r va n with
  | .ok v => .ok v
  | .error e => .error ((match s.feBad r va n with | some pa => s.logPoison r pa | none => s).stopParse p e)

end Sys2Proof.Machine
end

