-- ==== Sys2Proof/Machine/Packets.lean ====
section
/-! DEFINITION. Fetch of packets (spec/03 R87 to R89), the packets that complete at parse (R83, R84, R86, R89), and the work packets that
the front end performs or hands over (R84, R90). -/

namespace Sys2Proof.Machine

/-! ### Fetch (R87, R88) -/

/-- The parts of memory that a range of packet `k` of level `i`, counted from the level's `next`, lies in: at the ring physical. -/
def State.packetParts (s : State) (p i : Nat) (l : Level) (k off len : Nat) : Except FeStop (List (Nat × Nat)) :=
  if i = 0 then
    match (if h : p < 128 then s.fe.parsers[p].queue else none) with
    | none => .error .page
    | some q =>
      let pa := qdPacket (s.qd q) (l.after 1 k) + off
      match s.refusal feMaster 1 pa len with
      | some t => .error (.rights 1 pa t)
      | none => .ok [(pa, len)]
  else (s.devRange feMaster (s.parserRegion p) kRead (l.after 64 k + off) len).map (fun ps => ps.map (fun x => (x.1, x.2.1)))

/-- What a read of the parts of a packet sends out through a port (R49, R63). -/
def State.packetAsked (s : State) (p : Nat) (ps : List (Nat × Nat)) : State :=
  ps.foldl (fun s x => s.sendOut (s.parserFunc p) (s.effAsid (s.parserRegion p)) x.1 x.2 false) s

/-- The first poisoned granule of 32 bytes in a list of parts. -/
def State.badGranule (s : State) (ps : List (Nat × Nat)) : Option Nat :=
  (ps.flatMap (fun p => (List.range ((p.1 + p.2 + 31) / 32 - p.1 / 32)).map (fun i => (p.1 / 32 + i) * 32))).find? (fun g => s.poisoned g 32)

/-- Packets of a level that may be read: below WPTR, or inside COUNT. -/
def Parser.limit (x : Parser) (l : Level) : Nat := match l.left with | some n => n | none => (x.wptr + 2 ^ 32 - l.next) % 2 ^ 32

/-- A level may read its next packet: it is available, and there is room for it; a loop body is read as a whole (R87). -/
def Parser.mayFetch (x : Parser) (l : Level) : Bool := !x.unmapping && decide (l.fetchPos < x.limit l) && ((l.active && !l.loaded) || decide (l.buf.length < 16))

/-- A packet whose granules were read at several moments (R88). -/
def Level.combine (l : Level) (k : BitVec 512) : BitVec 512 := l.early.foldl (fun k g => setFld k (64 * (g.1 % 8)) 64 g.2.toNat) k

/-- A parser reads granule `g` of the packet that a level fetches next, ahead of the rest (R87, R88); a read that does not perform is made again
with the packet. -/
def State.fetchGranule (s : State) (p level g : Nat) : State :=
  match s.parser p with
  | none => s
  | some x =>
    match x.levels[level]? with
    | none => s
    | some l =>
      if !x.mayFetch l then s
      else match s.packetParts p level l l.fetchPos (8 * g) 8 with
        | .error _ => s
        | .ok ps =>
          if (s.badGranule ps).isSome then s
          else (s.packetAsked p ps).modParser p (fun x => x.modLevel level (fun l =>
            { l with early := l.early.filter (fun e => e.1 != g) ++ [(g, BitVec.ofNat 64 (leNat (ps.flatMap (fun p => memRead s.mem p.1 p.2))))] }))

/-- The interrupt of a packet that completes at parse (R92). -/
def State.parseIrq (s : State) (p : Nat) (k : BitVec 512) : State := if fld k 18 1 = 1 then s.msix (s.parserFunc p) (fld k 8 6) else s

/-- A packet read for a level: behind its buffer, or into its loop body; a body that is whole is checked, and a LOOP that waited for it has then
parsed (R86, R87). -/
def State.gotPacket (s : State) (p level : Nat) (l : Level) (k : BitVec 512) : State :=
  if l.active && !l.loaded then
    let l1 : Level := { l with body := l.body ++ [k], early := [] }
    let s1 := s.modParser p (fun x => x.modLevel level (fun _ => l1))
    if !l1.loaded then s1
    else match bodyCause l1.bodyFrom l1.bodyLen l1.body with
      | some (c, a) => s1.refuseBody p level l1 c a
      | none => ((if l1.loopNew then s1.parseIrq p l1.loopPkt else s1).modParser p (fun x => x.modLevel level (fun l => { l with loopNew := false }))).settleParser p
  else (s.modParser p (fun x => x.modLevel level (fun l => { l with buf := l.buf ++ [k], early := [] }))).settleParser p

/-- PACKET_FETCH (R87 to R89): a level reads the next packet ahead, or the next packet of its loop body; poison reads as a page fault (R155). -/
def execPacketFetch (p : Fin 1152) (level : Fin 5) (s : State) : Out :=
  .next (match s.parser p.val with
    | none => s
    | some x =>
      match x.levels[level.val]? with
      | none => s
      | some l =>
        if !x.mayFetch l then s
        else match s.packetParts p.val level.val l l.fetchPos 0 64 with
          | .error e => s.stopParse p.val e
          | .ok ps =>
            match s.badGranule ps with
            | some g => (s.logPoison (s.parserRegion p.val) g).refuse p.val 0x0D
            | none => (s.packetAsked p.val ps).gotPacket p.val level.val l (l.combine (BitVec.ofNat 512 (leNat (ps.flatMap (fun p => memRead s.mem p.1 p.2))))))

/-! ### Packets that complete at parse -/

/-- NOP (R84). -/
def execNop (p : Fin 1152) (s : State) : Out := .next (s.parseAs p.val 0x00 (fun _ => true) (fun _ _ k s => s.completeAtParse p.val k))

/-- IB (R86): the next level opens at ADDR. -/
def execIb (p : Fin 1152) (s : State) : Out :=
  .next (s.parseAs p.val 0x03 (fun _ => true) (fun _ _ k s =>
    ((s.parseIrq p.val k).modParser p.val (fun x =>
      let y := x.consume
      { y with levels := y.levels ++ [bufferLevel (fld k 64 64) (fld k 128 32)] })).settleParser p.val))

/-- The test of PRED (R83). -/
def predTest (op : Nat) (w v : W64) : Bool :=
  match op with
  | 0 => w == v
  | 1 => w != v
  | 2 => decide (w.toNat < v.toNat)
  | 3 => decide (w.toNat ≤ v.toNat)
  | 4 => decide (v.toNat < w.toNat)
  | 5 => decide (v.toNat ≤ w.toNat)
  | 6 => decide (w.toInt < v.toInt)
  | _ => decide (v.toInt ≤ w.toInt)

/-- PRED (R83, R86): the word is read with an acquire at scope 15. -/
def execPred (p : Fin 1152) (s : State) : Out :=
  .next (s.parseAs p.val 0x04 (fun _ => true) (fun _ _ k s =>
    match s.readBlock p.val (fld k 64 64) 8 with
    | .error t => t
    | .ok w =>
      let r := s.parserRegion p.val
      let s1 := match s.devPiece feMaster r kRead (fld k 64 64, 8) with | .ok x => (s.partsOut r false [x]).acquireAt feKey r 15 x.1 8 | .error _ => s
      let ok := predTest (fld k 256 4) (BitVec.ofNat 64 w &&& BitVec.ofNat 64 (fld k 192 64)) (BitVec.ofNat 64 (fld k 128 64))
      let n := if ok then 0 else fld k 264 8
      ((s1.parseIrq p.val k).modParser p.val (fun x => x.consume.modTop (fun l => { l with skip := n }))).settleParser p.val))

/-- The loop of a LOOP packet at the parse point begins: its body is to be read from memory (R86, R87). -/
def Level.enterLoop (l : Level) (step : Nat) (k : BitVec 512) : Level :=
  let l1 := l.pass step 1
  { l1 with active := true, loopPkt := k, loopNew := true, passes := fld k 64 16, bodyFrom := 0, body := [], bodyLen := fld k 80 5, bodyPos := 0,
            buf := l1.buf.drop (fld k 80 5), early := [] }

/-- LOOP (R86, R87): the body is loaded and checked, then parsed PASSES times. -/
def execLoopPacket (p : Fin 1152) (s : State) : Out :=
  .next (s.parseAs p.val 0x05 (fun _ => true) (fun i _ k s =>
    (s.modParser p.val (fun x => x.modTop (fun l => l.enterLoop (if i = 0 then 1 else 64) k))).settleParser p.val))

/-- A level's fetch buffer and body buffer are discarded: of a loop in progress the rest of the pass is read again (R89). -/
def Level.discard (l : Level) : Level := { l with buf := [], early := [], body := [], bodyFrom := if l.active && !l.loopNew then l.bodyPos else 0 }
def Parser.discard (x : Parser) : Parser := { x with levels := x.levels.map Level.discard }

/-- An acquire at scope 15 of what a queue's completed packets have released (R89). -/
def State.acquireAll (s : State) (p : Nat) : State :=
  match s.parser p with
  | none => s
  | some x => { s with fab := s.fab.raiseAgent feKey (acquired x.rels feKey (s.regionScope (s.parserRegion p) 15) 15) }

/-- FFENCE (R89). -/
def execFfence (p : Fin 1152) (s : State) : Out :=
  .next (s.parseAs p.val 0x06 (fun _ => true) (fun _ _ k s => ((s.acquireAll p.val).completeAtParse p.val k).modParser p.val Parser.discard))

/-- TLWAIT is satisfied: the acquire at its SCOPE, and the packet completes (R84). -/
def State.tlDone (s : State) (p pa : Nat) (k : BitVec 512) : State :=
  ((s.acquireAt feKey (s.parserRegion p) (pkScope k) pa 8).modParser p (fun x => { x with tlwait := none, waitLeft := none })).completeAtParse p k

/-- Device time at which a limit in µs runs out; 0 is no limit. -/
def expiry (now lim : Nat) : Option Nat := if lim = 0 then none else some (now + 1000 * lim)

/-- TLWAIT (R84); after a remap with the limit that the wait record left (R100). -/
def execTlwaitPacket (p : Fin 1152) (s : State) : Out :=
  .next (s.parseAs p.val 0x08 (fun _ => true) (fun _ _ k s =>
    match s.readTimeline (s.parserRegion p.val) (fld k 64 64) with
    | .stop e => s.stopParse p.val e
    | .noAt => s.refuse p.val 0x0B
    | .value v pa =>
      if fld k 128 64 ≤ v then s.tlDone p.val pa k
      else s.modParser p.val (fun x =>
        { x with tlwait := some (fld k 64 64, fld k 128 64, expiry s.tb.now.toNat (x.waitLeft.getD (fld k 192 32))), waitLeft := none })))

/-- The TLWAIT that holds a parser, with the packet. -/
def State.waitingAt (s : State) (p : Nat) : Option (Nat × Nat × Option Nat × BitVec 512) :=
  match s.parser p with
  | none => none
  | some x =>
    match x.tlwait, x.top with
    | some (va, v, e), some (_, l) => if x.unmapping then none else l.head.map (fun k => (va, v, e, k))
    | _, _ => none

/-- TLWAIT_SATISFIED (R84). -/
def execTlwaitSatisfied (p : Fin 1152) (s : State) : Out :=
  .next (match s.waitingAt p.val with
    | none => s
    | some (va, v, _, k) =>
      match s.readTimeline (s.parserRegion p.val) va with
      | .stop e => s.stopParse p.val e
      | .noAt => s.refuse p.val 0x0B
      | .value x pa => if v ≤ x then s.tlDone p.val pa k else s)

/-- TLWAIT_EXPIRED (R84): LIMIT has passed and the object is still below VALUE. -/
def execTlwaitExpired (p : Fin 1152) (s : State) : Out :=
  .next (match s.waitingAt p.val with
    | none => s
    | some (va, v, e, _) =>
      match e with
      | none => s
      | some t =>
        let late := match s.readTimeline (s.parserRegion p.val) va with | .value x _ => decide (x < v) | _ => true
        if decide (t ≤ s.tb.now.toNat) && late then s.refuse p.val 0x10 else s)

/-! ### Work packets that the front end performs (R84, R90) -/

/-- A work packet whose effect is an access of the front end: performed as it is dispatched, after its acquire, ready to complete. -/
def State.performWork (s : State) (p : Nat) (k : BitVec 512) (r : State → Except FeStop State) : State :=
  match r (s.startAcquire p k) with
  | .ok t => t.dispatchTo p k 0
  | .error e => s.stopParse p e

/-- TLSIG (R81, R84). -/
def execTlsig (p : Fin 1152) (s : State) : Out :=
  .next (s.parseAs p.val 0x07 (fun _ => true) (fun _ _ k s =>
    s.performWork p.val k (fun s => s.signal (s.parserRegion p.val) (pkScope k) (fld k 64 64) (BitVec.ofNat 64 (fld k 128 64)) [])))

/-- WRITE (R84): LEN bytes of DATA. -/
def execWrite (p : Fin 1152) (s : State) : Out :=
  .next (s.parseAs p.val 0x09 (fun _ => true) (fun _ _ k s =>
    s.performWork p.val k (fun s => s.devWrite feMaster feKey (s.parserRegion p.val) (fld k 64 64) (natLe (pkArg k) (fld k 128 384)))))

/-- MARK (R84): VALUE and the device time, as one 16-byte access. -/
def execMark (p : Fin 1152) (s : State) : Out :=
  .next (s.parseAs p.val 0x0C (fun _ => true) (fun _ _ k s =>
    s.performWork p.val k (fun s => s.devWrite feMaster feKey (s.parserRegion p.val) (fld k 64 64) (natLe 8 (fld k 128 64) ++ natLe 8 s.tb.now.toNat))))

/-- COPY (R84): the copy channel takes it. -/
def execCopy (p : Fin 1152) (s : State) : Out :=
  .next (s.parseAs p.val 0x0D (fun _ => true) (fun _ _ k s => s.dispatchTo p.val k 2))

/-! ### Work for the bucker (R134, R135) -/

/-- A LAUNCH or BUNDLE is handed to the bucker, and waits at dispatch for its answer: once it is accepted it is the queue's most recent work packet. -/
def State.offer (s : State) (p : Nat) (k : BitVec 512) : State :=
  let id := s.fe.nextWork
  let s1 := (s.enlist p k 1).modParser p (fun x => { x with stalled := true })
  { s1 with sched := { s1.sched with waiting := s1.sched.waiting ++ [(p, id)] } }

/-- LAUNCH (R82, R134). -/
def execLaunch (p : Fin 1152) (s : State) : Out := .next (s.parseAs p.val 0x01 (fun _ => true) (fun _ _ k s => s.offer p.val k))

/-- BUNDLE (R94, R134). -/
def execBundle (p : Fin 1152) (s : State) : Out := .next (s.parseAs p.val 0x02 (fun _ => true) (fun _ _ k s => s.offer p.val k))

end Sys2Proof.Machine
end

