-- ==== Sys2Proof/Machine/Mapping.lean ====
section
/-! DEFINITION. Mapping and unmapping of queues, wakes, the wake latch, clock gating, wait records (spec/03 R68, R76 to R79, R99 to R101),
and the dispatcher of device queues (R96). -/

namespace Sys2Proof.Machine

/-! ### Runnable queues (R76) -/

/-- The object of a saved wait record has reached its value (R100). -/
def State.recordMet (s : State) (q : Nat) : Bool :=
  match s.readTimeline (qdRegion (s.qd q)) (fld (s.qd q) 1856 64) with
  | .value v _ => decide (fld (s.qd q) 1920 64 ≤ v)
  | _ => false

/-- A queue is runnable (R76). -/
def State.runnable (s : State) (q : Nat) : Bool :=
  let d := s.qd q
  qdState d == 1 && (qdPwake d || (if qdWaiting d then s.recordMet q else qdWptr d != qdRptr d))

/-- The order in which firmware found queues runnable, kept as a queue's state changes; one that it has found so stays until it is mapped or leaves
UNMAPPED (R76, R99). -/
def State.noteRunnable (s : State) (q : Nat) : State :=
  let l := s.fe.runnableSince
  let l1 := if qdState (s.qd q) ≠ 1 then l.filter (· != q) else if s.runnable q && !l.contains q then l ++ [q] else l
  { s with fe := { s.fe with runnableSince := l1 } }

/-- A record of class FRONT_END for a queue, without a packet. -/
def State.logQueue (s : State) (q cause : Nat) : State := s.logFrontEnd q (qdRegion (s.qd q)) { cause := cause, pkt := 0, level := 0, addr := 0, index0 := 0 }

/-! ### Rereading WPTR (R75, R78) -/

/-- The slot rereads WPTR; a value beyond the ring faults the queue. -/
def State.rereadWptr (s : State) (k : Fin 128) (q : Nat) : State :=
  let w := qdWptr (s.qd q)
  let r := s.fe.parsers[k].rptr (qdRptr (s.qd q))
  if qdSize (s.qd q) < (w + 2 ^ 32 - r) % 2 ^ 32 then s.faultQueue q { cause := 0x0F, pkt := 0, level := 0, addr := 0, index0 := r }
  else ((s.acquireAt feKey (qdRegion (s.qd q)) 15 (s.qdAddr q + 8) 4).modParser k.val (fun x => { x with wptr := w })).settleParser k.val

/-! ### Mapping (R68, R76, R99) -/

/-- A level restored from the descriptor: where it goes on, packets left, its LOOPST, what it still skips, its LOOP packet; a loop in progress
reads its body again (R89). -/
def restoreLevel (next : Nat) (left : Option Nat) (loopst skip : Nat) (pkt : BitVec 512) : Level :=
  let l := { freshLevel next left with skip := skip }
  if bits loopst 26 1 = 1 then { l with active := true, loopPkt := pkt, passes := bits loopst 0 16, bodyLen := bits loopst 16 5, bodyPos := bits loopst 21 5 } else l

/-- The levels restored from LSTACK and LOOPST. -/
def restoreLevels (d : BitVec 2048) (k : Kept) : List Level :=
  let depth := ((List.range 4).filter (fun i => decide (fld d (1024 + 128 * i) (512 - 128 * i) ≠ 0))).length
  restoreLevel (qdRptr d) none (fld d 1536 64) (k.skips.getD 0 0) (k.loops.getD 0 0)
    :: (List.range depth).map (fun i => restoreLevel (fld d (1024 + 128 * i) 64) (some (fld d (1088 + 128 * i) 32)) (fld d (1600 + 64 * i) 64)
        (k.skips.getD (i + 1) 0) (k.loops.getD (i + 1) 0))

/-- MAP (R68): the parse state restored, the latch's map loaded. -/
def State.mapSlot (s : State) (k : Fin 128) (q : Nat) : State :=
  let d := s.qd q
  if s.fe.parsers[k].queue.isSome ∨ qdState d ≠ 1 then s.logQueue q 0
  else
    let mine := (s.fe.orphans.filter (fun x => x.1 == q)).map (·.2)
    let kept := sget Kept.none s.fe.kept q
    let x : Parser := { Parser.reset with queue := some q, wptr := qdRptr d, levels := restoreLevels d kept, work := mine, rels := kept.rels,
                                          waitLeft := if qdWaiting d then some (fld d 1984 32) else none, idleSince := s.tb.now.toNat }
    let s1 := s.modQd q (fun d => setFld (setFld d 152 3 2) 168 8 k.val)
    let s2 := { s1 with fe := { s1.fe with parsers := s1.fe.parsers.set k x, orphans := s1.fe.orphans.filter (fun x => x.1 != q), kept := sset Kept.none s1.fe.kept q Kept.none,
                                           latchMap := sset none s1.fe.latchMap q (some k.val), runnableSince := s1.fe.runnableSince.filter (· != q) } }
    s2.rereadWptr k q

/-- The queue that firmware maps next: of highest PRIO, and among those found runnable first (R76). -/
def State.nextQueue (s : State) : Option Nat :=
  s.fe.runnableSince.foldl (fun best q => match best with
    | some b => if fld (s.qd b) 184 8 < fld (s.qd q) 184 8 then some q else some b
    | none => some q) none

/-- SLOT_MAP (R68, R76): firmware maps the queue whose turn it is into a free slot. -/
def execSlotMap (slot : Fin 128) (q : Fin 4096) (s : State) : Out :=
  onlyIf (s.fe.parsers[slot].queue.isNone && qdState (s.qd q.val) == 1 && s.nextQueue == some q.val) s (s.mapSlot slot q.val)

/-- After UNMAPDONE firmware swaps 0 into PWAKE, and judges by the old value whether the queue is runnable (R99). -/
def State.pwakeSwap (s : State) (q : Nat) : State :=
  if qdState (s.qd q) = 1 then (s.noteRunnable q).modQd q (fun d => setFld d 149 1 0) else s

/-- UNMAP (R68, R99 step 1). -/
def State.unmapSlot (s : State) (k : Fin 128) : State :=
  let x := s.fe.parsers[k]
  match x.queue with
  | none => s.logQueue 0xFFFF 0
  | some q =>
    if x.unmapping then s.logQueue q 0
    else (s.modQd q (fun d => setFld d 152 3 3)).modParser k.val (fun x => { x with unmapping := true })

/-- SLOT_UNMAP (R99). -/
def execSlotUnmap (slot : Fin 128) (s : State) : Out := .next (s.unmapSlot slot)

/-- UNMAP_SAVE_COMPLETE (R99 steps 3 to 5). -/
def execUnmapSaveComplete (slot : Fin 128) (s : State) : Out :=
  .next (match s.fe.parsers[slot].queue with
    | some q => if s.fe.parsers[slot].unmapping then (s.saveSlot slot).noteRunnable q else s
    | none => s)

/-! ### Wakes (R78, R79) -/

/-- PWAKE set and QWAKE posted. -/
def State.pendWake (s : State) (q : Nat) : State := ((s.modQd q (fun d => setFld d 149 1 1)).note (.qwake q)).noteRunnable q

/-- A wake while the front end runs. -/
def State.wakeNow (s : State) (q : Nat) : State :=
  match qdState (s.qd q) with
  | 0 => s.logQueue q 0
  | 2 => s.rereadWptr (Fin.ofNat 128 (qdSlot (s.qd q))) q
  | _ => s.pendWake q

/-- A wake while the front end is gated: the latch holds it, by the slot of a MAPPED queue and in its FIFO for any other (R78). -/
def State.latchWake (s : State) (q : Nat) : State :=
  if qdState (s.qd q) = 0 then s.logQueue q 0
  else match if qdState (s.qd q) = 2 then sget none s.fe.latchMap q else none with
    | some k => { s with fe := { s.fe with latchBits := setFld s.fe.latchBits k 1 1 } }
    | none =>
      if s.fe.latchFifo.length < 64 then { s with fe := { s.fe with latchFifo := s.fe.latchFifo ++ [q] } }
      else { s with fe := { s.fe with latchOverflow := true } }

/-- A wake, whichever path takes it. -/
def State.wake (s : State) (q : Nat) : State := if s.fe.gated then s.latchWake q else s.wakeNow q

/-- QUEUE_WAKE (R78). -/
def execQueueWake (q : Fin 4096) (s : State) : Out := .next (s.wake q.val)

/-- A parser has nothing left to parse. -/
def Parser.idle (x : Parser) : Bool := x.tlwait.isNone && x.levels.all (fun l => !l.active && decide (x.limit l = 0)) && !x.stalled

/-- FRONT_END_CLOCK_GATE (R79): every mapped queue has had nothing left to parse for 50 µs. -/
def execFrontEndClockGate (s : State) : Out :=
  onlyIf (!s.fe.gated && s.fe.parsers.toList.all (fun x => x.queue.isNone || (x.idle && !x.unmapping && decide (x.idleSince + 50000 ≤ s.tb.now.toNat))))
    s { s with fe := { s.fe with gated := true } }

/-- The latch handled on ungating (R79). -/
def State.drainLatch (s : State) : State :=
  let bits := s.fe.latchBits
  let fifo := s.fe.latchFifo
  let lost := s.fe.latchOverflow
  let s1 := { s with fe := { s.fe with gated := false, latchBits := 0, latchFifo := [], latchOverflow := false } }
  let s2 := (List.finRange 128).foldl (fun s k => if fld bits k.val 1 = 1 then (match s.fe.parsers[k].queue with | some q => s.wakeNow q | none => s) else s) s1
  let s3 := fifo.foldl State.pendWake s2
  -- QSCAN: firmware rescans every descriptor
  if lost then (List.range 4096).foldl State.noteRunnable (s3.note .qscan) else s3

/-- FRONT_END_UNGATE (R79): a write to the wake word of a queue while the front end is gated. -/
def execFrontEndUngate (q : Fin 4096) (s : State) : Out := onlyIf s.fe.gated s (s.latchWake q.val).drainLatch

/-- WAIT_RECORD_EVAL (R100): firmware reads the object with an acquire. -/
def execWaitRecordEval (q : Fin 4096) (s : State) : Out :=
  .next (if qdState (s.qd q.val) = 1 ∧ qdWaiting (s.qd q.val) then
      (match s.readTimeline (qdRegion (s.qd q.val)) (fld (s.qd q.val) 1856 64) with
        | .value _ pa => (s.acquireAt feKey (qdRegion (s.qd q.val)) 15 pa 8).noteRunnable q.val
        | _ => s)
    else s)

/-! ### Device queues (R96) -/

/-- A type that a device queue does not take. -/
def devqForbids (ty : Nat) : Bool := decide (3 ≤ ty ∧ ty ≤ 6) || ty == 0x0A || ty == 0x0B

/-- The dispatcher's reason to refuse a packet, in the order of R96. -/
def State.devqCause (s : State) (n : Fin 128) (q : Nat) (pkt : BitVec 512) : Option Nat :=
  let d := s.qd q
  if !s.devqAcked n then some 0x03
  else if qdState d = 0 ∨ !qdDevq d ∨ qdRegion d ≠ s.cores[n].ctx.region then some 0x0A
  else if devqForbids (pkType pkt) then some 0x12
  else none

/-- A packet accepted: written at WPTR, WPTR advanced, the queue woken. -/
def State.devqAccept (s : State) (n : Fin 128) (q : Nat) (pkt : BitVec 512) : State :=
  let d := s.qd q
  let s0 := { s with fab := s.fab.raiseAgent feKey s.cores[n].mem.clock }
  let s1 := (s0.performScoped feKey (qdPacket d (qdWptr d)) (natLe 64 pkt.toNat)).1
  (s1.modQd q (fun d => setFld d 64 32 (qdWptr d + 1))).wake q

/-- The dispatcher's answer reaches the core. -/
def State.answerEnq (s : State) (n : Fin 128) (ok : Bool) : State := s.modCore n (fun c => { c with enqAnswer := some ok })

/-- DEVQ_DISPATCH (R96): the packet that a core offers is accepted, found full, or refused. -/
def execDevqDispatch (c : Fin 128) (s : State) : Out :=
  .next (match s.cores[c].enqOffer, s.cores[c].enqAnswer with
    | some (_, q, pkt), none =>
      (match s.devqCause c q pkt with
        | some cause => (s.logEnq c q cause pkt).answerEnq c false
        | none =>
          let d := s.qd q
          if (qdWptr d + 2 ^ 32 - qdRptr d) % 2 ^ 32 = qdSize d then s.answerEnq c false
          else (s.devqAccept c q pkt).answerEnq c true)
    | _, _ => s)

end Sys2Proof.Machine
end

