-- ==== Sys2Proof/Machine/SchedOps.lean ====
section
/-! DEFINITION. Operations that the events of regions, operators, steps and faults share (spec/05 R127 to R153, spec/06 R162 to R164,
spec/10 R270). -/

namespace Sys2Proof.Machine

/-! ### Steps and operators -/

def State.stepAt (s : State) (id : Nat) : Option Step := s.sched.steps.find? (fun t => t.stepid == id)
def State.modStep (s : State) (id : Nat) (f : Step → Step) : State :=
  { s with sched := { s.sched with steps := s.sched.steps.map (fun t => if t.stepid = id then f t else t) } }
/-- A step leaves the bucker, with its context record. -/
def State.dropStep (s : State) (id : Nat) : State :=
  { s with sched := { s.sched with steps := s.sched.steps.filter (fun t => t.stepid != id), records := s.sched.records.filter (fun x => x.stepid != id) } }
/-- What a context record is made of before its scratch, in bytes: control state, vector registers, accumulators, operand FIFOs (R152). -/
def recordHead : Nat := 516 * 1024

/-- Physical address of a context record: in the shadow store, or in its region's save area (R152). -/
def State.recordPa (s : State) (r : CtxRecord) : Nat := (if r.drained then fld (s.region r.region).rcb 576 64 else Config.shadowBase) + r.at' * 1024

/-- An uncorrectable error lies in a context record (R164). -/
def State.recordBad (s : State) (r : CtxRecord) : Bool :=
  s.ras.poison.any (fun g => decide (s.recordPa r < g * 32 + 32) && decide (g * 32 < s.recordPa r + r.size * 1024))

/-- Bytes that firmware writes at a physical address: refused by an access table and logged, or written (R34, R57, R61). -/
def State.fwWrite (s : State) (pa : Nat) (b : List Byte) : State :=
  match s.refusal fwMaster 2 pa b.length with
  | some t => s.logAccess fwMaster.val 2 pa t
  | none => s.writeBytes pa b

/-- The composite record stands at offset 0 of a context record (R274). -/
def State.putComposite (s : State) (r : CtxRecord) : State := s.fwWrite (s.recordPa r) (natLe 256 r.core.trap.composite.toNat)

/-- Size of a context record in KiB, and of the shadow store (R152). -/
def recordKib (quota : Nat) : Nat := 516 + quota / 1024
def shadowKib : Nat := 24576

/-- The first place of a size, within a limit, that meets none of the ranges listed: at 0, or at the end of one. -/
def placeIn (l : List (Nat × Nat)) (k limit : Nat) : Option Nat :=
  (0 :: l.map (fun r => r.1 + r.2)).find? (fun a => decide (a + k ≤ limit) && l.all (fun r => decide (a + k ≤ r.1) || decide (r.1 + r.2 ≤ a)))

/-- Ranges of the shadow store that hold a record, or take one that is being written, in KiB. -/
def State.shadowRanges (s : State) : List (Nat × Nat) :=
  (s.sched.records.filter (fun r => !r.drained)).map (fun r => (r.at', r.size))
    ++ s.cores.toList.filterMap (fun c => if c.saving ∧ c.saveAt < shadowKib then some (c.saveAt, recordKib c.ctx.scratchQuota) else none)

/-- Where in the shadow store a record of a size finds room; the store's size where it finds none. -/
def State.shadowPlace (s : State) (k : Nat) : Nat := (placeIn s.shadowRanges k shadowKib).getD shadowKib

/-- A frozen core is to be saved: its record has a place from now on, where there is one (R149). -/
def State.beginSave (s : State) (n : Fin 128) : State :=
  let a := s.shadowPlace (recordKib s.cores[n].ctx.scratchQuota)
  s.modCore n (fun c => { c with saving := true, saveAt := a })

def State.opAt (s : State) (q : Nat) : Option Operator := s.sched.ops.find? (fun o => o.opseq == q)
def State.modOp (s : State) (q : Nat) (f : Operator → Operator) : State :=
  { s with sched := { s.sched with ops := s.sched.ops.map (fun o => if o.opseq = q then f o else o) } }

/-- The step holds a core: PLACED or RUNNING. -/
def Step.onCore (t : Step) : Bool := t.state == 1 || t.state == 2
/-- The step that a core runs. -/
def State.stepOn (s : State) (n : Fin 128) : Option Step := s.sched.steps.find? (fun t => t.onCore && t.core == n.val)

/-- The tile-step record (R139) with a state and a cause. -/
def State.recordBits (s : State) (t : Step) (state cause : Nat) : BitVec 512 :=
  let o := s.opAt t.op
  let opb := match o with | some o => o.opbAddr | none => 0
  let fjpb := match o with | some o => o.fjpb | none => 0
  let member := match o with | some o => o.member | none => 0
  BitVec.ofNat 512 (t.stepid + t.region * 2 ^ 122 + t.eclass * 2 ^ 134 + member * 2 ^ 136 + t.core * 2 ^ 138 + state * 2 ^ 145 + t.attempt * 2 ^ 148 + cause * 2 ^ 152
    + (t.saveSlot.getD 0xFFFFFFFF) * 2 ^ 160 + t.coord * 2 ^ 192 + t.placedAt * 2 ^ 256 + t.readyAt * 2 ^ 320 + fjpb * 2 ^ 384 + opb * 2 ^ 448)

/-- The last record of the step that leaves a core stays in its status page. -/
def State.stampRecord (s : State) (n : Fin 128) (t : Step) (state cause : Nat) : State := s.modCore n (fun c => { c with stepRec := s.recordBits t state cause })

/-- Image header fields that outlive acceptance (R295). -/
def hdrScratch (h : BitVec 512) : Nat := fld h 128 9
def hdrResumable (h : BitVec 512) : Bool := fld h 40 1 == 1

/-! ### Regions that place steps (R131, R140) -/

/-- A region and all above it are ACTIVE. -/
def State.activeAt (s : State) : Nat → Nat → Bool
  | 0, _ => false
  | k + 1, r => (s.region r).state == 0 && !(s.region r).destroying && (r == 0 || s.activeAt k (s.region r).parent)
def State.regionActive (s : State) (r : Nat) : Bool := (s.region r).exist && s.activeAt 4096 r

/-- Steps that run in a region's subtree. -/
def State.runningUnder (s : State) (r : Nat) : Bool := s.sched.steps.any (fun t => t.onCore && s.under r t.region)

/-- QUIESCING regions whose subtree runs no step are QUIESCED (R131). -/
def State.settleQuiesce (s : State) : State :=
  s.regionIds.foldl (fun s r => if (s.region r).state = 1 ∧ !s.runningUnder r then s.modRegion r (fun x => { x with state := 2 }) else s) s

/-- Samples of a subtree are dropped where it is quiesced or destroyed before their replay (R169). -/
def State.dropSamples (s : State) (r : Nat) : State :=
  let gone := s.ras.samples.filter (fun x => s.under r x.region)
  { s with ras := { s.ras with samples := s.ras.samples.filter (fun x => !s.under r x.region), crDropped := s.ras.crDropped + BitVec.ofNat 32 gone.length } }

/-- A region begins to quiesce (R131). -/
def State.quiesce (s : State) (r : Nat) : State := (s.dropSamples r).modRegion r (fun x => { x with state := 1 })

/-! ### Windows (R59, log 13) -/

/-- All rights everywhere in the first window. -/
def fullWindows : Vector (BitVec 128) 8 := (Vector.replicate 8 0).set 0 fullWindow

/-- The windows of a master installed by firmware. -/
def State.setWindows (s : State) (m : Nat) (w : Vector (BitVec 128) 8) : State := { s with trans := { s.trans with windows := s.trans.windows.set (Fin.ofNat 256 m) w } }

/-- Windows for the cores of a mask. -/
def State.openCores (s : State) (mask : BitVec 128) : State :=
  (List.range 128).foldl (fun s n => if fld mask n 1 = 1 then s.setWindows n fullWindows else s) s

/-- Cores that no region has any more lose their windows. -/
def State.closeCores (s : State) : State :=
  (List.range 128).foldl (fun s n => if s.regionIds.any (fun r => r != 0 && fld (s.effMask r) n 1 == 1) then s else s.setWindows n (Vector.replicate 8 0)) s

/-! ### Root regions (R127) -/

/-- A field of a control block replaced where the blob does not give it. -/
def giveFld (given : Bool) (b : BitVec 2048) (lo len dflt : Nat) : BitVec 2048 := if given then b else setFld b lo len dflt

/-- The control block of region 0: every core, 1 MiB of scratch, the Landing on the larger side of the image cache, URGENT, weight 1. -/
def Blob.rcb0 (b : Blob) : BitVec 2048 :=
  let up := (b.cacheBase + b.cacheSize) / 65536
  let lbase := if 2048 - up ≤ b.cacheBase / 65536 then 0 else up
  let lq := if 2048 - up ≤ b.cacheBase / 65536 then b.cacheBase / 65536 else 2048 - up
  BitVec.ofNat 2048 (2 ^ 128 - 1 + 256 * 2 ^ 128 + lbase * 2 ^ 160 + lq * 2 ^ 176 + 2 ^ 200 + 0xFF * 2 ^ 288)

/-- The control block of a root region: what the blob gives, and R127's values for the rest. -/
def Blob.rootRcb (b : Blob) (x : RootBlob) : BitVec 2048 :=
  let z := b.rcb0
  let c := x.rcb
  let c := giveFld x.givesBudget c 0 128 (fld z 0 128)
  let c := giveFld x.givesBudget c 128 9 (fld z 128 9)
  let c := giveFld x.givesBudget c 160 11 (fld z 160 11)
  let c := giveFld x.givesBudget c 176 12 (fld z 176 12)
  let c := giveFld x.givesClass c 192 2 0
  let c := giveFld x.givesClass c 200 8 1
  let c := giveFld x.givesBounds c 208 48 0
  let c := giveFld x.givesFault c 272 10 0
  let c := giveFld x.givesSave c 512 160 0
  setFld (setFld (setFld c 256 12 (rootOf x.func.val)) 288 8 0xFF) 1024 256 0

/-! ### Checks of a control block (R128, R130, R131) -/

/-- A reserved field is set (R6, R130); the fields of the status section are the hardware's. -/
def rcbStray (b : BitVec 2048) : Bool :=
  [(1280, 768), (1026, 62), (672, 352), (396, 52), (296, 24), (282, 6), (278, 2), (268, 4), (194, 6), (188, 4), (171, 5), (137, 23)].any (fun f => fld b f.1 f.2 != 0)

/-- A field group is overridden. -/
def rcbOvr (b : BitVec 2048) (g : Nat) : Bool := fld b (288 + g) 1 == 1

/-- Fields within range (R130); the fields of a group that is not overridden are ignored. -/
def rcbRange (b : BitVec 2048) : Bool :=
  (!rcbOvr b 1 || (decide (1 ≤ fld b 128 9) && decide (fld b 128 9 ≤ 256)))
  && (!rcbOvr b 2 || decide (fld b 160 11 + fld b 176 12 ≤ 2048))
  && (!rcbOvr b 4 || decide (1 ≤ fld b 200 8))
  && (!rcbOvr b 5 || decide (fld b 280 2 ≠ 3))
  && (!rcbOvr b 6 || (decide (fld b 320 64 % 4096 = 0) && decide (fld b 448 64 % 32 = 0)))
  && decide (fld b 576 64 % 4096 = 0) && (decide (fld b 576 64 ≠ 0) || decide (fld b 640 32 = 0))

/-- Overridden groups lie within the parent's effective values (R128); `r` is the region itself. -/
def State.rcbWithin (s : State) (b : BitVec 2048) (parent r func : Nat) : Bool :=
  (!rcbOvr b 0 || decide (fld b 0 128 &&& (s.effMask parent).toNat = fld b 0 128))
  && (!rcbOvr b 1 || decide (fld b 128 9 ≤ s.effScrq parent))
  && (!rcbOvr b 2 || (decide (s.effLbase parent ≤ fld b 160 11) && decide (fld b 160 11 + fld b 176 12 ≤ s.effLbase parent + s.effLq parent)))
  && (!rcbOvr b 3 || decide (s.effClass parent ≤ fld b 192 2))
  && (!rcbOvr b 5 || decide (fld b 256 12 = r) || s.owns func (fld b 256 12))

/-! ### Regions made and removed -/

/-- Entry `k` of SCOPEINIT: it starts with GEN and SGEN 0 (R210). -/
def scopeImage (m : Memory) (base k : Nat) : BitVec 256 := BitVec.ofNat 256 (memNat m (base + (k - 1) * 32) 32)
/-- An image refuses the packet (R131, R210). -/
def scopeInitBad (mask : BitVec 128) (img : BitVec 256) : Bool :=
  fld img 186 70 != 0 || fld img 160 8 != 0 || (scopeV img && decide (fld img 0 128 &&& mask.toNat ≠ fld img 0 128))
def initScopes (m : Memory) (base : Nat) (mask : BitVec 128) : Vector (BitVec 256) 16 :=
  Vector.ofFn (fun i : Fin 16 =>
    if i.val = 15 then BitVec.ofNat 256 (mask.toNat + (2 ^ 32 - 1) * 2 ^ 128 + 2 ^ 185)
    else if i.val = 0 ∨ base = 0 then 0
    else let img := scopeImage m base i.val
      BitVec.ofNat 256 (fld img 0 160 + fld img 185 1 * 2 ^ 185))

/-- Where the access table refuses firmware the images of SCOPEINIT, the target that does (R34, R57). -/
def State.scopeInitStop (s : State) (b : BitVec 2048) : Option Nat := if fld b 512 64 = 0 then none else s.refusal fwMaster 1 (fld b 512 64) 448

/-- The scope table of a region that is made; of a root region whose images firmware cannot read, entries 1 to 14 stay invalid (log 47). -/
def State.firstScopes (s : State) (b : BitVec 2048) (mask : BitVec 128) : Vector (BitVec 256) 16 :=
  initScopes s.mem (if (s.scopeInitStop b).isSome then 0 else fld b 512 64) mask

/-- A region exists, ACTIVE, with its scope table and its cores' windows (R131). -/
def State.makeRegion (s : State) (r parent func : Nat) (b : BitVec 2048) (addr ctx : Nat) : State :=
  let x : Region := { Region.none with exist := true, parent := parent, func := func, rcb := setFld b 1024 256 0, rcbAddr := addr, rcbCtx := ctx, state := 0 }
  let s1 := s.setRegion r x
  let mask := s1.effMask r
  (s1.modRegion r (fun x => { x with scopes := s.firstScopes b mask })).openCores mask

/-- The root region of a function, where the blob gives it ROOT, ASID and PIB within R128 and R130 (R127). -/
def State.makeRoot (s : State) (f : Fin 10) : State :=
  match s.board.blob.roots.find? (fun x => x.func == f) with
  | none => s
  | some x =>
    let b := s.board.blob.rootRcb x
    if x.givesContext && !rcbStray b && rcbRange b && s.rcbWithin b 0 (rootOf f.val) f.val then
      s.makeRegion (rootOf f.val) 0 f.val b 0 0
    else s

/-- Functions that are enabled: both physical ones, and the virtual functions that VF Enable names (R14). -/
def Board.enabled (b : Board) (f : Fin 10) : Bool := !isVf f || b.vfEnable[(Fin.ofNat 8 (f.val - 1) : Fin 8)]

/-- IN and OUT of a region's flumes written back to their descriptors (R373). -/
def State.storeFlumes (s : State) (r : Nat) : State :=
  (List.finRange 256).foldl (fun s f =>
    let x := s.fab.flumes[f]
    if x.region = some r then s.writeBytes (Config.landingBase + s.effLbase r * 65536 + 32 * f.val + 12) (natLe 4 x.inn.toNat ++ natLe 4 x.out.toNat) else s) s

/-- The status section of a control block (R130). -/
def Region.status (x : Region) : Nat :=
  x.state % 4 + x.promoted.toNat * 2 ^ 64 + x.fresume.toNat * 2 ^ 96 + x.frestart.toNat * 2 ^ 128 + x.faults.toNat * 2 ^ 160 + x.retired.toNat * 2 ^ 192

/-- A region that is no more: its number is free. What it gave its accesses stays to be seen until the number is used again: the packet that destroys
it is still to write its final status and to signal in that context (R80, R130, R131). -/
def Region.ended (x : Region) : Region :=
  { x with exist := false, state := 0, scopes := Vector.replicate 16 0, lost := false, destroying := false, swapped := false, swapping := false, swapSteps := 0, swapWalks := 0 }

/-- A region's number becomes free: its flumes are unbound, cores that no region has lose their windows; the packet that destroys it keeps its final
status section. -/
def State.removeRegion (s : State) (r : Nat) : State :=
  let x := s.region r
  let s0 := s.mapWorks (fun w => if w.exec = 4 ∧ pkRegion w.pkt = r ∧ pkArg w.pkt = 3 ∧ x.rcbAddr ≠ 0 then { w with final := some (x.rcbCtx, x.rcbAddr, x.status) } else w)
  let s1 := (s0.storeFlumes r).setRegion r x.ended
  State.closeCores { s1 with fab := { s1.fab with flumes := s1.fab.flumes.map (fun f => if f.region = some r then Flume.reset else f) } }

/-- Regions being destroyed whose last running step has ended are removed, from the leaves upward (R18, R131). -/
def State.settleDestroy : Nat → State → State
  | 0, s => s
  | k + 1, s =>
    match s.regionIds.find? (fun r => (s.region r).destroying && !s.runningUnder r && !s.regionIds.any (fun x => x != r && (s.region x).parent == r)) with
    | some r => State.settleDestroy k (s.removeRegion r)
    | none => s

/-- A function reset is complete when its regions are gone: its root region is made again (R18). -/
def State.settleResets (s : State) : State :=
  (List.finRange 10).foldl (fun (s : State) (f : Fin 10) =>
    if s.board.flr[f] && !s.regionIds.any (fun r => r != 0 && (s.region r).func == f.val) then
      let s1 : State := { s with board := { s.board with flr := s.board.flr.set f false } }
      if s1.board.enabled f then (s1.makeRoot f).setWindows (funcMaster f).val fullWindows else s1
    else s) s

/-! ### The end of operators (R93, R95) -/

/-- No step of an operator is left to run: it has retired them all, or it is stopped and none is on a core or saved. -/
def State.opOver (s : State) (o : Operator) : Bool :=
  decide (o.total ≤ o.done.length) || (o.stopped && !s.sched.steps.any (fun t => t.op == o.opseq && (t.onCore || t.state == 4)))

/-- Operators that are over leave the bucker; quiescing regions settle, regions being destroyed go, function resets end. -/
def State.sweep (s : State) : State :=
  let s1 := State.settleQuiesce { s with sched := { s.sched with ops := s.sched.ops.filter (fun o => !s.opOver o) } }
  (s1.settleDestroy 4096).settleResets

/-- The operators launched by the same work packet. -/
def State.siblings (s : State) (q : Nat) : List Nat :=
  match s.opAt q with
  | some o => (s.sched.ops.filter (fun x => x.work == o.work)).map (·.opseq)
  | none => []

/-- A member's fault stops its LAUNCH or BUNDLE, and the first to fault is named (R95): each fault is a moment of its own. -/
def State.failOp (s : State) (q : Nat) : State :=
  match s.opAt q with
  | none => s
  | some o =>
    let s1 := s.stopOps (s.siblings q)
    s1.mapWorks (fun w => if w.id = o.work then { w with faulted := some (w.faulted.getD o.member) } else w)

/-! ### A core is freed -/

/-- Everything of a step leaves its core: strands, queues, engines, waits, traps; registers, tiles and scratch keep their contents. -/
def Core.vacate (c : Core) : Core :=
  { c with phase := .idle, qL := [], qX := [], qS := [], heldC := none, waits := Vector.replicate 4 none, push := Vector.replicate 8 0, pop := Vector.replicate 8 0,
           eng := Engines.reset, hnd := Vector.replicate 3 Handler.reset, arrivals := [], enqOffer := none, enqAnswer := none,
           mem := { c.mem with lob := [], stamps := Vector.replicate 8 [], marks := Vector.replicate 11 none },
           tile := TileStart.reset, trap := { TrapState.reset with composite := c.trap.composite }, parity := [], replay := Vector.replicate 3 [], carryOk := false, loading := false, resumePhase := .running, saving := false, origins := c.origins.filter (fun x => x.1.file == tagI), popped := false, ueStrand := .main }

/-- The core's registers, masks and accumulators are 0 (R146). -/
def Core.zeroed (c : Core) : Core := { c with regs := Regs.reset, poison := c.poison.filter (fun t => t.file == tagI), clean := true, carryOk := false }

/-- A core's scratch is 0 (R146). -/
def State.zeroScratch (s : State) (n : Fin 128) : State :=
  let lo := scratchPa n 0
  let hi := lo + Config.scratchSize
  { s with mem := s.mem.filter (fun e => decide (e.1 < lo) || decide (hi ≤ e.1)),
           ras := { s.ras with poison := s.ras.poison.filter (fun g => decide (g * 32 < lo) || decide (hi ≤ g * 32)) } }

/-- The step on a core ends: its strands end, its engine commands are cancelled (R162, R270). -/
def State.freeCore (s : State) (n : Fin 128) : State := ({ s.performAll n with fab := { (s.performAll n).fab with inflight := (s.performAll n).fab.inflight.filter (fun x => x.core != n) } } : State).modCore n
  (fun c => { c.vacate with idleSince := s.tb.now.toNat })

/-- The step on a core ends and the core is zeroed (R162, R270). -/
def State.zeroCore (s : State) (n : Fin 128) : State := ((s.freeCore n).zeroScratch n).modCore n Core.zeroed

/-! ### Unresolved faults (R140, R270) -/

/-- What a step's fault stops, by the effective FDPOL (R140). -/
def State.applyPolicy (s : State) (r : Nat) : State :=
  match s.effFdpol r with
  | 0 => s
  | 1 => s.quiesce r
  | _ => s.regionIds.foldl (fun s' x => if x ≠ 0 ∧ s.effFdom x = s.effFdom r then s'.quiesce x else s') (s.quiesce r)

/-- A step ends in an unresolved fault with a cause (R140). -/
def State.faultStep (s : State) (id cause : Nat) : State :=
  match s.stepAt id with
  | none => s
  | some t =>
    let s1 := (s.dropStep id).modRegion t.region (fun x => { x with faults := x.faults + 1 })
    (((s1.faultNotice t.region cause 0 t.stepid).failOp t.op).applyPolicy t.region).sweep

/-- The step on a core ends in an unresolved fault (R270). -/
def State.endUnresolved (s : State) (n : Fin 128) (cause : Nat) : State :=
  match s.stepOn n with
  | none => s.zeroCore n
  | some t => ((s.stampRecord n t 6 cause).zeroCore n).faultStep t.stepid cause

/-- The operator of a step takes no further step: it is stopped, or its region is being destroyed (R95, R114, R131). -/
def State.opEnds (s : State) (t : Step) : Bool := (s.region t.region).destroying || (match s.opAt t.op with | some o => o.stopped | none => true)

/-- A step that would wait for a core again is discarded where its operator takes no further step; a region being destroyed ends its LAUNCH as
if faulted (R95, R114, R131). -/
def State.discardStep (s : State) (t : Step) : State :=
  let s1 := s.dropStep t.stepid
  if (s.region t.region).destroying then s1.failOp t.op else s1

/-- DESIGN CHOICE (log 33): the step keeps its first READYAT and its last promotion, so that the time it ran counts towards the starvation bound and the
latency budget (R141, R150). -/
def Step.again (t : Step) (avoid : Option Nat) : Step := { t with state := 3, attempt := min 15 (t.attempt + 1), avoid := avoid }

/-- The step on a core returns to READY, to be placed afresh (R149, R162, R271); where its operator takes no further step, it is discarded. -/
def State.restartStep (s : State) (n : Fin 128) (avoid : Option Nat) : State :=
  match s.stepOn n with
  | none => s
  | some t =>
    let t' := t.again avoid
    if s.opEnds t then (s.stampRecord n t' 3 0).discardStep t
    else (s.modStep t.stepid (fun _ => t')).stampRecord n t' 3 0

/-! ### A region is killed (R164) -/

/-- Steps in the order in which a fault that meets them at one moment is judged: by member of their bundle (R95). -/
def State.memberOrder (s : State) (l : List Step) : List Step :=
  (List.range 4).flatMap (fun m => l.filter (fun t => (match s.opAt t.op with | some o => o.member % 4 | none => 0) == m))

/-- The composite record of a STATE_LOST of a core's step: DETAIL0 is the index of the record that was lost (R164, R261). -/
def Core.lostRecord (c : Core) (index : Nat) : Core :=
  let t : Trap := { cause := 0x25, faddr := 0, d0 := index, d1 := 0, queue := 5, engine := 0xFF, strand := .main, after := false, rkind := 0, rindex := 0, po := c.po }
  { c with trap := { c.trap with composite := c.composite t false } }

/-- A context record, of index `index`, is lost and kills its region: its steps end as unresolved faults, its streams stop, it stays QUIESCED. -/
def State.killRegion (s : State) (r index : Nat) : State :=
  let ids := (s.memberOrder (s.sched.steps.filter (fun t => t.region == r))).map (·.stepid)
  let s1 := s.modRegion r (fun x => { x with lost := true })
  let s2 := ids.foldl (fun s id =>
    match s.stepAt id with
    | none => s
    | some t =>
      let n : Fin 128 := Fin.ofNat 128 t.core
      let s' := if t.onCore then ((s.stampRecord n t 6 0x25).modCore n (fun c => if t.state = 2 then c.lostRecord index else c)).zeroCore n else s
      (((s'.dropStep id).modRegion r (fun x => { x with faults := x.faults + 1 })).faultNotice r 0x25 0 id).failOp t.op) s1
  let s3 := { s2 with sched := { s2.sched with records := s2.sched.records.filter (fun x => x.region != r) } }
  let s4 := s3.streams.foldl (fun s e => match e.2 with | some x => if x.region = r ∧ x.state = 1 then s.stopStream e.1 0x11 else s | none => s) s3
  (s4.modRegion r (fun x => { x with state := 2 })).sweep

/-- Regions other than a killed one that hear of it: its descendants, its siblings, the other members of its fault domain (R164). -/
def State.lostNeighbours (s : State) (r : Nat) : List Nat :=
  s.regionIds.filter (fun x => x != r && x != 0 && (s.under r x || (r != 0 && (s.region x).parent == (s.region r).parent) || s.effFdom x == s.effFdom r))

/-- A context record is lost: a STATE_LOST record for its region and one for each of its neighbours, and the region is killed (R164). The array
kind has no number in the spec and is a free value (log 11). -/
def State.loseRecord (s : State) (id : Nat) : State :=
  match s.stepAt id with
  | none => s
  | some t =>
    let s1 := (t.region :: s.lostNeighbours t.region).foldl (fun (s : State) r => ({ s with fresh := s.fresh + 1 } : State).log
      { cls := 0x0A, stepid := if r = t.region then id else 0, data0 := t.saveSlot.getD 0xFFFFFFFF, region := r, companion := fld (Config.freeW64 s.fresh) 0 8, master := 0x8C }) s
    s1.killRegion t.region (t.saveSlot.getD 0xFFFFFFFF)

end Sys2Proof.Machine
end

