-- ==== Sys2Proof/Machine/Regions.lean ====
section
/-! DEFINITION. Regions: memory training and the regions made at boot (spec/01 R20, R22, R25, R27), the resets of ports and functions (R18),
REGION packets (spec/05 R131), the write-back of control blocks (R130). -/

namespace Sys2Proof.Machine

/-! ### Boot step 6 (R27) -/

/-- Enabled decoders of a port: an interleaved one takes a decoder of each (R20). -/
def portDecoders (l : List Hdm) (port : Nat) : Nat := (l.filter (fun x => x.enabled && (x.interleave || x.port.val == port))).length

/-- HDM decoders of a blob as firmware enables them: one that breaks R20 stays disabled. DESIGN CHOICE (log 12): so does one whose range meets that
of a decoder enabled before it, which R20 does not speak of. -/
def checkHdm (l : List Hdm) : List Hdm :=
  (l.foldl (fun (acc : List Hdm × Nat) d =>
    let mine := if d.interleave then max (portDecoders acc.1 0) (portDecoders acc.1 1) else portDecoders acc.1 d.port.val
    let ok := decide (d.base % 0x10000000 = 0) && decide (d.size % 0x10000000 = 0) && decide (0 < d.size) && decide (Config.cxlBase ≤ d.base)
      && decide (d.base + d.size ≤ Config.cxlBase + Config.cxlSize) && decide (mine < 4) && decide (acc.2 + d.size ≤ Config.cxlSize)
      && (!d.interleave || decide (d.cap0 = d.cap1)) && !acc.1.any (fun x => x.enabled && decide (x.base < d.base + d.size) && decide (d.base < x.base + x.size))
    (acc.1 ++ [{ d with enabled := d.enabled && ok }], if d.enabled && ok then acc.2 + d.size else acc.2)) ([], 0)).1

/-- Step 6: the blob in force, the tags and the power limit of a cold boot, the decoders, region 0 and the root regions (R20, R22, R25, R127). -/
def State.step6 (s : State) : State :=
  let b := s.board.flash.blob
  let s1 := s.modBoard (fun x =>
    { x with bootStep := 6, blob := b, hdm := checkHdm b.hdm, tags := if x.warm then x.tags else b.tags,
             limit := match b.limit with | some w => if x.warm then x.limit else clampLimit w | none => x.limit })
  let s2 := s1.setRegion 0 { Region.none with exist := true, rcb := b.rcb0, state := 0 }
  (List.finRange 10).foldl (fun s f => if s.board.enabled f then s.makeRoot f else s) s2

/-- MEMORY_TRAINING (R27 step 6): a warm reset trains none, so that none can fail. -/
def execMemoryTraining (ok : Bool) (s : State) : Out :=
  onlyIf (s.board.bootStep == 5 && s.board.bootErr != 5) s (if ok || s.board.warm then s.step6 else s.modBoard (fun b => { b with bootErr := 5 }))

/-- The windows that firmware gives the device's own masters and the physical functions (log 13). -/
def State.openMasters (s : State) : State :=
  (List.range 12 ++ [16, 17] ++ ((List.finRange 8).filter (fun (k : Fin 8) => s.board.vfEnable[k])).map (fun (k : Fin 8) => 18 + k.val)).foldl (fun s k => s.setWindows (0x80 + k) fullWindows) s

/-- DEVICE_READY (R27, R69): step 7. -/
def execDeviceReady (s : State) : Out :=
  onlyIf (s.board.bootStep == 6 && s.board.bootErr != 5) s
    (State.openMasters { s with board := { s.board with bootStep := 7, retry := false }, fe := { s.fe with features := publishedFeatures } })

/-! ### Resets of ports and functions (R18) -/

/-- Queues that are registered: their state is not UNREG. -/
def State.queueIds (s : State) : List Nat := (List.range 4096).filter (fun q => (sget Memory.dflt s.mem (s.qdAddr q + 19)).toNat % 8 != 0)

/-- QUEUE_UNREG (R76): packets in flight run on, nothing more parses. -/
def State.unregQueue (s : State) (q : Nat) : State :=
  let st := qdState (s.qd q)
  let s1 := if st = 2 ∨ st = 3 then s.freeSlot (Fin.ofNat 128 (qdSlot (s.qd q))) q else s
  let s2 := s1.modQd q (fun d => setFld (setFld d 152 3 0) 168 8 0xFF)
  -- what is in flight is no longer the number's
  { s2 with fe := { s2.fe with runnableSince := s2.fe.runnableSince.filter (· != q), kept := sset Kept.none s2.fe.kept q Kept.none,
                               orphans := s2.fe.orphans.map (fun x => if x.1 = q then (q + 4096, x.2) else x) } }

/-- A stream is stopped, and destroyed once it has stopped (R108). -/
def State.destroyStream (s : State) (n : Nat) : State :=
  match s.stream n with
  | none => s
  | some x =>
    if x.state = 0 then { s with streams := sset none s.streams n none }
    else (s.modStream n (fun x => { x with destroying := true, state := 2 })).checkStopped n

/-- Some step of an operator neither has retired nor is on a core. -/
def State.unfinished (s : State) (o : Operator) : Bool := decide (o.done.length + (s.sched.steps.filter (fun t => t.op == o.opseq && t.onCore)).length < o.total)

/-- Ready and saved steps of a region are discarded, with their records; their LAUNCHes end as if faulted (R131, R151). A saved step that has its
core already goes on from its record. -/
def State.discardSteps (s : State) (r : Nat) : State :=
  let ops := (s.sched.ops.filter (fun o => o.region == r && s.unfinished o)).map (·.opseq)
  let s1 := ops.foldl State.failOp s
  { s1 with sched := { s1.sched with steps := s1.sched.steps.filter (fun t => !(t.region == r && !t.onCore)),
                                     records := s1.sched.records.filter (fun x => x.region != r || s.sched.steps.any (fun t => t.stepid == x.stepid && t.onCore)) } }

/-- A region begins to be destroyed (R131). -/
def State.beginDestroy (s : State) (r : Nat) : State := ((s.discardSteps r).dropSamples r).modRegion r (fun x => { x with destroying := true })

/-- A Function Level Reset begins (R18): streams, queues, mailbox, features, windows, regions. -/
def State.resetFunction (s : State) (f : Fin 10) : State :=
  let s1 := (s.streams.filterMap (fun e => e.2.bind (fun x => if x.func = f.val then some e.1 else none))).foldl State.destroyStream s
  let s2 := (s1.queueIds.filter (fun q => qdFunc (s1.qd q) == f.val)).foldl State.unregQueue s1
  let s3 : State := { s2 with
    mem := memWrite s2.mem (Config.regBase + 0x800000 + 2048 * f.val) (List.replicate 2048 0),
    fe := { s2.fe with featack := s2.fe.featack.set f 0, registered := s2.fe.registered.set f false, mbxDone := s2.fe.mbxDone.set f 0, mbxRung := s2.fe.mbxRung.set f 0 },
    trans := { s2.trans with atsEnable := s2.trans.atsEnable.set f false, ats := s2.trans.ats.filter (fun e => e.func != f.val) },
    board := { s2.board with flr := s2.board.flr.set f true } }
  let s4 := s3.setWindows (funcMaster f).val (Vector.replicate 8 0)
  ((s4.regionIds.filter (fun r => r != 0 && (s4.region r).func == f.val)).foldl State.beginDestroy s4).sweep

/-- A reset of the physical function of a port (R18): on port 0 VF Enable is cleared, and every virtual function that was enabled is reset with
it. The configuration registers of the function go to their reset values. -/
def State.resetPhysical (s : State) (port : Fin 2) : State :=
  let f : Fin 10 := if port.val = 0 then 0 else 9
  let vfs := if port.val = 0 then (List.finRange 8).filter (fun (k : Fin 8) => s.board.vfEnable[k]) else []
  let s1 := State.modBoard { s with tb := s.tb.ptmOff port.val } (fun b =>
    { b with vfEnable := if port.val = 0 then Vector.replicate 8 false else b.vfEnable, acs := b.acs.set port 0, ptmEnable := b.ptmEnable.set port false })
  (vfs.foldl (fun s (k : Fin 8) => State.resetFunction s (Fin.ofNat 10 (k.val + 1))) s1).resetFunction f

/-- FUNCTION_LEVEL_RESET_VF (R18): of an enabled virtual function. -/
def execFunctionLevelResetVf (vf : Fin 8) (s : State) : Out :=
  onlyIf (s.board.vfEnable[vf] && decide (6 ≤ s.board.bootStep)) s (s.resetFunction (Fin.ofNat 10 (vf.val + 1)))

/-- FUNCTION_LEVEL_RESET_PF (R18). -/
def execFunctionLevelResetPf (pf : Fin 2) (s : State) : Out := onlyIf (decide (6 ≤ s.board.bootStep)) s (s.resetPhysical pf)

/-- The wake latch forgets the queues of a port's functions (R18). -/
def State.clearLatch (s : State) (port : Fin 2) : State :=
  let mine (q : Nat) : Bool := decide (fld (s.qd q) 148 1 = port.val)
  let bits := (List.finRange 128).foldl (fun b k => match s.fe.parsers[k].queue with | some q => if mine q then setFld b k.val 1 0 else b | none => b) s.fe.latchBits
  { s with fe := { s.fe with latchBits := bits, latchFifo := s.fe.latchFifo.filter (fun q => !mine q) } }

/-- PORT_RESET (R18): PERST# on one port resets its link, its functions and their wake latches. -/
def execPortReset (port : Fin 2) (s : State) : Out :=
  let s1 := s.clearLatch port
  let s2 := if 6 ≤ s.board.bootStep then s1.resetPhysical port else s1
  .next ({ s2 with tb := s2.tb.ptmOff port.val }.modBoard (fun b => { b with trained := b.trained.set port false, d3hot := b.d3hot.set port false }))

/-! ### REGION packets (R131) -/

/-- An earlier REGION packet that names the region is in flight. -/
def State.regionBusy (s : State) (r : Nat) : Bool :=
  let hit (w : Work) : Bool := w.exec == 4 && pkRegion w.pkt == r
  s.fe.parsers.toList.any (fun x => x.work.any hit) || s.fe.orphans.any (fun x => hit x.2)
    || s.streams.any (fun e => match e.2 with | some x => x.parser.work.any hit | none => false)

/-- A REGION packet with operation `op`; ARG out of range is refused by any of them. -/
def State.parseRegion (s : State) (p op : Nat) (eff : BitVec 512 → State → State) : State :=
  s.parseAs p 0x0B (fun k => pkArg k == op || decide (3 < pkArg k)) (fun _ _ k s => if s.regionBusy (pkRegion k) then s else eff k s)

/-- The control block that a packet names. -/
def State.readRcb (s : State) (p : Nat) (k : BitVec 512) : Except State (BitVec 2048) := (s.readBlock p (fld k 128 64) 256).map (BitVec.ofNat 2048)

/-- The images of SCOPEINIT pass (R131). -/
def State.scopeInitOk (s : State) (b : BitVec 2048) (mask : BitVec 128) : Bool :=
  decide (fld b 512 64 = 0) || (List.range 14).all (fun k => !scopeInitBad mask (scopeImage s.mem (fld b 512 64) (k + 1)))

/-- The effective core mask that a block gives under a parent. -/
def State.maskOf (s : State) (b : BitVec 2048) (parent : Nat) : BitVec 128 := if rcbOvr b 0 then BitVec.ofNat 128 (fld b 0 128) else s.effMask parent

/-- The checks that CREATE and MODIFY share over a control block that has been read: reserved fields first (R6, R97), then the images of SCOPEINIT
that firmware cannot read (R34, log 47), then what R131 lists. -/
def State.judgeRcb (s : State) (p : Nat) (b : BitVec 2048) (ok : Bool) (eff : State) : State :=
  if rcbStray b then s.refuse p 0x01
  else match s.scopeInitStop b with
    | some t => (s.logAccess fwMaster.val 1 (fld b 512 64) t).refuse p 0x0E
    | none => if ok then eff else s.refuse p 0x13

/-- REGION CREATE (R131): the checks that need no control block come before it is read. -/
def execRegionCreate (p : Fin 1152) (s : State) : Out :=
  .next (s.parseRegion p.val 0 (fun k s =>
    let func := s.parserFunc p.val
    let r := pkRegion k
    let parent := fld k 80 12
    if (s.region r).exist ∨ r = 0 ∨ !s.owns func parent ∨ (s.region parent).destroying then s.refuse p.val 0x13
    else match s.readRcb p.val k with
      | .error t => t
      | .ok b =>
        let s := s.devAsked feMaster (s.parserRegion p.val) (fld k 128 64) 256
        s.judgeRcb p.val b (rcbRange b && s.rcbWithin b parent r func && s.scopeInitOk b (s.maskOf b parent))
          (match s.devWrite feMaster feKey (s.parserRegion p.val) (fld k 128 64 + 128) (List.replicate 32 0) with
            | .error e => s.stopParse p.val e
            | .ok t => (t.makeRegion r parent func b (fld k 128 64) (s.parserRegion p.val)).dispatchTo p.val k 4)))

/-- Scope-table entries follow a changed core mask (R210): entry 15, and entries 1 to 14 that name a core outside it. -/
def newScope (mask : BitVec 128) (i : Fin 16) (e : BitVec 256) : BitVec 256 :=
  let cores := if i.val = 15 then mask.toNat else fld e 0 128 &&& mask.toNat
  if i.val = 0 ∨ cores = fld e 0 128 then e else scopeUpdate e (setFld e 0 128 cores)

/-- Regions of a subtree whose effective mask is no more the one that their entry 15 holds. -/
def State.maskChanged (s : State) (r : Nat) : List Nat := (s.subtree r).filter (fun x => fld (s.region x).scopes[(15 : Fin 16)] 0 128 != (s.effMask x).toNat)

/-- A generation that an update would take is still held by a capture (R213). -/
def State.heldGen (s : State) (r : Nat) : Bool :=
  (List.finRange 16).any (fun i =>
    let e := (s.region r).scopes[i]
    newScope (s.effMask r) i e != e && s.captures r i ((scopeGen e + 1) % 256) != 0)

/-- REGION MODIFY (R131). -/
def execRegionModify (p : Fin 1152) (s : State) : Out :=
  .next (s.parseRegion p.val 1 (fun k s =>
    let func := s.parserFunc p.val
    let r := pkRegion k
    let x := s.region r
    match s.readRcb p.val k with
    | .error t => t
    | .ok b =>
      let s := s.devAsked feMaster (s.parserRegion p.val) (fld k 128 64) 256
      let t := s.modRegion r (fun x => { x with rcb := setFld b 1024 256 0, rcbAddr := fld k 128 64, rcbCtx := s.parserRegion p.val, state := if x.lost then x.state else 0 })
      let below := (s.subtree r).filter (· != r)
      let ok := !x.destroying && rcbRange b && s.rcbWithin b x.parent r func && s.scopeInitOk b (s.maskOf b x.parent)
        && below.all (fun y => t.rcbWithin (t.region y).rcb (t.region y).parent y func)
        && s.sched.ops.all (fun o => !s.under r o.region || decide (hdrScratch o.hdr ≤ t.effScrq o.region))
      s.judgeRcb p.val b ok (if (t.maskChanged r).any t.heldGen then s else
        let u := (t.maskChanged r).foldl (fun u y => u.modRegion y (fun x => { x with scopes := Vector.ofFn (fun i => newScope (u.effMask y) i x.scopes[i]) })) t
        ((u.openCores (u.effMask r)).closeCores).dispatchTo p.val k 4)))

/-- REGION QUIESCE (R131). -/
def execRegionQuiesce (p : Fin 1152) (s : State) : Out :=
  .next (s.parseRegion p.val 2 (fun k s => ((s.quiesce (pkRegion k)).dispatchTo p.val k 4).settleQuiesce))

/-- What DESTROY asks (R131): no children, no streams, no other registered queue. -/
def State.destroyOk (s : State) (p r : Nat) : Bool :=
  let mine := if h : p < 128 then s.fe.parsers[p].queue else none
  !s.regionIds.any (fun x => x != r && (s.region x).parent == r)
    && !s.streams.any (fun e => match e.2 with | some x => x.region == r | none => false)
    && !s.queueIds.any (fun q => some q != mine && qdRegion (s.qd q) == r)

/-- REGION DESTROY (R131). -/
def execRegionDestroy (p : Fin 1152) (s : State) : Out :=
  .next (s.parseRegion p.val 3 (fun k s =>
    if s.destroyOk p.val (pkRegion k) then ((s.dispatchTo p.val k 4).beginDestroy (pkRegion k)).sweep else s.refuse p.val 0x13))

/-- A status section written to a control block. -/
def State.putStatusOf (s : State) (ctx addr status : Nat) : Except FeStop State := s.devWrite feMaster feKey ctx (addr + 128) (natLe 32 status)

/-- The status section written to the region's control block. -/
def State.writeStatusOf (s : State) (r : Nat) : Except FeStop State :=
  let x := s.region r
  if x.exist && x.rcbAddr != 0 then s.putStatusOf x.rcbCtx x.rcbAddr x.status else .ok s

/-- The periodic write-back; where it meets a tier miss, it is made when the page is there. -/
def State.writebackRcb (s : State) (r : Nat) : State :=
  match s.writeStatusOf r with
  | .ok t => t
  | .error (.miss va) => s.missIn (s.region r).rcbCtx va (.rcb r)
  | .error e => s.noteStop feMaster e

/-- RCB_WRITEBACK (R130). -/
def execRcbWriteback (r : Fin 4096) (s : State) : Out := .next (s.writebackRcb r.val)

/-- A REGION packet in flight is done (R131): no access-table update is under way, the subtree is QUIESCED, or the number is free. -/
def State.regionDone (s : State) (k : BitVec 512) : Bool :=
  let r := pkRegion k
  match pkArg k with
  | 2 => !(s.region r).exist || (s.region r).state != 1
  | 3 => !(s.region r).exist || !(s.region r).destroying
  | _ => s.trans.atQueue.isEmpty

end Sys2Proof.Machine
end

