-- ==== Sys2Proof/Machine/System.lean ====
section
/-! DEFINITION. System registers and the system words (spec/11 R285, spec/12 R301, R317 to R324). -/

namespace Sys2Proof.Machine

/-! ### System registers (R285) -/

/-- A system register as it stands. -/
def State.sysRead (s : State) (n : Fin 128) (r : Nat) : W64 :=
  let c := s.cores[n]
  match r with
  | 0x000 => c.sys.vl
  | 0x001 => c.sys.vtype
  | 0x008 => c.sys.fpcr
  | 0x009 => c.sys.fpsr
  | 0x010 => c.sys.ftbase
  | 0x011 => c.sys.rotb
  | 0x012 => c.sys.qwlim
  | 0x020 => c.sys.stepid
  | 0x021 => c.sys.argbase
  | 0x022 => c.sys.coord
  | 0x023 => c.sys.lpbaddr
  | 0x024 => c.sys.opbaddr
  | 0x025 => c.sys.fjpb
  | 0x026 => c.sys.stepinfo
  | 0x027 => BitVec.ofNat 64 (n.val + n.val / 8 * 128)
  | 0x030 => c.sys.cycle
  | 0x031 => s.tb.now
  | 0x040 => c.sys.trapcause
  | 0x041 => c.sys.trapaddr
  | 0x042 => c.sys.trapd0
  | 0x043 => c.sys.trapd1
  | _ => 0

/-- A system register written: reserved bits are ignored (R6), QWLIM is clamped (R285). -/
def Core.sysWrite (c : Core) (r : Nat) (v : W64) : Core :=
  match r with
  | 0x008 => { c with sys := { c.sys with fpcr := v &&& 0x1F03#64 } }
  | 0x009 => { c with sys := { c.sys with fpsr := v &&& 0x3F#64 } }
  | 0x010 => { c with sys := { c.sys with ftbase := v &&& 0x7F#64 } }
  | 0x011 => { c with sys := { c.sys with rotb := v &&& 0x30F#64 } }
  | 0x012 => { c with sys := { c.sys with qwlim := BitVec.ofNat 64 (clampQw v.toNat) } }
  | _ => c

/-- Registers that arrival handlers may not read (R301). -/
def mainOnly (r : Nat) : Bool := r ∈ [0x000, 0x001, 0x008, 0x009, 0x010, 0x011, 0x012]

/-- Registers that the trap strand may write (R301). -/
def trapWritable (r : Nat) : Bool := r ∈ [0x008, 0x009, 0x012]

/-- X words of the main strand that have not completed (R236). -/
def Core.xWords (c : Core) : Nat := (c.qX.filter (fun r => !r.done)).length

/-- Why an access to a system register by the main strand waits: FPSR for earlier X words (R236), VL and VTYPE for a `vld.ff` (R367). -/
def Core.sysWait (c : Core) (st : Strand) (r : Nat) : Option Wait :=
  if st ≠ .main then none
  else if r = 0x009 ∧ c.xWords ≠ 0 then some (stallWait c .main 3 c.xWords)
  else if (r = 0x000 ∨ r = 0x001) ∧ c.ffPending then some freeWait
  else none

/-- `mfs` (R318); reading CYCLE or TIME makes the step non-replayable (R167, R319). -/
def execMfs (t : Tok) (g : Guard) (d : Reg) (r : Fin 1024) (s : State) : Out :=
  .next (cWord t g { jGS g [d] [] with handler := s.cur.isTrapStrand s.focusStrand || !mainOnly r.val, lim := sysReadable r.val } 1 (fun s =>
    match s.cur.sysWait s.focusStrand r.val with
    | some w => .wait w
    | none =>
      let v := s.sysRead s.focusCore r.val
      onCore (fun c => { c.wrS s.focusStrand d v with replayable := c.replayable && !(r.val == 0x030 || r.val == 0x031) }) s) s)

/-- `mts` (R318); its writes in the trap strand are those the main strand resumes with (R267). -/
def execMts (t : Tok) (g : Guard) (a : Reg) (r : Fin 1024) (s : State) : Out :=
  .next (cWord t g { jGS g [] [a] with handler := s.cur.isTrapStrand s.focusStrand && trapWritable r.val, lim := sysWritable r.val } 1 (fun s =>
    match (if r.val = 0x009 then s.cur.sysWait s.focusStrand r.val else none) with
    | some w => .wait w
    | none => onCore (fun c => c.sysWrite r.val (c.rdS s.focusStrand a)) s) s)

/-! ### `trap`, `eret` (R320, R321) -/

/-- SOFT, with AFTER set (R261, R320). -/
def softTrap (st : Strand) (i : Nat) : Trap := { (mkTrap 0x09 0 st 0 (BitVec.ofNat 64 i) 0) with after := true }

/-- `trap` (R320). -/
def execTrap (t : Tok) (g : Guard) (i : Fin 1024) (s : State) : Out :=
  .next (cWord t g (jGS g [] []) 1 (fun s => .after s (softTrap s.focusStrand i.val)) s)

/-- What `eret` does to the core (R268): 0 resume, 1 skip, 2 abort. -/
def Core.ereturn (c : Core) (m : Fin 4) : Core :=
  match c.trap.active with
  | none => c
  | some t =>
    match m with
    | 0 => c.resume t
    | 1 => c.skip t
    | _ => c.endStep 0x27 (c.rdS (.ctx 2) 1)

/-- `eret` (R268, R321): the return from a user trap. -/
def execEret (t : Tok) (g : Guard) (m : Fin 4) (s : State) : Out :=
  .next (cWord t g { jGS g [] [] with handler := s.cur.isTrapStrand s.focusStrand, lim := decide (s.focusStrand ≠ .main) && decide (m.val ≠ 3) } 1
    (fun s => onCore (fun c => c.ereturn m) (if m.val = 0 then (match s.cur.trap.active with | some x => s.recapture s.focusCore x | none => s) else s)) s)

/-! ### `yield`, `tail`, `tsm` (R322 to R324) -/

/-- `yield` changes only who issues next (R322). -/
def execYield (t : Tok) (g : Guard) (s : State) : Out := .next (cWord t g (jGS g [] []) 1 (onCore id) s)

/-- `tl7` counts the handler strands that have ended, in the order they started (R185). -/
def Core.handlersDone (c : Core) : Core :=
  let open' := (c.hnd.toList.filter (fun h => h.running && decide (h.num ≠ 0))).map (·.num)
  let v := open'.foldl (fun m x => min m (x - 1)) (c.eng.issued[(7 : Fin 8)]).toNat
  { c with eng := { c.eng with tl := c.eng.tl.set 7 (BitVec.ofNat 64 v) } }

/-- The strand that executes `tail` ends (R323). -/
def Core.endStrand (c : Core) (st : Strand) : Core :=
  match st with
  | .main => { c with phase := .draining }
  | .ctx h =>
    if c.isTrapStrand st then c.endStep 0x26 0
    else (c.setHnd h { c.hnd[h] with running := false }).handlersDone

/-- `tail` (R323). -/
def execTail (t : Tok) (g : Guard) (s : State) : Out := .next (cWord t g (jGS g [] []) 1 (fun s => onCore (fun c => c.endStrand s.focusStrand) s) s)

/-- The tile-start point that a `tsm` at the control slot sets (R324). -/
def Core.newPoint (c : Core) : TilePoint :=
  { TilePoint.reset with po := c.po + 1, seqL := (c.seq[(1 : Fin 4)]).toNat, seqX := (c.seq[(2 : Fin 4)]).toNat, rotb := c.sys.rotb,
                         aprod := c.mat.aprod, bprod := c.mat.bprod, acons := c.mat.acons, bcons := c.mat.bcons, issued := c.eng.issued }

/-- `tsm` (R324). -/
def execTsm (t : Tok) (g : Guard) (s : State) : Out :=
  .next (cWord t g (jMainG g [] [] true) 1
    (onCore (fun c => Core.passMarkers { c with tile := { c.tile with next := some c.newPoint, reachedL := false, reachedX := false } })) s)

end Sys2Proof.Machine
end

