-- ==== Sys2Proof/Machine/CoreEvents.lean ====
section
/-! DEFINITION. What happens inside a core without a word of its own: clocks (spec/08 R202), writes in flight (R207), engine commands
(spec/07 R182 to R186, R193, spec/09 R253 to R257, spec/15 R391 to R407), arrivals and handlers (R187 to R190), bounded waits (R272). -/

namespace Sys2Proof.Machine

/-! ### Clocks (R202) -/

/-- CLOCK_HORIZON_ADVANCE (R202): the horizon in force is the greatest core clock of the previous such moment. -/
def execClockHorizonAdvance (s : State) : Out :=
  let h := s.fab.horizon
  let f := s.fab
  .next { s with
    cores := s.cores.map (fun c => { c with mem := { c.mem with clock := max (c.mem.clock + 1) h } }),
    fab := { f with horizon := s.cores.foldl (fun m c => max m c.mem.clock) 0,
                    eclock := (List.range 1040).foldl (fun e k => sset 0 e k (max (sget 0 e k) h)) f.eclock } }

/-! ### Writes in flight and sends (R184, R207) -/

/-- MEMORY_ACCESS_PERFORM (R201, R207): the `i`-th scoped write in flight performs, unless an earlier one must perform first (R228, R365). -/
def execMemoryAccessPerform (i : Nat) (s : State) : Out := .next (if s.mayPerform i then s.performInFlight i else s)

/-- The numbers on `tl6` of a core's commands that a write in flight is part of, not acknowledged yet. -/
def InFlight.cmds (x : InFlight) (n : Fin 128) : List Nat :=
  (if x.core = n ∧ x.cmd ≠ 0 then [x.cmd] else []) ++ (x.joined.filter (fun k => decide (k.core = n) && k.cmd != 0)).map (·.cmd)

/-- The oldest command of a core that `tl6` counts and that is not acknowledged. -/
def State.ackNext (s : State) (n : Fin 128) : Option Nat := (s.fab.inflight.flatMap (fun x => x.cmds n)).min?

/-- It is acknowledged, once every write of it has performed: it finishes, with the greatest stamp among them (R184, R185, R207). -/
def State.ackOldest (s : State) (n : Fin 128) : State :=
  match s.ackNext n with
  | none => s
  | some k =>
    let mine := s.fab.inflight.filter (fun x => (x.cmds n).contains k)
    if mine.any (fun x => !x.performed) then s
    else ({ s with fab := { s.fab with inflight := s.fab.inflight.map (fun x => if x.core = n ∧ x.cmd = k then { x with cmd := 0 } else x) } } : State).modCore n
      (fun c => c.finish 6 k (mine.foldl (fun t x => max t x.stamp) 0))

/-- ACK_WRITE_FINISH (R184): the target has acknowledged the performed writes of the oldest command. -/
def execAckWriteFinish (c : Fin 128) (s : State) : Out := .next (s.ackOldest c)

/-- A fault of an engine command, issued by the word of program-order number `po`, is raised (R186, R262); an access that waits for a walk is none, and
the command tries again (R47). -/
def State.raiseEngine (s : State) (n : Fin 128) (k : Fin 8) (po : Nat) (t : Trap) : State :=
  if t.cause = 0 then s.walkBegins n t.faddr.toNat else s.modCore n (fun c => c.engineFault k po t)

/-- The first send of a core removed. -/
def Core.popSend (c : Core) : Core := { c with eng := { c.eng with sends := c.eng.sends.tail } }

/-- SEND_FINISH (R184, R374): the copy of an element into its slot has finished, or a push or packet was accepted; then what is behind it and has been
accepted finishes too. The copy is a request of the core at the Landing (R57). -/
def execSendFinish (c : Fin 128) (s : State) : Out :=
  .next (if !s.cores[c].engineRuns 5 then s
    else match s.cores[c].eng.sends with
      | .accepted :: _ => s.modCore c (fun c => Core.settleSends c.eng.sends.length ((c.popSend).finishNext 5 0))
      | .flume f k data :: _ =>
        let i : Fin 256 := Fin.ofNat 256 f
        let fl := s.fab.flumes[i]
        match s.landingAsk c 4 .main f 2 (fl.slotPa k) data.length 0 with
        | some t => s.raiseEngine c 5 0 t
        | none =>
        let (s1, w) := s.performScoped (eclockKey c 5) (fl.slotPa k) data
        ({ s1 with fab := { s1.fab with flumes := s1.fab.flumes.set i { fl with pending := fl.pending.filter (· != k) } } } : State).modCore c (fun c => Core.settleSends c.eng.sends.length ((c.popSend).finishNext 5 w))
      | _ => s)

/-! ### Copy commands (R391 to R396) -/

/-- An engine command waits for earlier engine commands and for earlier scratch accesses of its strand (R182). -/
def State.engineHeld (s : State) (n : Fin 128) (po : Nat) (l : List Span) : Bool :=
  let c := s.cores[n]
  (c.rangeConflict po l).isSome || (c.earlierWords po).any (fun x => spansConflict (s.uopSpans n x) l)

/-- How far a copy context gets. -/
inductive CopyEnd where
  | idle
  | done
  /-- It waits, and the wait counts against no limit. -/
  | held
  | wait (w : Wait)
  | fault (t : Trap)
deriving DecidableEq, Repr

/-- The first command of a copy context changed. -/
def Core.modCopy (c : Core) (x : Fin 2) (f : CopyCmd → CopyCmd) : Core :=
  { c with eng := { c.eng with cpy := c.eng.cpy.set x (match c.eng.cpy[x] with | m :: t => f m :: t | [] => []) } }

/-- Context number of a copy context. -/
def copyCtx (x : Fin 2) : Fin 8 := Fin.ofNat 8 x.val

/-- Page-ins for the deferred pages of a core that none has been asked for (R395). -/
def State.askDeferred (s : State) (n : Fin 128) : State :=
  let c := s.cores[n]
  (c.eng.deferred.filter (fun d => d.ended.isNone)).foldl (fun s d => s.requestPageIn c.ctx.root c.ctx.asid c.ctx.pib d.page.toNat (.copy n.val d.page.toNat)) s

/-- An operation that cannot be repeated has performed: a copy to a remote scratch with a handler, or to a flume (R161, R167). -/
def Core.noteSend (c : Core) (po : Nat) : Core := { (c.notePoint po (fun p => { p with nonIdem := true })) with replayable := false }

/-- The command ends (R184). -/
def State.copyDone (s : State) (n : Fin 128) (x : Fin 2) (cmd : CopyCmd) : State :=
  s.modCore n (fun c =>
    let c1 := { c with eng := { c.eng with cpy := c.eng.cpy.set x (c.eng.cpy[x]).tail } }
    c1.finish (copyCtx x) cmd.num (sget 0 s.fab.eclock (eclockKey n x.val)))

/-- Where a copy stands after some of its walk: it holds for a slot (R186), has faulted, or waits for a walk (R47). -/
def State.copyStop (s : State) (n : Fin 128) (x : Fin 2) (cmd : CopyCmd) (i : Nat) (full : CopyEnd) : CopyStop → State × CopyEnd
  | .done => (s.copyDone n x cmd, .done)
  | .blocked => (s.modCore n (fun c => c.modCopy x (fun m => { m with progress := i, held := true })), full)
  | .trap t => (s.modCore n (fun c => c.modCopy x (fun m => { m with progress := i, held := false, faulted := t.cause != 0 })), .fault t)

/-- The arrival that the last byte of a remote copy brings (R392). -/
def CopyCmd.arrival (cmd : CopyCmd) (opseq n : Nat) : BitVec 256 :=
  arrivalRec (BitVec.ofNat 64 (fld cmd.hdr 320 64)) (BitVec.ofNat 64 (fld cmd.hdr 448 64) + cmd.toDelta) cmd.byteCount (dHandler cmd.hdr) opseq n 0 2

/-- The release of a copy command at its scope (R215, R226, R392; log 20). -/
def State.copyRel (s : State) (n : Fin 128) (x : Fin 2) (cmd : CopyCmd) : Release :=
  let i : Fin 16 := Fin.ofNat 16 (fld cmd.hdr 38 4)
  let r := s.releaseOf n (s.scopeEntry n i) i.val
  { r with stamp := max r.stamp (sget 0 s.fab.eclock (eclockKey n x.val)) }

/-- A remote copy has written its bytes: its arrival, if it names a handler (R392). -/
def State.copyArrive (s : State) (n : Fin 128) (x : Fin 2) (cmd : CopyCmd) : State × CopyEnd :=
  if fld cmd.hdr 49 1 = 0 then (s.copyDone n x cmd, .done)
  else
    let t : Fin 128 := Fin.ofNat 128 (fld cmd.hdr 42 7)
    let ar := cmd.arrival s.cores[n].ctx.opseq n.val
    if !s.cores[t].discards ar && decide (Config.arrivalDepth ≤ s.cores[t].arrivals.length) then
      (s.modCore n (fun c => c.modCopy x (fun m => { m with progress := cmd.total, held := true })),
        .wait { rkind := 10, rindex := t.val, d0 := BitVec.ofNat 64 s.cores[t].arrivals.length, d1 := 0, faddr := 0, limit := some (s.cores[n].limit .main) })
    else (((s.modCore t (fun c => c.arrive ar (some (s.copyRel n x cmd)))).modCore n (fun c => c.noteSend cmd.po)).copyDone n x cmd, .done)

/-- A copy into a flume (R392): each element takes a slot; what of its bytes was read poisoned is written so (R155). -/
def State.copyToFlume (s : State) (n : Fin 128) (x : Fin 2) (cmd : CopyCmd) : State × CopyEnd :=
  match s.bindFlume n 4 .main (fld cmd.hdr 448 8) with
  | .error t => s.copyStop n x cmd cmd.progress .held (.trap t)
  | .ok (s0, f) =>
    match s0.copyBytes n cmd cmd.total 0 0 with
    | .error t => s0.copyStop n x cmd cmd.progress .held (.trap t)
    | .ok (bytes, bad) =>
      let (s1, b, stop) := s0.copyFlume n x f bytes bad (s0.copyRel n x cmd) (bytes.length / max s0.fab.flumes[f].esize 1 - cmd.progress) cmd.progress
      let s2 := if b = cmd.progress then s1 else s1.modCore n (fun c => c.noteSend cmd.po)
      (if !bad.isEmpty && decide (cmd.progress = 0) then (List.range cmd.total).foldl (fun s i => s.logCopyPoison n cmd i) s2 else s2).copyStop n x cmd b
        (.wait (s1.fab.flumes[f].wait f.val (s.cores[n].limit .main))) stop

/-- The first command of a copy context goes on. -/
def State.copyRun (s : State) (n : Fin 128) (x : Fin 2) : State × CopyEnd :=
  match s.cores[n].eng.cpy[x] with
  | [] => (s, .idle)
  | cmd :: _ =>
    if s.engineHeld n cmd.po cmd.spans then (s, .held)
    else match dTo cmd.hdr with
      | 3 =>
        let (s1, b, stop) := s.copyBlocks n cmd (cmd.blocks - cmd.progress) cmd.progress
        s1.copyStop n x cmd b .held stop
      | 5 => s.copyToFlume n x cmd
      | k =>
        let (s1, i, stop) := s.copyMemory n x cmd (s, cmd.progress) (cmd.total - cmd.progress) cmd.progress
        let s2 := s1.askDeferred n
        match stop with
        | .done =>
          let s3 := s2.copyClear n cmd
          if k = 4 then s3.copyArrive n x cmd else s3.copyStop n x cmd i .held .done
        | st => s2.copyStop n x cmd i .held st

/-- Program-order number of the word that issued the first command of a copy context. -/
def State.copyPo (s : State) (n : Fin 128) (x : Fin 2) : Nat := (s.cores[n].eng.cpy[x].head?.map (·.po)).getD 0

/-- COPY_COMMAND_FINISH (R184, R392). -/
def execCopyCommandFinish (c : Fin 128) (ctx : Fin 2) (s : State) : Out :=
  .next (if !s.cores[c].engineRuns (copyCtx ctx) then s
    else match s.copyRun c ctx with
      | (s1, .fault t) => s1.raiseEngine c (copyCtx ctx) (s.copyPo c ctx) t
      | (s1, _) => s1)

/-! ### Deferred pages (R395) -/

/-- Elements of a command whose source touches a page. -/
def CopyCmd.inPage (cmd : CopyCmd) (page size : Nat) : List CopyElem :=
  ((List.range cmd.total).map cmd.elem).filter (fun e => match e.src with
    | some a => decide (a.toNat < page + size) && decide (page < a.toNat + e.len)
    | none => false)

/-- The record of the poison that a skipped element's source meets (R155). -/
def State.readPoison (s : State) (n : Fin 128) (cmd : CopyCmd) (e : CopyElem) : State :=
  match (List.range cmd.total).find? (fun i => (cmd.elem i).dst == e.dst) with | some i => s.logCopyPoison n cmd i | none => s

/-- The skipped elements of a page written now: the state, or the trap that stops them; another page that misses defers again. -/
def State.writeSkipped (s : State) (n : Fin 128) (x : Fin 2) (cmd : CopyCmd) : List CopyElem → Except Trap State
  | [] => .ok s
  | e :: t =>
    match s.copyRead n cmd e with
    | .error tr =>
      if tr.cause = 0x21 then
        let (page, size) := s.tierPage n tr.faddr.toNat
        State.writeSkipped (s.modCore n (fun c => c.defer x cmd page size)) n x cmd t
      else .error tr
    | .ok (b, p) =>
      match s.copyWrite n x cmd e.dst b p with
      | .error tr => .error tr
      | .ok s1 => State.writeSkipped (if p.isEmpty then s1 else s1.readPoison n cmd e) n x cmd t

/-- The arrival record of a page. -/
def Deferred.arrival (d : Deferred) (opseq status : Nat) : BitVec 256 :=
  arrivalRec (BitVec.ofNat 64 (fld d.cmd.hdr 320 64)) d.page d.size (dHandler d.cmd.hdr) opseq 0xFF status 3

/-- TIER_DEFER, of a command that names no handler (R261, log 34). -/
def Deferred.trap (d : Deferred) (ar : BitVec 256) : Trap :=
  { (mkTrap 0x04 5 .main d.page (BitVec.ofNat 64 (fld ar 0 64)) (BitVec.ofNat 64 (fld ar 64 64))) with engine := 0xFF }

/-- The release of the translation service at scope 15 when a page has been delivered (R226). -/
def State.serviceRel (s : State) (n : Fin 128) (x : Fin 2) : Release :=
  { agent := xlKey, cores := BitVec.allOnes 128, all := true, stamp := max (sget 0 s.fab.eclock xlKey) (sget 0 s.fab.eclock (eclockKey n x.val)) }

/-- A page is delivered: by its arrival record, or as a trap that waits; nothing while the arrival queue is full. -/
def State.deliverPage (s : State) (n : Fin 128) (d : Deferred) (status : Nat) : Option State :=
  let ar := d.arrival s.cores[n].ctx.opseq status
  let gone (c : Core) : Core := { c with eng := { c.eng with deferred := c.eng.deferred.filter (fun y => !(decide (y.ctx = d.ctx ∧ y.cmd.num = d.cmd.num ∧ y.page = d.page))) } }
  if fld d.cmd.hdr 49 1 = 0 then some (s.modCore n (fun c => let c1 := gone c; { c1 with trap := { c1.trap with deferTraps := c1.trap.deferTraps ++ [d.trap ar] } }))
  else if !s.cores[n].discards ar && decide (Config.arrivalDepth ≤ s.cores[n].arrivals.length) then none
  else some (s.modCore n (fun c => (gone c).arrive ar (some (s.serviceRel n d.ctx))))

/-- DEFERRED_PAGE_DELIVERY (R395): the `i`-th deferred page of a core whose page-in has ended. -/
def execDeferredPageDelivery (c : Fin 128) (i : Nat) (s : State) : Out :=
  .next (match s.cores[c].eng.deferred[i]? with
    | none => s
    | some d =>
      if !s.cores[c].engineRuns (copyCtx d.ctx) then s
      else match d.ended with
        | none => s
        | some false => (s.deliverPage c d 1).getD s
        | some true =>
          match s.coreTranslate c d.page.toNat kRead with
          | .error (.tier _) =>
            -- another tier miss: a new page-in
            (s.modCore c (fun c => { c with eng := { c.eng with deferred := c.eng.deferred.map (fun y => if y = d then { y with ended := none } else y) } })).askDeferred c
          | .error .wait => s.walkBegins c d.page.toNat
          | .error _ => (s.deliverPage c d 1).getD s
          | .ok _ =>
            match s.writeSkipped c d.ctx d.cmd (d.cmd.inPage d.page.toNat d.size) with
            | .error t => s.raiseEngine c (copyCtx d.ctx) d.cmd.po t
            | .ok s1 => ((s1.askDeferred c).deliverPage c d 0).getD s)

/-! ### Arrivals and handlers (R187 to R190) -/

/-- ARRIVAL_RECEIVE (R187, R188): a record reaches a core; a full arrival queue holds its sender. -/
def execArrivalReceive (c : Fin 128) (rec' : BitVec 256) (s : State) : Out :=
  .next (if fld rec' 0 8 = 0 ∨ 3 < fld rec' 0 8 ∨ fld rec' 24 8 ≠ 0 ∨ fld rec' 78 18 ≠ 0 then s
    else if !s.cores[c].discards rec' && decide (Config.arrivalDepth ≤ s.cores[c].arrivals.length) then s
    else s.modCore c (fun c => c.arrive rec' none))

/-- The lowest free arrival context (R188). -/
def Core.freeContext (c : Core) : Option (Fin 3) :=
  (List.finRange 3).find? (fun h => !c.hnd[h].running && (!c.img.hastrap || decide (h.val < 2)))

/-- The handler of a record as it starts (R189). -/
def handlerOf (ar : BitVec 256) (qwlim : W64) (num : Nat) : Handler :=
  { running := true, pc := fld ar 64 14,
    h := ((((Vector.replicate 16 (0 : W64)).set 1 (BitVec.ofNat 64 (fld ar 128 64))).set 2 (BitVec.ofNat 64 (fld ar 96 32))).set 3 (BitVec.ofNat 64 (fld ar 192 64))).set 4
      (BitVec.ofNat 64 (fld ar 0 64)),
    p := (Vector.replicate 4 false).set 0 true, qwlim := qwlim, num := num, wait := none }

/-- HANDLER_START (R188, R189, R226): an acquire at scope 15 of the release that the arrival brings. -/
def execHandlerStart (c : Fin 128) (s : State) : Out :=
  .next (match s.cores[c].arrivals, s.cores[c].freeContext with
    | ar :: rest, some h =>
      if !s.cores[c].live then s
      else s.modCore c (fun x =>
        let x1 := (x.accept 7).raiseClock (acquired ar.rel.toList c.val (s.scopeEntry c 15) 15)
        let x2 := { x1 with arrivals := rest, poison := x1.poison.filter (fun t => t.file != tagH + h.val) }
        x2.setHnd h (handlerOf ar.bits x.sys.qwlim ((x.eng.issued[(7 : Fin 8)]).toNat + 1)))
    | _, _ => s)

/-! ### The matrix engine (R253 to R257, R399 to R402) -/

/-- MGO_ACCEPT (R399): a go at the X head is accepted. -/
def execMgoAccept (c : Fin 128) (s : State) : Out :=
  .next (match s.cores[c].qX with
    | r :: _ => (match r.uop with | .mgo .. => if r.on && !r.done then s.issueHead c .x else s | _ => s)
    | [] => s)

/-- Gos at the head with no chunk left finish. -/
def Core.endGos : Nat → Core → Core
  | 0, c => c
  | k + 1, c => match c.eng.gos with | g :: _ => if g.todo.isEmpty then Core.endGos k ((c.goDone g).freeSlots) else c | [] => c

/-- The go at the head changed. -/
def Core.modGo (c : Core) (f : Go → Go) : Core := { c with eng := { c.eng with gos := match c.eng.gos with | g :: t => f g :: t | [] => [] } }

/-- A 32-bit saturating sum. -/
def sat32 (a b : Nat) : Nat := min (a + b) (2 ^ 32 - 1)

/-- The live entry that a go counts in, changed. -/
def Core.modFt (c : Core) (k : Fin 16) (f : BitVec 256 → BitVec 256) : Core := { c with mat := { c.mat with ft := c.mat.ft.set k (f c.mat.ft[k]) } }

/-- The width log: a step of more than 4,096 chunks is not replayable (R167). -/
def Core.logWidth (c : Core) (w : Nat) : Core :=
  if c.widths.length < 4096 then { c with widths := c.widths ++ [Fin.ofNat 4 w] } else { c with replayable := false }

/-- The first chunk of the go at the head is done with; the next begins at FLOOR. -/
def Core.nextChunk (c : Core) (skipped : Bool) : Core :=
  Core.endGos 4 (c.modGo (fun g => { g with todo := g.todo.tail, width := fld g.ent 2 2, coarse := none, chunksDone := sat32 g.chunksDone 1,
                                            skipped := if skipped then sat32 g.skipped 1 else g.skipped })).freeSlots

/-- Where the coarse scales of a chunk lie (R248): those of its rows, and the weight tile's. -/
def coarseAddrs (e : BitVec 256) (x : Chunk) : List Nat :=
  (List.range x.rows).map (fun i => fld e 72 20 + (x.c * 128 + x.row0 + i) * 4) ++ [fld e 92 20 + x.c * 4]

/-- The coarse products of a chunk, one a row, as FP32 codes (R251 step 5). -/
def State.coarse (s : State) (n : Fin 128) (e : BitVec 256) (x : Chunk) : List Nat :=
  if fld e 68 1 = 0 then List.replicate x.rows 0x3F800000
  else
    let at' (a : Nat) : FVal := fmtF32.decode (memNat s.mem (scratchPa n a) 4)
    (List.range x.rows).map (fun i => (fmtF32.mulV 0 (at' (fld e 72 20 + (x.c * 128 + x.row0 + i) * 4)) (at' (fld e 92 20 + x.c * 4))).bits)

/-- A tag of a block disagrees with the copied entry (R402). -/
def tagsDiffer (e : BitVec 256) (a b : Block) : Bool :=
  a.fmt != (if fld e 16 1 = 1 then 2 else 0) || b.fmt != fld e 17 1 || a.bs != fld e 20 2 || b.bs != fld e 22 2

/-- A pass over budget (R253). -/
def overBudget (e : BitVec 256) (r : PassRes) : Bool := decide (fld e 36 16 < r.sat) || decide (fld e 52 16 < r.ufl) || (fld e 26 1 == 1 && r.cnc)

/-- A bin of a per-core histogram raised (R171). -/
def Board.binWidth (b : Board) (n : Fin 128) (i : Fin 6) : Board :=
  { b with life := { b.life with widths := b.life.widths.set n ((b.life.widths[n]).set i (satUp (b.life.widths[n])[i])) } }
def Board.binMonitor (b : Board) (n : Fin 128) (i : Fin 3) (on : Bool) : Board :=
  if on then { b with life := { b.life with monitors := b.life.monitors.set n ((b.life.monitors[n]).set i (satUp (b.life.monitors[n])[i])) } } else b

/-- Monitor triggers of a pass counted. -/
def State.countMonitors (s : State) (n : Fin 128) (e : BitVec 256) (r : PassRes) : State :=
  s.modBoard (fun b => ((b.binMonitor n 0 (decide (fld e 36 16 < r.sat))).binMonitor n 1 (decide (fld e 52 16 < r.ufl))).binMonitor n 2 (fld e 26 1 == 1 && r.cnc))

/-- A chunk promotes at a width (R254). -/
def State.promoteChunk (s : State) (n : Fin 128) (g : Go) (x : Chunk) (w : Nat) (vals : List Nat) (exhaust : Bool) : State :=
  let s1 := s.modCore n (fun c =>
    let c1 := (c.notePromote g.po (Fin.ofNat 4 x.tile)).promote x.tile x.row0 x.rows vals
    let c2 := c1.modFt g.ft (fun t =>
      let t1 := incSat t (184 + 24 * w) 24
      if exhaust then incSat (setFld t1 112 1 1) 120 16 else t1)
    (c2.logWidth w).nextChunk false)
  let s2 := s1.modBoard (fun b => b.binWidth n (Fin.ofNat 6 w))
  if exhaust then s2.modBoard (fun b => b.binWidth n 5) else s2

/-- One pass over the chunk at the head, both its blocks there (R254). -/
def State.passChunk (s : State) (n : Fin 128) (g : Go) (x : Chunk) (a b : Block) (coarse : List Nat) : State :=
  let e := g.ent
  let r := chunkPass g.width (fld e 27 5) a b x.row0 x.rows (fun i => coarse.getD i 0x3F800000)
  let tooBig := overBudget e r
  let s1 := (s.countMonitors n e r).modCore n (fun c => c.modGo (fun g =>
    { g with coarse := some coarse, satTotal := sat32 g.satTotal r.sat, uflTotal := sat32 g.uflTotal r.ufl, cncTotal := sat32 g.cncTotal r.cnc.toNat }))
  if tooBig ∧ g.width < fld e 4 2 then
    -- squashed: the chunk runs again one width wider
    (s1.modCore n (fun c => (c.modFt g.ft (fun t => incSat t (136 + 24 * g.width) 24)).modGo (fun g => { g with width := g.width + 1 }))).modBoard
      (fun b => b.binWidth n (Fin.ofNat 6 (3 + g.width)))
  else s1.promoteChunk n g x g.width r.vals tooBig

/-- A chunk meets a poisoned block: the address is that of the granule its bytes came from, 0 where the FIFO's own parity failed (R155, R161, log 41). -/
def Core.meetFifo (c : Core) (po pa : Nat) : Core := if c.poison.any (fun t => t.file == tagUe) then c else { c.meet po with uePa := pa }

/-- MATRIX_CHUNK_PASS (R254, R401, R402). -/
def execMatrixChunkPass (c : Fin 128) (s : State) : Out :=
  .next (if !s.cores[c].engineRuns 2 then s
    else match s.cores[c].eng.gos with
      | [] => s
      | g :: _ =>
        match g.todo with
        | [] => s.modCore c (Core.endGos 4)
        | x :: _ =>
          if x.rows = 0 then s.modCore c (fun k => k.nextChunk false)
          else match s.cores[c].eng.fifoA.find? (fun k => k.pos == g.abase + x.pa), s.cores[c].eng.fifoB.find? (fun k => k.pos == g.bbase + x.pb) with
            | some a, some b =>
              if a.null || b.null then s.modCore c (fun k => (k.logWidth 0).nextChunk true)
              else if a.poison || b.poison then s.modCore c (fun k => k.meetFifo g.po (if a.poison then a.badPa else b.badPa))
              else
                match (if fld g.ent 68 1 = 1 ∧ g.coarse.isNone then (coarseAddrs g.ent x).find? (fun k => decide (s.cores[c].ctx.scratchQuota < k + 4)) else none) with
                | some k => s.raiseEngine c 2 g.po (accessAt 4 .main k 0x42)
                | none =>
                  match (if fld g.ent 68 1 = 1 ∧ g.coarse.isNone then (coarseAddrs g.ent x).find? (fun k => s.poisoned (scratchPa c k) 4) else none) with
                  | some k => s.meetAt c g.po (scratchPa c k)
                  | none =>
                    if tagsDiffer g.ent a b then s.promoteChunk c g x (fld g.ent 2 2) (List.replicate (x.rows * 128) fmtF32.defaultNaN) false
                    else s.passChunk c g x a b (g.coarse.getD (s.coarse c g.ent x))
            | _, _ => s)

/-! ### The window engine (R406, R407) -/

/-- Some byte that a block reads is poisoned: its granule. -/
def State.winPoison (s : State) (n : Fin 128) (g : WinGeo) (l : List WinSrc) : Option Nat :=
  (l.filterMap (fun x => match x with | .landing o => some (s.cores[n].landingPa o) | .scratch o => some (scratchPa n o) | _ => none)).find? (fun pa => s.poisoned pa g.e)

/-- WINDOW_BLOCK_PUSH (R406, R407): the next block of the command at the head. -/
def execWindowBlockPush (c : Fin 128) (s : State) : Out :=
  .next (if !s.cores[c].engineRuns 3 then s
    else match s.cores[c].eng.wins with
      | [] => s
      | w :: _ =>
        if s.engineHeld c w.po (winSpans w.cfg) then s
        else match s.winBlock c w w.pushed with
          | .error t => s.raiseEngine c 3 w.po t
          | .ok b =>
            match (if b.null then none else s.winPoison c (winGeo w.cfg) ((winGeo w.cfg).sources w.pushed)) with
            | some pa => s.meetAt c w.po pa
            | none =>
              match s.cores[c].pushA b with
              | none => s
              | some k =>
                let k1 := if b.null then { k with mat := { k.mat with skipped := if k.mat.skipped = BitVec.allOnes 32 then k.mat.skipped else k.mat.skipped + 1 } } else k
                if w.pushed + 1 < w.nb then s.setCore c { k1 with eng := { k1.eng with wins := { w with pushed := w.pushed + 1 } :: k1.eng.wins.tail } }
                else s.setCore c (({ k1 with eng := { k1.eng with wins := k1.eng.wins.tail } } : Core).finish 3 w.num (sget 0 s.fab.eclock (eclockKey c 3))))

/-! ### The crew ring (R193, R377) -/

/-- The ring command at the head of a core's context. -/
def State.ringAt (s : State) (n : Nat) : Option RingCmd := s.cores[(Fin.ofNat 128 n : Fin 128)].eng.rings.head?

/-- Members of the ring that a core's command names. -/
def State.ringOf (s : State) (n : Nat) : List Nat := match s.ringAt n with | some r => ringMembers (crewOf (Fin.ofNat 128 n)) r.d | none => []

/-- Every member has issued the command of the same number, and may run it. -/
def State.ringReady (s : State) (n : Nat) : Bool :=
  match s.ringAt n with
  | none => false
  | some r => (s.ringOf n).all (fun m => match s.ringAt m with
      | some x => x.num == r.num && s.cores[(Fin.ofNat 128 m : Fin 128)].engineRuns 4
          && !s.engineHeld (Fin.ofNat 128 m) x.po [⟨x.a.toNat, x.a.toNat + fld x.d 32 21, false⟩, ⟨x.b.toNat, x.b.toNat + fld x.d 32 21, true⟩]
      | none => false)

/-- Members agree on size, direction and membership. -/
def State.ringAgree (s : State) (l : List Nat) (d : W64) : Bool := l.all (fun m => match s.ringAt m with | some x => x.d == d | none => false)

/-- The lowest member that disagrees with a member. -/
def State.ringOther (s : State) (l : List Nat) (d : W64) : Nat := (l.find? (fun m => match s.ringAt m with | some x => x.d != d | none => true)).getD 0

/-- Every member of a ring changed. -/
def State.overRing (s : State) (l : List Nat) (f : State → Fin 128 → RingCmd → State) : State :=
  l.foldl (fun s m => match s.ringAt m with | some x => f s (Fin.ofNat 128 m) x | none => s) s

/-- The shift (R193): all tiles read, then all written at the neighbours' destinations; every member's command finishes. -/
def State.ringShift (s : State) (l : List Nat) (d : W64) : State :=
  let len := fld d 32 21
  let tiles := l.map (fun m => match s.ringAt m with
    | some x => (ringNext (fld d 8 1 == 0) l m, m, memRead s.mem (scratchPa (Fin.ofNat 128 m) x.a.toNat) len)
    | none => (m, m, []))
  let s1 := tiles.foldl (fun s t => match s.ringAt t.1 with
    | some x => (s.performScoped (eclockKey (Fin.ofNat 128 t.2.1) 4) (scratchPa (Fin.ofNat 128 t.1) x.b.toNat) t.2.2).1
    | none => s) s
  s1.overRing l (fun s n x => s.modCore n (fun c =>
    ({ c with eng := { c.eng with rings := c.eng.rings.tail } } : Core).finish 4 x.num (sget 0 s.fab.eclock (eclockKey n 4))))

/-- RING_SHIFT (R193, R377): the first ring of a crew whose members are all ready shifts, or its members trap. -/
def execRingShift (crew : Fin 16) (s : State) : Out :=
  .next (match ((List.range 8).map (· + 8 * crew.val)).find? s.ringReady with
    | none => s
    | some n =>
      let l := s.ringOf n
      match s.ringAt n with
      | none => s
      | some r =>
        if !s.ringAgree l r.d then s.overRing l (fun s m x => s.raiseEngine m 4 x.po (ringTrap 4 x.d (s.ringOther l x.d)))
        else
          let tooBig (m : Fin 128) (o : W64) : Bool := decide (s.cores[m].ctx.scratchQuota < o.toNat + fld r.d 32 21)
          let bad := l.filter (fun m => match s.ringAt m with | some x => tooBig (Fin.ofNat 128 m) x.a || tooBig (Fin.ofNat 128 m) x.b | none => false)
          let ue := l.filter (fun m => match s.ringAt m with | some x => s.poisoned (scratchPa (Fin.ofNat 128 m) x.a.toNat) (fld r.d 32 21) | none => false)
          if !bad.isEmpty then s.overRing bad (fun s m x => s.raiseEngine m 4 x.po (accessAt 4 .main (if tooBig m x.a then x.a.toNat else x.b.toNat) 0x42))
          else if !ue.isEmpty then s.overRing ue (fun s m x => s.meetAt m x.po (scratchPa m x.a.toNat))
          else s.ringShift l r.d)

/-! ### Bounded waits (R179, R272) -/

/-- What a control-slot stall of a strand waits for as it stands, by its subkind (R272 kind 11); `none` for those of queue heads. -/
def State.stallItems (s : State) (n : Fin 128) (st : Strand) (w : Wait) : Option Nat :=
  let c := s.cores[n]
  let word := (c.word (c.pcOf st)).toNat
  match w.rindex with
  -- `fence.acq` waits for loads alone
  | 0 => if bits word 22 6 = 0x0C ∧ bits word 0 3 = 1 then some (c.loadWords st) else w.cap.map (s.relCount n st)
  | 1 => some (s.marksLeft n)
  | 2 => some (s.cinvCount n st)
  | 3 => some c.xWords
  -- `scope.ld` waits for earlier accesses, then for captures of the entry that its field d names
  | 4 => some (if c.loadWords st + c.storeWords st ≠ 0 then c.loadWords st + c.storeWords st else s.updateHeld n (Fin.ofNat 16 (bits word 14 5)))
  | _ => none

/-- A wait that a strand has noted, as it stands: `none` once it is satisfied (R272). -/
def State.retest (s : State) (n : Fin 128) (st : Strand) (w : Wait) : Option Wait :=
  let c := s.cores[n]
  let k : Fin 8 := Fin.ofNat 8 w.rindex
  match w.rkind with
  | 1 => if c.tokens k = 0 then some { w with d0 := c.push[k], d1 := c.pop[k] } else none
  | 3 => if c.roomIn k then none else some { w with d0 := c.eng.issued[k], d1 := c.eng.tl[k] }
  | 4 => if c.eng.ranges.any (fun e => e.ctx == w.rindex && e.num == w.d0.toNat) then some { w with d1 := c.eng.tl[k] } else none
  | 5 => if c.qL.any (fun r => !r.done && r.po == w.d0.toNat) then some { w with d1 := BitVec.ofNat 64 c.mem.lob.length } else none
  | 6 => if c.eng.tl[k].toNat < w.d0.toNat then some { w with d1 := c.eng.tl[k] } else none
  | 7 =>
    (match w.obj with
    | some o =>
      let phase := memNat s.mem (32 * o) 8
      if phase = w.d0.toNat then some { w with d1 := BitVec.ofNat 64 phase } else none
    | none => some w)
  | 8 =>
    let f := s.fab.flumes[Fin.ofNat 256 w.rindex]
    if (if w.d0 = w.d1 then f.inn == f.out else f.held == 2 ^ f.slog2) then some { w with d0 := BitVec.ofNat 64 f.inn.toNat, d1 := BitVec.ofNat 64 f.out.toNat } else none
  | 10 =>
    let l := s.cores[(Fin.ofNat 128 w.rindex : Fin 128)].arrivals.length
    if l < Config.arrivalDepth then none else some { w with d0 := BitVec.ofNat 64 l }
  | 11 => (match s.stallItems n st w with
    | some 0 => none
    | some m => some { w with d0 := BitVec.ofNat 64 m }
    | none => some w)
  | _ => some w

/-- The wait of the C queue as it stands: on room for pushes of a word that is done, or the one noted; `none` once it is satisfied. -/
def State.cWait (s : State) (n : Fin 128) : Option Wait :=
  match s.cores[n].heldC with
  | some t => if s.cores[n].canPush 0 t then none else some (s.cores[n].pushWait 0 t)
  | none => s.cores[n].waits[(0 : Fin 4)].bind (s.retest n .main)

/-- The wait of a queue head as it stands. -/
def State.headWait (s : State) (n : Fin 128) (q : Qid) : Option Wait := match s.issueRes n q with | .wait w => some w | _ => none

/-- A wait with a limit expires: BWAIT (R272). -/
def State.expire (s : State) (n : Fin 128) (q : Nat) (st : Strand) : Option Wait → State
  | some w => if w.limit.isSome then takeTrap n (waitTrap q st w) s else s
  | none => s

/-- BWAIT of an engine command (R272). -/
def engineWait (w : Wait) : Trap := { (waitTrap 4 .main w) with engine := 0xFF }

/-- The wait of a member for the others of its ring (kind 9). -/
def State.ringWait (s : State) (n : Fin 128) : Option Wait :=
  match s.ringAt n.val with
  | none => none
  | some r =>
    if s.ringReady n.val then none
    else some { rkind := 9, rindex := 0, d0 := BitVec.ofNat 64 r.num,
                d1 := BitVec.ofNat 64 ((s.ringOf n.val).foldl (fun k m => min k ((s.cores[(Fin.ofNat 128 m : Fin 128)].eng.issued[(4 : Fin 8)]).toNat)) r.num),
                faddr := 0, limit := some (s.cores[n].limit .main) }

/-- BOUNDED_WAIT_EXPIRY (R179, R272): of C, L, X, S (0 to 3), of a handler context (4 to 6), of a copy context (7, 8), of the ring (9). A
wait that is satisfied by now does not expire. -/
def execBoundedWaitExpiry (c : Fin 128) (q : Fin 10) (s : State) : Out :=
  let k := s.cores[c]
  .next (match q.val with
    | 0 => if k.live then s.expire c 0 .main (s.cWait c) else s
    | 1 => if k.live then s.expire c 1 .main (s.headWait c .l) else s
    | 2 => if k.live then s.expire c 2 .main (s.headWait c .x) else s
    | 3 => if k.live then s.expire c 3 .main (s.headWait c .s) else s
    | 7 | 8 =>
      let x : Fin 2 := Fin.ofNat 2 (q.val - 7)
      if !k.engineRuns (copyCtx x) then s
      else (match s.copyRun c x with
        | (s1, .wait w) => s1.raiseEngine c (copyCtx x) (s.copyPo c x) (engineWait w)
        | (s1, .fault t) => s1.raiseEngine c (copyCtx x) (s.copyPo c x) t
        | (s1, _) => s1)
    | 9 => if k.engineRuns 4 then (match s.ringWait c with | some w => s.raiseEngine c 4 ((s.ringAt c.val).map (·.po) |>.getD 0) (engineWait w) | none => s) else s
    | j =>
      let h : Fin 3 := Fin.ofNat 3 (j - 4)
      if k.hnd[h].running && (k.live || (decide (k.phase = .trapStrand) && decide (h.val = 2))) then s.expire c (k.wordAt k.hnd[h].pc).1 (.ctx h) (k.hnd[h].wait.bind (s.retest c (.ctx h))) else s)

end Sys2Proof.Machine
end

