-- ==== Sys2Proof/Machine/TrapEvents.lean ====
section
/-! DEFINITION. Traps as the machine detects, freezes and resolves them (spec/10 R260 to R272), and consumed uncorrectable errors
with rollback and abort (spec/06 R160 to R162). -/

namespace Sys2Proof.Machine

/-! ### Detection and freeze (R262 to R264) -/

/-- After `tail`, once every queue has drained, a go waits for a position that nothing will produce (R397): the first such position. -/
def Core.starved (c : Core) : Option W64 :=
  if c.phase = .draining ∧ c.qL.isEmpty ∧ c.qX.isEmpty ∧ c.qS.isEmpty ∧ c.heldC.isNone ∧ !c.eng.gos.isEmpty then
    if c.mat.aprod.toNat < c.mat.acons.toNat then some c.mat.aprod else if c.mat.bprod.toNat < c.mat.bcons.toNat then some c.mat.bprod else none
  else none

/-- The trap that waits to be detected in a core: of an engine command, of a go that starves, of a deferred page. -/
def Core.trapWaiting (c : Core) : Option (Trap × Core) :=
  match c.trap.engineFault with
  | some t => some (t, { c with trap := { c.trap with engineFault := none } })
  | none =>
    match c.starved with
    | some x => some ({ (mkTrap 0x22 4 .main x 0 0) with engine := 2 }, { c with eng := { c.eng with fcode := c.eng.fcode.set 2 0x22 } })
    | none =>
      match c.trap.deferTraps with
      | t :: rest => some (t, { c with trap := { c.trap with deferTraps := rest } })
      | [] => none

/-- TRAP_DETECT (R262, R264, R397): routing and execution stop in a core whose engines or deferred pages have raised a trap. -/
def execTrapDetect (c : Fin 128) (s : State) : Out :=
  .next (if !s.cores[c].live then s
    else match s.cores[c].trapWaiting with
      | some (t, k) => s.setCore c (k.detect t)
      | none => s)

/-- FREEZE_COMPLETE (R262): what was issued has performed; the composite record is written and the trap delivered. -/
def execFreezeComplete (c : Fin 128) (s : State) : Out :=
  .next (match s.cores[c].trap.detected with
    | some t => s.freezeEnd c t
    | none => s)

/-! ### System traps (R270, R271) -/

/-- A resolved trap of the trap strand: the strand goes on, and the composite record is the original trap's again (R264, R269). -/
def Core.resumeTrapStrand (c : Core) (o : Trap) : Core :=
  { (c.setHnd 2 { c.hnd[(2 : Fin 3)] with wait := none }) with
    phase := .trapStrand, trap := { c.trap with active := some o, outer := none, composite := rewriteComposite c.trap.composite o c.trap.multi } }

/-- The core resumes as by RESUME (R268, R270). -/
def Core.resolved (c : Core) (t : Trap) : Core := match c.trap.outer with | some o => c.resumeTrapStrand o | none => c.resume t

/-- The cause that an unresolved fault names: a later fault of the drain's before the trap's own (R264). -/
def Core.faultCause (c : Core) (t : Trap) : Nat := match c.trap.later with | some l => l.cause | none => t.cause

/-- What firmware does about a trap: nothing, resume, ask for a page, or end the step with a cause. -/
inductive Decision where
  | keep
  | go
  | page
  | stop (cause : Nat)
deriving DecidableEq, Repr

/-- Firmware's choices (R270): PAGE may be resolved; a tier miss is paged in, and goes on when the page is there; every other cause, and a later
fault of the drain, is unresolved. `x` is what the faulting access translates to now. -/
def Core.choice (c : Core) (t : Trap) (x : Except XFault (Nat × W64)) : FaultDecision → Decision
  | .resume => if t.cause = 0x20 ∧ c.trap.later.isNone then .go else .keep
  | .pageIn =>
    if t.cause ≠ 0x21 ∨ c.trap.later.isSome then .keep
    else (match x with | .ok _ => .go | .error (.tier _) => .page | .error .wait => .keep | .error _ => .stop 0x20)
  | .unresolved => if t.cause = 0x21 ∧ c.trap.later.isNone then .keep else .stop (c.faultCause t)

/-- A trap of the core itself. -/
def State.resolveHere (s : State) (n : Fin 128) (t : Trap) (d : FaultDecision) : State :=
  let k := s.cores[n]
  match k.choice t (s.coreTranslate n t.faddr.toNat t.d1.toNat) d with
  | .keep => s
  | .go => s.setCore n (k.resolved t)
  | .page => s.requestPageIn k.ctx.root k.ctx.asid k.ctx.pib t.faddr.toNat (.core n.val)
  | .stop cause => s.endUnresolved n cause

/-- The SAVED step with a pending trap that last ran on a core, and its context record (R271). -/
def State.pendingOn (s : State) (n : Fin 128) : Option CtxRecord :=
  match s.sched.steps.find? (fun t => t.trapPending && t.state == 4 && t.core == n.val) with
  | some t => s.sched.records.find? (fun r => r.stepid == t.stepid)
  | none => none

/-- A context record changed. -/
def State.modRecord (s : State) (id : Nat) (f : CtxRecord → CtxRecord) : State :=
  { s with sched := { s.sched with records := s.sched.records.map (fun r => if r.stepid = id then f r else r) } }

/-- A saved trap is resolved: the step may be placed, and resumes from its cut (R271). -/
def State.resolveSaved (s : State) (r : CtxRecord) (t : Trap) : State :=
  let r' := { r with core := r.core.resolved t }
  ((s.modRecord r.stepid (fun _ => r')).modStep r.stepid (fun t => { t with trapPending := false })).putComposite r'

/-- A trap pending in a context record. -/
def State.resolveRecord (s : State) (n : Fin 128) (r : CtxRecord) (t : Trap) (d : FaultDecision) : State :=
  let k := r.core
  match k.choice t (s.translate [] k.ctx.root k.ctx.asid t.faddr.toNat t.d1.toNat) d with
  | .keep => s
  | .go => s.resolveSaved r t
  | .page => s.requestPageIn k.ctx.root k.ctx.asid k.ctx.pib t.faddr.toNat (.core n.val)
  | .stop cause => s.faultStep r.stepid cause

/-- SYSTEM_TRAP_RESOLVE (R270, R271): what firmware decides of the trap with which a core is frozen, or which a step saved from that core keeps. -/
def execSystemTrapResolve (c : Fin 128) (d : FaultDecision) (s : State) : Out :=
  let k := s.cores[c]
  .next (match (if k.phase = .frozen ∧ !k.saving then k.trap.active else none), s.pendingOn c with
    | some t, _ => s.resolveHere c t d
    | none, some r => (match r.core.trap.active with | some t => s.resolveRecord c r t d | none => s)
    | none, none => s)

/-- SYSTEM_TRAP_TIMEOUT (R271): 50 µs after the freeze, firmware releases the core. A RESUMABLE step is frozen to be saved with its trap
pending; a RESTARTABLE step begins again. -/
def execSystemTrapTimeout (c : Fin 128) (s : State) : Out :=
  let k := s.cores[c]
  .next (if k.phase ≠ .frozen ∨ k.saving ∨ k.trap.active.isNone ∨ s.tb.now.toNat < k.trap.since + 50000 then s
    else match s.stepOn c with
      | none => s
      | some t =>
        if k.img.resumable then (s.beginSave c).modStep t.stepid (fun t => { t with trapPending := true })
        else ((s.restartStep c none).zeroCore c).sweep)

/-! ### Consumed uncorrectable errors (R160 to R162) -/

/-- The program-order number at which a consumed uncorrectable error has been met. -/
def Core.metUe (c : Core) : Option Nat := (c.poison.find? (fun t => t.file == tagUe)).map (·.num)

/-- The commands of the engines, as (context, program-order number). -/
def Engines.commands (e : Engines) : List (Nat × Nat) :=
  (e.cpy[(0 : Fin 2)]).map (fun x => (0, x.po)) ++ (e.cpy[(1 : Fin 2)]).map (fun x => (1, x.po)) ++ e.gos.map (fun x => (2, x.po)) ++ e.wins.map (fun x => (3, x.po))
    ++ e.rings.map (fun x => (4, x.po))

/-- Where the consumer stands, as QUEUE and ENGINE of a trap record: C, a queue head, or an engine command. -/
def Core.consumer (c : Core) (po : Nat) : Nat × Nat :=
  if po = c.po then (0, 0xFF)
  else if c.qL.any (fun r => r.po == po) then (1, 0xFF)
  else if c.qX.any (fun r => r.po == po) then (2, 0xFF)
  else if c.qS.any (fun r => r.po == po) then (3, 0xFF)
  else (4, match c.eng.commands.find? (fun x => x.2 == po) with | some x => x.1 | none => 6)

/-- The replay has not passed the program-order number of the first error (reason 4). -/
def Core.replayBehind (c : Core) (first po : Nat) : Bool :=
  decide (po ≤ first) || (c.qL ++ c.qX).any (fun r => !r.done && decide (r.po ≤ first)) || c.eng.commands.any (fun x => decide (x.2 ≤ first))

/-- Scalars in which the error was met that no retained L word writes afresh (reason 5); 32 stands for a handler's register. -/
def Core.oldScalars (c : Core) : Bool :=
  c.poison.any (fun t => t.file == tagHit && !c.tile.retainedL.any (fun r => r.on && (match r.uop.dst with | some d => d.val == t.num | none => false)))

/-- The granule met lies in a carried range (reason 5). -/
def Core.inCarry (c : Core) (n : Fin 128) : Bool :=
  c.img.carry.any (fun r => decide (scratchPa n r.1 < c.uePa + 32) && decide (c.uePa < scratchPa n r.1 + r.2))

/-- Why a rollback escalates to an abort, lowest code first; none where it does not (R161). -/
def Core.escalation (c : Core) (n : Fin 128) (po : Nat) : Option Nat :=
  let p := c.tile.point
  if 256 < c.tile.retainedL.length ∨ 256 < c.tile.retainedX.length then some 1
  else if p.nonIdem then some 2
  else if p.unclean ≠ 0 ∨ (List.finRange 4).any (fun t => p.written.getLsbD t.val && p.whole[t] != BitVec.allOnes 16) then some 3
  else if (match c.tile.firstUe with | some f => c.replayBehind f po | none => false) then some 4
  else if c.oldScalars || c.inCarry n then some 5
  else none

/-- A point whose counts start afresh. -/
def TilePoint.afresh (p : TilePoint) : TilePoint := { p with nonIdem := false, written := 0, whole := Vector.replicate 4 0, unclean := 0 }

/-- Engine commands issued since a point are cancelled, and their blocks leave the FIFOs (R161, R324). -/
def Engines.cancelFrom (e : Engines) (p : TilePoint) : Engines :=
  { e with
    cpy := e.cpy.map (fun l => l.filter (fun x => decide (x.po < p.po))),
    deferred := e.deferred.filter (fun d => decide (d.cmd.po < p.po)),
    gos := e.gos.filter (fun x => decide (x.po < p.po)),
    wins := e.wins.filter (fun x => decide (x.po < p.po)),
    ranges := e.ranges.filter (fun x => decide (x.po < p.po)),
    fifoA := e.fifoA.filter (fun b => decide (b.pos < p.aprod.toNat)),
    fifoB := e.fifoB.filter (fun b => decide (b.pos < p.bprod.toNat)),
    aDone := min e.aDone p.acons.toNat, bDone := min e.bDone p.bcons.toNat,
    issued := (((e.issued.set 0 p.issued[(0 : Fin 8)]).set 1 p.issued[(1 : Fin 8)]).set 2 p.issued[(2 : Fin 8)]).set 3 p.issued[(3 : Fin 8)] }

/-- Tiles written since the point cleared. -/
def Core.clearTiles (c : Core) (m : BitVec 4) : Core := (List.finRange 4).foldl (fun c t => if m.getLsbD t.val then c.accClear t else c) c

/-- L and X go back to a point: retained words first, then what had not issued; the counts of the FIFOs as they passed it, so that
tokens which C and S have already taken are not given twice; the stores of the window are kept for another rollback (R161). -/
def Core.rewind (c : Core) (p : TilePoint) (po : Nat) : Core :=
  { c with
    qL := c.tile.retainedL ++ c.qL.filter (fun r => !r.done), qX := c.tile.retainedX ++ c.qX.filter (fun r => !r.done),
    pop := (((c.pop.set 0 p.fifo[(0 : Fin 8)]).set 5 p.fifo[(3 : Fin 8)]).set 1 p.fifo[(4 : Fin 8)]).set 6 p.fifo[(7 : Fin 8)],
    push := (((c.push.set 4 p.fifo[(1 : Fin 8)]).set 1 p.fifo[(2 : Fin 8)]).set 5 p.fifo[(5 : Fin 8)]).set 2 p.fifo[(6 : Fin 8)],
    waits := (c.waits.set 1 none).set 2 none,
    mem := { c.mem with lob := [] },
    poison := c.poison.filter (fun t => t.file != tagUe && t.file != tagHit),
    tile := { c.tile with point := p.afresh, next := c.tile.next.map TilePoint.afresh, reachedL := false, reachedX := false, retainedL := [], retainedX := [],
                          firstUe := some po } }

/-- The rollback (R161): commands cancelled, tiles zeroed, L and X rewound. -/
def Core.rollback (c : Core) (po : Nat) : Core :=
  let p := c.tile.point
  (({ c with eng := c.eng.cancelFrom p } : Core).clearTiles p.written).rewind p po

/-- A store of the window performs again (R161). -/
def State.storeAgain (s : State) (n : Fin 128) (x : StoreAgain) : State :=
  let r : Routed := { s.cores[n].routed ⟨false, false, false, false⟩ true .nop with po := x.po }
  s.storePiece n r x.space x.va { pa := x.pa, len := x.bytes.length, ordinary := x.ordinary } x.bytes

/-- A rollback's record and its count (R159, R171). -/
def State.logRollback (s : State) (n : Fin 128) : State :=
  let c := s.cores[n]
  let l := c.tile.retainedL.length
  let x := c.tile.retainedX.length
  let bin : Fin 8 := Fin.ofNat 8 (min 7 (max l x / 32))
  let s1 := s.log { cls := 0x07, stepid := c.sys.stepid.toNat, data0 := l + x * 2 ^ 32, data1 := c.tile.point.written.toNat, region := c.ctx.region, master := n.val, unit := n.val }
  s1.modBoard (fun b => { b with life := { b.life with rollback := b.life.rollback.set bin (satUp b.life.rollback[bin]) } })

/-- The trap record of an abort (R261). -/
def Core.ueTrap (c : Core) (po reason attempt : Nat) : Trap :=
  let (q, e) := match c.ueStrand with | .main => c.consumer po | .ctx h => ((c.wordAt c.hnd[h].pc).1, 0xFF)
  { (mkTrap 0x23 q c.ueStrand (BitVec.ofNat 64 c.uePa) (BitVec.ofNat 64 reason) (BitVec.ofNat 64 attempt)) with engine := e }

/-- The tile-step abort (R162): the step's strands end and the core is zeroed; a RESTARTABLE step starts again up to three times,
elsewhere where it can. -/
def State.abortStep (s : State) (n : Fin 128) (po reason : Nat) : State :=
  let c := s.cores[n]
  let id := c.sys.stepid.toNat
  let attempt := match s.stepOn n with | some t => t.attempt | none => 0
  let again := !c.img.resumable && decide (attempt < 3)
  let s1 := s.log { cls := 0x08, stepid := id, data0 := reason, data1 := if again then attempt + 1 else attempt, region := c.ctx.region, master := n.val, unit := n.val }
  let s2 := s1.modCore n (fun c => { c with trap := { c.trap with composite := c.composite (c.ueTrap po reason attempt) c.trap.multi } })
  if again then ((s2.restartStep n (some n.val)).zeroCore n).sweep else s2.endUnresolved n 0x23

/-- CONSUMED_UE (R161, R162): a core has met a poisoned value; it freezes, every access it issued performs, and it rolls back to the
tile-start point or its step is aborted. -/
def execConsumedUe (c : Fin 128) (s : State) : Out :=
  .next (match s.cores[c].metUe with
    | none => s
    | some po =>
      if s.cores[c].phase = .idle ∨ s.cores[c].phase = .frozen ∨ s.cores[c].trap.detected.isSome then s
      else
        let s1 := (s.performAll c).modCore c (fun k => k.drained.passMarkers)
        match s1.cores[c].escalation c po with
        | some reason => s1.abortStep c po reason
        | none => s1.cores[c].tile.stores.foldl (fun s x => s.storeAgain c x) ((s1.logRollback c).modCore c (fun k => k.rollback po)))

end Sys2Proof.Machine
end

