-- ==== Sys2Proof/Machine/Accept.lean ====
section
/-! DEFINITION. The acceptance of operators (spec/05 R132 to R135): operator parameter blocks, launch parameter blocks, Fjonum images and
their patch tables (spec/11 R294 to R299); the completion of work packets (spec/03 R92 to R95). -/

namespace Sys2Proof.Machine

/-! ### Image headers (R294 to R296) -/

/-- Fields of a header (R295). -/
def hdrNcode (h : BitVec 512) : Nat := fld h 96 15
def hdrNfmt (h : BitVec 512) : Nat := fld h 144 5
def hdrNpatch (h : BitVec 512) : Nat := fld h 192 16
def hdrFmtoff (h : BitVec 512) : Nat := fld h 152 16
def hdrPatchoff (h : BitVec 512) : Nat := fld h 168 16
def hdrTotal (h : BitVec 512) : Nat := fld h 384 17
def hdrTrap (h : BitVec 512) : Bool := fld h 41 1 == 1
/-- Carried ranges, in 32-byte units: offset and length. -/
def hdrCarry (h : BitVec 512) : List (Nat × Nat) := [(fld h 256 15, fld h 271 16), (fld h 320 15, fld h 335 16)]

/-- Reserved fields of a header. -/
def hdrStray (h : BitVec 512) : Bool :=
  [(401, 111), (351, 33), (287, 33), (208, 48), (184, 8), (149, 3), (137, 7), (111, 17), (94, 2), (78, 2), (58, 6), (42, 6)].any (fun f => fld h f.1 f.2 != 0)

/-- The parts lie as R294 fixes them. -/
def alignUp (x a : Nat) : Nat := (x + a - 1) / a * a
def hdrLayout (h : BitVec 512) : Bool :=
  let e0 := 64 + 4 * hdrNcode h
  let f := alignUp e0 32
  let e1 := if hdrNfmt h = 0 then e0 else f + 32 * hdrNfmt h
  let p := alignUp e1 8
  let e2 := if hdrNpatch h = 0 then e1 else p + 8 * hdrNpatch h
  decide (hdrFmtoff h = if hdrNfmt h = 0 then 0 else f) && decide (hdrPatchoff h = if hdrNpatch h = 0 then 0 else p) && decide (hdrTotal h = e2)

/-- Carried ranges are proper (R296). -/
def hdrCarryOk (h : BitVec 512) : Bool :=
  let l := hdrCarry h
  l.all (fun r => if r.2 = 0 then decide (r.1 = 0) else decide ((r.1 + r.2) * 32 ≤ hdrScratch h * 4096))
    && (match l with
      | [a, b] => decide (a.2 = 0) || decide (b.2 = 0) || !(decide (a.1 < b.1 + b.2) && decide (b.1 < a.1 + a.2))
      | _ => true)

/-- What R296 asks of the header itself, and the size limit of R134. -/
def hdrWf (h : BitVec 512) : Bool :=
  decide (fld h 0 32 = 0x4D4E4A46) && decide (fld h 32 8 = 1) && !hdrStray h && decide (hdrTotal h ≤ 65536) && decide (1 ≤ hdrNcode h) && decide (hdrNcode h ≤ 16384)
    && decide (hdrNfmt h ≤ 16) && decide (hdrScratch h ≤ 256) && hdrLayout h && decide (fld h 64 14 < hdrNcode h)
    && (if hdrTrap h then decide (fld h 80 14 < hdrNcode h) else decide (fld h 80 14 = 0))
    && decide (fld h 56 2 + (hdrTrap h).toNat ≤ 3) && decide (1 ≤ fld h 48 8) && decide (fld h 48 8 ≤ 64) && hdrCarryOk h

/-- Format records and patch records of an image's bytes. -/
def imgFormats (h : BitVec 512) (b : List Byte) : List (BitVec 256) :=
  (List.range (hdrNfmt h)).map (fun k => BitVec.ofNat 256 (leNat (slice b (hdrFmtoff h + 32 * k) 32)))
def imgPatches (h : BitVec 512) (b : List Byte) : List W64 :=
  (List.range (hdrNpatch h)).map (fun k => BitVec.ofNat 64 (leNat (slice b (hdrPatchoff h + 8 * k) 8)))
def imgWord (b : List Byte) (i : Nat) : Nat := leNat (slice b (64 + 4 * i) 4)

/-- A format record is proper (R297). -/
def fmtOk (f : BitVec 256) : Bool := decide (fld f 112 144 = 0) && !ftRefused f

/-! ### Patch records (R298, R299) -/

/-- Formats of MAJOR values (R286). -/
def majorI (w : Nat) : Bool := let m := bits w 22 6; m == 0x01 || m == 0x0E
def majorM (w : Nat) : Bool := let m := bits w 22 6; m == 0x10 || m == 0x11 || m == 0x12 || m == 0x15 || m == 0x19 || m == 0x30 || m == 0x31 || m == 0x32
def majorS (w : Nat) : Bool := let m := bits w 22 6; m == 0x0C || m == 0x17 || (decide (0x35 ≤ m) && decide (m ≤ 0x39))
/-- The immediate is zero-extended (R304). -/
def zeroImm (w : Nat) : Bool := decide (bits w 22 6 = 1) && decide (4 ≤ bits w 19 3)
/-- Access size of a format-M word (R359, R363). -/
def sizeM (w : Nat) : Nat := if bits w 22 6 = 0x19 then 128 else 2 ^ (bits w 19 3 % 4)

/-- A value lies in a signed field of `n` bits, or in the same field zero-extended. -/
def fitsField (zero : Bool) (n : Nat) (v : Int) : Bool :=
  if zero then decide (0 ≤ v) && decide (v < 2 ^ n) else decide (-(2 ^ (n - 1) : Int) ≤ v) && decide (v < 2 ^ (n - 1))

/-- The value that a patch of a kind writes at a word, for a parameter value; none where R299 refuses it. `w` is the word, `x` its successor. -/
def patchValue (kind : Nat) (w x : Nat) (v : Int) : Option Int :=
  match kind with
  | 1 => if majorI w && fitsField (zeroImm w) 9 v then some v else none
  | 2 => if majorM w && decide (v % sizeM w = 0) && fitsField false 9 (v / sizeM w) then some (v / sizeM w) else none
  | 3 => if decide (bits w 22 6 = 3) && fitsField false 14 v then some v else none
  | 4 => if decide (bits w 22 6 = 4) && majorI x && fitsField (zeroImm x) 31 v then some v else none
  | 5 => if decide (bits w 22 6 = 4) && majorM x && decide (v % sizeM x = 0) && fitsField false 31 (v / sizeM x) then some (v / sizeM x) else none
  | 6 => if decide (bits w 22 6 = 4) && decide (bits x 22 6 = 3) && fitsField false 36 v then some v else none
  | 7 => if majorS w && decide (0 ≤ v) && decide (v ≤ 15) then some v else none
  | _ => none

/-- A patch record judged (R134, R298): word, kind and the value it writes. `lpb` holds the LEN bytes of the parameter block. -/
def patchOf (h : BitVec 512) (img lpb : List Byte) (r : W64) : Option (Nat × Nat × Int) :=
  let word := fld r 0 14
  let kind := fld r 16 8
  let off := fld r 32 16
  let n := if kind = 7 then 1 else 8
  let pair := decide (4 ≤ kind) && decide (kind ≤ 6)
  if fld r 14 2 ≠ 0 ∨ fld r 24 8 ≠ 0 ∨ fld r 48 16 ≠ 0 ∨ lpb.length < off + n ∨ hdrNcode h ≤ (if pair then word + 1 else word) then none
  else
    let x := leNat (slice lpb off n)
    let v : Int := if kind = 7 then x else sext 64 x
    (patchValue kind (imgWord img word) (imgWord img (word + 1)) v).map (fun y => (word, kind, y))

/-- Low bits of a number as a patch writes them. -/
def lowBits (n : Nat) (v : Int) : Nat := (v % 2 ^ n).toNat

/-- A field of a code word replaced. -/
def setW (w lo n : Nat) (v : Int) : Nat := w - bits w lo n * 2 ^ lo + lowBits n v * 2 ^ lo

/-- One patch applied to the code words (R144, R299). -/
def applyPatch (ws : List Nat) (p : Nat × Nat × Int) : List Nat :=
  let (i, kind, v) := p
  match kind with
  | 1 | 2 => ws.modify i (fun w => setW w 0 9 v)
  | 3 => ws.modify i (fun w => setW w 0 14 v)
  | 4 | 5 => (ws.modify i (fun w => setW w 0 22 (v / 2 ^ 9))).modify (i + 1) (fun w => setW w 0 9 v)
  | 6 => (ws.modify i (fun w => setW w 0 22 (v / 2 ^ 14))).modify (i + 1) (fun w => setW w 0 14 v)
  | _ => ws.modify i (fun w => setW w 18 4 v)

/-! ### Operator parameter blocks (R132 to R134) -/

/-- Count of a dimension. -/
def opbCount (b : BitVec 512) (k : Nat) : Nat := fld b (192 + 16 * k) 16
def opbTotal (b : BitVec 512) : Nat := opbCount b 0 * opbCount b 1 * opbCount b 2 * opbCount b 3
def opbWf (b : BitVec 512) : Bool :=
  decide (fld b 264 248 = 0) && decide (fld b 256 3 ≤ 4) && decide (opbTotal b ≤ 2 ^ 32) && decide (fld b 0 64 % 64 = 0) && decide (fld b 64 64 % 64 = 0)

/-- What acceptance reads of a member (R134). -/
structure Member where
  opbAddr : Nat
  opb : BitVec 512
  lpb : Nat
  hdr : BitVec 512
  patches : List (Nat × Nat × Int)
  fmts : List (BitVec 256)
deriving DecidableEq, Repr

/-- Why acceptance stops: an access of a region's context, poison read there at a physical address, or a failed check. -/
inductive AccStop where
  | access (r : Nat) (e : FeStop)
  | poison (r pa : Nat)
  | opb
deriving DecidableEq, Repr

/-- Bytes that the bucker reads with an access kind, in the context of a region. -/
def State.bytesFor (s : State) (r kind va len : Nat) : Except AccStop (List Byte) :=
  match s.devRange feMaster r kind va len with
  | .error e => .error (.access r e)
  | .ok ps => match s.badGranule (ps.map (fun p => (p.1, p.2.1))) with
    | some g => .error (.poison r g)
    | none => .ok (ps.flatMap (fun p => memRead s.mem p.1 p.2.1))

/-- A check of acceptance. -/
def accCheck (ok : Bool) : Except AccStop Unit := if ok then .ok () else .error .opb

/-- The bytes of the effective launch parameter block, none where there is none (R133, R134). -/
def State.lpbBytes (s : State) (r lpb : Nat) : Except AccStop (List Byte) :=
  if lpb = 0 then .ok []
  else match s.bytesFor r kRead lpb 8 with
    | .error e => .error e
    | .ok b => if leNat b < 8 ∨ 4096 < leNat b then .error .opb else s.bytesFor r kRead lpb (leNat b)

/-- The checks of an image in a region, with its parameter block (R134). -/
def State.imageFits (s : State) (r : Nat) (h : BitVec 512) : Bool :=
  decide (hdrScratch h ≤ s.effScrq r) && (!hdrResumable h || decide (fld (s.region r).rcb 576 64 ≠ 0))

/-- A member read and judged (R134). The packet's own addresses, of the operator block and of the parameter block that replaces the block's own, are
translated in the context `q` of the region that owns the queue (R80); those that the operator block gives in the context `r` of its region. -/
def State.readMember (s : State) (q r opbAddr ovr : Nat) : Except AccStop Member :=
  match s.bytesFor q kRead opbAddr 64 with
  | .error e => .error e
  | .ok ob =>
    let opb : BitVec 512 := BitVec.ofNat 512 (leNat ob)
    let lpb := if ovr ≠ 0 then ovr else fld opb 64 64
    if !opbWf opb then .error .opb
    else match s.bytesFor r kImage (fld opb 0 64) 64 with
      | .error e => .error e
      | .ok hb =>
        let h : BitVec 512 := BitVec.ofNat 512 (leNat hb)
        if !hdrWf h || !s.imageFits r h || (decide (hdrNpatch h ≠ 0) && decide (lpb = 0)) then .error .opb
        else match s.bytesFor r kImage (fld opb 0 64) (hdrTotal h), s.lpbBytes (if ovr ≠ 0 then q else r) lpb with
          | .error e, _ => .error e
          | .ok _, .error e => .error e
          | .ok img, .ok lb =>
            if !(imgFormats h img).all fmtOk then .error .opb
            else match (imgPatches h img).mapM (patchOf h img lb) with
              | none => .error .opb
              | some ps => .ok { opbAddr := opbAddr, opb := opb, lpb := lpb, hdr := h, patches := ps, fmts := imgFormats h img }

/-- What a read of a range with an access kind sends out through the ports (R49, R63). -/
def State.askedFor (s : State) (r kind va len : Nat) : State :=
  match s.devRange feMaster r kind va len with
  | .error _ => s
  | .ok ps => s.partsOut r false ps

/-- What the reads of a member's acceptance send out: the operator block, its image, its parameter block. -/
def State.memberAsked (s : State) (q r ovr : Nat) (m : Member) : State :=
  let c := if ovr ≠ 0 then q else r
  let n := match s.bytesFor c kRead m.lpb 8 with | .ok b => leNat b | .error _ => 0
  ((s.askedFor q kRead m.opbAddr 64).askedFor r kImage (fld m.opb 0 64) (hdrTotal m.hdr)).askedFor c kRead m.lpb (if m.lpb = 0 then 0 else n)

/-- The members that a packet names: OPB address and the LPB that replaces theirs (R82). -/
def pkMembers (k : BitVec 512) : List (Nat × Nat) :=
  if pkType k = 2 then (List.range (pkArg k + 1)).map (fun i => (fld k (128 + 64 * i) 64, 0)) else [(fld k 128 64, fld k 192 64)]

/-! ### Acceptance (R134, R135) -/

/-- A work packet that waits for the bucker is withdrawn: it has no effect (R97). -/
def State.withdraw (s : State) (p id : Nat) : State :=
  ({ s with sched := { s.sched with waiting := s.sched.waiting.filter (fun w => w.2 != id) } } : State).modParser p
    (fun x => { x with work := x.work.filter (fun w => w.id != id), stalled := false })

/-- Frame-job block, rung and frame of what a parser launches now (R111). -/
def State.frameOf (s : State) (p : Nat) (w : Work) : Nat × Nat × Option (Nat × Nat) :=
  if p < 128 then (0, 0, none)
  else match s.stream (p - 128), w.frame with
    | some x, some f => (x.fjbase + f % 4 * 64, (match x.job f with | some j => j.rung | none => 0), some (p - 128, f))
    | _, _ => (0, 0, none)

/-- The operator of an accepted member. -/
def State.operatorOf (s : State) (p : Nat) (w : Work) (totals : List Nat) (k : Nat) (m : Member) : Operator :=
  let (fjpb, rung, st) := s.frameOf p w
  -- a frame's steps follow its release at scope 15; another packet's acquire is at its own scope, where its ORDER makes one
  let idx := if p < 128 then pkScope w.pkt else 15
  { opseq := (s.sched.opseq.toNat + k) % 2 ^ 32, region := pkRegion w.pkt, parser := p, work := w.id, member := k, peers := ((totals.zipIdx).map (fun x => (x.2, x.1))).filter (fun x => x.1 != k), opbAddr := m.opbAddr, opb := m.opb,
    lpb := m.lpb, hdr := m.hdr, patches := m.patches, fmts := m.fmts, image := fld m.opb 0 64, total := opbTotal m.opb, scope := pkScope w.pkt, fjpb := fjpb,
    rung := rung, stream := st, walk := 0, done := [], stopped := false,
    acq := if p < 128 ∧ pkOrder w.pkt = 0 then [] else (match s.parser p with | some x => x.rels | none => []), acqEntry := s.regionScope w.region idx, acqIdx := Fin.ofNat 16 idx,
    hand := [] }

/-- Operators enter the bucker, the packet is its queue's most recent one, and the parser goes on (R91, R135). -/
def State.acceptAll (s : State) (p : Nat) (w : Work) (ms : List Member) : State :=
  let os := (ms.zipIdx).map (fun x => s.operatorOf p w (ms.map (fun m => opbTotal m.opb)) x.2 x.1)
  let s1 : State := { s with sched := { s.sched with ops := s.sched.ops ++ os, opseq := s.sched.opseq + BitVec.ofNat 32 ms.length,
                                                     waiting := s.sched.waiting.filter (fun x => x.2 != w.id) } }
  (s1.modParser p (fun x => Parser.onlyLatest { x with stalled := false, work := x.work.map (fun y => if y.id = w.id then { y with ops := os.map (·.opseq) } else y) } w.id)).advance p

/-! ### The walk (R136, R137) -/

/-- Stride and extent of the ordered dimension (R137). -/
def Operator.ordered (o : Operator) : Option (Nat × Nat) :=
  let d := fld o.opb 256 3
  if d = 0 then none else some (((List.range (d - 1)).map (opbCount o.opb)).foldl (· * ·) 1, opbCount o.opb (d - 1))

/-- The step that must have retired before step `i` is ready has (R137). -/
def Operator.clear (o : Operator) (i : Nat) : Bool :=
  match o.ordered with
  | none => true
  | some (st, n) => decide (i / st % n = 0) || o.done.contains (i - st)

/-- COORD of step `i` (R136, R139). -/
def Operator.coord (o : Operator) (i : Nat) : Nat :=
  let a := opbCount o.opb 0
  let b := opbCount o.opb 1
  let c := opbCount o.opb 2
  i % a + i / a % b * 2 ^ 16 + i / (a * b) % c * 2 ^ 32 + i / (a * b * c) * 2 ^ 48

/-- Walk position: in a bundle the place in the interleaved walk (R137). -/
def Operator.walkPos (o : Operator) (i : Nat) : Nat := i + (o.peers.map (fun x => min x.2 (i + if x.1 < o.member then 1 else 0))).foldl (· + ·) 0

/-- Step `i` of an operator as it becomes ready. -/
def State.freshStep (s : State) (o : Operator) (i : Nat) : Step :=
  { stepid := o.opseq * 2 ^ 32 + i, op := o.opseq, region := o.region, coord := o.coord i, state := 0, core := 0, attempt := 0, eclass := s.effClass o.region,
    readyAt := s.tb.now.toNat, placedAt := 0, saveSlot := none, pos := o.walkPos i, since := s.tb.now.toNat, avoid := none, trapPending := false, promos := 0, ctx := none, claim := none }

/-- Steps of an operator that are ready or on their way (log 33). -/
def State.outstandingOf (s : State) (q : Nat) : Nat := (s.sched.steps.filter (fun t => t.op == q)).length

/-- The walk of an operator goes on, `k` places at most. -/
def State.walkOp (s : State) (q : Nat) : Nat → State
  | 0 => s
  | k + 1 =>
    match s.opAt q with
    | none => s
    | some o =>
      if o.stopped ∨ o.total ≤ o.walk ∨ 1024 ≤ s.outstandingOf q then s
      else
        let s1 := s.modOp q (fun o => { o with walk := o.walk + 1 })
        State.walkOp (if o.clear o.walk then { s1 with sched := { s1.sched with steps := s1.sched.steps ++ [s.freshStep o o.walk] } } else s1) q k

/-- The walk of every operator goes on. -/
def State.walkAll (s : State) : State := (s.sched.ops.map (·.opseq)).foldl (fun s q => s.walkOp q 1024) s

/-- Step `i` of an operator has retired: the step after it on the ordered dimension is ready, where the walk has reached it (R137). -/
def State.readyAfter (s : State) (q i : Nat) : State :=
  match s.opAt q with
  | none => s
  | some o =>
    match o.ordered with
    | none => s
    | some (st, n) =>
      if !o.stopped && decide (i / st % n + 1 < n) && decide (i + st < o.walk) then { s with sched := { s.sched with steps := s.sched.steps ++ [s.freshStep o (i + st)] } } else s

/-- OPERATOR_ACCEPT (R134, R135): the `i`-th LAUNCH or BUNDLE that waits at dispatch is accepted or refused, or waits on for operator slots or
for a page-in. -/
def execOperatorAccept (i : Nat) (s : State) : Out :=
  .next (match s.sched.waiting[i]? with
    | none => s
    | some (p, id) =>
      match (s.parser p).bind (fun x => x.work.find? (fun w => w.id == id)) with
      | none => s
      | some w =>
        let r := pkRegion w.pkt
        let l := pkMembers w.pkt
        if !(s.region r).exist ∨ (s.region r).destroying then (s.withdraw p id).refuse p 0x0A
        else if 256 < s.sched.ops.length + l.length then s
        else match l.mapM (fun m => s.readMember w.region r m.1 m.2) with
          | .ok ms => (((((l.zip ms).foldl (fun s x => s.memberAsked w.region r x.1.2 x.2) s).acceptAll p w ms).walkAll)).sweep
          | .error (.access c (.miss va)) => s.missIn c va (.accept p id)
          | .error (.access _ e) => ((s.noteStop feMaster e).withdraw p id).refuse p e.cause
          | .error (.poison c pa) => ((s.logPoison c pa).withdraw p id).refuse p 0x0D
          | .error .opb => (s.withdraw p id).refuse p 0x13)

/-! ### Completion of work packets (R92 to R95, R131) -/

/-- A work packet in flight: of a parser, or of a queue that is no longer mapped. -/
def State.workOf (s : State) (p id : Nat) : Option (Work × Option Nat) :=
  match (s.parser p).bind (fun x => x.work.find? (fun w => w.id == id)) with
  | some w => some (w, none)
  | none => (s.fe.orphans.find? (fun x => x.2.id == id)).map (fun x => (x.2, some x.1))

/-- A work packet is no longer in flight. -/
def State.dropWork (s : State) (p id : Nat) : State :=
  ({ s with fe := { s.fe with orphans := s.fe.orphans.filter (fun x => x.2.id != id) } } : State).modParser p (fun x => { x with work := x.work.filter (fun w => w.id != id) })

/-- A work packet ends in a fault of its queue (R95, R97); of a queue that has been unregistered since, only the record is made. -/
def State.workFault (s : State) (p : Nat) (w : Work) (q : Option Nat) (f : PktFault) (notice : Bool) : State :=
  let s1 := s.dropWork p w.id
  match q with
  | some q => if q < 4096 then s1.faultQueue q f else s1.logFrontEnd (q % 4096) w.region f
  | none => s1.faultParser p f w.frame notice

/-- An access of a work packet stops: a page-in starts and it is tried again, or its queue faults (R85). -/
def State.stopWork (s : State) (p : Nat) (w : Work) (q : Option Nat) (e : FeStop) : State :=
  match e with
  | .miss va => s.missIn w.region va (.work p w.id)
  | e => (s.noteStop feMaster e).workFault p w q (w.fault e.cause 0) true

/-- Releases that a queue's later packets may acquire (R91). -/
def State.noteRels (s : State) (p : Nat) (q : Option Nat) (l : List Release) : State :=
  match q with
  | some q => let k := sget Kept.none s.fe.kept q; { s with fe := { s.fe with kept := sset Kept.none s.fe.kept q { k with rels := l.foldl mergeRel k.rels } } }
  | none => s.modParser p (fun x => { x with rels := l.foldl mergeRel x.rels })

/-- The release that a packet's completion makes, at its SCOPE, and those of the cores that ran it (R91, R92). -/
def State.completionRels (s : State) (w : Work) : List Release := s.releaseBy feKey w.region (pkScope w.pkt) :: w.rels

/-- Completion (R92): the release, the signal, the interrupt. -/
def State.completeWork (s : State) (p : Nat) (w : Work) (q : Option Nat) : State :=
  let i := pkScope w.pkt
  let s0 : State := { s with fab := s.fab.raiseAgent feKey (acquired w.rels feKey (s.regionScope w.region i) i) }
  let s1 := s0.noteRels p q (s0.completionRels w)
  let irq (s : State) : State := (if fld w.pkt 18 1 = 1 then s.msix w.func (fld w.pkt 8 6) else s).dropWork p w.id
  if hasTail (pkType w.pkt) ∧ fld w.pkt 384 64 ≠ 0 then
    match s1.signal w.region i (fld w.pkt 384 64) (BitVec.ofNat 64 (fld w.pkt 448 64)) w.rels with
    | .ok s2 => irq s2
    | .error e => s1.stopWork p w q e
  else irq s1

/-- Pieces of at most 4 KiB that a COPY has still to copy. -/
def copyPieces (w : Work) : Nat := (fld w.pkt 192 32 - w.copied + 4095) / 4096

/-- A work packet changed. -/
def State.modWork (s : State) (id : Nat) (f : Work → Work) : State := s.mapWorks (fun w => if w.id = id then f w else w)

/-- The parts of a range with their offsets in it: offset, address, length. -/
def partOffsets : Nat → List (Nat × Nat × W64) → List (Nat × Nat × Nat)
  | _, [] => []
  | o, p :: t => (o, p.1, p.2.1) :: partOffsets (o + p.2.1) t

/-- Poisoned runs of a range, as offsets and lengths. -/
def State.partRuns (s : State) (ps : List (Nat × Nat × W64)) : List (Nat × Nat) :=
  (partOffsets 0 ps).flatMap (fun x => (s.poisonRuns x.2.1 x.2.2).map (fun r => (x.1 + r.1, r.2)))

/-- Poison that travels with data into the parts of a range (R155). -/
def State.carryParts (s : State) (ps : List (Nat × Nat × W64)) (runs : List (Nat × Nat)) : State :=
  (partOffsets 0 ps).foldl (fun s x => runs.foldl (fun s r =>
    if max x.1 r.1 < min (x.1 + x.2.2) (r.1 + r.2) then s.setPoison (x.2.1 + (max x.1 r.1 - x.1)) (min (x.1 + x.2.2) (r.1 + r.2) - max x.1 r.1) else s) s) s

/-- COPY (R84): LEN bytes from FROMADDR to TOADDR, piece after piece, poison with the data and a record of it (R155); the bytes copied, and why it
stops. -/
def State.copyPieces (s : State) (r : Nat) (pkt : BitVec 512) : Nat → Nat → State × Nat × Option FeStop
  | 0, done => (s, done, none)
  | k + 1, done =>
    let len := fld pkt 192 32
    if len ≤ done then (s, done, none)
    else
      let n := min 4096 (len - done)
      match s.devRead feMaster r (fld pkt 128 64 + done) n with
      | .error e => (s, done, some e)
      | .ok (b, _, src) =>
        match s.devRange feMaster r kWrite (fld pkt 64 64 + done) n with
        | .error e => (s, done, some e)
        | .ok dst =>
          let s1 := (((s.partsOut r false src).devPut feKey dst b).partsOut r true dst).carryParts dst (s.partRuns src)
          let s2 := match s.badGranule (src.map (fun p => (p.1, p.2.1))) with | some g => s1.logPoison r g | none => s1
          State.copyPieces s2 r pkt k (done + n)

/-- WORK_PACKET_COMPLETE (R90 to R95): a work packet whose executor has done with it completes, ends without completion, or faults its queue. -/
def execWorkPacketComplete (p : Fin 1152) (id : Nat) (s : State) : Out :=
  .next (match s.workOf p.val id with
    | none => s
    | some (w, q) =>
      match w.exec with
      | 0 => s.completeWork p.val w q
      | 1 =>
        if s.sched.waiting.any (fun x => x.2 == id) || s.sched.ops.any (fun o => o.work == id) then s
        else if w.cancelled then s.dropWork p.val id
        else (match w.faulted with
          | some m => s.workFault p.val w q (w.fault 0x11 m) false
          | none => s.completeWork p.val w q)
      | 2 =>
        (match s.copyPieces w.region w.pkt (copyPieces w) w.copied with
          | (s1, _, none) => s1.completeWork p.val w q
          | (s1, done, some e) => (s1.modWork id (fun w => { w with copied := done })).stopWork p.val { w with copied := done } q e)
      | 4 =>
        if !s.regionDone w.pkt then s
        else (match (match w.final with | some (ctx, addr, st) => s.putStatusOf ctx addr st | none => s.writeStatusOf (pkRegion w.pkt)) with
          | .ok t => t.completeWork p.val w q
          | .error e => s.stopWork p.val w q e)
      | _ => s)

end Sys2Proof.Machine
end

