-- ==== Sys2Proof/Machine/Streams.lean ====
section
/-! DEFINITION. Streams: STREAM packets and their checks (spec/04 R107, R108, R123 to R125, R424), releases, slack, deadlines and finishes
(R109 to R114, R116), and the encoders (R119 to R126). -/

namespace Sys2Proof.Machine

/-! ### Checks of a control block (R105 to R107) -/

/-- A reserved field of the header or of the rung table is set, or an unused rung entry is not zero. -/
def scbStray (b : BitVec 4096) : Bool :=
  [(1536, 512), (967, 57), (870, 26), (428, 20), (288, 32), (216, 8), (204, 4), (190, 2), (188, 1), (183, 1), (179, 1)].any (fun f => fld b f.1 f.2 != 0)
  || (List.range 8).any (fun n => if n ≤ fld b 184 3 then fld b (2048 + 256 * n + 161) 31 != 0 || fld b (2048 + 256 * n + 85) 11 != 0 else fld b (2048 + 256 * n) 256 != 0)

/-- Every field lies within its range. -/
def scbRange (b : BitVec 4096) (vf : Bool) : Bool :=
  let al (lo m : Nat) : Bool := decide (fld b lo 64 % m = 0)
  let n := fld b 184 3
  decide (1 ≤ fld b 128 32) && decide (1 ≤ fld b 160 16) && decide (fld b 176 3 ≤ n) && decide (fld b 180 3 ≤ n)
  && (decide (fld b 200 4 ≤ 7) || decide (fld b 200 4 = 15)) && decide (1 ≤ fld b 224 32) && al 320 4096 && decide (fld b 384 32 % 4096 = 0)
  && decide (1 ≤ fld b 416 4) && (decide (fld b 189 1 = 0) || decide (2 ≤ fld b 416 4)) && al 448 4096 && al 512 4096 && al 576 512 && al 640 256 && al 704 16
  && al 768 4096 && decide (fld b 832 32 % 4096 = 0) && decide (4096 ≤ fld b 832 32) && decide (fld b 832 32 ≤ 0x40000000) && decide (1 ≤ fld b 864 6) && al 896 64
  && (!vf || decide (fld b 960 6 < 8))
  && (List.range (n + 1)).all (fun k =>
      let e (lo len : Nat) : Nat := fld b (2048 + 256 * k + lo) len
      decide (1 ≤ e 128 32) && decide (1 ≤ e 96 32) && decide (1 ≤ e 64 21) && decide (e 64 21 ≤ 1048576) && decide (e 0 64 % 64 = 0))

/-- A range translates to leaves with TIER fast and TMISS 0. -/
def State.pinned (s : State) (r va len : Nat) : Bool :=
  (pageParts (len / 4096 + 2) va len).all (fun a =>
    match s.walk (s.effRoot r) (s.effAsid r) a.1 with
    | .ok l => decide (a.1 / 2 ^ 48 = 0) && fld l.leaf 62 2 == 0 && fld (s.marked l.leaf l.shift a.1) 60 1 == 0
    | .error _ => false)

/-- The context buffers, the anchors and the context map are pinned (R107). -/
def State.scbPinned (s : State) (r : Nat) (b : BitVec 4096) : Bool :=
  s.pinned r (fld b 320 64) ((fld b 416 4 + 1) * fld b 384 32)
    && (decide (fld b 420 8 = 0) || (s.pinned r (fld b 448 64) (fld b 384 32) && s.pinned r (fld b 512 64) (fld b 384 32))) && s.pinned r (fld b 576 64) 288

/-! ### Encoder configuration (R122, R123, R424) -/

def ecbWidth (e : BitVec 512) : Nat := fld e 16 16
def ecbHeight (e : BitVec 512) : Nat := fld e 32 16
def ecbBit10 (e : BitVec 512) : Bool := fld e 2 1 == 1
def ecbKeyint (e : BitVec 512) : Nat := fld e 128 16

/-- R122 and R123. -/
def ecbOk (e : BitVec 512) : Bool :=
  let codec := fld e 0 2
  let rc := fld e 48 2
  let w := ecbWidth e
  let h := ecbHeight e
  decide (fld e 196 316 = 0) && decide (fld e 144 16 = 0) && decide (fld e 50 6 = 0) && decide (fld e 3 13 = 0) && decide (codec ≠ 3) && decide (rc ≠ 3)
  && (decide (codec ≠ 1) || !ecbBit10 e) && (decide (codec ≠ 2) || ecbBit10 e)
  && decide (128 ≤ w) && decide (w ≤ 3840) && decide (w % 8 = 0) && decide (128 ≤ h) && decide (h ≤ 2160) && decide (h % 8 = 0)
  && (decide (rc ≠ 0) || decide (codec = 0) || decide (fld e 56 8 ≤ 51)) && decide (1 ≤ fld e 192 4) && decide (fld e 192 4 ≤ 4)
  && (decide (rc = 0) || decide (fld e 64 32 ≤ 10 * fld e 160 32)) && (decide (rc ≠ 2) || decide (fld e 64 32 ≤ fld e 96 32))

/-- A codec level: the number by which a bitstream signals it, and its limits on picture size, width, height, luma samples a second, kbit/s and the
rate buffer in kbit. -/
structure CodecLevel where
  signal : Nat
  size : Nat
  side : Nat × Nat
  rate : Nat
  kbps : Nat
  buffer : Nat
deriving DecidableEq, Repr

/-- AV1 levels 2.0 to 5.3, Main tier (PRESUMED, log 29). -/
def av1Levels : List CodecLevel :=
  [⟨0, 147456, (2048, 1152), 4423680, 1500, 1500⟩, ⟨1, 278784, (2816, 1584), 8363520, 3000, 3000⟩, ⟨4, 665856, (4352, 2448), 19975680, 6000, 6000⟩,
   ⟨5, 1065024, (5504, 3096), 31950720, 10000, 10000⟩, ⟨8, 2359296, (6144, 3456), 70778880, 12000, 12000⟩, ⟨9, 2359296, (6144, 3456), 141557760, 20000, 20000⟩,
   ⟨12, 8912896, (8192, 4352), 267386880, 30000, 30000⟩, ⟨13, 8912896, (8192, 4352), 534773760, 40000, 40000⟩,
   ⟨14, 8912896, (8192, 4352), 1069547520, 60000, 60000⟩, ⟨15, 8912896, (8192, 4352), 1069547520, 60000, 60000⟩]

/-- HEVC levels 1 to 5.2, Main tier (PRESUMED, log 29). -/
def hevcLevels : List CodecLevel :=
  [⟨30, 36864, (543, 543), 552960, 128, 350⟩, ⟨60, 122880, (991, 991), 3686400, 1500, 1500⟩, ⟨63, 245760, (1402, 1402), 7372800, 3000, 3000⟩,
   ⟨90, 552960, (2103, 2103), 16588800, 6000, 6000⟩, ⟨93, 983040, (2804, 2804), 33177600, 10000, 10000⟩, ⟨120, 2228224, (4222, 4222), 66846720, 12000, 12000⟩,
   ⟨123, 2228224, (4222, 4222), 133693440, 20000, 20000⟩, ⟨150, 8912896, (8444, 8444), 267386880, 25000, 25000⟩,
   ⟨153, 8912896, (8444, 8444), 534773760, 40000, 40000⟩, ⟨156, 8912896, (8444, 8444), 1069547520, 60000, 60000⟩]

/-- A level's limits hold a stream (R424): under CQP no rate is checked. -/
def CodecLevel.holds (v : CodecLevel) (e : BitVec 512) (pnum pden : Nat) : Bool :=
  let rc := fld e 48 2
  let px := ecbWidth e * ecbHeight e
  decide (px ≤ v.size) && decide (ecbWidth e ≤ v.side.1) && decide (ecbHeight e ≤ v.side.2) && decide (px * pden * 1000000000 ≤ v.rate * pnum)
    && (decide (rc = 0) || (decide ((if rc = 1 then fld e 64 32 else fld e 96 32) ≤ v.kbps) && decide (fld e 160 32 ≤ v.buffer)))

/-- The lowest level whose limits hold a stream, which its bitstream signals (R424). -/
def lowestLevel (e : BitVec 512) (pnum pden : Nat) : Option CodecLevel := (if fld e 0 2 = 0 then av1Levels else hevcLevels).find? (fun v => v.holds e pnum pden)

/-- The level check (R424). -/
def levelOk (e : BitVec 512) (pnum pden : Nat) : Bool := (lowestLevel e pnum pden).isSome

/-- What the reads of a packet's control block and of its encoder block send out. -/
def State.scbAsked (s : State) (p : Nat) (k : BitVec 512) (b : BitVec 4096) : State :=
  let r := s.parserRegion p
  (s.devAsked feMaster r (fld k 128 64) 512).devAsked feMaster r (fld b 896 64) 64

/-- Both blocks of a packet read and checked: the cause OPB, the state of a stopped read, or the two blocks. -/
def State.readScb (s : State) (p : Nat) (k : BitVec 512) (region : Nat) : Except State (BitVec 4096 × BitVec 512) :=
  match s.readBlock p (fld k 128 64) 512 with
  | .error t => .error t
  | .ok v =>
    let b : BitVec 4096 := BitVec.ofNat 4096 v
    let f := s.parserFunc p
    if scbStray b || !scbRange b (decide (1 ≤ f) && decide (f ≤ 8)) || !s.scbPinned region b then .error (s.refuse p 0x13)
    else match s.readBlock p (fld b 896 64) 64 with
      | .error t => .error t
      | .ok e =>
        let ecb : BitVec 512 := BitVec.ofNat 512 e
        if ecbOk ecb && levelOk ecb (fld b 128 32) (fld b 160 16) then .ok (b, ecb) else .error (s.refuse p 0x13)

/-! ### STREAM packets (R108) -/

/-- A STREAM packet with operation `op`, its number in range: a stream outside the subtree of REGION, then `eff`. -/
def State.parseStream (s : State) (p op : Nat) (eff : BitVec 512 → State → State) : State :=
  s.parseAs p 0x0A (fun k => pkArg k == op || decide (4 < pkArg k)) (fun _ _ k s =>
    match s.stream (pkStream k) with
    | some x => if s.under (pkRegion k) x.region then eff k s else s.refuse p 0x0A
    | none => eff k s)

/-- A stream as CREATE makes it. -/
def newStream (region func scb ctx : Nat) (b : BitVec 4096) (e : BitVec 512) : Stream :=
  { region := region, func := func, scb := scb, scbCtx := ctx, state := 0, img := setFld b 1024 512 0, ecb := e, anchorA := 0, anchorF0 := 0, frame := fld b 64 64, rung := fld b 176 3,
    setrung := none, dropPending := false, deferredNow := false, stage := 0, run := 0, released := 0, ontime := 0, late := 0, drops := 0, climbs := 0, deferred := 0, ringdrop := 0,
    negslack := 0, runghist := 0, lastfin := 0, minslack := 0, stopcause := 0, jobs := [], owedFin := 0, seqs := Vector.replicate 64 0, encoder := none, destroying := false,
    parser := Parser.reset, parseQueue := [], sinceKey := 0, forceKey := true, noOutput := [], noSlot := [], prev := [] }

/-- STREAM CREATE (R107, R108). -/
def execStreamCreate (p : Fin 1152) (s : State) : Out :=
  .next (s.parseStream p.val 0 (fun k s =>
    match s.stream (pkStream k) with
    | some _ => s.refuse p.val 0x05
    | none =>
      match s.readScb p.val k (pkRegion k) with
      | .error t => t
      | .ok (b, e) =>
        let x := newStream (pkRegion k) (s.parserFunc p.val) (fld k 128 64) (s.parserRegion p.val) b e
        match (s.scbAsked p.val k b).devWrite feMaster feKey (s.parserRegion p.val) (fld k 128 64 + 128) (List.replicate 64 0) with
        | .error e => s.stopParse p.val e
        | .ok t => ({ t with streams := sset none t.streams (pkStream k) (some x) } : State).dispatchTo p.val k 0))

/-- The load of a stream as a fraction of pixels per second (R125). -/
def loadOf (e : BitVec 512) (pnum pden : Nat) : Nat × Nat := (ecbWidth e * ecbHeight e * pden * 1000000000, pnum)
def addFrac (a b : Nat × Nat) : Nat × Nat := (a.1 * b.2 + b.1 * a.2, a.2 * b.2)

/-- An encoder's remaining capacity covers a load (R125). -/
def State.encoderFits (s : State) (e : Fin 8) (l : Nat × Nat) : Bool :=
  let sum := s.streams.foldl (fun acc x => match x.2 with | some y => if y.encoder = some e then addFrac acc (loadOf y.ecb y.pnum y.pden) else acc | none => acc) l
  decide (sum.1 ≤ 995328000 * sum.2)

/-- The encoder that START binds (R125). -/
def State.pickEncoder (s : State) (enc : Nat) (l : Nat × Nat) : Option (Fin 8) :=
  if enc = 15 then (List.finRange 8).find? (fun e => s.encoderFits e l) else if s.encoderFits (Fin.ofNat 8 enc) l then some (Fin.ofNat 8 enc) else none

/-- Bytes of a tile record (R119). -/
def recordBytes (e : BitVec 512) : Nat := if ecbBit10 e then 12352 else 6208

/-- A stream's flume as START sets it: 4 slots of tile records in the encoder's area (R373, log 30). -/
def streamFlume (n : Nat) (f : Fin 256) (e : BitVec 512) : Flume :=
  { region := none, stream := some n, base := Config.landingSize + f.val * 65536, esize := recordBytes e, slog2 := 2, inn := 0, out := 0, pending := [], rels := [] }

/-- STREAM START (R107 to R109, R125). DESIGN CHOICE (log 31): what the spec does not name stays from an earlier run of the stream: RUN, a pending
drop or SETRUNG, whose rung the new control block may not have, the counters, RUNGHIST and MINSLACK. -/
def execStreamStart (p : Fin 1152) (s : State) : Out :=
  .next (s.parseStream p.val 1 (fun k s =>
    let n := pkStream k
    match s.stream n with
    | none => s.refuse p.val 0x05
    | some x =>
      if x.state ≠ 0 then s.refuse p.val 0x05
      else match s.readScb p.val k x.region with
        | .error t => t
        | .ok (b, e) =>
          let f : Fin 256 := Fin.ofNat 256 (fld b 208 8)
          let used := s.fab.flumes[f].region.isSome || s.fab.flumes[f].stream.isSome
          match s.pickEncoder (fld b 200 4) (loadOf e (fld b 128 32) (fld b 160 16)) with
          | none => s.refuse p.val 0x05
          | some enc =>
            if used then s.refuse p.val 0x05
            else
              let t0 := fld b 0 64
              let s1 := (s.scbAsked p.val k b).modStream n (fun x =>
                { x with scb := fld k 128 64, scbCtx := s.parserRegion p.val, img := setFld b 1024 512 0, ecb := e, state := 1, anchorA := if t0 = 0 then s.tb.now.toNat else t0, anchorF0 := fld b 64 64,
                         frame := fld b 64 64, rung := fld b 176 3, stopcause := 0, deferredNow := false, stage := 0, seqs := Vector.replicate 64 0, encoder := some enc,
                         sinceKey := 0, forceKey := true, noOutput := [], noSlot := [], prev := [] })
              ({ s1 with fab := { s1.fab with flumes := s1.fab.flumes.set f (streamFlume n f e) } } : State).dispatchTo p.val k 0))

/-- STREAM STOP (R108). -/
def execStreamStop (p : Fin 1152) (s : State) : Out :=
  .next (s.parseStream p.val 2 (fun k s =>
    match s.stream (pkStream k) with
    | some x => if x.state = 1 then ((s.dispatchTo p.val k 3).modStream (pkStream k) (fun x => { x with state := 2 })).checkStopped (pkStream k) else s.refuse p.val 0x05
    | none => s.refuse p.val 0x05))

/-- STREAM SETRUNG (R108, R114). -/
def execStreamSetrung (p : Fin 1152) (s : State) : Out :=
  .next (s.parseStream p.val 3 (fun k s =>
    match s.stream (pkStream k) with
    | some x =>
      if x.state = 2 ∨ x.nrungs ≤ fld k 192 8 then s.refuse p.val 0x05
      else (s.modStream (pkStream k) (fun x => { x with setrung := some (fld k 192 8) })).dispatchTo p.val k 0
    | none => s.refuse p.val 0x05))

/-- STREAM DESTROY (R108). -/
def execStreamDestroy (p : Fin 1152) (s : State) : Out :=
  .next (s.parseStream p.val 4 (fun k s =>
    match s.stream (pkStream k) with
    | some x => if x.state = 2 then s.refuse p.val 0x05 else (s.dispatchTo p.val k (if x.state = 0 then 0 else 3)).destroyStream (pkStream k)
    | none => s.refuse p.val 0x05))

/-! ### Releases (R110, R111, R114, R116) -/

/-- NextRung (R114). -/
def Stream.nextRung (x : Stream) : Stream :=
  let y : Stream :=
    match x.setrung with
    | some r => { x with rung := r, run := 0 }
    | none =>
      if x.dropPending then
        (if x.rung < x.lowest then { x with rung := x.rung + 1, drops := x.drops + 1, run := 0 } else { x with run := 0 })
      else if x.climbn ≠ 0 ∧ x.climbn ≤ x.run ∧ 0 < x.rung then { x with rung := x.rung - 1, climbs := x.climbs + 1, run := 0 }
      else x
  { y with setrung := none, dropPending := false, runghist := (y.runghist <<< 4) ||| BitVec.ofNat 64 y.rung }

/-- The context map's entry of a frame: its number, its buffer, whether it is an anchor (R116). -/
def Stream.context (x : Stream) (f : Nat) : Nat × Nat × Bool :=
  if x.aper ≠ 0 ∧ f % x.aper = 0 then (16 + f / x.aper % 2, x.anchor (f / x.aper % 2), true)
  else (f % x.ctxRing, x.ctxBase + f % x.ctxRing * x.ctxStride, false)

/-- The 16 bytes of an entry. -/
def contextEntry (addr f rung : Nat) (anchor valid : Bool) : List Byte :=
  natLe 8 (f % 2 ^ 48 + rung % 8 * 2 ^ 48 + anchor.toNat * 2 ^ 51 + valid.toNat * 2 ^ 52) ++ natLe 8 addr

/-- The frame-job parameter block (R111). -/
def Stream.jobBlock (x : Stream) (f : Nat) : Nat :=
  f % 2 ^ 64 + x.releaseOf f % 2 ^ 64 * 2 ^ 64 + x.deadlineOf f % 2 ^ 64 * 2 ^ 128 + x.rung * 2 ^ 192 + f % x.nslots * 2 ^ 200 + x.flume.val * 2 ^ 208 + x.cmap * 2 ^ 256
    + (x.context f).2.1 * 2 ^ 320 + x.user x.rung * 2 ^ 384

/-- Frame `f` of a stream is released, with or without a slot (R110): its job is in flight, and its indirect buffer parses after a release at
scope 15. -/
def State.released (s : State) (n slot : Nat) (out : Bool) : State :=
  s.modStream n (fun x =>
    let f := x.frame
    let j : FrameJob :=
      { frame := f, release := x.releaseOf f, releasedAt := s.tb.now.toNat, deadline := x.deadlineOf f, rung := x.rung, est := x.est x.rung, steps := x.stepsOf x.rung,
        retired := 0, minSlack := 2 ^ 63 - 1, neg := false, cancelled := false, slot := if out then some slot else none, left := false, owes := none, faulted := false }
    Stream.feed
      { x with jobs := x.jobs ++ [j], frame := f + 1, img := setFld (setFld x.img 64 64 (f + 1)) 176 3 x.rung, released := x.released + 1, deferredNow := false, stage := 0,
               ringdrop := if out then x.ringdrop else x.ringdrop + 1, noOutput := if out then x.noOutput else f :: x.noOutput,
               noSlot := if out then x.noSlot else f :: x.noSlot, parseQueue := x.parseQueue ++ [(f, x.ibAddr x.rung, x.ibCount x.rung)],
               parser := { x.parser with rels := mergeRel x.parser.rels (s.releaseBy feKey x.region 15) } })

/-- The read of the slot's status word, with an acquire at scope 15, and ENCODING where it is FREE (R110, R118). -/
def State.takeSlot (s : State) (n : Nat) (x : Stream) : State × Option FeStop :=
  let slot := x.frame % x.nslots
  match s.devPiece feMaster x.region kRead (x.ringBase + 16 * slot, 16) with
  | .error e => (s, some e)
  | .ok (pa, _, _) =>
    if s.poisoned pa 16 then (s.logPoison x.region pa, some .page)
    else
      let s1 := (s.devAsked feMaster x.region (x.ringBase + 16 * slot) 16).acquireAt feKey x.region 15 pa 16
      if memNat s1.mem pa 16 % 4 = 0 then
        match s1.putStatus feMaster feKey n slot { state := 1, frame := x.frame, rung := x.rung, interp := x.interp x.rung } with
        | .error e => (s1, some e)
        | .ok s2 => (s2.released n slot true, none)
      else (s1.released n slot false, none)

/-- The release of a stream's next frame goes on from the stage that it has reached (R110): the rung, the context map, the frame-job block, the slot.
Each stage stands once it is made; an access that does not perform ends the run. -/
def State.releaseFrame (s : State) (n : Nat) (x0 : Stream) : State × Option FeStop :=
  let x := if x0.stage = 0 then { x0.nextRung with stage := 1 } else x0
  let f := x.frame
  let s0 := s.modStream n (fun _ => x)
  match (if x.stage < 2 then s0.devWrite feMaster feKey x.region (x.cmap + 16 * (x.context f).1) (contextEntry (x.context f).2.1 f x.rung (x.context f).2.2 true) else .ok s0) with
  | .error e => (s0, some e)
  | .ok a =>
    let s1 := a.modStream n (fun x => { x with stage := max 2 x.stage })
    match (if x.stage < 3 then s1.devWrite feMaster feKey x.region (x.fjbase + f % 4 * 64) (natLe 64 (x.jobBlock f)) else .ok s1) with
    | .error e => (s1, some e)
    | .ok b => (b.modStream n (fun x => { x with stage := 3 })).takeSlot n { x with stage := 3 }

/-- A release that faults stops its stream (R108, R110). -/
def State.releaseFault (s : State) (n region cause : Nat) : State :=
  let s1 := s.logFrontEnd 0xFFFF region { cause := cause, pkt := 0, level := 0, addr := 0, index0 := 0 }
  (s1.faultNotice region 0 cause 0).stopStream n cause

/-- FRAME_RELEASE (R110): at its release time and below the in-flight limit; a deferral is counted once a frame. -/
def execFrameRelease (n : Fin 1024) (s : State) : Out :=
  .next (match s.stream n.val with
    | none => s
    | some x =>
      if x.state ≠ 1 ∨ s.tb.now.toNat < x.releaseOf x.frame ∨ !s.regionActive x.region then s
      else if x.overlap + 1 ≤ x.jobs.length then
        (if x.deferredNow then s else s.modStream n.val (fun x => { x with deferred := x.deferred + 1, deferredNow := true }))
      else match s.releaseFrame n.val x with
        | (t, none) => t
        | (t, some (.miss va)) => t.missIn x.region va (.stream n.val)
        | (t, some e) => (t.noteStop feMaster e).releaseFault n.val x.region e.cause)

/-! ### Slack, deadlines, finishes (R112, R114) -/

/-- Slack (R112). -/
def FrameJob.slack (j : FrameJob) (now mhz : Nat) : Int :=
  let left := j.steps - min j.retired j.steps
  let d := j.steps * mhz
  (j.deadline : Int) - now - ((j.est * left * 3300 + d - 1) / d : Nat)

/-- One evaluation of a job's slack (R112). -/
def Stream.evaluate (x : Stream) (f now mhz : Nat) : Stream :=
  match x.job f with
  | none => x
  | some j =>
    let v := j.slack now mhz
    let first := decide (v < 0) && !j.neg
    let y := x.modJob f (fun j => { j with minSlack := min j.minSlack v, neg := j.neg || decide (v < 0) })
    if first then { y with negslack := y.negslack + 1, dropPending := true, run := 0 } else y

/-- An evaluation falls now: a whole number of microseconds after the job's release, the phase of ZG1 (R9, R112). -/
def Stream.evaluates (x : Stream) (f now : Nat) : Bool := match x.job f with | some j => decide ((now - j.releasedAt) % 1000 = 0) | none => false

/-- SLACK_EVALUATION (R112): the periodic evaluation of a job. -/
def execSlackEvaluation (n : Fin 1024) (frame : Nat) (s : State) : Out :=
  .next (s.modStream n.val (fun x => if x.evaluates frame s.tb.now.toNat then x.evaluate frame s.tb.now.toNat s.board.clockMhz else x))

/-- The context entry of a cancelled frame is made invalid (R116). -/
def State.dropContext (s : State) (x : Stream) (j : FrameJob) : State :=
  let (idx, addr, anchor) := x.context j.frame
  s.tryWrite feMaster feKey x.region (x.cmap + 16 * idx) (contextEntry addr j.frame j.rung anchor false)

/-- FRAME_DEADLINE (R114): at the deadline of an unfinished job of a stream with LATEPOL CANCEL, the job is cancelled and finishes. -/
def execFrameDeadline (n : Fin 1024) (frame : Nat) (s : State) : Out :=
  .next (match s.stream n.val with
    | none => s
    | some x =>
      match x.job frame with
      | none => s
      | some j =>
        if j.deadline ≤ s.tb.now.toNat ∧ x.cancels ∧ !j.cancelled then
          let s1 := (((s.cancelFrame n.val frame).skipSlot n.val j true).dropTiles n.val frame).dropContext x j
          let s2 := s1.modStream n.val (fun x => Stream.feed { (x.modJob frame (fun j => { j with cancelled := true })) with noOutput := frame :: x.noOutput })
          (s2.settleStream n.val).sweep
        else s)

/-- FRAME_JOB_FINISH (R110, R114). -/
def execFrameJobFinish (n : Fin 1024) (frame : Nat) (s : State) : Out :=
  .next (match s.stream n.val with
    | none => s
    | some x =>
      match x.job frame with
      | none => s
      | some j => if x.jobOver j then s.finishJob n.val frame else s)

/-! ### Encoders (R119 to R126) -/

/-- The record at the head of a stream's flume, once its copy has finished. -/
def State.headRecord (s : State) (x : Stream) : Option (BitVec 512 × Bool) :=
  let f := s.fab.flumes[x.flume]
  if f.inn = f.out ∨ f.pending.contains f.out.toNat then none
  else some (BitVec.ofNat 512 (memNat s.mem (f.slotPa f.out.toNat) 64), s.poisoned (f.slotPa f.out.toNat) f.esize)

/-- Frame, TX, TY, DEPTH10 of a record. -/
def recFrame (h : BitVec 512) : Nat := fld h 0 32
def recTile (h : BitVec 512) : Nat × Nat := (fld h 40 8, fld h 48 8)

/-- The stream's next frame for its encoder: the oldest job that is still to be encoded; one whose last status word is only owed is not. -/
def Stream.nextFrame (x : Stream) : Option FrameJob := x.jobs.find? (fun j => j.slot.isSome && !j.left && j.owes.isNone)

/-- That frame is ready (R125). -/
def State.frameReady (s : State) (x : Stream) (j : FrameJob) : Bool :=
  x.packetsOver j.frame || (match s.headRecord x with | some (h, _) => recFrame h == j.frame % 2 ^ 32 | none => false)

/-- The frame that an encoder takes next: the earliest release among the ready ones (R125). -/
def State.pickFrame (s : State) (e : Fin 8) : Option (Nat × FrameJob) :=
  s.streams.foldl (fun best y =>
    match y.2 with
    | some x =>
      if x.encoder = some e then
        (match x.nextFrame with
          | some j => if s.frameReady x j && (match best with | some (_, b) => decide (j.release < b.release) | none => true) then some (y.1, j) else best
          | none => best)
      else best
    | none => best) none

/-- Tiles of a picture. -/
def ecbTiles (e : BitVec 512) : Nat × Nat := ((ecbWidth e + 63) / 64, (ecbHeight e + 63) / 64)

/-- A record of the present frame is not taken (R120). -/
def tileBad (x : Stream) (tiles : List Tile) (h : BitVec 512) : Bool :=
  let t := recTile h
  fld h 57 455 != 0 || fld h 32 8 != 0 || decide ((ecbTiles x.ecb).1 ≤ t.1) || decide ((ecbTiles x.ecb).2 ≤ t.2) || fld h 56 1 != (ecbBit10 x.ecb).toNat
    || tiles.any (fun y => (y.x, y.y) == t)

/-- The ENC_TILE record (R120, R159). -/
def State.logTile (s : State) (e : Fin 8) (n : Nat) (h : BitVec 512) : State :=
  s.log { cls := 0x11, data0 := recFrame h, data1 := (recTile h).1 + (recTile h).2 * 256, companion := n % 256, master := (encMaster e).val, unit := e.val }

/-- A record of the present frame assembled, or discarded with a record. -/
def State.takeTile (s : State) (e : Fin 8) (n : Nat) (x : Stream) (h : BitVec 512) (data : List Byte) : State :=
  if tileBad x s.encoders[e].tiles h then s.logTile e n h
  else { s with encoders := s.encoders.set e { s.encoders[e] with tiles := s.encoders[e].tiles ++ [{ x := (recTile h).1, y := (recTile h).2, data := data }] } }

/-- An encoder takes a frame up, with the records held for it. -/
def State.beginFrame (s : State) (e : Fin 8) (n f : Nat) (x : Stream) : State :=
  let enc := s.encoders[e]
  let own (r : Nat × BitVec 512 × List Byte) : Bool := decide (r.1 = n) && decide (recFrame r.2.1 = f % 2 ^ 32)
  let s1 : State := { s with encoders := s.encoders.set e { enc with current := some (n, f), tiles := [], filled := false, held := enc.held.filter (fun r => !own r) } }
  (enc.held.filter own).foldl (fun s r => s.takeTile e n x r.2.1 r.2.2) s1

/-- The samples of the record at the head of a stream's flume. -/
def State.headSamples (s : State) (x : Stream) : List Byte :=
  let f := s.fab.flumes[x.flume]
  memRead s.mem (f.slotPa f.out.toNat + 64) (f.esize - 64)

/-- The head of a stream's flume is popped. -/
def State.popRecord (s : State) (x : Stream) : State :=
  let f := s.fab.flumes[x.flume]
  { s with fab := { s.fab with flumes := s.fab.flumes.set x.flume { f with out := f.out + 1 } } }

/-- The frame after `f` in a stream's order of encoding: the next one with a slot, else the next in number. -/
def Stream.frameAfter (x : Stream) (f : Nat) : Nat := match x.jobs.find? (fun j => j.slot.isSome && !j.left && j.owes.isNone && decide (f < j.frame)) with | some j => j.frame | none => f + 1

/-- A popped record that is not of the frame being assembled, `f`: of a frame without output it goes without a log; of the next frame it is held;
else it is discarded with a record (R120). -/
def State.otherRecord (s : State) (e : Fin 8) (n f : Nat) (x : Stream) (h : BitVec 512) (data : List Byte) : State :=
  if x.noOutput.any (fun g => g % 2 ^ 32 == recFrame h) then s
  else if recFrame h = x.frameAfter f % 2 ^ 32 ∧ fld h 57 455 = 0 ∧ fld h 32 8 = 0 then
    { s with encoders := s.encoders.set e { s.encoders[e] with held := s.encoders[e].held ++ [(n, h, data)] } }
  else s.logTile e n h

/-- A popped record is assembled, held, or discarded (R120); a poisoned one is as if it had not come (R155). -/
def State.takeRecord (s : State) (e : Fin 8) (n f : Nat) (x : Stream) (h : BitVec 512) (bad : Bool) : State :=
  let data := s.headSamples x
  let s1 := s.popRecord x
  if bad then s1 else if recFrame h = f % 2 ^ 32 then s1.takeTile e n x h data else s1.otherRecord e n f x h data

/-- A record at the head of a stream of the encoder that is not of the stream's next frame. -/
def State.stray (s : State) (e : Fin 8) : Option (Nat × Stream × BitVec 512 × Bool) :=
  s.streams.foldl (fun best y =>
    match best, y.2 with
    | none, some x =>
      if x.encoder = some e then
        (match s.headRecord x with
          | some (h, bad) => if (match x.nextFrame with | some j => recFrame h != j.frame % 2 ^ 32 | none => true) then some (y.1, x, h, bad) else none
          | none => none)
      else none
    | b, _ => b) none

/-- ENCODER_TILE_POP (R120, R125): a record of the frame being assembled, or of the next frame to be, which is then taken up; else one that a stream's
next frame waits behind. -/
def execEncoderTilePop (e : Fin 8) (s : State) : Out :=
  .next (match s.encoders[e].current with
    | some (n, f) =>
      (match s.stream n with
        | some x => (match s.headRecord x with | some (h, bad) => s.takeRecord e n f x h bad | none => s)
        | none => s)
    | none =>
      match s.pickFrame e with
      | some (n, j) =>
        (match s.stream n with
          | some x =>
            let s1 := s.beginFrame e n j.frame x
            (match s1.headRecord x with | some (h, bad) => if recFrame h = j.frame % 2 ^ 32 then s1.takeRecord e n j.frame x h bad else s1 | none => s1)
          | none => s)
      | none =>
        match s.stray e with
        | some (n, x, h, bad) =>
          let data := s.headSamples x
          let s1 := s.popRecord x
          if bad then s1
          else match x.nextFrame with
            | some j => s1.otherRecord e n j.frame x h data
            | none => if x.noOutput.any (fun g => g % 2 ^ 32 == recFrame h) then s1 else s1.logTile e n h
        | none => s)

/-- Every tile of the present frame has arrived. -/
def Encoder.full (e : Encoder) (x : Stream) : Bool := decide ((ecbTiles x.ecb).1 * (ecbTiles x.ecb).2 ≤ e.tiles.length)

/-- The frame is a key frame (R124). -/
def Stream.isKey (x : Stream) (f : Nat) : Bool := x.forceKey || x.noSlot.any (fun g => decide (g < f)) || (ecbKeyint x.ecb != 0 && decide (ecbKeyint x.ecb ≤ x.sinceKey))

/-- A record of a frame lies anywhere in the stream's flume, or an element whose copy has not finished. -/
def State.comesYet (s : State) (x : Stream) (f : Nat) : Bool :=
  let fl := s.fab.flumes[x.flume]
  (List.range (fl.inn - fl.out).toNat).any (fun k =>
    let i := (fl.out + BitVec.ofNat 32 k).toNat
    fl.pending.contains i || memNat s.mem (fl.slotPa i) 4 == f % 2 ^ 32)

/-- Mid-level samples of a tile (R121). -/
def midLevel (e : BitVec 512) : List Byte := if ecbBit10 e then (List.range 6144).flatMap (fun _ => [0x00, 0x02]) else List.replicate 6144 128

/-- The tiles that have not arrived, filled: from the previous encoded frame, or at mid level for a key frame (R121). -/
def Stream.fillers (x : Stream) (f : Nat) (have' : List Tile) : List Tile :=
  let (w, h) := ecbTiles x.ecb
  ((List.range h).flatMap (fun y => (List.range w).map (fun c => (c, y)))).filterMap (fun t =>
    if have'.any (fun y => (y.x, y.y) == t) then none
    else some { x := t.1, y := t.2, data := match (if x.isKey f then none else x.prev.find? (fun y => (y.x, y.y) == t)) with | some y => y.data | none => midLevel x.ecb })

/-- ENCODER_TILE_FILL (R121): the frame's packets have completed, no record of it is left to come, and some tile has not arrived. -/
def execEncoderTileFill (e : Fin 8) (s : State) : Out :=
  .next (
    let s1 := match s.encoders[e].current, s.pickFrame e with
      | none, some (n, j) => (match s.stream n with | some x => s.beginFrame e n j.frame x | none => s)
      | _, _ => s
    match s1.encoders[e].current with
    | none => s
    | some (n, f) =>
      match s1.stream n with
      | none => s
      | some x =>
        let enc := s1.encoders[e]
        if x.packetsOver f && !s1.comesYet x f && !enc.full x then
          { s1 with encoders := s1.encoders.set e { enc with tiles := enc.tiles ++ x.fillers f enc.tiles, filled := true } }
        else s)

/-- A number in the codecs' little-endian base 128, at most `k` bytes. -/
def leb128 : Nat → Nat → List Byte
  | 0, _ => []
  | k + 1, v => if v < 128 then [BitVec.ofNat 8 v] else BitVec.ofNat 8 (128 + v % 128) :: leb128 k (v / 128)

/-- An AV1 open bitstream unit of a type, with its size. -/
def obu (ty : Nat) (b : List Byte) : List Byte := BitVec.ofNat 8 (ty * 8 + 2) :: (leb128 8 b.length ++ b)

/-- A unit of an HEVC Annex B byte stream: the start code, the header of a type, the contents. -/
def nal (ty : Nat) (b : List Byte) : List Byte := [0, 0, 0, 1, BitVec.ofNat 8 (ty * 2), 1] ++ b

/-- The bitstream of a frame (R126): AV1 begins each frame with a temporal delimiter, and a key frame carries a sequence header; an HEVC key frame is
an IDR picture after VPS, SPS and PPS. The level is the lowest that holds the stream (R424). The coded picture is free, and so are the contents of
the headers; the unit types are PRESUMED (log 17). -/
def Stream.bitstream (x : Stream) (key : Bool) (picture : List Byte) : List Byte :=
  let level := match lowestLevel x.ecb x.pnum x.pden with | some v => v.signal | none => 0
  let head (k : Nat) : List Byte := Config.paramSet k x.ecb level
  if fld x.ecb 0 2 = 0 then obu 2 [] ++ (if key then obu 1 (head 0) else []) ++ obu 6 picture
  else (if key then nal 32 (head 1) ++ nal 33 (head 2) ++ nal 34 (head 3) ++ nal 19 picture else nal 1 picture)

/-- The output header (R126). -/
def outHeader (x : Stream) (n : Nat) (j : FrameJob) (bytes done : Nat) (key late : Bool) : Nat :=
  0x4F464E47 + n % 2 ^ 16 * 2 ^ 32 + j.frame % 2 ^ 64 * 2 ^ 64 + j.release % 2 ^ 64 * 2 ^ 128 + done % 2 ^ 64 * 2 ^ 192 + bytes % 2 ^ 32 * 2 ^ 256 + j.rung % 8 * 2 ^ 288
    + key.toNat * 2 ^ 291 + (x.interp j.rung).toNat * 2 ^ 292 + late.toNat * 2 ^ 293 + fld x.ecb 0 2 * 2 ^ 294

/-- The encoder is done with its frame, whose slot has left ENCODING or is owed its word: the key-frame state moves on (R124), and the frame is what a
later one is filled from (R121). -/
def State.leaveFrame (s : State) (e : Fin 8) (n f : Nat) (key trunc : Bool) : State :=
  let s1 := s.modStream n (fun x =>
    { x with sinceKey := if key then 1 else x.sinceKey + 1, forceKey := trunc, noSlot := x.noSlot.filter (fun g => decide (f < g)), prev := s.encoders[e].tiles })
  { s1 with encoders := s1.encoders.set e { s1.encoders[e] with current := none, tiles := [], filled := false } }

/-- A job's slot has left ENCODING. -/
def State.slotLeft (s : State) (n f : Nat) : State := s.modStream n (fun x => x.modJob f (fun j => { j with left := true }))

/-- The status word of a frame that the encoder could not write, or that does not fit: SKIPPED (R118, R126). -/
def State.encoderSkips (s : State) (e : Fin 8) (n f : Nat) (key trunc : Bool) : State :=
  match (s.stream n).bind (fun x => (x.job f).map (fun j => (x, j))) with
  | none => s
  | some (x, j) =>
    (s.leaveSlot (encMaster e) n f { state := 3, frame := f, rung := j.rung, interp := x.interp j.rung, filled := s.encoders[e].filled, key := key, trunc := trunc }).leaveFrame e n f key true

/-- ENCODER_FRAME_DONE (R118, R124, R126): the payload is written, then the status word; a frame that does not fit is SKIPPED with TRUNC. While a
page-in holds up either write, nothing is written. -/
def execEncoderFrameDone (e : Fin 8) (s : State) : Out :=
  .next (match s.encoders[e].current with
    | none => s
    | some (n, f) =>
      match s.stream n with
      | none => s
      | some x =>
        match x.job f with
        | none => s
        | some j =>
          let enc := s.encoders[e]
          if !enc.full x then s
          else
            let now := s.tb.now.toNat
            let late := decide (j.deadline < now)
            let key := x.isKey f
            let slot := j.slot.getD 0
            let stream := x.bitstream key ((List.range (Config.bitstreamLength s.fresh)).map (Config.bitstreamByte s.fresh))
            let len := stream.length
            let s0 : State := { s with fresh := s.fresh + 1 }
            if x.slotBytes < 64 + len then
              match s0.devWrite (encMaster e) (encKey e) x.region (x.payBase + slot * x.slotBytes + 64) (stream.take (x.slotBytes - 64)) with
              | .ok s1 => s1.encoderSkips e n f key true
              | .error (.miss va) => s.missIn x.region va (.encoder e)
              | .error st => ((s0.noteStop (encMaster e) st).note .fwIrq).encoderSkips e n f key true
            else match s0.devWrite (encMaster e) (encKey e) x.region (x.payBase + slot * x.slotBytes) (natLe 64 (outHeader x n j len now key late) ++ stream) with
              | .ok s1 =>
                (match s1.putStatus (encMaster e) (encKey e) n slot
                    { state := 2, frame := f, rung := j.rung, interp := x.interp j.rung, late := late, filled := enc.filled, key := key, bytes := len } with
                  | .ok s2 => (s2.slotLeft n f).leaveFrame e n f key false
                  | .error (.miss va) => s.missIn x.region va (.encoder e)
                  | .error st => (((s1.noteStop (encMaster e) st).note .fwIrq).slotLeft n f).leaveFrame e n f key true)
              | .error (.miss va) => s.missIn x.region va (.encoder e)
              | .error st => ((s0.noteStop (encMaster e) st).note .fwIrq).encoderSkips e n f key false)

/-- The page that an encoder waits for cannot be had: the frame is left SKIPPED, and firmware is told (R61). -/
def State.encoderStops (s : State) (e : Fin 8) : State :=
  match s.encoders[e].current with
  | none => s
  | some (n, f) => match s.stream n with | some x => (s.note .fwIrq).encoderSkips e n f (x.isKey f) false | none => s

end Sys2Proof.Machine
end

