-- ==== Sys2Proof/Machine/Bucker.lean ====
section
/-! DEFINITION. Tile steps: order and placement (spec/04 R113, spec/05 R141, R142), start, load and retirement (R138, R143 to R147), the
cruiser (spec/06 R167 to R170), pre-emption, context records and partition swaps (R149 to R153, spec/10 R273 to R276). -/

namespace Sys2Proof.Machine

/-! ### The scheduler's order (R113, R141) -/

/-- Class of a step by its promotions: BATCH and BACKGROUND rise, not above DEADLINE (R141). -/
def State.rankOf (s : State) (t : Step) : Nat := let c := s.effClass t.region; if c ≤ 1 then c else max 1 (c - t.promos)

/-- Slack of a step: its frame job's, or the greatest (R112, R113). -/
def State.slackOf (s : State) (t : Step) : Int :=
  match (s.opAt t.op).bind (·.stream) with
  | none => 2 ^ 63 - 1
  | some (n, f) =>
    match (s.stream n).bind (fun x => x.job f) with
    | some j => j.slack s.tb.now.toNat s.board.clockMhz
    | none => 2 ^ 63 - 1

/-- The keys of R113, smaller first. -/
def State.orderKey (s : State) (t : Step) : List Int :=
  let c := s.rankOf t
  let stream : Int := match (s.opAt t.op).bind (·.stream) with | some (n, _) => n | none => 1024
  [(c : Int), if c = 1 then s.slackOf t else 0, -(s.effWeight t.region : Int), (t.readyAt : Int), stream, (t.pos : Int),
   (((t.op + 2 ^ 32 - s.sched.opseq.toNat) % 2 ^ 32 : Nat) : Int)]

/-- Keys compared in turn. -/
def lexLt : List Int → List Int → Bool
  | a :: s, b :: t => decide (a < b) || (decide (a = b) && lexLt s t)
  | _, _ => false

/-- The first of a list by keys; the earlier one of equals. -/
def firstBy {α : Type} (key : α → List Int) : List α → Option α
  | [] => none
  | x :: t => match firstBy key t with | some y => if lexLt (key y) (key x) then some y else some x | none => some x

/-! ### Placement (R142) -/

/-- The context record of a saved step. -/
def State.recordOf (s : State) (id : Nat) : Option CtxRecord := s.sched.records.find? (fun r => r.stepid == id)

/-- A region or one above it is swapped out (R153). -/
def State.swappedOut (s : State) (r : Nat) : Bool := (s.region r).swapped

/-- A step may be placed: ready, pre-empted, or saved with its record read back and no trap pending (R142, R152, R271). -/
def State.placeable (s : State) (t : Step) : Bool :=
  s.regionActive t.region && !s.swappedOut t.region
  && (t.state == 0 || t.state == 3 || (t.state == 4 && !t.trapPending && (match s.recordOf t.stepid with | some r => !r.drained | none => false)))

/-- A core of a partition that is being swapped out (R142, R153). -/
def State.inSwap (s : State) (n : Fin 128) : Bool := s.regionIds.any (fun x => (s.region x).swapping && fld (s.effMask x) n.val 1 == 1)

/-- An idle core of a region's mask that is part of no partition swap. -/
def State.idleFor (s : State) (r : Nat) (n : Fin 128) : Bool :=
  fld (s.effMask r) n.val 1 == 1 && !s.inSwap n && decide (s.cores[n].phase = .idle) && (s.stepOn n).isNone

/-- An idle core eligible for a step (R142). -/
def State.eligible (s : State) (t : Step) (n : Fin 128) : Bool := s.idleFor t.region n

/-- Instruction memory holds an operator's image as an ASID reads it, patched with its values (R144). -/
def State.holdsAs (s : State) (o : Operator) (asid : Nat) (n : Fin 128) : Bool :=
  let c := s.cores[n]
  decide (c.img.addr = o.image) && decide (c.img.asid = asid) && decide (c.img.patches = o.patches) && decide (c.img.ncode = hdrNcode o.hdr) && !c.loading

/-- It holds the image as the operator's region reads it now. -/
def State.holds (s : State) (o : Operator) (n : Fin 128) : Bool := s.holdsAs o (s.effAsid o.region) n

/-- What a step of an operator that is placed now works under (R131). -/
def State.ctxOf (s : State) (o : Operator) : StepCtx :=
  let r := o.region
  { region := r, coreMask := s.effMask r, scratchQuota := s.effScrq r * 4096, landingBase := s.effLbase r * 65536, landingQuota := s.effLq r * 65536,
    root := s.effRoot r, asid := s.effAsid r, pib := s.effPib r, opseq := o.opseq }

/-- What a placed step works under: what its placement gave it. -/
def State.ctxFor (s : State) (o : Operator) (t : Step) : StepCtx := t.ctx.getD (s.ctxOf o)

/-- Tile steps that a crew runs. -/
def State.crewLoad (s : State) (n : Fin 128) : Nat := (s.sched.steps.filter (fun t => t.onCore && t.core / 8 == n.val / 8)).length

/-- Preferences among eligible cores, smaller first (R142); a core that the step is to avoid comes last (R162). -/
def State.coreKey (s : State) (t : Step) (n : Fin 128) : List Int :=
  let no (b : Bool) : Int := if b then 0 else 1
  [no (t.avoid != some n.val), no (t.state == 4 && t.core == n.val), no (s.cores[n].lastOp == t.op), no (match s.opAt t.op with | some o => s.holds o n | none => false),
   (s.crewLoad n : Int), (n.val : Int)]

/-- The core that a step is given. -/
def State.coreFor (s : State) (t : Step) : Option (Fin 128) := firstBy (s.coreKey t) ((List.finRange 128).filter (s.eligible t))

/-- The placement of a step on a core (R139, R142), with what it is to work under: a region's new values apply to the steps placed after it takes them
(R131). -/
def Step.placed (t : Step) (n now rank : Nat) (ctx : Option StepCtx) : Step :=
  { t with ctx := ctx, claim := none, state := 1, core := n, placedAt := now, eclass := rank, attempt := if t.state = 4 then min 15 (t.attempt + 1) else t.attempt, avoid := none }

/-- TILE_STEP_PLACE (R142): the first ready step that has an idle eligible core is given its core. -/
def execTileStepPlace (s : State) : Out :=
  .next (match firstBy s.orderKey (s.sched.steps.filter (fun t => s.placeable t && (s.coreFor t).isSome)) with
    | none => s
    | some t =>
      match s.coreFor t with
      | none => s
      | some n => s.modStep t.stepid (fun t => t.placed n.val s.tb.now.toNat (s.rankOf t) ((s.opAt t.op).map s.ctxOf)))

/-! ### Starting (R143 to R147) -/

/-- Boot mailbox (R143). -/
def mailbox (o : Operator) (t : Step) (carry resumed reload : Bool) : BitVec 512 :=
  BitVec.ofNat 512 (1 + reload.toNat * 2 + resumed.toNat * 4 + carry.toNat * 8 + o.opbAddr * 2 ^ 64 + t.stepid * 2 ^ 128 + t.coord * 2 ^ 192 + o.fjpb * 2 ^ 256 + o.lpb * 2 ^ 320
    + fld o.opb 128 64 * 2 ^ 384 + o.image * 2 ^ 448)

/-- STEPINFO (R319). -/
def stepInfo (o : Operator) (t : Step) (carry resumed reload : Bool) : W64 :=
  BitVec.ofNat 64 ((hdrResumable o.hdr).toNat + reload.toNat * 2 + resumed.toNat * 4 + carry.toNat * 8 + o.rung % 8 * 16 + (decide (o.fjpb ≠ 0)).toNat * 128 + t.attempt * 256
    + o.member * 4096 + t.eclass * 16384 + t.region * 65536)

/-- The image's fields; an address that no image has until the loader is done. -/
def imageOf (o : Operator) (asid : Nat) (loaded : Bool) : Image :=
  { addr := if loaded then o.image else 2 ^ 64, asid := asid, patches := o.patches, entry := fld o.hdr 64 14, trapent := fld o.hdr 80 14, hastrap := hdrTrap o.hdr, slip := fld o.hdr 48 8,
    resumable := hdrResumable o.hdr, ncode := hdrNcode o.hdr, carry := ((hdrCarry o.hdr).filter (fun r => r.2 != 0)).map (fun r => (r.1 * 32, r.2 * 32)),
    scrneed := hdrScratch o.hdr * 4096 }

/-- Registers at the first instruction (R145). -/
def startRegs (o : Operator) (t : Step) : Regs :=
  { Regs.reset with s := (((Regs.reset.s.set 1 (BitVec.ofNat 64 (fld o.opb 128 64))).set 2 (BitVec.ofNat 64 t.coord)).set 3 (BitVec.ofNat 64 o.lpb)).set 4 (BitVec.ofNat 64 o.fjpb) }

/-- System registers at the first instruction (R145, R285). -/
def startSys (o : Operator) (t : Step) (info : W64) : SysRegs :=
  { SysRegs.reset with stepid := BitVec.ofNat 64 t.stepid, argbase := BitVec.ofNat 64 (fld o.opb 128 64), coord := BitVec.ofNat 64 t.coord, lpbaddr := BitVec.ofNat 64 o.lpb,
                       opbaddr := BitVec.ofNat 64 o.opbAddr, fjpb := BitVec.ofNat 64 o.fjpb, stepinfo := info }

/-- The format table at the first instruction (R297). -/
def startTable (l : List (BitVec 256)) : Vector (BitVec 256) 16 := Vector.ofFn (fun i : Fin 16 => BitVec.ofNat 256 (fld (l.getD i.val 0) 0 112))

/-- Scratch of a core is 0 but for carried ranges, which keep their poison (R145, R147, R155). -/
def State.keepCarry (s : State) (n : Fin 128) (l : List (Nat × Nat)) : State :=
  let kept := l.map (fun r => (scratchPa n r.1, memRead s.mem (scratchPa n r.1) r.2, s.poisonRuns (scratchPa n r.1) r.2))
  kept.foldl (fun s e => ({ s with mem := memWrite s.mem e.1 e.2.1 } : State).carryPoison e.1 e.2.2) (s.zeroScratch n)

/-- The core as a fresh step begins; its clock covers what its start acquires, its constant cache is empty (R91, R137, R145, R146). -/
def Core.begin (c : Core) (o : Operator) (t : Step) (ctx : StepCtx) (clock : Nat) (same carry reload : Bool) : Core :=
  let v := c.vacate
  { v with
    phase := if reload then .starting else .running, loading := reload, resumePhase := .running, mbx := mailbox o t carry false reload, ctx := ctx, img := imageOf o ctx.asid (!reload),
    pc := fld o.hdr 64 14, po := 0, seq := Vector.replicate 4 0, regs := startRegs o t, sys := startSys o t (stepInfo o t carry false reload),
    mat := { MatRegs.reset with ft := startTable o.fmts }, sig := 0, replayable := true, widths := [], clean := false, lastOp := o.opseq, lastRegion := o.region,
    mem := { v.mem with clock := max v.mem.clock clock, l1 := if same then v.mem.l1 else [], cc := [], fences := Vector.replicate 4 [], seen := Vector.replicate 4 [] }, poison := v.poison.filter (fun g => g.file == tagI) }

/-- CARRYV (R147). -/
def Core.carries (c : Core) (o : Operator) : Bool := decide (c.lastOp = o.opseq) && c.carryOk

/-- The scope entry of an operator block's OSCOPE (R132). -/
def Operator.oscope (o : Operator) : Nat := fld o.opb 259 4

/-- The step that hands over to step `i` along the ordered dimension (R137). -/
def Operator.before (o : Operator) (i : Nat) : Option Nat :=
  match o.ordered with
  | none => none
  | some (st, n) => if i / st % n = 0 then none else some (i - st)

/-- What the start of a step acquires: at its packet's SCOPE what the packet's ORDER lets it observe, and at OSCOPE the retirement of the step
before it on the ordered dimension (R91, R137). -/
def State.startClock (s : State) (n : Fin 128) (o : Operator) (t : Step) : Nat :=
  let k := o.oscope
  let hands := match o.before (t.stepid % 2 ^ 32) with | some i => (o.hand.filter (fun h => h.1 == i)).map (·.2) | none => []
  max (acquired o.acq n.val o.acqEntry o.acqIdx.val) (acquired hands n.val (s.regionScope o.region k) k)

/-- A step begins on a core. One that replaces an attempt that was given up carries nothing (R273). -/
def State.beginStep (s : State) (n : Fin 128) (o : Operator) (t : Step) : State :=
  let c := s.cores[n]
  let ctx := s.ctxFor o t
  let carry := c.carries o && t.attempt == 0
  let reload := !s.holdsAs o ctx.asid n
  let s1 := s.keepCarry n (if carry then (imageOf o 0 true).carry else [])
  (s1.modCore n (fun c => c.begin o t ctx (s.startClock n o t) (decide (c.lastRegion = o.region)) carry reload)).modStep t.stepid (fun t => { t with state := 2 })

/-- The step placed on a core, with its operator. -/
def State.placedOn (s : State) (n : Fin 128) : Option (Step × Operator) :=
  match s.sched.steps.find? (fun t => t.state == 1 && t.core == n.val) with
  | some t => (s.opAt t.op).map (fun o => (t, o))
  | none => none

/-- TILE_STEP_START (R143 to R147): a fresh step. -/
def execTileStepStart (c : Fin 128) (s : State) : Out :=
  .next (match s.placedOn c with
    | some (t, o) => if (s.recordOf t.stepid).isSome then s else s.beginStep c o t
    | none => s)

/-! ### The overlay loader (R144, R196) -/

/-- Size of the cache: at most 16 MiB (R196). -/
def State.cacheSize (s : State) : Nat := min s.board.blob.cacheSize 0x1000000

/-- Where an image lies in the Landing. -/
def State.cachePa (s : State) (e : Cached) : Nat := Config.landingBase + s.board.blob.cacheBase + e.off

/-- A place for an image among those cached; the least recently used leave until there is one. -/
def cachePlace (size len : Nat) : Nat → List Cached → Option (Nat × List Cached)
  | 0, _ => none
  | k + 1, l =>
    match placeIn (l.map (fun e => (e.off, (e.len + 127) / 128 * 128))) len size with
    | some a => some (a, l)
    | none => cachePlace size len k l.dropLast

/-- An image enters the cache, as a core's loader read it (R144, R196): a request of the core, which the slices may refuse (R57). -/
def State.cacheImage (s : State) (n : Fin 128) (asid addr : Nat) (b : List Byte) : State :=
  let l := s.sched.images.filter (fun e => !(decide (e.asid = asid) && decide (e.addr = addr)))
  match cachePlace s.cacheSize b.length (l.length + 1) l with
  | none => s
  | some (off, l) =>
    let e : Cached := { asid := asid, addr := addr, off := off, len := b.length }
    match s.refusal (coreMaster n) 2 (s.cachePa e) b.length with
    | some t => s.logAccess n.val 2 (s.cachePa e) t
    | none => ({ s with sched := { s.sched with images := e :: l } } : State).writeBytes (s.cachePa e) b

/-- A cached image is used: it is the most recent. -/
def State.touchImage (s : State) (e : Cached) : State := { s with sched := { s.sched with images := e :: s.sched.images.filter (· != e) } }

/-- The code words of an image read by the loader for a core (R45, R144): the bytes, and the parts they came from. -/
def State.loadBytes (s : State) (n : Fin 128) (va len : Nat) : Except Trap (List Byte × List Piece) :=
  match (pageParts (len / 4096 + 2) va len).mapM (s.globalPiece n 5 .main 0 kImage) with
  | .error t => .error t
  | .ok ps => .ok (readPieces s.mem ps, ps)

/-- Code words as numbers. -/
def wordsOf (b : List Byte) : List Nat := (List.range (b.length / 4)).map (fun i => leNat (slice b (4 * i) 4))

/-- Instruction memory filled from word 0. -/
def imemOf (ws : List Nat) : Sparse W32 := ((ws.zipIdx).filter (fun x => BitVec.ofNat 32 x.1 != 0)).map (fun x => (x.2, BitVec.ofNat 32 x.1))

/-- Words whose bytes were read poisoned, with the address of the granule. -/
def State.badWords (s : State) (va : Nat) (ps : List Piece) : List (Nat × Nat) :=
  let offs := ps.foldl (fun (acc : List (Piece × Nat) × Nat) p => (acc.1 ++ [(p, acc.2)], acc.2 + p.len)) ([], 0)
  (offs.1.flatMap (fun x => ((List.range (x.1.len / 4)).filter (fun i => s.poisoned (x.1.pa + 4 * i) 4)).map (fun i => (x.2 / 4 + i, (x.1.pa + 4 * i) / 32 * 32)))).filter
    (fun _ => va % 4 == 0)

/-- The loader is done: words patched in table order, and the control slot starts, or a resumed step goes on as it was (R144, R274). -/
def Core.loaded (c : Core) (o : Operator) (b : List Byte) (bad : List (Nat × Nat)) : Core :=
  let tags := bad.map (fun x => ({ file := tagI, num := x.1 }, x.2))
  { c with imem := imemOf (o.patches.foldl applyPatch (wordsOf b)), img := imageOf o c.ctx.asid true, phase := c.resumePhase, loading := false,
           mem := { c.mem with handed := none },
           poison := c.poison.filter (fun t => t.file != tagI) ++ tags.map (·.1), origins := c.origins.filter (fun x => x.1.file != tagI) ++ tags }

/-- The record of the poison that the loader reads (R159). -/
def State.logImage (s : State) (n : Fin 128) (ps : List Piece) : State :=
  match s.badPa ps with
  | some pa => s.logDemand n.val pa s.cores[n].sys.stepid.toNat s.cores[n].ctx.region
  | none => s

/-- The loader reads an image from memory for a core, with access kind IMAGE; a failed access is a trap of the core, and a miss may wait for a walk. -/
def State.loadImage (s : State) (n : Fin 128) (o : Operator) : State :=
  let k := s.cores[n]
  match s.loadBytes n (o.image + 64) (4 * hdrNcode o.hdr) with
  | .error t => takeTrap n t s
  | .ok (b, ps) =>
    let bad := s.badWords o.image ps
    let s1 := ((ps.foldl (fun s p => s.coreOut n p.pa p.len false) s).logImage n ps).modCore n (fun k => k.loaded o b bad)
    if bad.isEmpty then s1.cacheImage n k.ctx.asid o.image b else s1

/-- OVERLAY_LOAD (R144): from the image cache, or from memory. The core's reads of the cache are checked at its slices; where one refuses them, the image
is read from memory (R57). -/
def execOverlayLoad (c : Fin 128) (s : State) : Out :=
  let k := s.cores[c]
  .next (if k.phase ≠ .starting ∨ !k.loading ∨ k.trap.detected.isSome then s
    else match (s.stepOn c).bind (fun t => s.opAt t.op) with
      | none => s
      | some o =>
        match s.sched.images.find? (fun e => decide (e.asid = k.ctx.asid) && decide (e.addr = o.image)) with
        | some e =>
          let ps : List Piece := [{ pa := s.cachePa e, len := e.len, ordinary := false }]
          (match s.refusal (coreMaster c) 1 (s.cachePa e) e.len with
            | some t => (s.logAccess c.val 1 (s.cachePa e) t).loadImage c o
            | none => ((s.touchImage e).logImage c ps).modCore c (fun k => k.loaded o (readPieces s.mem ps) (s.badWords 0 ps)))
        | none => s.loadImage c o)

/-! ### Retirement (R138) and the cruiser's samples (R167) -/

/-- Everything a step has begun is over: queues drained, engines idle, handlers ended, arrivals run, no trap (R138, R190). -/
def Core.finished (c : Core) : Bool :=
  decide (c.phase = .draining) && c.qL.isEmpty && c.qX.isEmpty && c.qS.isEmpty && c.heldC.isNone && c.trap.detected.isNone && c.trap.engineFault.isNone && c.trap.deferTraps.isEmpty
    && c.arrivals.isEmpty && c.hnd.toList.all (fun h => !h.running) && (List.finRange 8).all (fun k => c.eng.pending k == 0) && c.eng.deferred.isEmpty && c.eng.gos.isEmpty && c.metUe.isNone

/-- One bit step of CRC-32C, reflected (R167). -/
def crc32cBit (r : Nat) : Nat := if r % 2 = 1 then (r / 2) ^^^ 0x82F63B78 else r / 2
def crc32cByte (r : Nat) (b : Byte) : Nat := (List.range 8).foldl (fun r _ => crc32cBit r) (r ^^^ b.toNat)
def crc32c (l : List Byte) : Nat := (l.foldl crc32cByte 0xFFFFFFFF) ^^^ 0xFFFFFFFF

/-- The hash test (R167). -/
def Ras.hits (x : Ras) (id : Nat) : Bool := decide (crc32c (natLe 8 id ++ natLe 4 x.crSeed.toNat) % 2 ^ fld x.crCtl 0 5 = 0)

/-- A retired step is sampled, dropped or passed over (R167, R169, R170). -/
def State.sample (s : State) (n : Fin 128) (o : Operator) (t : Step) : State :=
  let x := s.ras
  if fld x.crCtl 8 1 = 0 ∨ fld o.opb 263 1 = 0 ∨ !x.hits t.stepid then s
  else
    let c := s.cores[n]
    if !c.replayable ∨ 64 ≤ x.samples.length then { s with ras := { x with crSampled := x.crSampled + 1, crDropped := x.crDropped + 1 } }
    else { s with ras := { x with crSampled := x.crSampled + 1, samples := x.samples ++ [{ stepid := t.stepid, core := n.val, region := t.region, sig := c.sig, widths := c.widths }] } }

/-- The latest time that a core's clock, its commands' stamps and its engine contexts' clocks show. -/
def State.latestOf (s : State) (n : Fin 128) : Nat :=
  let c := s.cores[n]
  (List.range 8).foldl (fun t k => max t (sget 0 s.fab.eclock (eclockKey n k))) ((List.finRange 8).foldl (fun t k => c.mem.stamps[k].foldl (fun m x => max m x.2) t) c.mem.clock)

/-- The release of a retirement: at OSCOPE for a step on an ordered dimension, else at the SCOPE of its packet (R138). -/
def State.retireRel (s : State) (n : Fin 128) (o : Operator) : Release :=
  let (r, k) := match o.ordered, s.workOf o.parser o.work with
    | some _, _ => (o.region, o.oscope)
    | none, some (w, _) => (w.region, o.scope)
    | none, none => (o.region, o.scope)
  { agent := n.val, cores := BitVec.ofNat 128 (fld (s.regionScope r k) 0 128), all := k == 15, stamp := s.latestOf n }

/-- The release is made: the step after it and its packet's completion may observe it (R92, R137, R138). -/
def State.retireRelease (s : State) (n : Fin 128) (o : Operator) (t : Step) : State :=
  let s1 := s.performAll n
  let r := s1.retireRel n o
  (s1.mapWorks (fun w => if w.id = o.work then { w with rels := mergeRel w.rels r } else w)).modOp o.opseq (fun o => { o with hand := (t.stepid % 2 ^ 32, r) :: o.hand })

/-- RETIRED counts of the region and of the frame job, and the slack that follows (R112, R138). -/
def State.countRetired (s : State) (o : Operator) : State :=
  let s1 := s.modRegion o.region (fun x => { x with retired := x.retired + 1 })
  match o.stream with
  | none => s1
  | some (n, f) => s1.modStream n (fun x => (x.modJob f (fun j => { j with retired := j.retired + 1 })).evaluate f s.tb.now.toNat s.board.clockMhz)

/-- TILE_STEP_RETIRE (R138). -/
def execTileStepRetire (c : Fin 128) (s : State) : Out :=
  .next (if !s.cores[c].finished then s
    else match s.stepOn c with
      | none => s
      | some t =>
        match s.opAt t.op with
        | none => s
        | some o =>
          let i := t.stepid % 2 ^ 32
          let s1 := ((s.retireRelease c o t).sample c o t).stampRecord c t 5 0
          let s2 := (s1.freeCore c).modCore c (fun k => { k with carryOk := true })
          let s3 := (s2.countRetired o).dropStep t.stepid
          (((s3.modOp t.op (fun o => { o with done := i :: o.done })).readyAfter t.op i).walkAll).sweep)

/-- Histogram of the cruiser's verdicts (R171). -/
def Board.binCruise (b : Board) (i : Fin 4) : Board := { b with life := { b.life with cruise := b.life.cruise.set i (satUp b.life.cruise[i]) } }

/-- The verdict of an unequal pair of signatures (R169). -/
def cruiseVerdict (orig replay : W64) : Option W64 → Nat
  | some x => if x = orig then 1 else if x = replay then 2 else 3
  | none => 3

/-- Some step waits that has an idle eligible core: the cruiser comes after it (R169). -/
def State.stepsWait (s : State) : Bool := s.sched.steps.any (fun t => s.placeable t && (s.coreFor t).isSome)

/-- The core of a replay: idle, of the region, not the original; of another crew where there is one (R169). -/
def State.replayCore (s : State) (x : Sample) : Option (Fin 128) :=
  firstBy (fun n => [if n.val / 8 = x.core / 8 then 1 else 0, (n.val : Int)]) ((List.finRange 128).filter (fun n => s.idleFor x.region n && n.val != x.core))

/-- A core of a third run: in the crew of neither (R169). -/
def State.thirdCore (s : State) (x : Sample) (n : Fin 128) : Option (Fin 128) :=
  (List.finRange 128).find? (fun m => s.idleFor x.region m && m.val / 8 != x.core / 8 && m.val / 8 != n.val / 8)

/-- A replay has run on a core: it is zeroed of nothing that it left, and carries nothing (R146, R147). -/
def State.replayed (s : State) (x : Sample) (n : Fin 128) : State :=
  s.modCore n (fun c => { c with clean := false, carryOk := false, lastRegion := x.region, idleSince := s.tb.now.toNat })

/-- Unequal signatures: the verdict, the SILENT record, and the notice to the fault domain that names the replay core (R169, R171). -/
def State.silent (s : State) (x : Sample) (sig : W64) (v : Nat) (n : Fin 128) : State :=
  let r : LogRec := { cls := 0x0E, stepid := x.stepid, data0 := x.sig.toNat, data1 := sig.toNat, region := x.region, companion := v, master := 0x89, unit := x.core }
  let s1 : State := { s with ras := { s.ras with crMismatch := s.ras.crMismatch + 1 } }
  let s2 := ((s1.log r).log { r with data1 := n.val }).modBoard (fun b => b.binCruise (Fin.ofNat 4 v))
  s2.msix (s.region (s.effFdom x.region)).func (s.effFdvec x.region)

/-- CRUISER_REPLAY (R169, R170): the oldest sample is replayed, after every step that could be placed, and its replay gives a signature, and a
third run one where a core is there for it. What a run computes is the event's (log 62). -/
def execCruiserReplay (sig : BitVec 64) (third : Option (BitVec 64)) (s : State) : Out :=
  .next (match s.ras.samples with
    | [] => s
    | x :: rest =>
      let s0 : State := { s with ras := { s.ras with samples := rest } }
      if !s.regionActive x.region then { s0 with ras := { s0.ras with crDropped := s0.ras.crDropped + 1 } }
      else if s.stepsWait then s
      else match s.replayCore x with
        | none => s
        | some n =>
          if sig = x.sig then ({ (s0.modBoard (fun b => b.binCruise 0)) with ras := { s0.ras with crMatch := s0.ras.crMatch + 1 } } : State).replayed x n
          else match s.thirdCore x n, third with
            | none, _ => (s0.silent x sig 3 n).replayed x n
            | some _, none => s
            | some m, some y => ((s0.silent x sig (cruiseVerdict x.sig sig (some y)) n).replayed x n).replayed x m)

/-! ### Idle cores, promotion (R141, R146) -/

/-- CORE_IDLE_ZEROING (R146): a core idle for 3 µs. -/
def execCoreIdleZeroing (c : Fin 128) (s : State) : Out :=
  let k := s.cores[c]
  .next (if k.phase = .idle ∧ (s.stepOn c).isNone ∧ !k.clean ∧ k.idleSince + 3000 ≤ s.tb.now.toNat then (s.zeroScratch c).modCore c Core.zeroed else s)

/-- STARVATION_PROMOTION (R141): the `i`-th step has stayed ready beyond its region's bound. DESIGN CHOICE (log 33): a SAVED step is never promoted, and
one that was pre-empted counts from its first READYAT. -/
def execStarvationPromotion (i : Nat) (s : State) : Out :=
  .next (match s.sched.steps[i]? with
    | none => s
    | some t =>
      if (t.state = 0 ∨ t.state = 3) ∧ 2 ≤ s.rankOf t ∧ t.since + s.effStarve t.region < s.tb.now.toNat then
        (s.modStep t.stepid (fun x => { x with promos := x.promos + 1, eclass := s.rankOf t - 1, since := x.since + s.effStarve t.region })).modRegion t.region
          (fun x => { x with promoted := x.promoted + 1 })
      else s)

/-! ### Context records (R149 to R153, R164) -/

def State.saveKib (s : State) (r : Nat) : Nat := fld (s.region r).rcb 640 32

/-- KiB at the top of a save area that a swapped-out region's step records and walk states take (R139, R153; log 59). -/
def State.swapTop (s : State) (r : Nat) : Nat :=
  (64 * ((s.region r).swapSteps + (s.region r).swapWalks) + 1023) / 1024

/-- Where in its region's save area a record of a size finds room. -/
def State.savePlace (s : State) (r k : Nat) : Option Nat :=
  placeIn ((s.sched.records.filter (fun x => x.drained && x.region == r)).map (fun x => (x.at', x.size))) k (s.saveKib r - s.swapTop r)

/-- Room for a record: in the shadow store, or in its region's save area (R150). -/
def State.roomFor (s : State) (r k : Nat) : Bool := decide (s.shadowPlace k < shadowKib) || (s.savePlace r k).isSome

/-- The lowest context record index that is free. -/
def State.freeIndex (s : State) : Nat :=
  let used := s.sched.steps.filterMap (·.saveSlot)
  ((List.range (used.length + 1)).find? (fun i => !used.contains i)).getD 0

/-- Bytes copied with their poison (R155). -/
def State.moveBytes (s : State) (src dst len : Nat) : State := (s.writeBytes dst (memRead s.mem src len)).carryPoison dst (s.poisonRuns src len)

/-- A core that runs is frozen at a cut, to be saved (R149): a cut of its own where no trap has made one. -/
def Core.freezeCut (c : Core) : Core :=
  let d := c.drained
  match d.trap.active with
  | some _ => d
  | none =>
    let t : Trap := { cause := 0, faddr := 0, d0 := 0, d1 := 0, queue := 5, engine := 0xFF, strand := .main, after := false, rkind := 0, rindex := 0 }
    { d.showCut with phase := .frozen, trap := { d.trap with composite := d.composite t false, back := decide (d.phase = .running) } }

/-- Acknowledgements of a core's writes, all performed, have returned (R262 step 4). -/
def State.settleAcks (s : State) (n : Fin 128) : State :=
  let s1 := (List.range (s.fab.inflight.flatMap (fun x => x.cmds n)).length).foldl (fun (s : State) _ => s.ackOldest n) s
  { s1 with fab := { s1.fab with inflight := s1.fab.inflight.filter (fun x => x.core != n) } }

/-- A core frozen to be saved. -/
def State.freezeForSave (s : State) (n : Fin 128) : State := (((s.performAll n).settleAcks n).modCore n Core.freezeCut).beginSave n

/-- The core as its record holds it: it will run, drain, load or stay with its trap (R264, R274). -/
def Core.asSaved (c : Core) : Core :=
  { c with saving := false,
           phase := match c.trap.active with
             | some _ => c.phase
             | none => if c.loading then .starting else if c.trap.back then .running else .draining }

/-- An uncorrectable error in a partly written record, before the save is complete: the core faults as if it had met the error itself, and
nothing is saved (R165). A core that firmware holds for a trap ends its step. -/
def State.saveStruck (s : State) (n : Fin 128) (pa : Nat) : State :=
  match s.cores[n].trap.active with
  | some _ => s.endUnresolved n 0x23
  | none => s.modCore n (fun c => { (c.asSaved.meet c.po) with uePa := pa / 32 * 32 })

/-- Cores whose record is being written where an error strikes. -/
def State.savingAt (s : State) (pa : Nat) : List (Fin 128) :=
  (List.finRange 128).filter (fun n =>
    let c := s.cores[n]
    let lo := Config.shadowBase + c.saveAt * 1024
    c.saving && decide (c.saveAt < shadowKib) && decide (lo ≤ pa) && decide (pa < lo + recordKib c.ctx.scratchQuota * 1024))

/-- The state of a frozen core cannot be read: a register's parity, an accumulator tile, a block of an operand FIFO, or its scratch is bad (R152, R164). -/
def State.saveLost (s : State) (n : Fin 128) : Bool :=
  let lo := scratchPa n 0
  let hi := scratchPa n s.cores[n].ctx.scratchQuota
  !s.cores[n].parity.isEmpty || s.cores[n].poison.any (fun t => t.file == tagAcc) || (s.cores[n].eng.fifoA ++ s.cores[n].eng.fifoB).any (·.poison) || s.ras.poison.any (fun g => decide (lo < g * 32 + 32) && decide (g * 32 < hi))

/-- The record of a frozen core is made where it has its place, and the core is free (R149); in a region being destroyed the step is discarded
(R151). -/
def State.saveNow (s : State) (n : Fin 128) (t : Step) (counted : Bool) : State :=
  let c := s.cores[n]
  if (s.region t.region).destroying then ((s.freeCore n).discardStep t).sweep
  else if s.saveLost n then (s.modStep t.stepid (fun t => { t with saveSlot := some s.freeIndex })).loseRecord t.stepid
  else
    let x : CtxRecord := { stepid := t.stepid, region := t.region, core := c.asSaved, drained := false, size := recordKib c.ctx.scratchQuota, at' := c.saveAt }
    let t' : Step := { t with state := 4, saveSlot := some s.freeIndex }
    let s1 := (s.modStep t.stepid (fun _ => t')).stampRecord n t' 4 0
    let s2 : State := { s1 with sched := { s1.sched with records := s1.sched.records ++ [x] } }
    let s3 := ((s2.clearCovered [(s2.recordPa x, x.size * 1024)]).putComposite x).moveBytes (scratchPa n 0) (s2.recordPa x + recordHead) c.ctx.scratchQuota
    let s4 := s3.freeCore n
    (if counted then s4.modRegion t.region (fun x => { x with fresume := x.fresume + 1 }) else s4).sweep

/-! ### Draining and reading back (R152, R164) -/

/-- A record that firmware moves to another place, where the access tables let it read the one and write the other (R34, R57). -/
def State.moveRecord (s : State) (r r' : CtxRecord) : State :=
  let n := r.size * 1024
  match s.refusal fwMaster 1 (s.recordPa r) n, s.refusal fwMaster 2 (s.recordPa r') n with
  | some t, _ => s.logAccess fwMaster.val 1 (s.recordPa r) t
  | none, some t => s.logAccess fwMaster.val 2 (s.recordPa r') t
  | none, none => (s.moveBytes (s.recordPa r) (s.recordPa r') n).modRecord r.stepid (fun _ => r')

/-- A record goes to a place of its region's save area; an uncorrectable error in it loses it. -/
def State.drainTo (s : State) (r : CtxRecord) (a : Nat) : State :=
  if s.recordBad r then s.loseRecord r.stepid
  else
    s.moveRecord r { r with drained := true, at' := a }

/-- The oldest record of the shadow store that its region's save area has room for is drained; none where there is no such record. -/
def State.drainOne (s : State) : Option State :=
  match s.sched.records.find? (fun r => !r.drained && (s.savePlace r.region r.size).isSome) with
  | none => none
  | some r => (s.savePlace r.region r.size).map (fun a => s.drainTo r a)

/-- CONTEXT_SAVE_COMPLETE (R149, R164, R271): the record of a frozen victim reaches the shadow store, which firmware drains where it is full. -/
def execContextSaveComplete (c : Fin 128) (s : State) : Out :=
  .next (if s.cores[c].phase ≠ .frozen ∨ !s.cores[c].saving then s
    else match s.stepOn c with
      | none => s
      | some t =>
        if s.cores[c].saveAt < shadowKib ∨ (s.region t.region).destroying then s.saveNow c t (!t.trapPending)
        else
          let s1 := s.beginSave c
          if s1.cores[c].saveAt < shadowKib then s1 else s.drainOne.getD s)

/-- CONTEXT_DRAIN (R152, R164): the `i`-th record goes to its region's save area. -/
def execContextDrain (i : Nat) (s : State) : Out :=
  .next (match s.sched.records[i]? with
    | none => s
    | some r =>
      match s.savePlace r.region r.size with
      | none => s
      | some a => if r.drained then s else s.drainTo r a)

/-- CONTEXT_READBACK (R152, R164): the `i`-th record comes back to the shadow store. -/
def execContextReadback (i : Nat) (s : State) : Out :=
  .next (match s.sched.records[i]? with
    | none => s
    | some r =>
      let a := s.shadowPlace r.size
      if !r.drained ∨ shadowKib ≤ a then s
      else if s.recordBad r then s.loseRecord r.stepid
      else
        s.moveRecord r { r with drained := false, at' := a })

/-! ### Forced pre-emption (R149 to R151) -/

/-- A step may be the victim of W: a running one, also where a trap of its core is on the way. -/
def State.victim (s : State) (w t : Step) : Bool :=
  let n : Fin 128 := Fin.ofNat 128 t.core
  let c := s.cores[n]
  decide (t.state = 2) && fld (s.effMask w.region) t.core 1 == 1 && decide (s.rankOf w < t.eclass) && !c.saving && decide (c.phase ≠ .trapStrand)
    && decide (c.trap.outer.isNone) && (!c.img.resumable || s.roomFor t.region (recordKib c.ctx.scratchQuota))

/-- The keys of R150, smaller first. -/
def State.victimKey (s : State) (t : Step) : List Int := [-(t.eclass : Int), -(s.slackOf t), (s.effWeight t.region : Int), -(t.placedAt : Int), -(t.core : Int)]

/-- The victim of a step is being saved. -/
def State.served (s : State) (t : Step) : Bool := match t.claim with | some n => (s.cores[(Fin.ofNat 128 n : Fin 128)]).saving | none => false

/-- A step has waited beyond its PLAT, no eligible core is idle, and it has no victim on the way (R150). DESIGN CHOICE (log 33): a step that was pre-empted
or saved counts from its first READYAT. -/
def State.overdue (s : State) (t : Step) : Bool :=
  s.placeable t && !s.served t && s.effPlat t.region != 0 && decide (t.readyAt + s.effPlat t.region < s.tb.now.toNat) && (s.coreFor t).isNone

/-- The first of the overdue steps, in the scheduler's order, that has a victim (R113, R151). -/
def State.firstOverdue (s : State) : Option Step := firstBy s.orderKey (s.sched.steps.filter (fun w => s.overdue w && s.sched.steps.any (s.victim w)))

/-- FORCED_PREEMPTION (R149 to R151): for the `i`-th step, where it is the first. A RESUMABLE victim whose core has detected a trap faults before a freeze
for a save could complete: it is not saved (R151). -/
def execForcedPreemption (i : Nat) (s : State) : Out :=
  .next (match s.sched.steps[i]? with
    | none => s
    | some w =>
      if s.firstOverdue ≠ some w then s
      else match firstBy s.victimKey (s.sched.steps.filter (s.victim w)) with
        | none => s
        | some v =>
          let n : Fin 128 := Fin.ofNat 128 v.core
          if s.cores[n].img.resumable then (if s.cores[n].trap.detected.isSome then s else (s.freezeForSave n).modStep w.stepid (fun t => { t with claim := some n.val }))
          else (((s.restartStep n none).freeCore n).modRegion v.region (fun x => { x with frestart := x.frestart + 1 })).sweep)

/-! ### Resuming (R274) -/

/-- The core that resumes a step: everything from the record, but its own clock where that is later, its own caches, instruction memory and
counters; where that memory does not hold the image, it is loaded first (R144, R274). -/
def Core.resumeFrom (c x : Core) (ctx : StepCtx) (composite : BitVec 2048) (mbx : BitVec 512) (info : W64) (now : Nat) (reload : Bool) : Core :=
  let then' := if x.phase = .starting then x.resumePhase else x.phase
  { x with
    phase := if reload then .starting else then', loading := reload, resumePhase := then', ctx := ctx,
    origins := x.origins.filter (fun t => t.1.file != tagI) ++ c.origins.filter (fun t => t.1.file == tagI),
    imem := c.imem, img := if reload then { x.img with addr := 2 ^ 64 } else c.img, poison := x.poison.filter (fun t => t.file != tagI) ++ c.poison.filter (fun t => t.file == tagI),
    mbx := mbx, sys := { x.sys with stepinfo := info }, stepRec := c.stepRec, arrdrop := c.arrdrop, loreplay := c.loreplay, clean := false, trap := { x.trap with since := now, composite := composite },
    mem := { x.mem with clock := max x.mem.clock c.mem.clock, l1 := [], tlb := c.mem.tlb, handed := none, cc := [], epoch := c.mem.epoch } }

/-- The clocks of a core's engine contexts do not fall behind what a step brings with it (R202). -/
def Fabric.raiseContexts (f : Fabric) (n : Fin 128) (t : Nat) : Fabric := (List.range 8).foldl (fun f k => f.raiseAgent (eclockKey n k) t) f

/-- The latest time that a core's clock and its commands' stamps show. -/
def Core.latest (c : Core) : Nat := (List.finRange 8).foldl (fun t k => c.mem.stamps[k].foldl (fun m x => max m x.2) t) c.mem.clock

/-- A record is read into a core, and leaves the shadow store; the step works under what its last placement gave it (R131). -/
def State.resumeOn (s : State) (c : Fin 128) (o : Operator) (t : Step) (r : CtxRecord) : State :=
  let ctx := s.ctxFor o t
  let reload := !s.holdsAs o ctx.asid c
  let composite := BitVec.ofNat 2048 (memNat s.mem (s.recordPa r) 256)
  let s1 := (s.zeroScratch c).moveBytes (s.recordPa r + recordHead) (scratchPa c 0) (min r.core.ctx.scratchQuota ctx.scratchQuota)
  let s2 : State := { s1 with fab := s1.fab.raiseContexts c r.core.latest, sched := { s1.sched with records := s1.sched.records.filter (fun x => x.stepid != t.stepid) } }
  let s3 := s2.modCore c (fun k => k.resumeFrom r.core ctx composite (mailbox o t false true reload) (stepInfo o t false true reload) s.tb.now.toNat reload)
  s3.modStep t.stepid (fun t => { t with state := 2, saveSlot := none })

/-- CONTEXT_RESUME (R151, R164, R274): a saved step placed on a core goes on from its record. -/
def execContextResume (c : Fin 128) (s : State) : Out :=
  .next (match s.placedOn c with
    | none => s
    | some (t, o) =>
      match s.recordOf t.stepid with
      | none => s
      | some r => if r.drained then s else if s.recordBad r then s.loseRecord t.stepid else s.resumeOn c o t r)

/-! ### Partition swaps (R153) -/

/-- Steps of a subtree that hold cores. -/
def State.stepsUnder (s : State) (r : Nat) : List Step := s.sched.steps.filter (fun t => t.onCore && s.under r t.region)

/-- Records are drained until one of a size has its place, `k` of them at most. -/
def State.makeRoom (size : Nat) : Nat → State → State
  | 0, s => s
  | k + 1, s => if s.shadowPlace size < shadowKib then s else match s.drainOne with | some t => State.makeRoom size k t | none => s

/-- A core frozen for a save, with its place; firmware drains records for it. -/
def State.freezeRoom (s : State) (n : Fin 128) : State :=
  if s.cores[n].saving ∧ s.cores[n].saveAt < shadowKib then s
  else
    let s1 := s.makeRoom (recordKib s.cores[n].ctx.scratchQuota) s.sched.records.length
    if s1.cores[n].saving then s1.beginSave n else s1.freezeForSave n

/-- A step of a partition is forced off its core: saved, where its record has a place, or to begin afresh (R153). -/
def State.forceOff (s : State) (id : Nat) : State :=
  match s.stepAt id with
  | none => s
  | some t =>
    let n : Fin 128 := Fin.ofNat 128 t.core
    if t.state = 1 then (if s.opEnds t then s.discardStep t else s.modStep id (fun t => if (s.recordOf id).isSome then { t with state := 4 } else t.again t.avoid))
    else if s.cores[n].img.resumable then
      let s1 := s.freezeRoom n
      if s1.cores[n].saveAt < shadowKib then s1.saveNow n t (s.cores[n].saving && !t.trapPending) else s1
    else (s.restartStep n none).freeCore n

/-- 64 bytes of walk state of an operator: its sequence number, the next linear index of its walk, the number of steps retired (log 59). -/
def walkState (o : Operator) : BitVec 512 := BitVec.ofNat 512 (o.opseq + o.walk * 2 ^ 64 + o.done.length * 2 ^ 128)

/-- Blocks of 64 bytes written downward from an address. -/
def State.putBlocks (s : State) : Nat → List (BitVec 512) → State
  | _, [] => s
  | a, b :: t => State.putBlocks (s.writeBytes (a - 64) (natLe 64 b.toNat)) (a - 64) t

/-- Physical address of the top of a region's save area. -/
def State.saveTop (s : State) (r : Nat) : Nat := s.saveKib r * 1024 + fld (s.region r).rcb 576 64

/-- The step records and the walk states of a region go to the top of its save area, where they have room and firmware may write (R34, R139, R153). -/
def State.writeSwap (s : State) (r : Nat) : State :=
  let steps := s.sched.steps.filter (fun t => t.region == r)
  let walks := s.sched.ops.filter (fun o => o.region == r)
  let blocks := steps.map (fun t => s.recordBits t t.state 0) ++ walks.map walkState
  let used := (s.sched.records.filter (fun x => x.drained && x.region == r)).foldl (fun m x => max m (x.at' + x.size)) 0
  if blocks = [] ∨ s.saveKib r * 1024 < used * 1024 + 64 * blocks.length then s
  else match s.refusal fwMaster 2 (s.saveTop r - 64 * blocks.length) (64 * blocks.length) with
    | some t => s.logAccess fwMaster.val 2 (s.saveTop r - 64 * blocks.length) t
    | none => (s.putBlocks (s.saveTop r) blocks).modRegion r (fun x => { x with swapSteps := steps.length, swapWalks := walks.length })

/-- The step that a record of 64 bytes describes, as it reads (R139). -/
def Step.readBack (t : Step) (b : Nat) : Step :=
  { t with eclass := bits b 134 2, core := bits b 138 7, state := bits b 145 3, attempt := bits b 148 4, coord := bits b 192 64, placedAt := bits b 256 64, readyAt := bits b 320 64,
           saveSlot := if bits b 160 32 = 0xFFFFFFFF then none else some (bits b 160 32) }

/-- Step records and walk states are read in again from the top of a region's save area (R153). -/
def State.readSwap (s : State) (r : Nat) : State :=
  let at' (i : Nat) : Nat := memNat s.mem (s.saveTop r - 64 * (i + 1)) 64
  let x := s.region r
  let s1 := (List.range x.swapSteps).foldl (fun (s : State) i => s.modStep (bits (at' i) 0 64) (fun t => t.readBack (at' i))) s
  let s2 := (List.range x.swapWalks).foldl (fun (s : State) i =>
    let b := at' (x.swapSteps + i)
    s.modOp (bits b 0 64) (fun o => { o with walk := bits b 64 64 })) s1
  s2.modRegion r (fun x => { x with swapSteps := 0, swapWalks := 0, swapped := false })

/-- What idle cores of a partition carry is no longer valid (R147). -/
def State.dropCarry (s : State) (r : Nat) : State :=
  (List.finRange 128).foldl (fun s n => if fld (s.effMask r) n.val 1 = 1 then s.modCore n (fun c => { c with carryOk := false }) else s) s

/-- PARTITION_SWAP_OUT (R153): the subtree is quiesced and every running step of it leaves its core; where the records do not all find room yet,
the rest goes when the event comes again, and until then the partition's cores take no step (R142). -/
def execPartitionSwapOut (r : Fin 4096) (s : State) : Out :=
  .next (if !(s.region r.val).exist ∨ (s.region r.val).swapped then s
    else
      let l := s.subtree r.val
      let s0 := ((s.quiesce r.val).dropCarry r.val).modRegion r.val (fun x => { x with swapping := true })
      let s1 := ((s.stepsUnder r.val).map (·.stepid)).foldl State.forceOff s0
      if !(s1.stepsUnder r.val).isEmpty then s1
      else (l.foldl State.writeSwap (l.foldl (fun s x => s.modRegion x (fun x => { x with swapped := true, swapping := false })) s1)).sweep)

/-- PARTITION_SWAP_IN (R153): the records are read in again, and the region is ACTIVE. -/
def execPartitionSwapIn (r : Fin 4096) (s : State) : Out :=
  .next (if !(s.region r.val).exist ∨ !(s.region r.val).swapped then s
    else ((s.subtree r.val).foldl State.readSwap s).modRegion r.val (fun x => { x with state := if x.lost then x.state else 0 }))

end Sys2Proof.Machine
end

