-- ==== Sys2Proof/Machine/Control.lean ====
section
/-! DEFINITION. Transfers, counted loops and rotation, vector type (spec/12 R310 to R316, R329, R330). -/

namespace Sys2Proof.Machine

/-! ### Transfers (R310, R311) -/

/-- Word index at a signed offset from an index; an index below 0 wraps past every word (R287). -/
def target (i : Nat) (off : Int) : Nat := (((i : Int) + off) % 18446744073709551616).toNat

/-- A transfer of the strand, with the link register written first if `link` (R310). -/
def transfer (t : Tok) (g : Guard) (link : Bool) (ss : List Reg) (dest : Core → Strand → Nat) (s : State) : State :=
  cWord t g (jGS g (if link then [linkReg] else []) ss) 1 (fun s =>
    let st := s.focusStrand
    let c := s.cur
    let ret := BitVec.ofNat 64 (c.pcOf st + 1)
    .goto (if link then s.modCur (fun c => c.wrS st linkReg ret) else s) (dest c st)) s

/-- `br` (R310). -/
def execBr (t : Tok) (g : Guard) (o : Fin 524288) (s : State) : Out :=
  .next (transfer t g false [] (fun c st => target (c.pcOf st) (sext 19 o.val)) s)

/-- `call` (R310). -/
def execCall (t : Tok) (g : Guard) (o : Fin 524288) (s : State) : Out :=
  .next (transfer t g true [] (fun c st => target (c.pcOf st) (sext 19 o.val)) s)

/-- `jmp` (R311). -/
def execJmp (t : Tok) (g : Guard) (a : Reg) (s : State) : Out := .next (transfer t g false [a] (fun c st => (c.rdS st a).toNat) s)

/-- `ret` (R311). -/
def execRet (t : Tok) (g : Guard) (s : State) : Out := .next (transfer t g false [linkReg] (fun c st => (c.rdS st linkReg).toNat) s)

/-- `callr`: the target is read before the link register is written (R311). -/
def execCallr (t : Tok) (g : Guard) (a : Reg) (s : State) : Out := .next (transfer t g true [a] (fun c st => (c.rdS st a).toNat) s)

/-! ### Loops (R312 to R316) -/

/-- Rotate(): both bases fall by one (R314). -/
def Core.rotate (c : Core) : Core :=
  { c with sys := { c.sys with rotb := setFld (setFld c.sys.rotb 0 4 (fld c.sys.rotb 0 4 + 15)) 8 2 (fld c.sys.rotb 8 2 + 3) } }

/-- A loop counter written. -/
def Core.setLc (c : Core) (n : Fin 4) (v : W64) : Core := { c with regs := { c.regs with lc := c.regs.lc.set n v } }

/-- The odd counter of a pair. -/
def lcOdd (n : Fin 4) : Fin 4 := Fin.ofNat 4 (n.val + 1)

/-- Loop(N, exit) (R313); `none` enters the body. -/
def Core.loopEnter (c : Core) (n : Fin 4) : Core × Bool :=
  let c1 := c.setLc (lcOdd n) 0
  if c.regs.lc[n] = 0 then (c1, true)
  else ((((c1.wrP .main 4 true).wrP .main 5 false).wrP .main 6 false).wrP .main 7 false, false)

/-- Brl(N, top, S) (R314): the core, and whether it transfers back. The iteration number is compared as it is, before the counter wraps. -/
def Core.loopClose (c : Core) (n : Fin 4) (stages : Nat) : Core × Bool :=
  let j := c.regs.lc[lcOdd n].toNat + 1
  let c1 := c.setLc (lcOdd n) (BitVec.ofNat 64 j)
  let trip := c.regs.lc[n].toNat
  if j < trip + stages - 1 then (c1.rotate.wrP .main 4 (decide (j < trip)), true) else (c1, false)

/-- `loop` (R312, R313). -/
def execLoop (t : Tok) (g : Guard) (n : Fin 4) (i : Fin 16384) (s : State) : Out :=
  .next (cWord t g (jMainG g [] [] (n.val % 2 == 0)) 1 (fun s =>
    let (c1, out) := s.cur.loopEnter n
    if out then .goto (s.setCore s.focusCore c1) (target s.cur.pc (sext 14 i.val)) else .ok (s.setCore s.focusCore c1)) s)

/-- `brl` (R312, R314). -/
def execBrl (t : Tok) (g : Guard) (n k : Fin 4) (o : Fin 4096) (s : State) : Out :=
  .next (cWord t g (jMainG g [] [] (n.val % 2 == 0)) 1 (fun s =>
    let (c1, back) := s.cur.loopClose n (k.val + 1)
    if back then .goto (s.setCore s.focusCore c1) (target s.cur.pc (sext 12 o.val)) else .ok (s.setCore s.focusCore c1)) s)

/-- `rot` (R315). -/
def execRot (t : Tok) (g : Guard) (s : State) : Out := .next (cWord t g (jMainG g [] [] true) 1 (onCore Core.rotate) s)

/-- `lcset` (R312). -/
def execLcset (t : Tok) (g : Guard) (n : Fin 4) (a : Reg) (s : State) : Out :=
  .next (cWord t g (jMainG g [] [a] true) 1 (onCore (fun c => c.setLc n (c.rdS .main a))) s)

/-- `lcrd` (R312). -/
def execLcrd (t : Tok) (g : Guard) (n : Fin 4) (d : Reg) (s : State) : Out :=
  .next (cWord t g (jMainG g [d] [] true) 1 (onCore (fun c => c.wrS .main d c.regs.lc[n])) s)

/-! ### Vector type (R329, R330) -/

/-- VTYPE and VL set, and VL written to `sd` (R330). -/
def Core.setType (c : Core) (d : Reg) (avl : Option Nat) (i : Nat) : Core :=
  let vt := BitVec.ofNat 64 i
  let vl := match avl with | some n => min n (vlmax vt) | none => vlmax vt
  Core.wrS { c with sys := { c.sys with vtype := vt, vl := BitVec.ofNat 64 vl } } .main d (BitVec.ofNat 64 vl)

/-- MAJOR 0x0E: the requested length from `sa`, or VLMAX; SEW code 3 is outside the limits. -/
def vsetWord (x : Payload) (t : Tok) (d : Reg) (a : Option Reg) (i : Fin 128) (s : State) : State :=
  cWord t 0 (jMain [d] a.toList (i.val % 4 != 3)) (wordLen x) (fun s =>
    if s.cur.ffPending then .wait freeWait else onCore (fun c => c.setType d (a.map (fun r => (c.rdS .main r).toNat)) i.val) s) s

/-- `vset` (R329, R330). -/
def execVset (t : Tok) (d a : Reg) (i : Fin 128) (s : State) : Out := .next (vsetWord none t d (some a) i s)

/-- `vset.max` (R329, R330). -/
def execVsetMax (t : Tok) (d : Reg) (i : Fin 128) (s : State) : Out := .next (vsetWord none t d none i s)

end Sys2Proof.Machine
end

