-- ==== Sys2Proof/Machine/Loads.lean ====
section
/-! DEFINITION. Scalar loads, the constant path and hints, vector loads, `flget`, `ring`, `cpy` (spec/14 R359 to R367, R375, R377,
spec/15 R389, R397). -/

namespace Sys2Proof.Machine

/-! ### Shapes -/

/-- Address of a base-and-offset form: the offset is scaled by the access size (R280, R359). -/
def baseOff (c : Core) (st : Strand) (x : Payload) (a : Reg) (o : Fin 512) (size : Nat) : W64 := c.rdS st a + w64 (immS x 9 o.val * (size : Int))

/-- A scalar load, base and offset (R359). -/
def loadImm (x : Payload) (t : Tok) (sp : Space) (sz : Nat) (signed : Bool) (d a : Reg) (o : Fin 512) (s : State) : State :=
  iWord .l x t (jS [d] [a]) (fun c st => .load sp sz signed (c.mapDst st d) (baseOff c st x a o sz)) s

/-- A scalar load, register and register (R360). -/
def loadRr (t : Tok) (g : Guard) (sp : Space) (sz : Nat) (d a b : Reg) (s : State) : State :=
  gWord .l t g (jGS g [d] [a, b]) (fun c st => .load sp sz true (c.mapDst st d) (c.rdS st a + c.rdS st b)) s

/-- `ldc` (R362). -/
def ldcImm (x : Payload) (t : Tok) (sz : Nat) (signed : Bool) (d a : Reg) (o : Fin 512) (s : State) : State :=
  iWord .l x t (jS [d] [a]) (fun c st => .ldc sz signed (c.mapDst st d) (baseOff c st x a o sz)) s

/-- A hint of MAJOR 0x19: the offset is scaled by 128 (R363). -/
def hintImm (x : Payload) (t : Tok) (op : CacheOp) (a : Reg) (o : Fin 512) (s : State) : State :=
  iWord .l x t (jS [] [a]) (fun c st => .cache op (baseOff c st x a o 128)) s

/-- Limits of a vector access: the data group, the mask, and an index group that a load's destination does not overlap (R364). -/
def limVmem (vt : W64) (load : Bool) (kind : Fin 4) (d b : Reg) (m : Guard) : Bool :=
  limV vt d m && (kind != 2 || (vOk vt (vsew vt) b && (!load || apart d.val (vgrp vt) b.val (vgrp vt))))

/-- A vector load (R364): `b` names a scalar, or an index vector for kind 2. -/
def vloadWord (t : Tok) (m : Guard) (sp : Space) (kind : Fin 4) (d a b : Reg) (s : State) : State :=
  routeWord .l t none (jMain [] (if kind = 2 then [a] else [a, b]) (limVmem s.vtype true kind d b m)) 1 true
    (fun _ s => let c := s.cur; .ok (s, .vload sp kind d m (c.rdS .main a) (if kind = 2 then 0 else c.rdS .main b) b)) s

/-- Stream positions given to a producer of the A FIFO (R397). -/
def State.takeA (s : State) (nb : Nat) : State := s.modCur (fun c => { c with mat := { c.mat with aprod := c.mat.aprod + BitVec.ofNat 64 nb } })

/-- Stream positions given to a producer of the B FIFO (R397). -/
def State.takeB (s : State) (nb : Nat) : State := s.modCur (fun c => { c with mat := { c.mat with bprod := c.mat.bprod + BitVec.ofNat 64 nb } })

/-- `cpy`, `cpy.a`, `cpy.b` (R389): the producers take NB positions as they are routed, if their guard is true (R388, R397). -/
def cpyWord (cls : Fin 3) (t : Tok) (g : Guard) (d a b : Reg) (k : Fin 2) (s : State) : State :=
  routeWord .l t (some g) (jMainG g [] [d, a, b] true) 1 false
    (fun on s =>
      let c := s.cur
      let nb := fld (c.rdS .main d) 0 16
      let pos := match cls with | 1 => c.mat.aprod.toNat | 2 => c.mat.bprod.toNat | _ => 0
      let s1 := if !on then s else match cls with | 1 => s.takeA nb | 2 => s.takeB nb | _ => s
      .ok (s1, .cpy cls k (c.rdS .main d) (c.rdS .main a) (c.rdS .main b) pos)) s

/-! ### Scalar loads (R359, R360) -/

/-- `ld.b.g` (R359). -/
def execLdBG (t : Tok) (d a : Reg) (o : Fin 512) (s : State) : Out := .next (loadImm none t .g 1 true d a o s)

/-- `ld.h.g` (R359). -/
def execLdHG (t : Tok) (d a : Reg) (o : Fin 512) (s : State) : Out := .next (loadImm none t .g 2 true d a o s)

/-- `ld.w.g` (R359). -/
def execLdWG (t : Tok) (d a : Reg) (o : Fin 512) (s : State) : Out := .next (loadImm none t .g 4 true d a o s)

/-- `ld.d.g` (R359). -/
def execLdDG (t : Tok) (d a : Reg) (o : Fin 512) (s : State) : Out := .next (loadImm none t .g 8 true d a o s)

/-- `ld.b.n.g` (R359). -/
def execLdBNG (t : Tok) (d a : Reg) (o : Fin 512) (s : State) : Out := .next (loadImm none t .g 1 false d a o s)

/-- `ld.h.n.g` (R359). -/
def execLdHNG (t : Tok) (d a : Reg) (o : Fin 512) (s : State) : Out := .next (loadImm none t .g 2 false d a o s)

/-- `ld.w.n.g` (R359). -/
def execLdWNG (t : Tok) (d a : Reg) (o : Fin 512) (s : State) : Out := .next (loadImm none t .g 4 false d a o s)

/-- `ld.b.x` (R359). -/
def execLdBX (t : Tok) (d a : Reg) (o : Fin 512) (s : State) : Out := .next (loadImm none t .x 1 true d a o s)

/-- `ld.h.x` (R359). -/
def execLdHX (t : Tok) (d a : Reg) (o : Fin 512) (s : State) : Out := .next (loadImm none t .x 2 true d a o s)

/-- `ld.w.x` (R359). -/
def execLdWX (t : Tok) (d a : Reg) (o : Fin 512) (s : State) : Out := .next (loadImm none t .x 4 true d a o s)

/-- `ld.d.x` (R359). -/
def execLdDX (t : Tok) (d a : Reg) (o : Fin 512) (s : State) : Out := .next (loadImm none t .x 8 true d a o s)

/-- `ld.b.n.x` (R359). -/
def execLdBNX (t : Tok) (d a : Reg) (o : Fin 512) (s : State) : Out := .next (loadImm none t .x 1 false d a o s)

/-- `ld.h.n.x` (R359). -/
def execLdHNX (t : Tok) (d a : Reg) (o : Fin 512) (s : State) : Out := .next (loadImm none t .x 2 false d a o s)

/-- `ld.w.n.x` (R359). -/
def execLdWNX (t : Tok) (d a : Reg) (o : Fin 512) (s : State) : Out := .next (loadImm none t .x 4 false d a o s)

/-- `ld.b.l` (R359). -/
def execLdBL (t : Tok) (d a : Reg) (o : Fin 512) (s : State) : Out := .next (loadImm none t .l 1 true d a o s)

/-- `ld.h.l` (R359). -/
def execLdHL (t : Tok) (d a : Reg) (o : Fin 512) (s : State) : Out := .next (loadImm none t .l 2 true d a o s)

/-- `ld.w.l` (R359). -/
def execLdWL (t : Tok) (d a : Reg) (o : Fin 512) (s : State) : Out := .next (loadImm none t .l 4 true d a o s)

/-- `ld.d.l` (R359). -/
def execLdDL (t : Tok) (d a : Reg) (o : Fin 512) (s : State) : Out := .next (loadImm none t .l 8 true d a o s)

/-- `ld.b.n.l` (R359). -/
def execLdBNL (t : Tok) (d a : Reg) (o : Fin 512) (s : State) : Out := .next (loadImm none t .l 1 false d a o s)

/-- `ld.h.n.l` (R359). -/
def execLdHNL (t : Tok) (d a : Reg) (o : Fin 512) (s : State) : Out := .next (loadImm none t .l 2 false d a o s)

/-- `ld.w.n.l` (R359). -/
def execLdWNL (t : Tok) (d a : Reg) (o : Fin 512) (s : State) : Out := .next (loadImm none t .l 4 false d a o s)

/-- `ld.b.g`, register and register (R360). -/
def execLdBGRr (t : Tok) (g : Guard) (d a b : Reg) (s : State) : Out := .next (loadRr t g .g 1 d a b s)

/-- `ld.h.g`, register and register (R360). -/
def execLdHGRr (t : Tok) (g : Guard) (d a b : Reg) (s : State) : Out := .next (loadRr t g .g 2 d a b s)

/-- `ld.w.g`, register and register (R360). -/
def execLdWGRr (t : Tok) (g : Guard) (d a b : Reg) (s : State) : Out := .next (loadRr t g .g 4 d a b s)

/-- `ld.d.g`, register and register (R360). -/
def execLdDGRr (t : Tok) (g : Guard) (d a b : Reg) (s : State) : Out := .next (loadRr t g .g 8 d a b s)

/-- `ld.b.x`, register and register (R360). -/
def execLdBXRr (t : Tok) (g : Guard) (d a b : Reg) (s : State) : Out := .next (loadRr t g .x 1 d a b s)

/-- `ld.h.x`, register and register (R360). -/
def execLdHXRr (t : Tok) (g : Guard) (d a b : Reg) (s : State) : Out := .next (loadRr t g .x 2 d a b s)

/-- `ld.w.x`, register and register (R360). -/
def execLdWXRr (t : Tok) (g : Guard) (d a b : Reg) (s : State) : Out := .next (loadRr t g .x 4 d a b s)

/-- `ld.d.x`, register and register (R360). -/
def execLdDXRr (t : Tok) (g : Guard) (d a b : Reg) (s : State) : Out := .next (loadRr t g .x 8 d a b s)

/-- `ld.b.l`, register and register (R360). -/
def execLdBLRr (t : Tok) (g : Guard) (d a b : Reg) (s : State) : Out := .next (loadRr t g .l 1 d a b s)

/-- `ld.h.l`, register and register (R360). -/
def execLdHLRr (t : Tok) (g : Guard) (d a b : Reg) (s : State) : Out := .next (loadRr t g .l 2 d a b s)

/-- `ld.w.l`, register and register (R360). -/
def execLdWLRr (t : Tok) (g : Guard) (d a b : Reg) (s : State) : Out := .next (loadRr t g .l 4 d a b s)

/-- `ld.d.l`, register and register (R360). -/
def execLdDLRr (t : Tok) (g : Guard) (d a b : Reg) (s : State) : Out := .next (loadRr t g .l 8 d a b s)

/-! ### Vector loads (R364 to R367) -/

/-- `vld.g` (R364). -/
def execVldG (t : Tok) (g : Guard) (d a b : Reg) (s : State) : Out := .next (vloadWord t g .g 0 d a b s)

/-- `vlds.g` (R364). -/
def execVldsG (t : Tok) (g : Guard) (d a b : Reg) (s : State) : Out := .next (vloadWord t g .g 1 d a b s)

/-- `vldx.g` (R364). -/
def execVldxG (t : Tok) (g : Guard) (d a b : Reg) (s : State) : Out := .next (vloadWord t g .g 2 d a b s)

/-- `vld.ff.g` (R364). -/
def execVldFfG (t : Tok) (g : Guard) (d a b : Reg) (s : State) : Out := .next (vloadWord t g .g 3 d a b s)

/-- `vld.x` (R364). -/
def execVldX (t : Tok) (g : Guard) (d a b : Reg) (s : State) : Out := .next (vloadWord t g .x 0 d a b s)

/-- `vlds.x` (R364). -/
def execVldsX (t : Tok) (g : Guard) (d a b : Reg) (s : State) : Out := .next (vloadWord t g .x 1 d a b s)

/-- `vldx.x` (R364). -/
def execVldxX (t : Tok) (g : Guard) (d a b : Reg) (s : State) : Out := .next (vloadWord t g .x 2 d a b s)

/-- `vld.ff.x` (R364). -/
def execVldFfX (t : Tok) (g : Guard) (d a b : Reg) (s : State) : Out := .next (vloadWord t g .x 3 d a b s)

/-- `vld.l` (R364). -/
def execVldL (t : Tok) (g : Guard) (d a b : Reg) (s : State) : Out := .next (vloadWord t g .l 0 d a b s)

/-- `vlds.l` (R364). -/
def execVldsL (t : Tok) (g : Guard) (d a b : Reg) (s : State) : Out := .next (vloadWord t g .l 1 d a b s)

/-- `vldx.l` (R364). -/
def execVldxL (t : Tok) (g : Guard) (d a b : Reg) (s : State) : Out := .next (vloadWord t g .l 2 d a b s)

/-- `vld.ff.l` (R364). -/
def execVldFfL (t : Tok) (g : Guard) (d a b : Reg) (s : State) : Out := .next (vloadWord t g .l 3 d a b s)

/-! ### Constant path and hints (R362, R363) -/

/-- `ldc.b` (R362). -/
def execLdcB (t : Tok) (d a : Reg) (o : Fin 512) (s : State) : Out := .next (ldcImm none t 1 true d a o s)

/-- `ldc.h` (R362). -/
def execLdcH (t : Tok) (d a : Reg) (o : Fin 512) (s : State) : Out := .next (ldcImm none t 2 true d a o s)

/-- `ldc.w` (R362). -/
def execLdcW (t : Tok) (d a : Reg) (o : Fin 512) (s : State) : Out := .next (ldcImm none t 4 true d a o s)

/-- `ldc.d` (R362). -/
def execLdcD (t : Tok) (d a : Reg) (o : Fin 512) (s : State) : Out := .next (ldcImm none t 8 true d a o s)

/-- `ldc.b.n` (R362). -/
def execLdcBN (t : Tok) (d a : Reg) (o : Fin 512) (s : State) : Out := .next (ldcImm none t 1 false d a o s)

/-- `ldc.h.n` (R362). -/
def execLdcHN (t : Tok) (d a : Reg) (o : Fin 512) (s : State) : Out := .next (ldcImm none t 2 false d a o s)

/-- `ldc.w.n` (R362). -/
def execLdcWN (t : Tok) (d a : Reg) (o : Fin 512) (s : State) : Out := .next (ldcImm none t 4 false d a o s)

/-- `pf.l1` (R363). -/
def execPfL1 (t : Tok) (a : Reg) (o : Fin 512) (s : State) : Out := .next (hintImm none t .pfL1 a o s)

/-- `pf.crew` (R363). -/
def execPfCrew (t : Tok) (a : Reg) (o : Fin 512) (s : State) : Out := .next (hintImm none t .pfCrew a o s)

/-- `lrenew` (R363). -/
def execLrenew (t : Tok) (a : Reg) (o : Fin 512) (s : State) : Out := .next (hintImm none t .lrenew a o s)

/-! ### Copies, flumes, the crew ring (R375, R377, R389) -/

/-- `cpy` (R389). -/
def execCpy (t : Tok) (g : Guard) (d a b : Reg) (c : Fin 2) (s : State) : Out := .next (cpyWord 0 t g d a b c s)

/-- `cpy.a` (R389). -/
def execCpyA (t : Tok) (g : Guard) (d a b : Reg) (c : Fin 2) (s : State) : Out := .next (cpyWord 1 t g d a b c s)

/-- `cpy.b` (R389). -/
def execCpyB (t : Tok) (g : Guard) (d a b : Reg) (c : Fin 2) (s : State) : Out := .next (cpyWord 2 t g d a b c s)

/-- `flget.x` (R375). -/
def execFlgetX (t : Tok) (c : Fin 16) (d a b : Reg) (s : State) : Out :=
  .next (sWord .l t c (jS [d] [a, b]) false (fun c st k => .flgetX (c.mapDst st d) (c.rdS st a) (c.rdS st b) k) s)

/-- `flget.v` (R375): its group takes G from VTYPE. -/
def execFlgetV (t : Tok) (c : Fin 16) (d a : Reg) (s : State) : Out :=
  .next (sWord .l t c (jMain [] [a] (d.val % vgrp s.vtype == 0)) true (fun c st k => .flgetV d (c.rdS st a) k) s)

/-- `ring` (R377). -/
def execRing (t : Tok) (g : Guard) (d a b : Reg) (s : State) : Out :=
  .next (gWord .l t g (jMainG g [] [d, a, b] true) (fun c st => .ring (c.rdS st d) (c.rdS st a) (c.rdS st b)) s)

end Sys2Proof.Machine
end

