-- ==== Sys2Proof/Machine/EngineWords.lean ====
section
/-! DEFINITION. The matrix, window and format-table words as they are judged and routed (spec/15 R397 to R409, spec/09 R256). -/

namespace Sys2Proof.Machine

/-! ### Configuration (R398, R405) -/

/-- Bits of a NEST register, and of MGRP; other bits are ignored (R398). -/
def nestMask : W64 := 0x3FFFFFF#64
def mgrpMask : W64 := 0xFFFFF00FF3F01#64

/-- A matrix configuration register written (R398). -/
def MCfg.write (m : MCfg) (r : Nat) (v : W64) : MCfg := if h : r < 6 then { m with nest := m.nest.set r (v &&& nestMask) } else { m with mgrp := v &&& mgrpMask }

/-- Bits of the window configuration registers (R405). -/
def winMask (r : Nat) : W64 :=
  match r with
  | 0 => 0xFFFFFFFFFFFF#64
  | 1 => 0xFFFFFFFFFFFF#64
  | 5 => 0xFFFF0007#64
  | 6 => 0xFFFF00FF0FFFFFFF#64
  | _ => BitVec.allOnes 64

/-- An X-class engine word whose whole effect is on the control slot's configuration, made as it is routed (R388). -/
def cfgWord (t : Tok) (g : Guard) (ss : List Reg) (lim : Bool) (f : Core → Core) (s : State) : State :=
  routeWord .x t (some g) (jMainG g [] ss lim) 1 false (fun on s => .ok (if on then s.modCur f else s, .nop)) s

/-- `mcfg` (R398). -/
def execMcfg (t : Tok) (g : Guard) (d a : Reg) (s : State) : Out :=
  .next (cfgWord t g [a] (decide (d.val ≤ 6)) (fun c => { c with mat := { c.mat with cfg := c.mat.cfg.write d.val (c.rdS .main a) } }) s)

/-- `mcfgz` (R398). -/
def execMcfgz (t : Tok) (g : Guard) (s : State) : Out := .next (cfgWord t g [] true (fun c => { c with mat := { c.mat with cfg := MCfg.reset } }) s)

/-- `wcfg` (R405). -/
def execWcfg (t : Tok) (g : Guard) (d a : Reg) (s : State) : Out :=
  .next (cfgWord t g [a] (decide (d.val ≤ 6)) (fun c => { c with mat := { c.mat with win := c.mat.win.set (d.val % 7) (c.rdS .main a &&& winMask d.val) (Nat.mod_lt _ (by decide)) } }) s)

/-! ### Gos, accumulators, the window engine (R399, R403, R404, R406) -/

/-- The format-table entry that a go selects (R256). -/
def Core.ftIndex (c : Core) : Fin 16 :=
  let b := fld c.sys.ftbase 0 4
  Fin.ofNat 16 (if fld c.sys.ftbase 6 1 = 1 then b + (c.regs.lc[Fin.ofNat 4 (fld c.sys.ftbase 4 2)]).toNat else b)

/-- `mgo`: it takes its positions as it is routed (R397, R399). -/
def execMgo (t : Tok) (g : Guard) (d : Reg) (s : State) : Out :=
  .next (routeWord .x t (some g) (jMainG g [] [] (decide (d.val ≤ 3))) 1 false
    (fun on s =>
      let c := s.cur
      let (na, nb) := c.mat.cfg.positions
      let u : Uop := .mgo (Fin.ofNat 4 d.val) c.ftIndex c.mat.cfg c.mat.acons.toNat c.mat.bcons.toNat na nb
      let s1 := if on then s.modCur (fun c => { c with mat := { c.mat with acons := c.mat.acons + BitVec.ofNat 64 na, bcons := c.mat.bcons + BitVec.ofNat 64 nb } }) else s
      .ok (s1, u)) s)

/-- `mstat` (R403). -/
def execMstat (t : Tok) (g : Guard) (d : Reg) (s : State) : Out := .next (gWord .x t g (jMainG g [] [] true) (fun _ _ => .mstat d) s)

/-- `accrd` (R404). -/
def execAccrd (t : Tok) (g : Guard) (d a b : Reg) (s : State) : Out :=
  .next (gWord .x t g (jMainG g [] [b] (decide (a.val ≤ 3))) (fun c st => .accrd d (Fin.ofNat 4 a.val) (c.rdS st b)) s)

/-- `acczero` (R404). -/
def execAcczero (t : Tok) (g : Guard) (d : Reg) (s : State) : Out :=
  .next (gWord .x t g (jMainG g [] [] (decide (d.val ≤ 3))) (fun _ _ => .acczero (Fin.ofNat 4 d.val)) s)

/-- `accwr` (R404). -/
def execAccwr (t : Tok) (g : Guard) (d a b : Reg) (s : State) : Out :=
  .next (gWord .x t g (jMainG g [] [b] (decide (d.val ≤ 3))) (fun c st => .accwr (Fin.ofNat 4 d.val) a (c.rdS st b)) s)

/-- `wgo`: NB positions of A, 0 acting as 1 (R406). -/
def execWgo (t : Tok) (g : Guard) (a : Reg) (s : State) : Out :=
  .next (routeWord .x t (some g) (jMainG g [] [a] true) 1 false
    (fun on s =>
      let c := s.cur
      let nb := max 1 (fld (c.rdS .main a) 0 16)
      .ok (if on then s.takeA nb else s, .wgo c.mat.win c.mat.aprod.toNat nb)) s)

/-! ### Format table (R409) -/

/-- `ftld` (R255, R409). -/
def execFtld (t : Tok) (g : Guard) (d a : Reg) (s : State) : Out :=
  .next (gWord .x t g (jMainG g [] [] (decide (d.val ≤ 15))) (fun _ _ => .ftld (Fin.ofNat 16 d.val) a) s)

/-- `ftclr` (R409). -/
def execFtclr (t : Tok) (g : Guard) (d : Reg) (s : State) : Out :=
  .next (gWord .x t g (jMainG g [] [] (decide (d.val ≤ 15))) (fun _ _ => .ftclr (Fin.ofNat 16 d.val)) s)

/-- `ftrd` (R409). -/
def execFtrd (t : Tok) (g : Guard) (d a : Reg) (s : State) : Out :=
  .next (gWord .x t g (jMainG g [] [] (decide (a.val ≤ 15))) (fun _ _ => .ftrd d (Fin.ofNat 16 a.val)) s)

/-- `ftmon` (R257, R409). -/
def execFtmon (t : Tok) (g : Guard) (d : Reg) (s : State) : Out := .next (gWord .x t g (jMainG g [] [] true) (fun _ _ => .ftmon d) s)

end Sys2Proof.Machine
end

