-- ==== Sys2Proof/Machine/Scalar.lean ====
section
/-! DEFINITION. The integer, immediate, multiply, divide, bit-count, `lim`, predicate words (spec/12 R303 to R309). -/

namespace Sys2Proof.Machine

/-! ### Functions of the scalar words -/

/-- A signed sum clamped to 64 bits (R233). -/
def clamp64 (i : Int) : W64 := w64 (min (max i (-9223372036854775808)) 9223372036854775807)

/-- Number of leading zero bits (R305). -/
def clz64 (a : W64) : W64 := BitVec.ofNat 64 (if a = 0 then 64 else 63 - Nat.log2 a.toNat)

/-- Number of trailing zero bits (R305). -/
def ctz64 (a : W64) : W64 := BitVec.ofNat 64 (((List.range 64).find? (fun k => a.getLsbD k)).getD 64)

/-- Number of 1 bits (R305). -/
def cpop64 (a : W64) : W64 := BitVec.ofNat 64 ((List.range 64).countP (fun k => a.getLsbD k))

/-- Signed quotient, truncated toward zero; all ones for a zero divisor (R305, R306). -/
def div64 (a b : W64) : W64 := if b = 0 then BitVec.allOnes 64 else w64 (a.toInt.tdiv b.toInt)

/-- Signed remainder, with the sign of the dividend; the dividend for a zero divisor (R305, R306). -/
def rem64 (a b : W64) : W64 := if b = 0 then a else w64 (a.toInt.tmod b.toInt)

/-- Unsigned quotient; 2^64 − 1 for a zero divisor (R305, R306). -/
def divN64 (a b : W64) : W64 := if b = 0 then BitVec.allOnes 64 else BitVec.ofNat 64 (a.toNat / b.toNat)

/-- Unsigned remainder; the dividend for a zero divisor (R305, R306). -/
def remN64 (a b : W64) : W64 := if b = 0 then a else BitVec.ofNat 64 (a.toNat % b.toNat)

/-- The low `n` bits sign-extended. -/
def sextLow (n : Nat) (a : W64) : W64 := w64 (sext n a.toNat)

/-- The low `n` bits zero-extended. -/
def zextLow (n : Nat) (a : W64) : W64 := BitVec.ofNat 64 (a.toNat % 2 ^ n)

/-! ### Integer register operations (R303) -/

/-- `add` (R303). -/
def execAdd (t : Tok) (g : Guard) (d a b : Reg) (s : State) : Out := .next (alu2 t g d a b (fun a b => a + b) s)

/-- `sub` (R303). -/
def execSub (t : Tok) (g : Guard) (d a b : Reg) (s : State) : Out := .next (alu2 t g d a b (fun a b => a - b) s)

/-- `and` (R303). -/
def execAnd (t : Tok) (g : Guard) (d a b : Reg) (s : State) : Out := .next (alu2 t g d a b (fun a b => a &&& b) s)

/-- `or` (R303). -/
def execOr (t : Tok) (g : Guard) (d a b : Reg) (s : State) : Out := .next (alu2 t g d a b (fun a b => a ||| b) s)

/-- `xor` (R303). -/
def execXor (t : Tok) (g : Guard) (d a b : Reg) (s : State) : Out := .next (alu2 t g d a b (fun a b => a ^^^ b) s)

/-- `sll` (R303). -/
def execSll (t : Tok) (g : Guard) (d a b : Reg) (s : State) : Out := .next (alu2 t g d a b (fun a b => a <<< (b.toNat % 64)) s)

/-- `srl` (R303). -/
def execSrl (t : Tok) (g : Guard) (d a b : Reg) (s : State) : Out := .next (alu2 t g d a b (fun a b => a >>> (b.toNat % 64)) s)

/-- `sra` (R303). -/
def execSra (t : Tok) (g : Guard) (d a b : Reg) (s : State) : Out := .next (alu2 t g d a b (fun a b => a.sshiftRight (b.toNat % 64)) s)

/-- `min` (R303). -/
def execMin (t : Tok) (g : Guard) (d a b : Reg) (s : State) : Out := .next (alu2 t g d a b (fun a b => if a.toInt ≤ b.toInt then a else b) s)

/-- `max` (R303). -/
def execMax (t : Tok) (g : Guard) (d a b : Reg) (s : State) : Out := .next (alu2 t g d a b (fun a b => if a.toInt ≤ b.toInt then b else a) s)

/-- `min.n` (R303). -/
def execMinN (t : Tok) (g : Guard) (d a b : Reg) (s : State) : Out := .next (alu2 t g d a b (fun a b => if a.toNat ≤ b.toNat then a else b) s)

/-- `max.n` (R303). -/
def execMaxN (t : Tok) (g : Guard) (d a b : Reg) (s : State) : Out := .next (alu2 t g d a b (fun a b => if a.toNat ≤ b.toNat then b else a) s)

/-- `add.sat` (R303). -/
def execAddSat (t : Tok) (g : Guard) (d a b : Reg) (s : State) : Out := .next (alu2 t g d a b (fun a b => clamp64 (a.toInt + b.toInt)) s)

/-- `sub.sat` (R303). -/
def execSubSat (t : Tok) (g : Guard) (d a b : Reg) (s : State) : Out := .next (alu2 t g d a b (fun a b => clamp64 (a.toInt - b.toInt)) s)

/-- `andn` (R303). -/
def execAndn (t : Tok) (g : Guard) (d a b : Reg) (s : State) : Out := .next (alu2 t g d a b (fun a b => a &&& ~~~b) s)

/-- `ror` (R303). -/
def execRor (t : Tok) (g : Guard) (d a b : Reg) (s : State) : Out := .next (alu2 t g d a b (fun a b => a.rotateRight (b.toNat % 64)) s)

/-! ### Immediates (R304) -/

/-- MAJOR 0x01 by its minor code, with or without a prefix. -/
def immWord (x : Payload) (f3 : Fin 8) (t : Tok) (d a : Reg) (i : Fin 512) (s : State) : State :=
  let v := w64 (immS x 9 i.val)
  let k := immN x 9 i.val
  match f3 with
  | 0 => aluI x t d a true (fun a => a + v) s
  | 1 => aluI x t d a true (fun a => a &&& v) s
  | 2 => aluI x t d a true (fun a => a ||| v) s
  | 3 => aluI x t d a true (fun a => a ^^^ v) s
  | 4 => aluI x t d a (decide (k ≤ 63)) (fun a => a <<< k) s
  | 5 => aluI x t d a (decide (k ≤ 63)) (fun a => a >>> k) s
  | 6 => aluI x t d a (decide (k ≤ 63)) (fun a => a.sshiftRight k) s
  | 7 => aluI x t d a (decide (k ≤ 63)) (fun a => a.rotateRight k) s

/-- `addi` (R304). -/
def execAddi (t : Tok) (d a : Reg) (i : Fin 512) (s : State) : Out := .next (immWord none 0 t d a i s)

/-- `andi` (R304). -/
def execAndi (t : Tok) (d a : Reg) (i : Fin 512) (s : State) : Out := .next (immWord none 1 t d a i s)

/-- `ori` (R304). -/
def execOri (t : Tok) (d a : Reg) (i : Fin 512) (s : State) : Out := .next (immWord none 2 t d a i s)

/-- `xori` (R304). -/
def execXori (t : Tok) (d a : Reg) (i : Fin 512) (s : State) : Out := .next (immWord none 3 t d a i s)

/-- `slli` (R304). -/
def execSlli (t : Tok) (d a : Reg) (i : Fin 512) (s : State) : Out := .next (immWord none 4 t d a i s)

/-- `srli` (R304). -/
def execSrli (t : Tok) (d a : Reg) (i : Fin 512) (s : State) : Out := .next (immWord none 5 t d a i s)

/-- `srai` (R304). -/
def execSrai (t : Tok) (d a : Reg) (i : Fin 512) (s : State) : Out := .next (immWord none 6 t d a i s)

/-- `rori` (R304). -/
def execRori (t : Tok) (d a : Reg) (i : Fin 512) (s : State) : Out := .next (immWord none 7 t d a i s)

/-! ### Multiply, divide, bit counts (R305, R306) -/

/-- `mul` (R305). -/
def execMul (t : Tok) (g : Guard) (d a b : Reg) (s : State) : Out := .next (alu2 t g d a b (fun a b => a * b) s)

/-- `mulh` (R305). -/
def execMulh (t : Tok) (g : Guard) (d a b : Reg) (s : State) : Out := .next (alu2 t g d a b (fun a b => w64 (a.toInt * b.toInt / 18446744073709551616)) s)

/-- `mulh.n` (R305). -/
def execMulhN (t : Tok) (g : Guard) (d a b : Reg) (s : State) : Out := .next (alu2 t g d a b (fun a b => BitVec.ofNat 64 (a.toNat * b.toNat / 18446744073709551616)) s)

/-- `div` (R305). -/
def execDiv (t : Tok) (g : Guard) (d a b : Reg) (s : State) : Out := .next (alu2 t g d a b (div64) s)

/-- `div.n` (R305). -/
def execDivN (t : Tok) (g : Guard) (d a b : Reg) (s : State) : Out := .next (alu2 t g d a b (divN64) s)

/-- `rem` (R305). -/
def execRem (t : Tok) (g : Guard) (d a b : Reg) (s : State) : Out := .next (alu2 t g d a b (rem64) s)

/-- `rem.n` (R305). -/
def execRemN (t : Tok) (g : Guard) (d a b : Reg) (s : State) : Out := .next (alu2 t g d a b (remN64) s)

/-- `clz` (R305). -/
def execClz (t : Tok) (g : Guard) (d a : Reg) (s : State) : Out := .next (alu1 t g d a (clz64) s)

/-- `ctz` (R305). -/
def execCtz (t : Tok) (g : Guard) (d a : Reg) (s : State) : Out := .next (alu1 t g d a (ctz64) s)

/-- `cpop` (R305). -/
def execCpop (t : Tok) (g : Guard) (d a : Reg) (s : State) : Out := .next (alu1 t g d a (cpop64) s)

/-- `sext.b` (R305). -/
def execSextB (t : Tok) (g : Guard) (d a : Reg) (s : State) : Out := .next (alu1 t g d a (sextLow 8) s)

/-- `sext.h` (R305). -/
def execSextH (t : Tok) (g : Guard) (d a : Reg) (s : State) : Out := .next (alu1 t g d a (sextLow 16) s)

/-- `sext.w` (R305). -/
def execSextW (t : Tok) (g : Guard) (d a : Reg) (s : State) : Out := .next (alu1 t g d a (sextLow 32) s)

/-- `zext.b` (R305). -/
def execZextB (t : Tok) (g : Guard) (d a : Reg) (s : State) : Out := .next (alu1 t g d a (zextLow 8) s)

/-- `zext.h` (R305). -/
def execZextH (t : Tok) (g : Guard) (d a : Reg) (s : State) : Out := .next (alu1 t g d a (zextLow 16) s)

/-- `zext.w` (R305). -/
def execZextW (t : Tok) (g : Guard) (d a : Reg) (s : State) : Out := .next (alu1 t g d a (zextLow 32) s)

/-- `lim`, with or without a prefix (R307). -/
def limWord (x : Payload) (t : Tok) (g : Guard) (d : Reg) (i : Fin 16384) (s : State) : State :=
  cWord t g (jGS g [d] []) (wordLen x) (fun s => onCore (fun c => c.wrS s.focusStrand d (w64 (immS x 14 i.val))) s) s

/-- `lim` (R307). -/
def execLim (t : Tok) (g : Guard) (d : Reg) (i : Fin 16384) (s : State) : Out := .next (limWord none t g d i s)

/-! ### Predicates (R308, R309) -/

/-- `cmp.eq` (R308). -/
def execCmpEq (t : Tok) (g : Guard) (d a b : Reg) (s : State) : Out := .next (cmp2 t g d a b (fun a b => decide (a = b)) s)

/-- `cmp.ne` (R308). -/
def execCmpNe (t : Tok) (g : Guard) (d a b : Reg) (s : State) : Out := .next (cmp2 t g d a b (fun a b => decide (a ≠ b)) s)

/-- `cmp.lt` (R308). -/
def execCmpLt (t : Tok) (g : Guard) (d a b : Reg) (s : State) : Out := .next (cmp2 t g d a b (fun a b => decide (a.toInt < b.toInt)) s)

/-- `cmp.ge` (R308). -/
def execCmpGe (t : Tok) (g : Guard) (d a b : Reg) (s : State) : Out := .next (cmp2 t g d a b (fun a b => decide (b.toInt ≤ a.toInt)) s)

/-- `cmp.lt.n` (R308). -/
def execCmpLtN (t : Tok) (g : Guard) (d a b : Reg) (s : State) : Out := .next (cmp2 t g d a b (fun a b => decide (a.toNat < b.toNat)) s)

/-- `cmp.ge.n` (R308). -/
def execCmpGeN (t : Tok) (g : Guard) (d a b : Reg) (s : State) : Out := .next (cmp2 t g d a b (fun a b => decide (b.toNat ≤ a.toNat)) s)

/-- `tbit` (R308). -/
def execTbit (t : Tok) (g : Guard) (d a b : Reg) (s : State) : Out := .next (cmp2 t g d a b (fun a b => a.getLsbD (b.toNat % 64)) s)

/-- `pand` (R309). -/
def execPand (t : Tok) (g : Guard) (d a b : Reg) (s : State) : Out := .next (plog t g d a b (fun a b => a && b) s)

/-- `por` (R309). -/
def execPor (t : Tok) (g : Guard) (d a b : Reg) (s : State) : Out := .next (plog t g d a b (fun a b => a || b) s)

/-- `pxor` (R309). -/
def execPxor (t : Tok) (g : Guard) (d a b : Reg) (s : State) : Out := .next (plog t g d a b (fun a b => a != b) s)

/-- `pandn` (R309). -/
def execPandn (t : Tok) (g : Guard) (d a b : Reg) (s : State) : Out := .next (plog t g d a b (fun a b => a && !b) s)

/-- `pnot` (R309). -/
def execPnot (t : Tok) (g : Guard) (d a : Reg) (s : State) : Out := .next (plog t g d a 0 (fun a _ => !a) s)

/-- `pset` (R309). -/
def execPset (t : Tok) (g : Guard) (d : Reg) (s : State) : Out := .next (plog t g d 0 0 (fun _ _ => true) s)

/-- `pclr` (R309). -/
def execPclr (t : Tok) (g : Guard) (d : Reg) (s : State) : Out := .next (plog t g d 0 0 (fun _ _ => false) s)

end Sys2Proof.Machine
end

