-- ==== Sys2Proof/Machine/Stores.lean ====
section
/-! DEFINITION. Scalar and vector stores, atomics, reductions at memory, `lupd`, `flput`, `push`, `bar.arrive`, cache operations
(spec/14 R359 to R376, R381, R383). -/

namespace Sys2Proof.Machine

/-! ### Shapes -/

/-- A scalar store, base and offset (R359). -/
def storeImm (x : Payload) (t : Tok) (sp : Space) (sz : Nat) (d a : Reg) (o : Fin 512) (s : State) : State :=
  iWord .s x t (jS [] [d, a]) (fun c st => .store sp sz (baseOff c st x a o sz) (c.rdS st d)) s

/-- A scalar store, register and register (R360). -/
def storeRr (t : Tok) (g : Guard) (sp : Space) (sz : Nat) (d a b : Reg) (s : State) : State :=
  gWord .s t g (jGS g [] [d, a, b]) (fun c st => .store sp sz (c.rdS st a + c.rdS st b) (c.rdS st d)) s

/-- A vector store (R364). -/
def vstoreWord (t : Tok) (m : Guard) (sp : Space) (kind : Fin 4) (d a b : Reg) (s : State) : State :=
  routeWord .s t none (jMain [] (if kind = 2 then [a] else [a, b]) (limVmem s.vtype false kind d b m)) 1 true
    (fun _ s => let c := s.cur; .ok (s, .vstore sp kind d m (c.rdS .main a) (if kind = 2 then 0 else c.rdS .main b) b)) s

/-- An atomic (R369): `d` holds the expected value of `cas` and takes the old value; `amo.st` has no destination. -/
def amoWord (op : AmoOp) (wide : Bool) (t : Tok) (k : Fin 16) (d a b : Reg) (s : State) : State :=
  sWord .s t k (jS (if op = .st then [] else [d]) (if op = .ld then [a] else if op = .cas then [d, a, b] else [a, b])) false
    (fun c st cap => .amo op wide (c.mapDst st d) (c.rdS st d) (c.rdS st a) (c.rdS st b) cap) s

/-- A reduction at memory (R371). -/
def redWord (op : MemRed) (t : Tok) (k : Fin 16) (a b : Reg) (s : State) : State :=
  sWord .s t k (jS [] [a, b]) false (fun c st cap => .red op (c.rdS st a) (c.rdS st b) cap) s

/-! ### Scalar stores (R359, R360) -/

/-- `st.b.g` (R359). -/
def execStBG (t : Tok) (d a : Reg) (o : Fin 512) (s : State) : Out := .next (storeImm none t .g 1 d a o s)

/-- `st.h.g` (R359). -/
def execStHG (t : Tok) (d a : Reg) (o : Fin 512) (s : State) : Out := .next (storeImm none t .g 2 d a o s)

/-- `st.w.g` (R359). -/
def execStWG (t : Tok) (d a : Reg) (o : Fin 512) (s : State) : Out := .next (storeImm none t .g 4 d a o s)

/-- `st.d.g` (R359). -/
def execStDG (t : Tok) (d a : Reg) (o : Fin 512) (s : State) : Out := .next (storeImm none t .g 8 d a o s)

/-- `st.b.x` (R359). -/
def execStBX (t : Tok) (d a : Reg) (o : Fin 512) (s : State) : Out := .next (storeImm none t .x 1 d a o s)

/-- `st.h.x` (R359). -/
def execStHX (t : Tok) (d a : Reg) (o : Fin 512) (s : State) : Out := .next (storeImm none t .x 2 d a o s)

/-- `st.w.x` (R359). -/
def execStWX (t : Tok) (d a : Reg) (o : Fin 512) (s : State) : Out := .next (storeImm none t .x 4 d a o s)

/-- `st.d.x` (R359). -/
def execStDX (t : Tok) (d a : Reg) (o : Fin 512) (s : State) : Out := .next (storeImm none t .x 8 d a o s)

/-- `st.b.l` (R359). -/
def execStBL (t : Tok) (d a : Reg) (o : Fin 512) (s : State) : Out := .next (storeImm none t .l 1 d a o s)

/-- `st.h.l` (R359). -/
def execStHL (t : Tok) (d a : Reg) (o : Fin 512) (s : State) : Out := .next (storeImm none t .l 2 d a o s)

/-- `st.w.l` (R359). -/
def execStWL (t : Tok) (d a : Reg) (o : Fin 512) (s : State) : Out := .next (storeImm none t .l 4 d a o s)

/-- `st.d.l` (R359). -/
def execStDL (t : Tok) (d a : Reg) (o : Fin 512) (s : State) : Out := .next (storeImm none t .l 8 d a o s)

/-- `st.b.g`, register and register (R360). -/
def execStBGRr (t : Tok) (g : Guard) (d a b : Reg) (s : State) : Out := .next (storeRr t g .g 1 d a b s)

/-- `st.h.g`, register and register (R360). -/
def execStHGRr (t : Tok) (g : Guard) (d a b : Reg) (s : State) : Out := .next (storeRr t g .g 2 d a b s)

/-- `st.w.g`, register and register (R360). -/
def execStWGRr (t : Tok) (g : Guard) (d a b : Reg) (s : State) : Out := .next (storeRr t g .g 4 d a b s)

/-- `st.d.g`, register and register (R360). -/
def execStDGRr (t : Tok) (g : Guard) (d a b : Reg) (s : State) : Out := .next (storeRr t g .g 8 d a b s)

/-- `st.b.x`, register and register (R360). -/
def execStBXRr (t : Tok) (g : Guard) (d a b : Reg) (s : State) : Out := .next (storeRr t g .x 1 d a b s)

/-- `st.h.x`, register and register (R360). -/
def execStHXRr (t : Tok) (g : Guard) (d a b : Reg) (s : State) : Out := .next (storeRr t g .x 2 d a b s)

/-- `st.w.x`, register and register (R360). -/
def execStWXRr (t : Tok) (g : Guard) (d a b : Reg) (s : State) : Out := .next (storeRr t g .x 4 d a b s)

/-- `st.d.x`, register and register (R360). -/
def execStDXRr (t : Tok) (g : Guard) (d a b : Reg) (s : State) : Out := .next (storeRr t g .x 8 d a b s)

/-- `st.b.l`, register and register (R360). -/
def execStBLRr (t : Tok) (g : Guard) (d a b : Reg) (s : State) : Out := .next (storeRr t g .l 1 d a b s)

/-- `st.h.l`, register and register (R360). -/
def execStHLRr (t : Tok) (g : Guard) (d a b : Reg) (s : State) : Out := .next (storeRr t g .l 2 d a b s)

/-- `st.w.l`, register and register (R360). -/
def execStWLRr (t : Tok) (g : Guard) (d a b : Reg) (s : State) : Out := .next (storeRr t g .l 4 d a b s)

/-- `st.d.l`, register and register (R360). -/
def execStDLRr (t : Tok) (g : Guard) (d a b : Reg) (s : State) : Out := .next (storeRr t g .l 8 d a b s)

/-! ### Vector stores (R364 to R368) -/

/-- `vst.g` (R364). -/
def execVstG (t : Tok) (g : Guard) (d a b : Reg) (s : State) : Out := .next (vstoreWord t g .g 0 d a b s)

/-- `vsts.g` (R364). -/
def execVstsG (t : Tok) (g : Guard) (d a b : Reg) (s : State) : Out := .next (vstoreWord t g .g 1 d a b s)

/-- `vstx.g` (R364). -/
def execVstxG (t : Tok) (g : Guard) (d a b : Reg) (s : State) : Out := .next (vstoreWord t g .g 2 d a b s)

/-- `vst.nt.g` (R364). -/
def execVstNtG (t : Tok) (g : Guard) (d a b : Reg) (s : State) : Out := .next (vstoreWord t g .g 3 d a b s)

/-- `vst.x` (R364). -/
def execVstX (t : Tok) (g : Guard) (d a b : Reg) (s : State) : Out := .next (vstoreWord t g .x 0 d a b s)

/-- `vsts.x` (R364). -/
def execVstsX (t : Tok) (g : Guard) (d a b : Reg) (s : State) : Out := .next (vstoreWord t g .x 1 d a b s)

/-- `vstx.x` (R364). -/
def execVstxX (t : Tok) (g : Guard) (d a b : Reg) (s : State) : Out := .next (vstoreWord t g .x 2 d a b s)

/-- `vst.l` (R364). -/
def execVstL (t : Tok) (g : Guard) (d a b : Reg) (s : State) : Out := .next (vstoreWord t g .l 0 d a b s)

/-- `vsts.l` (R364). -/
def execVstsL (t : Tok) (g : Guard) (d a b : Reg) (s : State) : Out := .next (vstoreWord t g .l 1 d a b s)

/-- `vstx.l` (R364). -/
def execVstxL (t : Tok) (g : Guard) (d a b : Reg) (s : State) : Out := .next (vstoreWord t g .l 2 d a b s)

/-! ### Atomics (R369, R370) -/

/-- `amo.ld.w` (R369). -/
def execAmoLdW (t : Tok) (c : Fin 16) (d a : Reg) (s : State) : Out := .next (amoWord .ld false t c d a 0 s)

/-- `amo.st.w` (R369). -/
def execAmoStW (t : Tok) (c : Fin 16) (a b : Reg) (s : State) : Out := .next (amoWord .st false t c 0 a b s)

/-- `amo.swap.w` (R369). -/
def execAmoSwapW (t : Tok) (c : Fin 16) (d a b : Reg) (s : State) : Out := .next (amoWord .swap false t c d a b s)

/-- `amo.cas.w` (R369). -/
def execAmoCasW (t : Tok) (c : Fin 16) (d a b : Reg) (s : State) : Out := .next (amoWord .cas false t c d a b s)

/-- `amo.add.w` (R369). -/
def execAmoAddW (t : Tok) (c : Fin 16) (d a b : Reg) (s : State) : Out := .next (amoWord .add false t c d a b s)

/-- `amo.or.w` (R369). -/
def execAmoOrW (t : Tok) (c : Fin 16) (d a b : Reg) (s : State) : Out := .next (amoWord .or false t c d a b s)

/-- `amo.min.w` (R369). -/
def execAmoMinW (t : Tok) (c : Fin 16) (d a b : Reg) (s : State) : Out := .next (amoWord .min false t c d a b s)

/-- `amo.max.w` (R369). -/
def execAmoMaxW (t : Tok) (c : Fin 16) (d a b : Reg) (s : State) : Out := .next (amoWord .max false t c d a b s)

/-- `amo.ld.d` (R369). -/
def execAmoLdD (t : Tok) (c : Fin 16) (d a : Reg) (s : State) : Out := .next (amoWord .ld true t c d a 0 s)

/-- `amo.st.d` (R369). -/
def execAmoStD (t : Tok) (c : Fin 16) (a b : Reg) (s : State) : Out := .next (amoWord .st true t c 0 a b s)

/-- `amo.swap.d` (R369). -/
def execAmoSwapD (t : Tok) (c : Fin 16) (d a b : Reg) (s : State) : Out := .next (amoWord .swap true t c d a b s)

/-- `amo.cas.d` (R369). -/
def execAmoCasD (t : Tok) (c : Fin 16) (d a b : Reg) (s : State) : Out := .next (amoWord .cas true t c d a b s)

/-- `amo.add.d` (R369). -/
def execAmoAddD (t : Tok) (c : Fin 16) (d a b : Reg) (s : State) : Out := .next (amoWord .add true t c d a b s)

/-- `amo.or.d` (R369). -/
def execAmoOrD (t : Tok) (c : Fin 16) (d a b : Reg) (s : State) : Out := .next (amoWord .or true t c d a b s)

/-- `amo.min.d` (R369). -/
def execAmoMinD (t : Tok) (c : Fin 16) (d a b : Reg) (s : State) : Out := .next (amoWord .min true t c d a b s)

/-- `amo.max.d` (R369). -/
def execAmoMaxD (t : Tok) (c : Fin 16) (d a b : Reg) (s : State) : Out := .next (amoWord .max true t c d a b s)

/-! ### Reductions, `lupd`, flumes, pushes, barriers (R371 to R376, R381) -/

/-- `red.add.w` (R371). -/
def execRedAddW (t : Tok) (c : Fin 16) (a b : Reg) (s : State) : Out := .next (redWord .addW t c a b s)

/-- `red.add.d` (R371). -/
def execRedAddD (t : Tok) (c : Fin 16) (a b : Reg) (s : State) : Out := .next (redWord .addD t c a b s)

/-- `red.add.f32` (R371). -/
def execRedAddF32 (t : Tok) (c : Fin 16) (a b : Reg) (s : State) : Out := .next (redWord .addF32 t c a b s)

/-- `red.min.w` (R371). -/
def execRedMinW (t : Tok) (c : Fin 16) (a b : Reg) (s : State) : Out := .next (redWord .minW t c a b s)

/-- `red.max.w` (R371). -/
def execRedMaxW (t : Tok) (c : Fin 16) (a b : Reg) (s : State) : Out := .next (redWord .maxW t c a b s)

/-- `red.or.d` (R371). -/
def execRedOrD (t : Tok) (c : Fin 16) (a b : Reg) (s : State) : Out := .next (redWord .orD t c a b s)

/-- The operation in field d of `lupd` (R372). -/
def lineOp (d : Reg) : LineOp := match d.val with | 0 => .addI32 | 1 => .addF32 | 2 => .maxF32 | _ => .minF32

/-- `lupd` (R372). -/
def execLupd (t : Tok) (c : Fin 16) (d a b : Reg) (s : State) : Out :=
  .next (sWord .s t c (jMain [] [a, b] (decide (d.val ≤ 3))) false (fun c st k => .lupd (lineOp d) (c.rdS st a) (c.rdS st b) k) s)

/-- `flput` (R374). -/
def execFlput (t : Tok) (c : Fin 16) (a b : Reg) (s : State) : Out :=
  .next (sWord .s t c (jS [] [a, b]) false (fun c st k => .flput (c.rdS st a) (c.rdS st b) k) s)

/-- `push` (R376). -/
def execPush (t : Tok) (c : Fin 16) (d a b : Reg) (s : State) : Out :=
  .next (sWord .s t c (jS [] [d, a, b]) false (fun c st k => .push (c.rdS st a) (c.rdS st b) (c.rdS st d) k) s)

/-- `bar.arrive` (R223, R381). -/
def execBarArrive (t : Tok) (c : Fin 16) (d a : Reg) (s : State) : Out :=
  .next (sWord .s t c (jS [d] [a]) false (fun c st k => .barArrive (c.mapDst st d) (c.rdS st a) k) s)

/-! ### Cache operations (R383) -/

/-- `cwb` (R383). -/
def execCwb (t : Tok) (g : Guard) (a : Reg) (s : State) : Out := .next (gWord .s t g (jGS g [] [a]) (fun c st => .cache .cwb (c.rdS st a)) s)

/-- `cev` (R383). -/
def execCev (t : Tok) (g : Guard) (a : Reg) (s : State) : Out := .next (gWord .s t g (jGS g [] [a]) (fun c st => .cache .cev (c.rdS st a)) s)

/-- `l1inv` (R383). -/
def execL1inv (t : Tok) (g : Guard) (s : State) : Out := .next (gWord .s t g (jGS g [] []) (fun _ _ => .cache .l1inv 0) s)

end Sys2Proof.Machine
end

