-- ==== Sys2Proof/Machine/Extended.lean ====
section
/-! DEFINITION. The EXT prefix and the extended words it makes with its successor (spec/11 R282). -/

namespace Sys2Proof.Machine

/-- The word at which a strand stands raises ILLEGAL, with the defect in its first (`len` 1) or second half. -/
def illegalNow (len sub : Nat) (s : State) : State := takeTrap s.focusCore (s.cur.illegal s.focusStrand len sub) s

/-- An extended load of a space: MAJOR 0x10 to 0x12 by its minor code (R359). -/
def extLoad (p : Fin 4194304) (w : Nat) (sp : Space) (s : State) : State :=
  let t := tokOf w
  let d : Reg := fin w 14 32
  let a : Reg := fin w 9 32
  let o : Fin 512 := fin w 0 512
  match bits w 19 3 with
  | 0 => loadImm (some p) t sp 1 true d a o s
  | 1 => loadImm (some p) t sp 2 true d a o s
  | 2 => loadImm (some p) t sp 4 true d a o s
  | 3 => loadImm (some p) t sp 8 true d a o s
  | 4 => loadImm (some p) t sp 1 false d a o s
  | 5 => loadImm (some p) t sp 2 false d a o s
  | 6 => loadImm (some p) t sp 4 false d a o s
  | _ => illegalNow 2 1 s

/-- An extended `ldc`: MAJOR 0x15 by its minor code (R362). -/
def extLdc (p : Fin 4194304) (w : Nat) (s : State) : State :=
  let t := tokOf w
  let d : Reg := fin w 14 32
  let a : Reg := fin w 9 32
  let o : Fin 512 := fin w 0 512
  match bits w 19 3 with
  | 0 => ldcImm (some p) t 1 true d a o s
  | 1 => ldcImm (some p) t 2 true d a o s
  | 2 => ldcImm (some p) t 4 true d a o s
  | 3 => ldcImm (some p) t 8 true d a o s
  | 4 => ldcImm (some p) t 1 false d a o s
  | 5 => ldcImm (some p) t 2 false d a o s
  | 6 => ldcImm (some p) t 4 false d a o s
  | _ => illegalNow 2 1 s

/-- An extended hint: MAJOR 0x19 by its minor code (R363). -/
def extHint (p : Fin 4194304) (w : Nat) (s : State) : State :=
  let t := tokOf w
  let a : Reg := fin w 9 32
  let o : Fin 512 := fin w 0 512
  if 2 < bits w 19 3 then illegalNow 2 1 s
  else if bits w 14 5 ≠ 0 then illegalNow 2 2 s
  else match bits w 19 3 with
    | 0 => hintImm (some p) t .pfL1 a o s
    | 1 => hintImm (some p) t .pfCrew a o s
    | _ => hintImm (some p) t .lrenew a o s

/-- An extended store: MAJOR 0x30 to 0x32 by its minor code (R359). -/
def extStore (p : Fin 4194304) (w : Nat) (sp : Space) (s : State) : State :=
  let t := tokOf w
  let d : Reg := fin w 14 32
  let a : Reg := fin w 9 32
  let o : Fin 512 := fin w 0 512
  match bits w 19 3 with
  | 0 => storeImm (some p) t sp 1 d a o s
  | 1 => storeImm (some p) t sp 2 d a o s
  | 2 => storeImm (some p) t sp 4 d a o s
  | 3 => storeImm (some p) t sp 8 d a o s
  | _ => illegalNow 2 1 s

/-- `vset` and `vset.max` behind a prefix: its payload must be zero, a nonzero one is a defect of the prefix (R329, log 16). -/
def extVset (p : Fin 4194304) (w : Nat) (s : State) : State :=
  let t := tokOf w
  let d : Reg := fin w 14 32
  let i : Fin 128 := fin w 0 128
  match bits w 19 3 with
  | 0 => if bits w 7 2 ≠ 0 then illegalNow 2 2 s else if p.val ≠ 0 then illegalNow 1 2 s else vsetWord (some p) t d (some (fin w 9 32)) i s
  | 1 => if bits w 7 7 ≠ 0 then illegalNow 2 2 s else if p.val ≠ 0 then illegalNow 1 2 s else vsetWord (some p) t d none i s
  | _ => illegalNow 2 1 s

/-- An extended word: payload `p`, successor `w`. A successor that is not in format I or M and is not `lim` is a defect of the
pairing (R282). -/
def extended (p : Fin 4194304) (w : Nat) (s : State) : State :=
  match bits w 22 6 with
  | 0x01 => immWord (some p) (fin w 19 8) (tokOf w) (fin w 14 32) (fin w 9 32) (fin w 0 512) s
  | 0x03 => limWord (some p) (tokOf w) (fin w 19 8) (fin w 14 32) (fin w 0 16384) s
  | 0x0E => extVset p w s
  | 0x10 => extLoad p w .g s
  | 0x11 => extLoad p w .x s
  | 0x12 => extLoad p w .l s
  | 0x15 => extLdc p w s
  | 0x19 => extHint p w s
  | 0x30 => extStore p w .g s
  | 0x31 => extStore p w .x s
  | 0x32 => extStore p w .l s
  | _ => illegalNow 1 3 s

/-- `ext` (R282): it runs in one step with the word after it. -/
def execExt (p : Fin 4194304) (s : State) : Out :=
  let i := s.cur.pcOf s.focusStrand + 1
  .next (if s.cur.img.ncode ≤ i then illegalNow 1 3 s else extended p (s.cur.word i).toNat s)

end Sys2Proof.Machine
end

