-- ==== Sys2Proof/Machine/Paging.lean ====
section
/-! DEFINITION. The translation service: caches and walks (spec/02 R46 to R49), invalidation of cached entries (R50, R51), page-ins (R54, R55). -/

namespace Sys2Proof.Machine


/-! ### Cached entries (R46, R50) -/

/-- A descriptor covers part of the span of an entry: its ASID, its virtual address, its size as a shift. -/
def InvDesc.covers (d : InvDesc) (asid va shift : Nat) : Bool :=
  match d.kind with
  | 0 => decide (asid = d.asid) && decide (va / 2 ^ shift * 2 ^ shift < d.va + d.pages * 4096) && decide (d.va < va / 2 ^ shift * 2 ^ shift + 2 ^ shift)
  | 1 => decide (asid = d.asid)
  | _ => true

/-- TLB entries that a descriptor leaves. -/
def InvDesc.keep (d : InvDesc) (l : List TlbEntry) : List TlbEntry := l.filter (fun e => !d.covers e.asid e.va e.shift)

/-- Acceptance: no lookup hits a covered entry any more, and no walk that has begun for one installs its result (R51). -/
def State.forget (s : State) (d : InvDesc) : State :=
  { s with
    cores := s.cores.map (fun c => { c with mem := { c.mem with tlb := d.keep c.mem.tlb } }),
    trans := { s.trans with crewTlb := s.trans.crewTlb.map d.keep,
                            walkCache := s.trans.walkCache.filter (fun e => !d.covers e.1 (e.2.2.1 * 2 ^ (12 + 9 * e.2.1)) (12 + 9 * e.2.1)),
                            walks := s.trans.walks.map (fun w => if d.covers w.asid w.va 12 then { w with stale := true } else w) } }

/-- Capacities of the core TLB and the walk cache (R46). -/
def coreTlbSize : Nat := 96
def walkCacheSize : Nat := 32768

/-! ### Walks (R47 to R49) -/

/-- A leaf that a cache may hold: some access is granted, and none of them meets a tier miss (R48). -/
def cacheable (leaf : W64) : Bool := decide (fld leaf 2 1 = 1 ∨ fld leaf 5 1 = 1) && decide (fld leaf 60 1 = 0)

/-- Non-leaf entries of a walk, from level `l` down to the level of its leaf: the level and the next table (R46). -/
def State.tablesOf (s : State) (va : Nat) : Nat → Nat → List (Nat × Nat)
  | 0, _ => []
  | l + 1, tbl =>
    match s.pteRead (tbl + bits va (12 + 9 * (l + 1)) 9 * 8) with
    | .error _ => []
    | .ok e => if fld e 0 2 = 1 then (l + 1, pteAddr e) :: s.tablesOf va l (pteAddr e) else []

/-- A crew TLB takes an entry: 512 sets of 8 ways, by page number, least recently filled out first (R46, log 5). -/
def crewPut (e : TlbEntry) (l : List TlbEntry) : List TlbEntry :=
  let set (x : TlbEntry) : Nat := x.va / 2 ^ x.shift % 512
  let rest := l.filter (fun x => decide (x ≠ e))
  e :: rest.filter (fun x => set x != set e || ((rest.filter (fun y => set y == set e)).take 7).contains x)

/-- The TLB entry of a leaf that a walk has found. -/
def LeafAt.entry (l : LeafAt) (asid va : Nat) : TlbEntry := { asid := asid, va := va / 2 ^ l.shift * 2 ^ l.shift, shift := l.shift, leaf := l.leaf }

/-- What a walk leaves in the caches for a core. -/
def State.fill (s : State) (n : Fin 128) (va : Nat) (l : LeafAt) : State :=
  let c := s.cores[n]
  let e := l.entry c.ctx.asid va
  let start := walkStart s.trans.walkCache c.ctx.asid va c.ctx.root
  let walks := (s.tablesOf va start.1 start.2).foldl (fun w k => cachePut walkCacheSize (c.ctx.asid, k.1, va / 2 ^ (12 + 9 * k.1), k.2) w) s.trans.walkCache
  let s1 := s.modCore n (fun c => { c with mem := { c.mem with tlb := cachePut coreTlbSize e c.mem.tlb } })
  let s2 : State := { s1 with trans := { s1.trans with crewTlb := s1.trans.crewTlb.set (crewOf n) (crewPut e s1.trans.crewTlb[crewOf n]), walkCache := walks } }
  s2.askAts (s2.region c.ctx.region).func c.ctx.asid (pteAddr l.leaf / 2 ^ l.shift * 2 ^ l.shift + va % 2 ^ l.shift)

/-- The walk in flight for a core's page: the one that no invalidation has covered, else the one that the core joined before that (R51). -/
def State.walkOf (s : State) (n : Fin 128) (va : Nat) : Option Walk :=
  let asid := s.cores[n].ctx.asid
  (s.trans.walks.find? (fun w => w.serves asid va)).or (s.trans.walks.find? (fun w => w.cores.contains n && decide (w.asid = asid) && decide (w.va / 4096 = va / 4096)))

/-- A walk in flight is over. -/
def State.walkGone (s : State) (w : Walk) : State := { s with trans := { s.trans with walks := s.trans.walks.filter (fun x => x != w) } }

/-- A core that joined a walk hears of its leaf: the caches take it, or, once an invalidation has covered the walk, the waiting access alone (R47, R51). -/
def State.handLeaf (s : State) (w : Walk) (l : LeafAt) (m : Fin 128) : State :=
  if s.cores[m].ctx.asid ≠ w.asid ∨ s.cores[m].phase = .idle then s
  else if w.stale then s.modCore m (fun c => { c with mem := { c.mem with handed := some (l.entry w.asid w.va) } })
  else s.fill m w.va l

/-- TRANSLATION_WALK (R47, R48, R51): the walk in flight for a core's page ends, and the cores that joined it hear of a leaf that a cache may hold;
they meet any other outcome as they try again. A walk that no miss has begun begins and ends in this event. The record of a read that a
target refuses is made (R61). -/
def execTranslationWalk (c : Fin 128) (va : BitVec 64) (s : State) : Out :=
  .next (if s.cores[c].phase = .idle ∨ va.toNat / 2 ^ 48 ≠ 0 then s
    else
      let s1 := match s.walkOf c va.toNat with | some w => s.walkGone w | none => s
      match s.walk s.cores[c].ctx.root s.cores[c].ctx.asid va.toNat with
      | .ok l =>
        if !cacheable (s.marked l.leaf l.shift va.toNat) then s1
        else (match s.walkOf c va.toNat with | some w => w.cores.foldl (fun s m => s.handLeaf w l m) s1 | none => s1.fill c va.toNat l)
      | .error (.walk pa t) => s1.logAccess xlMaster.val 1 pa t
      | .error _ => s1)

/-! ### Page-ins (R54, R55) -/

def PageIn.size (x : PageIn) : Nat := 2 ^ x.shift

/-- The frame rings hold frames of 64 KiB and 4 KiB; an absent page of another size takes none (R21, R55). -/
def PageIn.pools (x : PageIn) : Bool := x.shift == 12 || x.shift == 16

/-- The page-in block at its address (R55). -/
def State.pageInBlock (s : State) (x : PageIn) : BitVec 256 := BitVec.ofNat 256 (memNat s.mem x.pib 32)

/-- The block's reserved bits are 0, and the ring sizes are in range. -/
def pibOk (b : BitVec 256) : Bool :=
  fld b 132 28 == 0 && fld b 4 28 == 0 && decide (4 ≤ fld b 128 4) && decide (4 ≤ fld b 0 4) && fld b 192 3 == 0 && fld b 64 3 == 0
  && decide (fld b 128 4 ≤ 15) && decide (fld b 0 4 ≤ 15)

/-- Bit at which the fields of the ring for a page's size begin. -/
def PageIn.ring (x : PageIn) : Nat := if x.shift = 16 then 128 else 0

/-- The frame at HEAD. -/
def State.poolFrame (s : State) (x : PageIn) (b : BitVec 256) : Nat :=
  memNat s.mem (fld b (x.ring + 64) 64 + fld b (x.ring + 48) 16 % 2 ^ fld b x.ring 4 * 8) 8 / x.size * x.size

/-- A request of the pop that an access table refuses: the block is read, its HEAD written, the ring's entry read (R56, R57). -/
def State.popRefusal (s : State) (x : PageIn) (b : BitVec 256) : Option (Nat × Nat × Nat) :=
  let ea := fld b (x.ring + 64) 64 + fld b (x.ring + 48) 16 % 2 ^ fld b x.ring 4 * 8
  match s.refusal xlMaster 1 x.pib 32 with
  | some t => some (1, x.pib, t)
  | none => match s.refusal xlMaster 2 (x.pib + (x.ring + 48) / 8) 2 with
    | some t => some (2, x.pib + (x.ring + 48) / 8, t)
    | none => if fld b (x.ring + 48) 16 = fld b (x.ring + 32) 16 then none else (s.refusal xlMaster 1 ea 8).map (fun t => (1, ea, t))

/-- A page-in changed. -/
def State.modPageIn (s : State) (i : Nat) (f : PageIn → PageIn) : State :=
  { s with trans := { s.trans with pageIns := match s.trans.pageIns[i]? with | some x => s.trans.pageIns.set i (f x) | none => s.trans.pageIns } }

/-- Pops of one region are serialised: an earlier page-in of the block still waits for its frame. -/
def State.popBehind (s : State) (i : Nat) (x : PageIn) : Bool := (s.trans.pageIns.take i).any (fun y => y.pib == x.pib && y.frame.isNone && y.pools)

/-- PAGE_IN_FRAME_POP (R54, R55): the `i`-th page-in pops its frame; from an empty ring it posts POOL_EMPTY and waits. -/
def execPageInFramePop (i : Nat) (s : State) : Out :=
  .next (match s.trans.pageIns[i]? with
    | none => s
    | some x =>
      if x.frame.isSome ∨ !x.pools ∨ s.popBehind i x then s
      else
        let b := s.pageInBlock x
        match s.popRefusal x b with
        | some (k, pa, tg) => s.logAccess xlMaster.val k pa tg
        | none =>
        if !pibOk b then s.log { cls := 0x0B, addr := x.pib, data0 := 1, master := xlMaster.val, cause := 1 }
        else if fld b (x.ring + 48) 16 = fld b (x.ring + 32) 16 then
          (if x.emptied then s else (s.note (.poolEmpty x.pib)).modPageIn i (fun x => { x with emptied := true }))
        else
          let head := fld b (x.ring + 48) 16 + 1
          (s.writeBytes (x.pib + (x.ring + 48) / 8) (natLe 2 head)).modPageIn i (fun y => { y with frame := some (s.poolFrame x b) }))

/-- Lines of a range written as scoped traffic of an agent: at most `k`. -/
def State.putLines (s : State) (key : Nat) : Nat → Nat → List Byte → State
  | 0, _, _ => s
  | k + 1, pa, b =>
    if b.isEmpty then s
    else
      let n := 128 - pa % 128
      State.putLines (s.performScoped key pa (b.take n)).1 key k (pa + n) (b.drop n)

/-- The page can be copied: its backing is not lost, none of it is poisoned, and the access tables let the service read and write (R21, R54). -/
def State.copyOk (s : State) (x : PageIn) (frame : Nat) : Bool :=
  !inLost s.board.lostCxl (pteAddr x.old) && !s.poisoned (pteAddr x.old) x.size && (s.refusal xlMaster 1 (pteAddr x.old) x.size).isNone
  && (s.refusal xlMaster 2 frame x.size).isNone && (s.refusal xlMaster 2 x.leafAddr 8).isNone

/-- The record of a request of the service that a target refuses (R61). -/
def State.logCopyRefusal (s : State) (x : PageIn) (frame : Nat) : State :=
  match s.refusal xlMaster 1 (pteAddr x.old) x.size, s.refusal xlMaster 2 frame x.size, s.refusal xlMaster 2 x.leafAddr 8 with
  | some t, _, _ => s.logAccess xlMaster.val 1 (pteAddr x.old) t
  | none, some t, _ => s.logAccess xlMaster.val 2 frame t
  | none, none, some t => s.logAccess xlMaster.val 2 x.leafAddr t
  | none, none, none => s

/-- What the copy of a page reads through a port, for the function of a region that has the page's ASID (R49, R63). -/
def State.pageAsked (s : State) (x : PageIn) : State :=
  match s.regionIds.find? (fun r => s.effAsid r == x.asid) with
  | some r => s.sendOut (s.region r).func x.asid (pteAddr x.old) x.size false
  | none => s

/-- The descriptor of the invalidation that a page-in makes (R54). -/
def PageIn.inval (x : PageIn) : InvDesc := { kind := 0, asid := x.asid, va := x.va, pages := x.size / 4096, seq := 0, mbx := none }

/-- A write in flight that was translated with an entry that a descriptor covers. -/
def State.drains (s : State) (d : InvDesc) (x : InFlight) : Bool := !x.performed && decide (x.space = .g) && d.covers s.cores[x.core].ctx.asid x.va.toNat 12

/-- The leaf that names the frame. -/
def newLeaf (old : W64) (frame : Nat) : W64 := setFld (setFld (setFld old 62 2 0) 60 1 0) 12 38 (frame / 4096)

/-- A trap that waits for a page. -/
def PageIn.holds (x : PageIn) (asid : Nat) (t : Trap) : Bool := t.cause == 0x21 && asid == x.asid && decide (t.faddr.toNat / x.size = x.va / x.size)

/-- Deferred pages of a core that wait for a page have their outcome (R395). -/
def Core.pageEnded (c : Core) (x : PageIn) (ok : Bool) : Core :=
  if c.ctx.asid ≠ x.asid then c
  else { c with eng := { c.eng with deferred := c.eng.deferred.map (fun d => if d.ended.isNone ∧ d.page.toNat / x.size = x.va / x.size then { d with ended := some ok } else d) } }

/-- The trap of a tier miss whose page-in has failed: PAGE with subcause 5, for the access that missed (R261, R270). -/
def Trap.pageFailed (t : Trap) : Trap := { t with cause := 0x20, d0 := 5 }

/-- The composite record names it. -/
def Core.pageFailed (c : Core) (t : Trap) : Core := { c with trap := { c.trap with composite := rewriteComposite c.trap.composite t.pageFailed c.trap.multi } }

/-- A core whose page-in has failed: its record names the fault, and its step ends unresolved (R270). -/
def State.pageFails (s : State) (n : Fin 128) (t : Trap) : State := (s.modCore n (fun c => c.pageFailed t)).endUnresolved n 0x20

/-- The trap of a core, or of a step saved from it, hears the outcome. -/
def State.coreHears (s : State) (n : Fin 128) (x : PageIn) (ok : Bool) : State :=
  let k := s.cores[n]
  match (if k.phase = .frozen ∧ !k.saving then k.trap.active else none) with
  | some t => if x.holds k.ctx.asid t && k.trap.later.isNone then (if ok then s.setCore n (k.resolved t) else s.pageFails n t) else s
  | none =>
    match s.pendingOn n with
    | some r => (match r.core.trap.active with
        | some t => if x.holds r.core.ctx.asid t && r.core.trap.later.isNone then (if ok then s.resolveSaved r t else (s.putComposite { r with core := r.core.pageFailed t }).faultStep r.stepid 0x20) else s
        | none => s)
    | none => s

/-- A waiter hears the outcome: a success lets it try again, a failure ends what it does as a page fault does. -/
def PageIn.tell (x : PageIn) (ok : Bool) (s : State) : PageWaiter → State
  | .core n => s.coreHears (Fin.ofNat 128 n) x ok
  | .copy n _ => s.modCore (Fin.ofNat 128 n) (fun c => c.pageEnded x ok)
  | .parser p => if ok then s else s.refuse p 0x0D
  | .accept p id => if ok then s else (s.withdraw p id).refuse p 0x0D
  | .work p id => if ok then s else (match s.workOf p id with | some (w, q) => s.stopWork p w q .page | none => s)
  | .stream n => if ok then s else (match s.stream n with | some y => s.releaseFault n y.region 0x0D | none => s)
  | .owed n => if ok then s.settleStream n else s.forgiveStream n
  | .rcb r => if ok then s.writebackRcb r else s
  | .encoder e => if ok then s else s.encoderStops e

/-- The page-in is over: deferred pages of saved steps and every waiter hear of it (R54). -/
def State.endPageIn (s : State) (i : Nat) (x : PageIn) (ok : Bool) : State :=
  let s1 : State := { s with trans := { s.trans with pageIns := s.trans.pageIns.eraseIdx i },
                             sched := { s.sched with records := s.sched.records.map (fun r => { r with core := r.core.pageEnded x ok }) } }
  x.waiters.foldl (x.tell ok) s1

/-- PushPool: firmware has the frame back (R54). -/
def State.returnFrame (s : State) (x : PageIn) : State := match x.frame with | some f => s.note (.frameReturn x.asid f x.size) | none => s

/-- PAGE_IN_COMPLETE (R54): the copy of the `i`-th page-in ends; `ok` says that nothing outside the device made it fail. It waits until the writes
translated with the page's entries have performed, as the drain of its invalidation does (R51). -/
def execPageInComplete (i : Nat) (ok : Bool) (s : State) : Out :=
  .next (match s.trans.pageIns[i]? with
    | none => s
    | some x =>
      match x.frame with
      | none => if x.pools then s else s.endPageIn i x false
      | some f =>
        if !(ok && s.copyOk x f) then ((s.logCopyRefusal x f).returnFrame x).endPageIn i x false
        else if s.fab.inflight.any (s.drains x.inval) then s
        else
          let s0 := (s.pageAsked x).putLines xlKey (x.size / 128 + 2) f (memRead s.mem (pteAddr x.old) x.size)
          -- CompareSwap8 at the leaf's home, which recalls the line
          let s1 := s0.recallLine (x.leafAddr / 128) xlMaster.val
          if memNat s1.mem x.leafAddr 8 = x.old.toNat then
            let s2 := (s1.performScoped xlKey x.leafAddr (natLe 8 (newLeaf x.old f).toNat)).1
            let s3 := s2.forget x.inval
            (s3.note (.pagein x.asid x.va (pteAddr x.old) f)).endPageIn i x true
          else (s1.returnFrame x).endPageIn i x true)

end Sys2Proof.Machine
end

