-- ==== Sys2Proof/Machine/Registers.lean ====
section
/-! DEFINITION. What the host, its functions, the peers and the firmware reach from outside: the BARs (spec/02 R36, R37), the registers
(spec/03 R67 to R70, spec/04 R103, spec/06 R158, spec/07 R197), the mailbox (R71 to R73), invalidations and access-table updates (R50, R51, R59),
the peer window (R65). -/

namespace Sys2Proof.Machine

/-! ### Functions -/

/-- The function whose requests carry a master ID (R56). -/
def masterFunc (m : Fin 256) : Option (Fin 10) :=
  if m.val = 0x90 then some 0 else if m.val = 0x91 then some 9 else if 0x92 ≤ m.val ∧ m.val ≤ 0x99 then some (Fin.ofNat 10 (m.val - 0x91)) else none

/-- The function whose copies of registers a master sees; firmware and the device's own masters see those of function 0. -/
def seenFunc (m : Fin 256) : Fin 10 := (masterFunc m).getD 0

/-- A register that firmware alone reaches (R37, R68). -/
def fwOnly (off : Nat) : Bool := (decide (0x1000 ≤ off) && decide (off < 0x1410)) || (decide (0x100000 ≤ off) && decide (off < 0x130000))

/-- BAR0 of a virtual function shows the pages of 4 KiB that firmware has assigned to it (R36). Its mailbox page lies at 0x80_0000, as R71 says,
just past the 8 MiB that R16 and R36 give the BAR: the sources conflict, and the model lets the function reach it (log 35). -/
def State.vfSees (s : State) (f : Fin 10) (off : Nat) : Bool :=
  (decide (off < 0x800000) || decide (off / 4096 = 0x800)) && (s.fe.vfPages[(Fin.ofNat 8 (f.val - 1) : Fin 8)]).contains (off / 4096)
def State.bar0Sees (s : State) (m : Fin 256) (off : Nat) : Bool := match masterFunc m with | some f => !isVf f || s.vfSees f off | none => true

/-! ### Mailbox slots (R71) -/

/-- Address of slot `k` of a function. -/
def mbxAddr (f : Fin 10) (k : Nat) : Nat := Config.regBase + 0x800000 + 2048 * f.val + 256 * k
/-- Address of an offset of the mailbox as a master sees it: a function sees its own 8 slots, firmware all 80. -/
def mbxByte (m : Fin 256) (off : Nat) : Option Nat :=
  match masterFunc m with
  | some f => if off < 0x800800 then some (mbxAddr f 0 + (off - 0x800000)) else none
  | none => if off < 0x800000 + 80 * 256 then some (Config.regBase + off) else none

/-! ### Reading registers (R5) -/

/-- Half `k` (0 low, 1 high) of a 64-bit pair. -/
def half (x : Nat) (k : Nat) : Nat := bits x (32 * k) 32

/-- SLOTCTL of a slot (R68). -/
def State.slotCtl (s : State) (k : Fin 128) : Nat :=
  let x := s.fe.parsers[k]
  x.unmapping.toNat * 2 ^ 31 + x.queue.isSome.toNat * 2 ^ 29 + (x.queue.getD s.fe.slotQueue[k]) % 4096

/-- Feature bits acknowledged, as they read back: an unpublished bit reads 0, BASE is always acknowledged (R69, R70). -/
def State.featackRead (s : State) (f : Fin 10) : BitVec 256 := (s.fe.featack[f] ||| 1) &&& s.fe.features

/-- A word of the front-end block (R67, R68, R103). -/
def State.feWord (s : State) (m : Fin 256) (off : Nat) : Nat :=
  let f := seenFunc m
  if off = 0 then 0x00010080
  else if 0x10 ≤ off ∧ off < 0x30 then fld s.fe.features (8 * (off - 0x10)) 32
  else if 0x30 ≤ off ∧ off < 0x50 then fld (s.featackRead f) (8 * (off - 0x30)) 32
  else if off = 0x50 ∨ off = 0x54 then half s.fe.qdbase ((off - 0x50) / 4)
  else if off = 0x58 then s.fe.lwbase.toNat
  else if off = 0x60 then s.fe.gated.toNat
  else if off = 0x104 then s.fe.mbxDone[f].toNat
  else if off = 0x200 ∨ off = 0x204 then half s.tb.now.toNat ((off - 0x200) / 4)
  else if off = 0x208 then s.tb.ctl.toNat
  else if off = 0x20C then s.tb.stat.toNat
  else if off = 0x210 then s.tb.offset.toNat
  else if off = 0x214 then s.tb.steps.toNat
  else if 0x1000 ≤ off ∧ off < 0x1200 then s.slotCtl (Fin.ofNat 128 ((off - 0x1000) / 4))
  else if 0x1400 ≤ off ∧ off < 0x1410 then fld s.fe.unmapDone (8 * (off - 0x1400)) 32
  else 0

/-- A word of the translation, access-table and peer blocks (R37). -/
def State.transWord (s : State) (off : Nat) : Nat :=
  let t := s.trans
  if off = 0x100020 then 64 - min 64 t.queue.length
  else if off = 0x100028 ∨ off = 0x10002C then half t.invAcc.toNat ((off - 0x100028) / 4)
  else if off = 0x100030 ∨ off = 0x100034 then half t.invDone.toNat ((off - 0x100030) / 4)
  else if off = 0x100038 then t.invIrq.toNat
  else if off = 0x110000 ∨ off = 0x110004 then half t.atupdAddr.toNat ((off - 0x110000) / 4)
  else if off = 0x110010 then t.atDone.toNat
  else if off = 0x110014 then 16 - min 16 t.atQueue.length
  else if off = 0x120000 then t.domainSelf.toNat
  else if 0x120100 ≤ off ∧ off < 0x120200 then fld t.peers[(Fin.ofNat 16 ((off - 0x120100) / 16) : Fin 16)] (8 * (off % 16)) 32
  else if 0x121000 ≤ off ∧ off < 0x121400 then fld t.exports[(Fin.ofNat 64 ((off - 0x121000) / 16) : Fin 64)] (8 * (off % 16)) 32
  else 0

/-- A word of the RAS block (R158). -/
def State.rasWord (s : State) (off : Nat) : Nat :=
  let r := s.ras
  match off - 0x200000 with
  | 0x00 => half r.elogBase 0
  | 0x04 => half r.elogBase 1
  | 0x08 => r.elogLog2
  | 0x0C => r.elogSeq.toNat
  | 0x10 => r.scrubCtl.toNat
  | 0x14 => r.scrubPass.toNat
  | 0x20 => r.crCtl.toNat
  | 0x24 => r.crSeed.toNat
  | 0x28 => r.crSampled.toNat
  | 0x2C => r.crMatch.toNat
  | 0x30 => r.crMismatch.toNat
  | 0x34 => r.crDropped.toNat
  | _ => 0

/-- The tile-step record of the step on a core, or of the last one (R139). -/
def State.stepRecord (s : State) (n : Fin 128) : BitVec 512 :=
  match s.stepOn n with | some t => s.recordBits t t.state 0 | none => s.cores[n].stepRec

/-- The status page of a core as a number of 768 bytes (R197). -/
def State.statusPage (s : State) (n : Fin 128) : Nat :=
  let c := s.cores[n]
  let fields := if c.phase = .frozen ∨ c.phase = .trapStrand then c.shown else c.liveFields
  c.mbx.toNat + (s.stepRecord n).toNat * 2 ^ 512 + fields.toNat * 2 ^ 1024 + c.trap.composite.toNat * 2 ^ 4096

/-- A word of a status page. -/
def State.statusWord (s : State) (off : Nat) : Nat :=
  let n : Fin 128 := Fin.ofNat 128 ((off - 0x1000000) / 65536)
  let o := off % 65536
  if o < 768 then bits (s.statusPage n) (8 * o) 32 else 0

/-- The 32-bit word of BAR0 at an offset, as a master reads it (R36, R37); reserved offsets and registers out of its reach read 0. -/
def State.regWord (s : State) (m : Fin 256) (off : Nat) : Nat :=
  if !s.bar0Sees m off ∨ (fwOnly off ∧ m ≠ fwMaster) then 0
  else if off < 0x100000 then s.feWord m off
  else if off < 0x130000 then s.transWord off
  else if 0x200000 ≤ off ∧ off < 0x300000 then s.rasWord off
  else if 0x800000 ≤ off ∧ off < 0x1000000 then (match mbxByte m off with | some a => memNat s.mem a 4 | none => 0)
  else if 0x1000000 ≤ off ∧ off < 0x1800000 then s.statusWord off
  else 0

/-- What a read does besides: MBX_DONE and TB_STEPS are cleared (R5, R67, R103). -/
def State.regTouch (s : State) (m : Fin 256) (off : Nat) : State :=
  if off = 0x104 then { s with fe := { s.fe with mbxDone := s.fe.mbxDone.set (seenFunc m) 0 } }
  else if off = 0x214 then { s with tb := { s.tb with steps := 0 } }
  else s

/-- Offsets of the words that a range of bytes touches. -/
def regOffsets (off len : Nat) : List Nat := (List.range ((off + len + 3) / 4 - off / 4)).map (fun k => (off / 4 + k) * 4)

/-- Bytes read from BAR0. -/
def State.regRead (s : State) (m : Fin 256) (off len : Nat) : List Byte × State :=
  let l := regOffsets off len
  (((l.flatMap (fun o => natLe 4 (s.regWord m o))).drop (off % 4)).take len, l.foldl (fun s o => s.regTouch m o) s)

/-! ### Invalidations (R50, R51) -/

/-- The fields of a descriptor. -/
def invDesc (d : BitVec 256) (mbx : Option Nat) : InvDesc :=
  { kind := fld d 0 4, asid := fld d 16 12, va := fld d 76 36 * 4096, pages := fld d 128 32, seq := fld d 192 64, mbx := mbx }

/-- A descriptor is refused (R50, R6): a reserved field or KIND, no pages, a SEQ that is not above the previous one. -/
def State.invBad (s : State) (d : BitVec 256) : Bool :=
  fld d 4 12 != 0 || fld d 28 48 != 0 || fld d 112 16 != 0 || fld d 160 32 != 0 || decide (2 < fld d 0 4) || (fld d 0 4 == 0 && fld d 128 32 == 0)
  || decide (fld d 192 64 < s.trans.nextSeq)

/-- A descriptor taken into the queue. -/
def State.invTake (s : State) (d : BitVec 256) (mbx : Option Nat) : State :=
  { s with trans := { s.trans with queue := s.trans.queue ++ [invDesc d mbx], nextSeq := fld d 192 64 + 1 } }

/-- A submission, an update or a write that is ignored, recorded under class ACCESS (R37). -/
def State.ignored (s : State) (m : Fin 256) (off cause : Nat) : State :=
  s.log { cls := 0x0B, addr := Config.regBase + off, data0 := 2, master := m.val, target := 0x40, cause := cause, unit := m.val }

/-- The SEQ dword of INVQ is written (R37). -/
def State.invSubmit (s : State) (m : Fin 256) (seq : W64) : State :=
  if m ≠ fwMaster then s.ignored m 0x100018 0
  else
    let d := setFld s.trans.invq 192 64 seq.toNat
    let s1 : State := { s with trans := { s.trans with invq := d } }
    if 64 ≤ s.trans.queue.length then s1.ignored m 0x100018 0
    else if s.invBad d then s1.ignored m 0x100018 1
    else s1.invTake d none

/-- INVQ_SUBMIT (R37). -/
def execInvqSubmit (m : Fin 256) (seq : BitVec 64) (s : State) : Out := .next (s.invSubmit m seq)

/-! ### Completion of mailbox commands (R71) -/

/-- Firmware completes a slot: STATUS, the result, the DONE bit, MSI-X vector 0. -/
def State.mbxEnd (s : State) (f : Fin 10) (k : Fin 8) (status : Nat) (result : List Byte) : State :=
  let a := mbxAddr f k.val
  let s1 := (s.writeBytes (a + 1) [BitVec.ofNat 8 status]).writeBytes (a + 128) result
  let s2 : State := { s1 with fe := { s1.fe with mbxDone := s1.fe.mbxDone.set f (setFld s1.fe.mbxDone[f] k.val 1 1), mbxRung := s1.fe.mbxRung.set f (setFld s1.fe.mbxRung[f] k.val 1 0) } }
  s2.msix f.val 0
def State.mbxDoneWith (s : State) (f : Fin 10) (k : Fin 8) (result : List Byte) : State := s.mbxEnd f k 1 result
def State.mbxRefuse (s : State) (f : Fin 10) (k : Fin 8) (cause : Nat) : State := s.mbxEnd f k 2 [BitVec.ofNat 8 cause]
/-- BUSY: the host tries again later. -/
def State.mbxBusy (s : State) (f : Fin 10) (k : Fin 8) : State := s.mbxEnd f k 3 [0x14]

/-- INVALIDATION_ACCEPT (R51 phase 1). -/
def execInvalidationAccept (s : State) : Out :=
  .next (match s.trans.queue with
    | [] => s
    | d :: t =>
      let s1 : State := { s with trans := { s.trans with queue := t, accepted := s.trans.accepted ++ [d], invAcc := BitVec.ofNat 64 d.seq } }
      let s2 := s1.forget d
      match d.mbx with
      | some k => s2.mbxDoneWith (Fin.ofNat 10 (k / 8)) (Fin.ofNat 8 k) (natLe 8 d.seq)
      | none => s2)

/-- INVALIDATION_COMPLETE (R51 phases 2 and 3): every access translated with a covered entry has performed. -/
def execInvalidationComplete (s : State) : Out :=
  .next (match s.trans.accepted with
    | [] => s
    | d :: t =>
      if s.fab.inflight.any (s.drains d) then s
      else
        let s1 : State := { s with trans := { s.trans with accepted := t, invDone := BitVec.ofNat 64 d.seq } }
        if fld s.trans.invIrq 0 1 = 1 then s1.note .fwIrq else s1)

/-- ATS_INVALIDATE_REQUEST (R49, R51): the writes that leave through a port perform, in order (R228), those that used a cached translation of the
range among them; the translations of the range go, and the completion is sent. -/
def execAtsInvalidateRequest (f : Fin 10) (base len : Nat) (s : State) : Out :=
  let inRange (p : Nat) : Bool := decide (p * 4096 < base + len) && decide (base < p * 4096 + 4096)
  let s1 := (List.range s.fab.inflight.length).foldl (fun s i => match s.fab.inflight[i]? with
    | some x => if x.outward then s.performInFlight i else s
    | none => s) s
  let s2 : State := { s1 with trans := { s1.trans with ats := s1.trans.ats.filter (fun e => !(e.func == f.val && inRange e.page)) } }
  onlyIf (s.funcOn f && s.trans.atsEnable[f]) s (s2.note (.atsComplete f.val))

/-! ### Access-table updates (R59) -/

/-- ATUPD is written (R37). -/
def State.atSubmit (s : State) (m : Fin 256) (v : W64) : State :=
  if m ≠ fwMaster then s.ignored m 0x110008 0
  else if 16 ≤ s.trans.atQueue.length then s.ignored m 0x110008 0
  else { s with trans := { s.trans with atQueue := s.trans.atQueue ++ [{ master := Fin.ofNat 256 (fld v 0 8), addr := s.trans.atupdAddr.toNat, seq := BitVec.ofNat 32 (fld v 32 32), loaded := [], wins := Vector.replicate 8 0 }] } }

/-- ATUPD (R59). -/
def execAtupd (m : Fin 256) (v : BitVec 64) (s : State) : Out := .next (s.atSubmit m v)

/-- The record of an update: 8 windows (R58). -/
def State.windowRec (s : State) (u : AtUpd) : Vector (BitVec 128) 8 := Vector.ofFn (fun i => BitVec.ofNat 128 (memNat s.mem (u.addr + 16 * i.val) 16))

/-- A window has a reserved bit set. -/
def windowBad (w : BitVec 128) : Bool := fld w 64 30 != 0 || fld w 4 26 != 0

/-- Some request of a master that passed under its old windows has not performed. -/
def State.oldRequests (s : State) (m : Fin 256) : Bool := s.fab.inflight.any (fun x => !x.performed && x.core.val == m.val)

/-- Every target that holds an access table (R57, R160). -/
def allTargets : List Nat := (List.range 24).map (· + 1) ++ (List.range 16).map (· + 0x20) ++ [0x30, 0x31, 0x38, 0x39, 0x40, 0x41]

/-- The oldest update changed. -/
def State.modUpd (s : State) (f : AtUpd → AtUpd) : State :=
  { s with trans := { s.trans with atQueue := match s.trans.atQueue with | u :: t => f u :: t | [] => [] } }

/-- Why the record of an update is not read: an access table refuses firmware, or it lies at an unbacked address (R34, R57). -/
def State.recStop (s : State) (u : AtUpd) : Option Nat := if u.loaded.isEmpty then s.refusal fwMaster 1 u.addr 128 else none

/-- A target loads the oldest update: from then on it checks the master's requests against the new windows (R59). -/
def State.targetLoads (s : State) (target : Nat) : State :=
  match s.trans.atQueue with
  | [] => s
  | u :: _ =>
    let w := if u.loaded.isEmpty then s.windowRec u else u.wins
    if w.toList.any windowBad ∨ u.loaded.contains target ∨ (s.recStop u).isSome then s else s.modUpd (fun u => { u with loaded := u.loaded ++ [target], wins := w })

/-- ATUPD_DONE (R59): every target that has not yet loaded the oldest update does; it is done once the requests that passed under the old windows
have performed. A record with a reserved bit, or one that cannot be read, is refused and logged. -/
def execAtupdDone (s : State) : Out :=
  .next (match s.trans.atQueue with
    | [] => s
    | u :: t =>
      let w := if u.loaded.isEmpty then s.windowRec u else u.wins
      let gone : State := { s with trans := { s.trans with atQueue := t } }
      match s.recStop u with
      | some x => gone.logAccess fwMaster.val 1 u.addr x
      | none =>
      if w.toList.any windowBad then
        gone.log { cls := 0x0B, addr := u.addr, data0 := 2, master := u.master.val, target := 0x40, cause := 1, unit := 0x8C }
      else if s.oldRequests u.master then s.modUpd (fun u => { u with loaded := allTargets, wins := w })
      else
        let s2 := gone.setWindows u.master.val w
        { s2 with trans := { s2.trans with atDone := u.seq } })

/-! ### Mailbox commands (R72, R73) -/

/-- OP, STATUS of a slot. -/
def State.mbxOp (s : State) (f : Fin 10) (k : Nat) : Nat := memNat s.mem (mbxAddr f k) 1
def State.mbxStatus (s : State) (f : Fin 10) (k : Nat) : Nat := memNat s.mem (mbxAddr f k + 1) 1

/-- The doorbell (R71): ignored for a slot whose STATUS is not 0; an OP that no command has is refused (R72). -/
def State.doorbell (s : State) (f : Fin 10) (v : Nat) : State :=
  let k : Fin 8 := Fin.ofNat 8 v
  if s.mbxStatus f k.val ≠ 0 then s
  else
    let s1 : State := { s with fe := { s.fe with mbxRung := s.fe.mbxRung.set f (setFld s.fe.mbxRung[f] k.val 1 1) } }
    if s.mbxOp f k.val = 0 ∨ 6 < s.mbxOp f k.val then s1.mbxRefuse f k 0x05 else s1

/-- A doorbell asks for command `op` in a slot, and nothing has answered it yet. -/
def State.asked (s : State) (f : Fin 10) (k : Fin 8) (op : Nat) : Bool :=
  fld s.fe.mbxRung[f] k.val 1 == 1 && s.mbxOp f k.val == op && s.mbxStatus f k.val == 0

/-- Argument bytes of a slot as a number, little-endian. -/
def State.mbxArg (s : State) (f : Fin 10) (k : Fin 8) (at' n : Nat) : Nat := memNat s.mem (mbxAddr f k.val + at') n

/-- Bytes `at'` to 127 are zero. -/
def State.mbxClear (s : State) (f : Fin 10) (k : Fin 8) (at' : Nat) : Bool := s.mbxArg f k at' (128 - at') == 0

/-- A command: refused with a cause, or carried out. -/
def State.command (s : State) (f : Fin 10) (k : Fin 8) (op : Nat) (cause : Option Nat) (eff : State → State) : Out :=
  .next (if s.asked f k op then (match cause with | some c => s.mbxRefuse f k c | none => eff s) else s)

/-- The first cause of a list of cases. -/
def firstCause : List (Bool × Nat) → Option Nat
  | [] => none
  | (b, c) :: t => if b then some c else firstCause t

/-- The lowest queue number that is not registered. -/
def State.freeQueue (s : State) : Option Nat := (List.range 4096).find? (fun q => qdState (s.qd q) == 0)

/-- A descriptor as QUEUE_REG fills it (R74, R76). -/
def newQd (f : Fin 10) (ring rlog flags region errvec : Nat) : BitVec 2048 :=
  BitVec.ofNat 2048 (ring % 2 ^ 64 + region % 2 ^ 12 * 2 ^ 128 + rlog % 2 ^ 4 * 2 ^ 140 + (if f.val = 9 then 2 ^ 148 else f.val * 2 ^ 144) + flags % 2 * 2 ^ 150
    + flags / 2 % 2 * 2 ^ 151 + 2 ^ 152 + errvec % 2 ^ 6 * 2 ^ 160 + 0xFF * 2 ^ 168)

/-- QUEUE_REG (R72, R76). -/
def execQueueReg (f : Fin 10) (slot : Fin 8) (s : State) : Out :=
  let ring := s.mbxArg f slot 8 8
  let rlog := s.mbxArg f slot 16 1
  let flags := s.mbxArg f slot 17 1
  let region := s.mbxArg f slot 18 2
  let errvec := s.mbxArg f slot 20 1
  let priv := flags % 2 == 1
  let devq := flags / 2 % 2 == 1
  s.command f slot 1 (firstCause [
      (decide (4 ≤ flags) || decide (4096 ≤ region) || decide (64 ≤ errvec) || !s.mbxClear f slot 21, 0x01),
      (priv && isVf f, 0x09),
      (devq && fld (s.features f.val) 6 1 == 0, 0x03),
      (devq && priv, 0x05),
      (decide (15 < rlog) || (isVf f && decide (8 ≤ errvec)), 0x05),
      (decide (ring % (2 ^ (rlog + 4) * 64) ≠ 0), 0x04),
      (devq && decide (s.usableTop < ring + 2 ^ (rlog + 4) * 64), 0x05),
      (!s.owns f.val region, 0x0A)]) (fun s =>
    match s.freeQueue with
    | none => s.mbxBusy f slot
    | some q =>
      let s1 := s.modQd q (fun _ => newQd f ring rlog flags region errvec)
      let s2 : State := { s1 with fe := { s1.fe with registered := s1.fe.registered.set f true } }
      (s2.noteRunnable q).mbxDoneWith f slot (natLe 2 q))

/-- Causes that QUEUE_UNREG and QUEUE_RESET share: bits that must be zero, a queue that the function did not register. -/
def State.notMine (s : State) (f : Fin 10) (q : Nat) : Bool := qdState (s.qd (q % 4096)) == 0 || qdFunc (s.qd (q % 4096)) != f.val

/-- QUEUE_UNREG (R72, R76). -/
def execQueueUnreg (f : Fin 10) (slot : Fin 8) (s : State) : Out :=
  let q := s.mbxArg f slot 8 2
  s.command f slot 2 (firstCause [(decide (4096 ≤ q) || !s.mbxClear f slot 10, 0x01), (s.notMine f q, 0x0A)])
    (fun s => (s.unregQueue q).mbxDoneWith f slot [])

/-- QUEUE_RESET (R72, R76). -/
def execQueueReset (f : Fin 10) (slot : Fin 8) (s : State) : Out :=
  let q := s.mbxArg f slot 8 2
  let rptr := s.mbxArg f slot 12 4
  s.command f slot 3 (firstCause [(decide (4096 ≤ q) || s.mbxArg f slot 10 2 != 0 || !s.mbxClear f slot 16, 0x01), (s.notMine f q, 0x0A), (qdState (s.qd q) != 4, 0x05)])
    (fun s =>
      let s1 := s.modQd q (fun d => setFld (setFld (setFld (setFld (setFld d 96 32 rptr) 152 3 1) 168 8 0xFF) 1024 832 0) 1856 161 0)
      let s2 : State := { s1 with fe := { s1.fe with kept := sset Kept.none s1.fe.kept q { Kept.none with rels := (sget Kept.none s1.fe.kept q).rels } } }
      (s2.noteRunnable q).mbxDoneWith f slot [])

/-- INVALIDATE (R72, R50): the descriptor is submitted; the command completes when it is accepted. -/
def execInvalidate (f : Fin 10) (slot : Fin 8) (s : State) : Out :=
  let d : BitVec 256 := BitVec.ofNat 256 (s.mbxArg f slot 8 32)
  let id := 8 * f.val + slot.val
  if s.trans.queue.any (fun x => x.mbx == some id) then .next s
  else if s.asked f slot 4 ∧ s.invBad d then
    .next ((s.log { cls := 0x0B, addr := mbxAddr f slot.val + 8, data0 := 2, master := (funcMaster f).val, target := 0x40, cause := 1, unit := (funcMaster f).val }).mbxRefuse f slot 0x01)
  else s.command f slot 4 (firstCause [(!s.mbxClear f slot 40, 0x01)])
    (fun s => if 64 ≤ s.trans.queue.length then s.mbxBusy f slot else s.invTake d (some id))

/-- The report's bytes that are signed (R73). -/
def State.reportHead (s : State) (nonce : List Byte) (total : Nat) : List Byte :=
  let b := s.board
  natLe 4 0x41545347 ++ natLe 4 total ++ natLe 4 b.runVersion ++ natLe 4 b.minVersion ++ natLe 32 b.meas.toNat ++ nonce
    ++ natLe 4 b.blob.digests.length ++ natLe 4 0 ++ b.blob.digests.flatMap (fun d => natLe 32 d.toNat)

/-- The attestation report (R30, R73; log 14). -/
def State.report (s : State) (nonce : List Byte) : List Byte :=
  let cert := Config.aliasCert s.board.meas
  let head := s.reportHead nonce (152 + 32 * s.board.blob.digests.length + cert.length)
  head ++ natLe 64 (Config.aliasSign s.board.meas (natLe 32 (Config.sha256 head).toNat)).toNat ++ cert

/-- Firmware writes a buffer at a physical address, or the command is refused (log 42). -/
def State.mbxBuffer (s : State) (f : Fin 10) (k : Fin 8) (pa : Nat) (b : List Byte) (result : List Byte) : State :=
  match s.refusal fwMaster 2 pa b.length with
  | some t => (s.logAccess fwMaster.val 2 pa t).mbxRefuse f k 0x0E
  | none => (s.putLines xlKey (b.length / 128 + 2) pa b).mbxDoneWith f k result

/-- ATTEST (R72, R73). -/
def execAttest (f : Fin 10) (slot : Fin 8) (s : State) : Out :=
  let r := s.report (memRead s.mem (mbxAddr f slot.val + 8) 32)
  s.command f slot 5 (firstCause [(!s.mbxClear f slot 48, 0x01), (fld (s.features f.val) 8 1 == 0, 0x03)])
    (fun s => s.mbxBuffer f slot (s.mbxArg f slot 40 8) r (natLe 4 r.length))

/-- Every count of a lifetime record, in one list (R171). -/
def LifeCounts.all (l : LifeCounts) : List Nat :=
  l.counters.toList ++ [l.unclean] ++ l.widths.toList.flatMap Vector.toList ++ l.monitors.toList.flatMap Vector.toList ++ l.corrected.toList.flatMap Vector.toList
    ++ l.rollback.toList ++ l.cruise.toList

/-- A lifetime record of 4 KiB (R32; log 11, 14): the sequence number, the payload, the CRC-32 and the MAC. The payload holds the present
counts; its layout is not the spec's. -/
def State.lifeBytes (s : State) : List Byte :=
  let body := natLe 8 s.board.lifeSeq ++ (List.range 4052).map (Config.lifetimePayload s.board.life.all)
  let sealed := body ++ natLe 4 (Config.crc32 body).toNat
  sealed ++ natLe 32 (Config.pufMac sealed).toNat

/-- LIFETIME (R72, R171). -/
def execLifetime (f : Fin 10) (slot : Fin 8) (s : State) : Out :=
  let pa := s.mbxArg f slot 8 8
  s.command f slot 6 (firstCause [(!s.mbxClear f slot 16, 0x01), (isVf f, 0x09), (decide (pa % 4096 ≠ 0), 0x04)])
    (fun s => s.mbxBuffer f slot pa s.lifeBytes (natLe 8 s.board.lifeSeq ++ natLe 4 4096))

/-! ### Writing registers (R5, R6) -/

/-- FEATACK is written: ignored and logged once the function has registered a queue (R70). -/
def State.featackSet (s : State) (f : Fin 10) (w : Nat) (v : Nat) : State :=
  if s.fe.registered[f] then s.ignored (funcMaster f) (0x30 + 4 * w) 0
  else { s with fe := { s.fe with featack := s.fe.featack.set f (setFld s.fe.featack[f] (32 * w) 32 v) } }

/-- FEATACK_WRITE (R70). -/
def execFeatackWrite (f : Fin 10) (w : Fin 8) (v : BitVec 32) (s : State) : Out := onlyIf (s.funcOn f) s (s.featackSet f w.val v.toNat)

/-- MBX_DONE_READ (R67). -/
def execMbxDoneRead (f : Fin 10) (s : State) : Out :=
  onlyIf (s.funcOn f) s ((s.regTouch (funcMaster f) 0x104).note (.data f.val (some (natLe 4 s.fe.mbxDone[f].toNat)) false))

/-- SLOTCTL is written by firmware (R68). -/
def State.slotCtlSet (s : State) (k : Fin 128) (v : Nat) : State :=
  let q := bits v 0 12
  if bits v 31 1 = 1 ∧ bits v 30 1 = 1 then s.logQueue (s.fe.parsers[k].queue.getD q) 0
  else if bits v 30 1 = 1 then
    (if s.fe.parsers[k].queue.isSome ∨ qdState (s.qd q) ≠ 1 then s.mapSlot k q
     else State.mapSlot { s with fe := { s.fe with slotQueue := s.fe.slotQueue.set k q } } k q)
  else if bits v 31 1 = 1 then s.unmapSlot k
  else { s with fe := { s.fe with slotQueue := s.fe.slotQueue.set k q } }

/-- A write to a word of the front-end block. -/
def State.feSet (s : State) (m : Fin 256) (off v : Nat) : State :=
  let f := seenFunc m
  if 0x30 ≤ off ∧ off < 0x50 then s.featackSet f ((off - 0x30) / 4) v
  else if off = 0x58 then { s with fe := { s.fe with lwbase := BitVec.ofNat 32 (bits v 23 4 * 2 ^ 23) } }
  else if off = 0x100 then s.doorbell f v
  else if off = 0x208 then { s with tb := s.tb.setCtl v }
  else if 0x1000 ≤ off ∧ off < 0x1200 then s.slotCtlSet (Fin.ofNat 128 ((off - 0x1000) / 4)) v
  else if 0x1400 ≤ off ∧ off < 0x1410 then
    let lo := 8 * (off - 0x1400)
    { s with fe := { s.fe with unmapDone := setFld s.fe.unmapDone lo 32 (fld s.fe.unmapDone lo 32 &&& (2 ^ 32 - 1 - v % 2 ^ 32)) } }
  else s

/-- Fields of peer and export entries that a write sets (R62, R64). -/
def peerMask : BitVec 128 := BitVec.ofNat 128 ((2 ^ 45 - 1) * 2 ^ 83 + 3)
def exportMask : BitVec 128 := BitVec.ofNat 128 ((2 ^ 64 - 1) * 2 ^ 64 + 7)

/-- A write of `n` bits at a byte offset of a 16-byte entry, reserved bits kept 0. -/
def entrySet (old mask : BitVec 128) (at' n v : Nat) : BitVec 128 := setFld old (8 * at') n v &&& mask

/-- A write to a register of the translation, access-table and peer blocks by firmware: a dword where the offset is a multiple of 8 (R37). -/
def State.transSet (s : State) (off : Nat) (v : W64) : State :=
  let t := s.trans
  let n := if off % 8 = 0 then 64 else 32
  if off < 0x100018 then { s with trans := { t with invq := setFld t.invq (8 * (off - 0x100000)) n v.toNat } }
  else if off = 0x100018 then s.invSubmit fwMaster v
  else if off = 0x10001C then { s with trans := { t with invq := setFld t.invq 224 32 v.toNat } }
  else if off = 0x100038 then { s with trans := { t with invIrq := BitVec.ofNat 32 (fld v 0 1) } }
  else if off = 0x110000 ∨ off = 0x110004 then { s with trans := { t with atupdAddr := setFld (setFld t.atupdAddr (8 * (off - 0x110000)) n v.toNat) 0 7 0 } }
  else if off = 0x110008 then s.atSubmit fwMaster v
  else if off = 0x120000 then { s with trans := { t with domainSelf := BitVec.ofNat 32 (fld v 0 4) } }
  else if 0x120100 ≤ off ∧ off < 0x120200 then
    let p : Fin 16 := Fin.ofNat 16 ((off - 0x120100) / 16)
    { s with trans := { t with peers := t.peers.set p (entrySet t.peers[p] peerMask (off % 16) n v.toNat) } }
  else if 0x121000 ≤ off ∧ off < 0x121400 then
    let x : Fin 64 := Fin.ofNat 64 ((off - 0x121000) / 16)
    let e := entrySet t.exports[x] exportMask (off % 16) n v.toNat
    if 8191 < fld e 64 14 then s.ignored fwMaster off 5 else { s with trans := { t with exports := t.exports.set x e } }
  else s

/-- A write to a word of the RAS block, by the physical function of port 0 or firmware (R158). -/
def State.rasSet (s : State) (off v : Nat) : State :=
  let r := s.ras
  match off - 0x200000 with
  | 0x10 =>
    let p := bits v 0 16
    { s with ras := { r with scrubCtl := BitVec.ofNat 32 (bits v 16 1 * 2 ^ 16 + if 1 ≤ p ∧ p ≤ 720 then p else fld r.scrubCtl 0 16) } }
  | 0x20 => if 20 < bits v 0 5 then s else { s with ras := { r with crCtl := BitVec.ofNat 32 (bits v 8 1 * 2 ^ 8 + bits v 0 5) } }
  | 0x24 => { s with ras := { r with crSeed := BitVec.ofNat 32 v } }
  | _ => s

/-- A write of one register at an offset that is a multiple of 4; `v` gives 64 bits to a register that is a pair. -/
def State.regSet (s : State) (m : Fin 256) (off : Nat) (v : W64) : State :=
  if !s.bar0Sees m off then s
  else if fwOnly off ∧ m ≠ fwMaster then s.ignored m off 0
  else if off < 0x100000 then s.feSet m off (fld v 0 32)
  else if off < 0x130000 then s.transSet off v
  else if 0x200000 ≤ off ∧ off < 0x300000 then (if m = 0x90 ∨ m = fwMaster then s.rasSet off (fld v 0 32) else s)
  else s

/-- Bytes of a mailbox slot written one by one; the reserved bytes 2 and 3 of a header keep 0 (R6, R71). -/
def State.mbxPut (s : State) (m : Fin 256) : Nat → List Byte → State
  | _, [] => s
  | off, b :: t =>
    let s1 := match mbxByte m off with | some a => if off % 256 = 2 ∨ off % 256 = 3 then s else s.writeBytes a [b] | none => s
    State.mbxPut s1 m (off + 1) t

/-- A word of BAR0 with some of its bytes replaced. -/
def mergeWord (old off len : Nat) (data : List Byte) (o : Nat) : Nat :=
  leNat ((List.range 4).map (fun k => if off ≤ o + k ∧ o + k < off + len then data.getD (o + k - off) 0 else BitVec.ofNat 8 (old / 2 ^ (8 * k))))

/-- Bytes written to BAR0: mailbox slots take bytes, registers words (log 40). -/
def State.regWrite (s : State) (m : Fin 256) (off : Nat) (data : List Byte) : State :=
  if 0x800000 ≤ off ∧ off < 0x1000000 then (if s.bar0Sees m off then s.mbxPut m off data else s)
  else (regOffsets off data.length).foldl (fun s o => s.regSet m o (BitVec.ofNat 64 (mergeWord (s.regWord m o) off data.length data o))) s

/-- REGISTER_WRITE (R5): by a master whose windows let it write the register blocks. -/
def execRegisterWrite (m : Fin 256) (off : Nat) (v : BitVec 64) (s : State) : Out :=
  let o := off / 4 * 4
  .next (if Config.regSize ≤ o then s
    else match s.refusal m 2 (Config.regBase + o) 4 with
      | some t => s.logAccess m.val 2 (Config.regBase + o) t
      | none => if 0x800000 ≤ o ∧ o < 0x1000000 then s.regWrite m o (natLe 4 v.toNat) else s.regSet m o v)

/-! ### Host requests (R36, R17, R228, R229) -/

/-- Where an inbound request of a function lands. -/
inductive Landing where
  | regs (off : Nat)
  | notify (q : Nat)
  | qdesc (q at' : Nat)
  | mem (pa : Nat)
  /-- Reserved: reads return zero, writes are ignored. -/
  | void
  /-- The peer window: the pair of port and Requester ID names no peer (R65). -/
  | peer
  /-- Unsupported Request; `log` where firmware records it (R17). -/
  | unsupported (log : Bool)
deriving DecidableEq, Repr

/-- A queue of BAR2 as a function reaches it: through the port and, for a virtual function, by its own registration only (R17, R36). -/
def State.queueLanding (s : State) (f : Fin 10) (q : Nat) (x : Landing) : Landing :=
  let d := s.qd q
  if qdState d = 0 then (if isVf f then .void else x)
  else if fld d 148 1 ≠ (funcPort f).val then .unsupported true
  else if isVf f ∧ qdFunc d ≠ f.val then .void else x

/-- The BAR map (R36). -/
def State.landing (s : State) (f : Fin 10) (bar : Bar) (off : Nat) : Landing :=
  match bar with
  | .bar0 => if isVf f ∧ !s.vfSees f off then .void else if Config.regSize ≤ off then .void else .regs off
  | .bar2 =>
    if off < 0x100000 then s.queueLanding f (off / 256) (.notify (off / 256))
    else if off < 0x200000 then s.queueLanding f ((off - 0x100000) / 256) (.qdesc ((off - 0x100000) / 256) (off % 256))
    else if 0x800000 ≤ off ∧ off < 0x1000000 ∧ !isVf f then .mem (Config.landingBase + s.fe.lwbase.toNat + (off - 0x800000))
    else .void
  | .bar4 =>
    if isVf f then .unsupported false
    else if off < 0x3000000000 then (if off < s.usableTop then .mem off else .unsupported false)
    else if off < 0x3008000000 then .mem (Config.landingBase + (off - 0x3000000000))
    else if 0x3800000000 ≤ off ∧ off < 0x4000000000 then .peer
    else .void

/-- The lines that a request reads or writes leave the crew caches (R228). -/
def State.recall (s : State) (pa len : Nat) (m : Nat) : State :=
  (List.range ((pa + len + 127) / 128 - pa / 128)).foldl (fun s k =>
    (List.range 16).foldl (fun s crew => s.writeBack crew (pa / 128 + k) m) s) s

/-- The record of the poison that a read from outside meets (R159). -/
def State.logOutside (s : State) (m : Nat) (pa len : Nat) : State :=
  match s.badGranule [(pa, len)] with
  | some g => s.logDemand m g 0 0
  | none => s

/-- A posted write from outside: its lines leave the crew caches, it takes the port's clock, and it carries a release of the port, so that a strand which
has seen it and acquires at entry 15 sees what the port posted before it (R229; log 20). -/
def State.posted (s : State) (port : Fin 2) (m : Nat) (pa : Nat) (b : List Byte) : State :=
  let s1 := (s.recall pa b.length m).putLines (portKey port) (b.length / 128 + 2) pa b
  s1.carryRels pa b.length [{ agent := portKey port, cores := BitVec.allOnes 128, all := true, stamp := sget 0 s1.fab.eclock (portKey port) }]

/-- A completion with data for a function. -/
def State.complete (s : State) (f : Fin 10) (b : Option (List Byte)) (poison : Bool) : State := s.note (.data f.val b poison)

/-- HOST_INBOUND_READ (R228). -/
def execHostInboundRead (f : Fin 10) (bar : Bar) (off len : Nat) (s : State) : Out :=
  let m := funcMaster f
  .next (if !s.funcOn f then s
    else if s.board.d3hot[funcPort f] ∧ !isVf f then s.complete f none false
    else match s.landing f bar off with
      | .regs o =>
        (match s.refusal m 1 (Config.regBase + o) len with
          | some t => (s.logAccess m.val 1 (Config.regBase + o) t).complete f none false
          | none => let r := s.regRead m o len; r.2.complete f (some r.1) false)
      | .notify _ => s.complete f (some (List.replicate len 0)) false
      | .qdesc q a => (s.logOutside m.val (s.qdAddr q + a) len).complete f (some (slice (natLe 256 (s.qd q).toNat) a len)) (s.poisoned (s.qdAddr q + a) len)
      | .mem pa =>
        (match s.refusal m 1 pa len with
          | some t => (s.logAccess m.val 1 pa t).complete f none false
          | none => let s1 := s.recall pa len m.val; (s1.logOutside m.val pa len).complete f (some (memRead s1.mem pa len)) (s1.poisoned pa len))
      | .void => s.complete f (some (List.replicate len 0)) false
      | .peer => (s.logAccess m.val 1 off 0).complete f none false
      | .unsupported log => (if log then s.logAccess m.val 1 off 0 else s).complete f none false)

/-- A write of a queue's wake word (R77 to R79). -/
def State.hostWake (s : State) (q : Nat) : State := if s.fe.gated then (s.latchWake q).drainLatch else s.wakeNow q

/-- The bytes of WPTR among those that the host writes to a descriptor; the host's other bytes, and a device queue's WPTR, are read-only to it (R74). -/
def State.hostQd (s : State) (f : Fin 10) (q at' : Nat) (data : List Byte) : State :=
  let d := s.qd q
  let old := natLe 4 (qdWptr d)
  let new := (List.range 4).map (fun k => if at' ≤ 8 + k ∧ 8 + k < at' + data.length then data.getD (8 + k - at') 0 else old.getD k 0)
  if qdDevq d ∨ qdState d = 0 ∨ at' + data.length ≤ 8 ∨ 12 ≤ at' then s
  else ((s.performScoped (portKey (funcPort f)) (s.qdAddr q + 8) new).1).noteRunnable q

/-- HOST_INBOUND_WRITE (R229): stamped by the port's clock; a refused write is dropped (R61). -/
def execHostInboundWrite (f : Fin 10) (bar : Bar) (off : Nat) (data : List (BitVec 8)) (s : State) : Out :=
  let m := funcMaster f
  .next (if !s.funcOn f ∨ data.isEmpty then s
    else if s.board.d3hot[funcPort f] ∧ !isVf f then s.note (.unsupported f.val)
    else match s.landing f bar off with
      | .regs o =>
        (match s.refusal m 2 (Config.regBase + o) data.length with
          | some t => s.logAccess m.val 2 (Config.regBase + o) t
          | none => s.regWrite m o data)
      | .notify q => if off % 256 < 8 then s.hostWake q else if s.fe.gated then s.drainLatch else s
      | .qdesc q a => s.hostQd f q a data
      | .mem pa =>
        (match s.refusal m 2 pa data.length with
          | some t => s.logAccess m.val 2 pa t
          | none => s.posted (funcPort f) m.val pa data)
      | .void => s
      | .peer => s.logAccess m.val 2 off 0
      | .unsupported log => (if log then s.logAccess m.val 2 off 0 else s).note (.unsupported f.val))

/-! ### Peer requests (R65) -/

/-- The peer that a port and a requester ID name. -/
def State.peerOf (s : State) (port : Fin 2) (rid : BitVec 16) : Option (Fin 16) :=
  (List.finRange 16).find? (fun p => let e := s.trans.peers[p]; fld e 0 1 == 1 && fld e 1 1 == port.val && fld e 112 16 == rid.toNat)

/-- What an export gives a peer: the physical address of the request (R64). -/
def State.exported (s : State) (p : Fin 16) (write : Bool) (off len : Nat) : Option Nat :=
  let e := s.trans.exports[(Fin.ofNat 64 (bits off 29 6) : Fin 64)]
  let o := bits off 0 29
  if fld e 0 1 = 1 ∧ fld e (112 + p.val) 1 = 1 ∧ o + len ≤ (fld e 64 14 + 1) * 65536 ∧ fld e (if write then 2 else 1) 1 = 1 then some (fld e 78 34 * 65536 + o) else none

/-- A refused request of a peer: recorded; a read completes with Unsupported Request (R61). -/
def State.peerRefused (s : State) (peer m kind pa target : Nat) : State :=
  let s1 := s.logAccess m kind pa target
  if kind = 1 then s1.note (.peerData peer none false) else s1

/-- PEER_INBOUND_REQUEST (R65): a read of `len` bytes, or a write. -/
def execPeerInboundRequest (port : Fin 2) (rid : BitVec 16) (off len : Nat) (data : Option (List (BitVec 8))) (s : State) : Out :=
  let kind := if data.isSome then 2 else 1
  let n := match data with | some b => b.length | none => len
  .next (if s.board.bootStep ≠ 7 ∨ !s.board.trained[port] ∨ Config.peerSize < off + n ∨ n = 0 then s
    else match s.peerOf port rid with
      | none => s.peerRefused 16 (0x90 + port.val) kind off 0
      | some p =>
        match s.exported p data.isSome off n with
        | none => s.peerRefused p.val (0xA0 + p.val) kind off 0
        | some pa =>
          match s.refusal (Fin.ofNat 256 (0xA0 + p.val)) kind pa n with
          | some t => s.peerRefused p.val (0xA0 + p.val) kind pa t
          | none =>
            match data with
            | some b => s.posted port (0xA0 + p.val) pa b
            | none =>
              let s1 := s.recall pa n (0xA0 + p.val)
              (s1.logOutside (0xA0 + p.val) pa n).note (.peerData p.val (some (memRead s1.mem pa n)) (s1.poisoned pa n)))

end Sys2Proof.Machine
end

