-- ==== Sys2Proof/Machine/Inputs.lean ====
section
/-! DEFINITION. Inputs of the agenda that are no rows of the opcode table (log 1): time, the strand that moves, queue heads, the
owners of host and peer memory, errors that strike. -/

namespace Sys2Proof.Machine

/-- What a slew has moved the base by, in units of 10^-6 ns, after `ns` more of the reference clock (R104). -/
def TimeBase.slewAcc (t : TimeBase) (ns : Nat) : Int := t.frac + (ns : Int) * t.slewPpm

/-- What a slew removes of its offset while the reference clock counts `ns`, in whole ns (R104). -/
def TimeBase.slewed (t : TimeBase) (ns : Nat) : Int :=
  let x := (t.slewAcc ns).tdiv 1000000
  if 0 ≤ t.remaining then min x t.remaining else max x t.remaining

/-- The time between two dialogs, in ns (R104). -/
def dialogPeriod : Nat := 50000000

/-- The device time base over `ns` of the reference clock: it never decreases (R103, R104). A slew lasts until its offset is removed, and goes on past
the next dialog only if that one succeeds: from then on the base runs free (log 54). -/
def TimeBase.tick (t : TimeBase) (ns : Nat) : TimeBase :=
  if (t.dialogAt.getD 0) + dialogPeriod < t.now.toNat then { t.free with now := t.now + BitVec.ofNat 64 ns } else
  let x := t.slewed ns
  let done := decide (t.remaining = x)
  { t with now := t.now + BitVec.ofNat 64 ((ns : Int) + x).toNat, remaining := t.remaining - x, slewPpm := if done then 0 else t.slewPpm,
           frac := if done then 0 else t.slewAcc ns - 1000000 * x }

/-- CYCLE counts arithmetic cycles from the first instruction of the placement on (R319). -/
def Core.tick (c : Core) (cycles : Nat) : Core :=
  if c.phase = .idle ∨ c.phase = .starting ∨ c.loading then c else { c with sys := { c.sys with cycle := c.sys.cycle + BitVec.ofNat 64 cycles } }

/-- Time passes. -/
def State.tick (s : State) (ns : Nat) : State :=
  { s with tb := s.tb.tick ns, cores := s.cores.map (fun c => c.tick (ns * s.board.clockMhz / 1000)) }

/-- Memory that an outside owner may change: the host ranges, the peer ranges, CXL memory (R33). -/
def outsideOwned (pa len : Nat) : Bool :=
  (decide (Config.host0Base ≤ pa) && decide (pa + len ≤ Config.host1Base + Config.hostSize))
    || (decide (Config.peerBase ≤ pa) && decide (pa + len ≤ Config.peerBase + 16 * Config.peerSize))
    || (decide (Config.cxlBase ≤ pa) && decide (pa + len ≤ Config.cxlBase + Config.cxlSize))

/-- Pages of BAR0 that firmware assigns to a virtual function it opens: the first front-end page, and its mailbox (R36, R71; log 13). -/
def vfDefault : List Nat := [0, 0x800]

/-- Pages of BAR0 that firmware may assign to a virtual function (R36): the front-end pages, and the page of its mailbox slots (R71, log 35). -/
def vfMayMap (page : Nat) : Bool := decide (page < 0x100) || page == 0x800

/-- The host sets or clears VF Enable of a virtual function: firmware opens its windows, and makes the root region of an enabled function
(R14, R127, log 13). -/
def State.setVf (s : State) (vf : Fin 8) (on : Bool) : State :=
  let s0 : State := { s with board := { s.board with vfEnable := s.board.vfEnable.set vf on } }
  let s1 := s0.setWindows (funcMaster (Fin.ofNat 10 (vf.val + 1))).val (if on ∧ 6 ≤ s.board.bootStep then fullWindows else Vector.replicate 8 0)
  let s1 : State := { s1 with fe := { s1.fe with vfPages := s1.fe.vfPages.set vf (if on then vfDefault else []) } }
  if on && !s.board.vfEnable[vf] && decide (6 ≤ s.board.bootStep) && !(s.region (rootOf (vf.val + 1))).exist then s1.makeRoot (Fin.ofNat 10 (vf.val + 1)) else s1

/-- The crew cache of a reading core holds a line. -/
def State.crewHolds (s : State) (m : Fin 256) (line : Nat) : Bool :=
  decide (m.val < 128) && (s.fab.dirty.any (fun d => d.crew == m.val / 8 && d.line == line) || s.fab.clean.any (fun x => x.crew == m.val / 8 && x.line == line))

/-- A corrected error that a demand read of a master meets in memory, in an SRAM, in the shadow store, or in its crew cache: the record; the syndrome, the
symbol, the place in a crew cache and the array kind are free values (R154, R159, log 11). -/
def State.logCorrected (s : State) (pa : Nat) (m : Fin 256) : State :=
  let free (k : Nat) : Nat := (Config.freeW64 (s.fresh + k)).toNat
  let crew := s.crewHolds m (pa / 128)
  let n : Fin 128 := Fin.ofNat 128 m.val
  if (s.targetOf pa).isNone && !inShadow pa 1 then s
  else ({ s with fresh := s.fresh + 3 } : State).log
    { cls := if crew || isSram pa then 4 else 1, addr := pa, data0 := free 0, data1 := if crew then free 2 else arrayOffset pa, companion := free 1 % 256,
      master := m.val, stepid := if m.val < 128 then s.cores[n].sys.stepid.toNat else 0, region := if m.val < 128 then s.cores[n].ctx.region else 0,
      target := (s.targetOf pa).getD 0, unit := if crew then n.val else s.unitOf pa }

/-- An uncorrectable error strikes a block, or the integrity tag of a line fails (R154): ECC is checked first, so that a line with an uncorrectable block
is never a tag failure, and a failed tag spoils its whole line. -/
def State.strike (s : State) (pa : Nat) (tag : Bool) : State :=
  let line := pa / 128 * 128
  let gs := (List.range 4).map (· + line / 32)
  if tag ∧ pa < Config.landingBase ∧ s.board.tags then
    (if gs.any (fun g => s.ras.poison.contains g && !s.ras.tagBad.contains g) then s
     else let t := s.setPoison line 128; { t with ras := { t.ras with tagBad := t.ras.tagBad ++ gs.filter (fun g => !t.ras.tagBad.contains g) } })
  else let t := s.setPoison pa 1; { t with ras := { t.ras with tagBad := t.ras.tagBad.filter (fun g => !gs.contains g) } }

/-- A corrected error in an array of a core, its accumulators or its instruction memory (R154). -/
def State.logCoreCorrected (s : State) (n : Fin 128) (imem : Bool) : State :=
  let free (k : Nat) : Nat := (Config.freeW64 (s.fresh + k)).toNat
  ({ s with fresh := s.fresh + 3 } : State).log
    { cls := 4, data0 := free 0, data1 := free 1 % (if imem then 65536 else 262144), companion := free 2 % 256, master := n.val, unit := n.val }

/-- A block of an operand FIFO meets an error that its parity finds: its bytes are poisoned (R154, R155). -/
def Core.spoilBlock (c : Core) (b : Bool) (pos : Nat) : Core :=
  let f (x : Block) : Block := if x.pos = pos then { x with poison := true } else x
  { c with eng := if b then { c.eng with fifoB := c.eng.fifoB.map f } else { c.eng with fifoA := c.eng.fifoA.map f } }

/-- Where the scrubber's request for a line is refused: never at the shadow store, which R156 has it read and write back, although R33 and R160 let
other masters than the firmware core find nothing there (DEDUCED, log 11). -/
def State.scrubRefusal (s : State) (right a : Nat) : Option Nat := if inShadow a 128 then none else s.refusal 0x8B right a 128

/-- The poisoned line reaches its channel or bank, where no write of the line has dropped it (`State.scrubAfter`); blocks of which a crew cache holds
every sector dirty stay as they are (R156). -/
def State.settleScrub (s : State) : State :=
  let s1 : State := { s with ras := { s.ras with scrubbing := none } }
  match s.ras.scrubbing with
  | none => s
  | some x =>
    match s.scrubRefusal 2 (x * 128) with
    | some t => s1.logAccess 0x8B 2 (x * 128) t
    | none =>
      let held : Nat := match s.fab.dirty.find? (fun d => d.line == x) with | some d => d.sectors | none => 0
      [0, 1].foldl (fun (s : State) k => if bits held (2 * k) 2 = 3 then s else s.setPoison (x * 128 + 64 * k) 64) s1

/-- An input that is no event. Access Control Services have no effect inside the device: every request of a function goes upstream (R15). -/
def State.input (s : State) : Input → State
  | .event _ => s
  | .focus n st => { s with focusCore := n, focusStrand := st }
  | .issue n q => s.issueHead n q
  | .overlap n q q' l => s.overlap n q q' l
  | .hold n on => { s with held := s.held.set n on }
  | .tick ns => s.tick ns
  | .poke pa b => if outsideOwned pa b.length then s.writeBytes pa b else s
  | .upset n r => s.modCore n (fun c => { c with parity := c.parity ++ [r] })
  | .poison pa tag =>
    (s.savingAt pa).foldl (fun s n => s.saveStruck n pa) (s.strike pa tag)
  | .badDirty line => if s.fab.dirty.any (fun d => d.line == line) then { s with fab := { s.fab with badDirty := s.fab.badDirty ++ [line] } } else s
  | .vfEnable vf on => s.setVf vf on
  | .powerState p on => { s with board := { s.board with d3hot := s.board.d3hot.set p on } }
  | .atsEnable f on => { s with trans := { s.trans with atsEnable := s.trans.atsEnable.set f on, ats := if on then s.trans.ats else s.trans.ats.filter (fun e => e.func != f.val) } }
  | .acsControl p v => s.modBoard (fun b => { b with acs := b.acs.set p v })
  | .ptmEnable p on =>
    let s1 := s.modBoard (fun b => { b with ptmEnable := b.ptmEnable.set p on })
    if on then s1 else { s1 with tb := s1.tb.ptmOff p.val }
  | .sbRead a off => if a.val = s.board.sbAddr then s.modBoard (fun b => b.sbRead off) else s
  | .sbWrite a off v => if a.val = s.board.sbAddr then s.sbWrite off v else s
  | .sbFlash f => s.modBoard (fun b => { b with flash := f })
  | .temperature t => s.modBoard (fun b => b.setTemp t)
  | .trainingBegins => s.modBoard Board.beginTraining
  | .selfTest => s.modBoard Board.raiseMinimum
  | .corrected pa m => s.logCorrected pa m
  | .coreCorrected n imem => s.logCoreCorrected n imem
  | .l1Parity n line => s.modCore n (fun c => { c with mem := { c.mem with l1 := c.mem.l1.filter (fun x => x.line != line) } })
  | .accError n t => s.modCore n (fun c => { c with poison := c.poison ++ [{ file := tagAcc, num := t.val }] })
  | .fifoError n b pos => s.modCore n (fun c => c.spoilBlock b pos)
  | .walkBegins n va => s.walkBegins n va
  | .atsAnswer f page y => { s with trans := { s.trans with ats := s.trans.ats.map (fun e => if e.func = f.val ∧ e.page = page then { e with xlat := some y } else e) } }
  | .targetLoads t => if allTargets.contains t then s.targetLoads t else s
  | .assignPages vf l => { s with fe := { s.fe with vfPages := s.fe.vfPages.set vf (l.filter vfMayMap) } }
  | .evictStamp line => { s with fab := s.fab.evictStamp line }
  | .queuePrio q v => if qdState (s.qd q.val) = 0 then s else s.modQd q.val (fun d => setFld d 184 8 v.toNat)
  | .queueErrvec q v => if qdState (s.qd q.val) = 0 then s else s.modQd q.val (fun d => setFld d 160 6 v.val)
  | .pwakeSwap q => s.pwakeSwap q.val
  | .scrubWriteBack => s.settleScrub
  | .combine i j => s.combine i j
  | .fetchGranule p l g => s.fetchGranule p.val l.val g.val

end Sys2Proof.Machine
end

