-- ==== Sys2Proof/Machine/Ras.lean ====
section
/-! DEFINITION. The scrubber (spec/06 R156), evictions of the crew caches (R192, R163), the voltage governor (R166). -/

namespace Sys2Proof.Machine

/-! ### Scrubbing (R156) -/

/-- Master of the scrubber (R56). -/
def scrubMaster : Nat := 0x8B

/-- The scrubber's place: a channel, or an SRAM bank. -/
def scrubSram (pa : Nat) : Bool := decide (Config.landingBase ≤ pa)

/-- What the scrubber reads: backed device memory, the Landing, the shadow store. -/
def State.scrubs (s : State) (pa : Nat) : Bool :=
  decide (pa < s.usableTop) || (decide (Config.landingBase ≤ pa) && decide (pa < Config.landingBase + Config.landingSize))
    || (decide (Config.shadowBase ≤ pa) && decide (pa < Config.shadowBase + Config.shadowSize))

/-- A record of the scrubber. The COMPANION that the spec does not number (symbol position, array kind) is a free value (log 11). -/
def State.scrubLog (s : State) (pa cls d0 d1 : Nat) (companion : Option Nat) : State :=
  ({ s with fresh := s.fresh + 1 } : State).log
    { cls := cls, addr := pa, data0 := d0, data1 := d1, companion := companion.getD (fld (Config.freeW64 s.fresh) 0 8), master := scrubMaster,
      target := (s.targetOf pa).getD 0, unit := if scrubSram pa then bits pa 7 4 else channelOf pa }

/-- The last line of backed device memory ends a pass. -/
def State.passed (s : State) (pa : Nat) : State := if pa + 128 = s.usableTop then { s with ras := { s.ras with scrubPass := s.ras.scrubPass + 1 } } else s

/-- The scrubber's request: refused and logged (R61), or carried out. -/
def State.scrubAsk (s : State) (right a : Nat) (f : State → State) : State :=
  match s.scrubRefusal right a with
  | some t => s.logAccess scrubMaster right a t
  | none => f s

/-- The write-back of a poisoned line is on its way. -/
def State.scrubPoison (s : State) (a : Nat) : State :=
  { s with ras := { s.ras with scrubbing := some (a / 128) } }

/-- SCRUB_LINE (R156): the line that holds an address is read. A dirty line whose ECC is uncorrectable is an orphan (R163). -/
def execScrubLine (pa : Nat) (finding : ScrubFinding) (s : State) : Out :=
  let a := pa / 128 * 128
  let sram := scrubSram a
  let s0 := s.settleScrub
  .next (if !s.scrubs a ∨ fld s.ras.scrubCtl 16 1 = 0 ∨ s.board.bootStep < 6 then s
    else if s0.fab.badDirty.contains (a / 128) then s0.recallLine (a / 128) scrubMaster
    else s0.scrubAsk 1 a (fun s0 => State.passed (match finding with
      | .clean => s0
      | .corrected y => s0.scrubLog a (if sram then 4 else 1) y.toNat (arrayOffset a) none
      | .uncorrectable y => (s0.scrubLog a (if sram then 5 else 2) y.toNat (arrayOffset a) (if sram then none else some 1)).scrubPoison a
      | .tagMismatch x y => if sram ∨ !s.board.tags then s0 else (s0.scrubLog a 3 x.toNat y.toNat (some 1)).scrubPoison a) a))

/-! ### Crew caches (R192) -/

/-- CREW_CACHE_EVICTION (R192, R163). -/
def execCrewCacheEviction (crew : Fin 16) (line : Nat) (s : State) : Out := .next (s.writeBack crew.val line 0x88)

/-! ### The voltage governor (R166) -/

/-- Bin of the histogram of corrected errors (R171). -/
def correctedBin (count : Nat) : Fin 16 := Fin.ofNat 16 (if count = 0 then 0 else min 15 (Nat.log2 count + 1))

/-- Windows of 24 hours, and the lock of a domain that has failed. -/
def lockWindows : Nat := 8640
def lockFailed : Nat := 2 ^ 62

/-- The governor at the end of a window, before what it records: offset, run, quiet windows, lock. -/
def Board.govern (b : Board) (d : Fin 18) (count : Nat) : Board :=
  let tooMany := decide (b.blob.pft[d] < count)
  let off := b.voff[d]
  let lock0 := if b.vlock[d] = lockFailed then lockFailed else b.vlock[d] - 1
  let run := if tooMany ∧ off = 0 then b.vrun[d] + 1 else 0
  let quiet := if 8 * count ≤ b.blob.pft[d] then min 360 (b.vquiet[d] + 1) else 0
  let lock := if tooMany ∧ off ≠ 0 then lockWindows else if run = 4 then lockFailed else lock0
  let off1 := if tooMany then 0 else if 360 ≤ quiet ∧ lock = 0 ∧ off + 5 ≤ min 60 b.blob.deepest[d] then off + 5 else off
  { b with voff := b.voff.set d off1, vrun := b.vrun.set d run, vquiet := b.vquiet.set d quiet, vlock := b.vlock.set d lock }

/-- The window counted in its domain's histogram. -/
def Board.binned (b : Board) (d : Fin 18) (count : Nat) : Board :=
  let h := b.life.corrected[d]
  { b with life := { b.life with corrected := b.life.corrected.set d (h.set (correctedBin count) (satUp h[correctedBin count])) } }

/-- Predictive failure (R166 step 3): the status bit, the in-band interrupt, the record, a lifetime record. -/
def State.predfail (s : State) (d : Fin 18) (count : Nat) : State :=
  let s1 := s.modBoard (fun b => { b with predfail := true, ibi := b.ibi ++ [3] })
  (s1.log { cls := 0x10, data0 := d.val, data1 := count, master := 0x8C, unit := d.val }).modBoard (fun b => b.putRecord true)

/-- GOVERNOR_WINDOW (R166): the window of a domain ends, with `count` corrected errors and parity errors: those that its arrays have logged in it. -/
def execGovernorWindow (dom : Fin 18) (count : Nat) (s : State) : Out :=
  let back := decide (s.board.blob.pft[dom] < count) && s.board.voff[dom] != 0
  let s1 := s.modBoard (fun b => { (b.binned dom count).govern dom count with domCount := b.domCount.set dom 0 })
  let s2 := if back then s1.log { cls := 0x0F, data0 := dom.val, data1 := 0, companion := count, master := 0x8C, unit := dom.val } else s1
  onlyIf (s.board.firmware && count == s.board.domCount[dom]) s (if s1.board.vrun[dom] = 4 then s2.predfail dom count else s2)

end Sys2Proof.Machine
end

