-- ==== Sys2Proof/Machine/VectorWords.lean ====
section
/-! DEFINITION. The vector words of majors 0x20 to 0x2A as they are judged and routed (spec/13 R340 to R352). -/

namespace Sys2Proof.Machine

/-! ### Shapes -/

/-- An integer word with two vector sources (R340). -/
def viWord (op : IOp) (t : Tok) (g : Guard) (d a b : Reg) (s : State) : State :=
  xWord t (jMain [] [] (limVVV s.vtype d a b g)) (fun _ => .vi op d a b g) s

/-- An integer word with a scalar source (R341). -/
def visWord (op : IOp) (t : Tok) (g : Guard) (d a b : Reg) (s : State) : State :=
  xWord t (jMain [] [b] (limVV s.vtype d a g)) (fun c => .vis op d a (c.rdS .main b) g) s

/-- A floating-point word with two vector sources (R342). -/
def vfWord (op : FOp) (t : Tok) (g : Guard) (d a b : Reg) (s : State) : State :=
  xWord t (jMain [] [] (floatOk s.vtype && limVVV s.vtype d a b g)) (fun _ => .vf op d a b g) s

/-- A floating-point word with a scalar source (R342). -/
def vfsWord (op : FOp) (t : Tok) (g : Guard) (d a b : Reg) (s : State) : State :=
  xWord t (jMain [] [b] (floatOk s.vtype && limVV s.vtype d a g)) (fun c => .vfs op d a (c.rdS .main b) g) s

/-- A sign operation (R342). -/
def vfsignWord (neg : Bool) (t : Tok) (g : Guard) (d a : Reg) (s : State) : State :=
  xWord t (jMain [] [] (floatOk s.vtype && limVV s.vtype d a g)) (fun _ => .vfsign neg d a g) s

/-- A fused word (R343). -/
def vfmaWord (op : FmaOp) (t : Tok) (g : Guard) (d a b : Reg) (s : State) : State :=
  xWord t (jMain [] [] (floatOk s.vtype && limVVV s.vtype d a b g)) (fun _ => .vfma op d a b g) s

/-- A compare of two vectors: `d` names a mask (R344); the float compares need a vector format (R339). -/
def vcmpWord (op : CmpOp) (float : Bool) (t : Tok) (g : Guard) (d a b : Reg) (s : State) : State :=
  let vt := s.vtype
  xWord t (jMain [] [] ((!float || floatOk vt) && kDst vt d.val && limVV vt a b g)) (fun _ => .vcmp op d a b g) s

/-- A compare with a scalar (R344). -/
def vcmpsWord (op : CmpOp) (float : Bool) (t : Tok) (g : Guard) (d a b : Reg) (s : State) : State :=
  let vt := s.vtype
  xWord t (jMain [] [b] ((!float || floatOk vt) && kDst vt d.val && limV vt a g)) (fun c => .vcmps op d a (c.rdS .main b) g) s

/-- A mask word (R345). -/
def kWord (op : KOp) (t : Tok) (d a b : Reg) (s : State) : State :=
  let vt := s.vtype
  xWord t (jMain [] [] (kDst vt d.val && kSrc vt a.val && kSrc vt b.val)) (fun _ => .kop op d a b) s

/-- A conversion (R346): RM is zero where RS is. -/
def cvtWord (op : CvtOp) (t : Tok) (g : Guard) (d a : Reg) (r : Fin 2) (m : Fin 4) (s : State) : State :=
  xWord t { jMain [] [] (limCvt op s.vtype d a g) with res := r.val == 1 || m.val == 0 } (fun _ => .cvt op (r.val == 1) m d a g) s

/-- A permute with a scalar operand (R349). -/
def permSWord (op : PermOp) (t : Tok) (g : Guard) (d a b : Reg) (s : State) : State :=
  xWord t (jMain [] [b] (limVV s.vtype d a g && permApart s.vtype d a)) (fun c => .perm op d a 0 (c.rdS .main b) g) s

/-- A gather (R349). -/
def permVWord (op : PermOp) (t : Tok) (g : Guard) (d a b : Reg) (s : State) : State :=
  xWord t (jMain [] [] (limVVV s.vtype d a b g && permApart s.vtype d a && permApart s.vtype d b)) (fun _ => .perm op d a b 0 g) s

/-- A reduction along columns or rows (R350). -/
def redVWord (op : RedOp) (float rows : Bool) (t : Tok) (g : Guard) (d a : Reg) (s : State) : State :=
  xWord t (jMain [] [] ((!float || floatOk s.vtype) && limVV s.vtype d a g)) (fun _ => .vred op rows d a g) s

/-- A special function (R351). -/
def sfWord (op : SfOp) (t : Tok) (g : Guard) (d a : Reg) (s : State) : State :=
  xWord t (jMain [] [] (floatOk s.vtype && limVV s.vtype d a g)) (fun _ => .sf op d a g) s

/-- A move whose only vector operands are `d` and what `lim` judges (R352). -/
def mvWord (op : MvOp) (t : Tok) (g : Guard) (d a b : Reg) (ss : List Reg) (lim : Bool) (v : Core → W64) (s : State) : State :=
  xWord t (jMain [] ss lim) (fun c => .mv op d a b (v c) g) s

/-! ### Integer words (R340, R341) -/

/-- `vadd` (R340). -/
def execVadd (t : Tok) (g : Guard) (d a b : Reg) (s : State) : Out := .next (viWord .add t g d a b s)

/-- `vsub` (R340). -/
def execVsub (t : Tok) (g : Guard) (d a b : Reg) (s : State) : Out := .next (viWord .sub t g d a b s)

/-- `vmul` (R340). -/
def execVmul (t : Tok) (g : Guard) (d a b : Reg) (s : State) : Out := .next (viWord .mul t g d a b s)

/-- `vmulh` (R340). -/
def execVmulh (t : Tok) (g : Guard) (d a b : Reg) (s : State) : Out := .next (viWord .mulh t g d a b s)

/-- `vand` (R340). -/
def execVand (t : Tok) (g : Guard) (d a b : Reg) (s : State) : Out := .next (viWord .and t g d a b s)

/-- `vor` (R340). -/
def execVor (t : Tok) (g : Guard) (d a b : Reg) (s : State) : Out := .next (viWord .or t g d a b s)

/-- `vxor` (R340). -/
def execVxor (t : Tok) (g : Guard) (d a b : Reg) (s : State) : Out := .next (viWord .xor t g d a b s)

/-- `vsll` (R340). -/
def execVsll (t : Tok) (g : Guard) (d a b : Reg) (s : State) : Out := .next (viWord .sll t g d a b s)

/-- `vsrl` (R340). -/
def execVsrl (t : Tok) (g : Guard) (d a b : Reg) (s : State) : Out := .next (viWord .srl t g d a b s)

/-- `vsra` (R340). -/
def execVsra (t : Tok) (g : Guard) (d a b : Reg) (s : State) : Out := .next (viWord .sra t g d a b s)

/-- `vmin` (R340). -/
def execVmin (t : Tok) (g : Guard) (d a b : Reg) (s : State) : Out := .next (viWord .min t g d a b s)

/-- `vmax` (R340). -/
def execVmax (t : Tok) (g : Guard) (d a b : Reg) (s : State) : Out := .next (viWord .max t g d a b s)

/-- `vmin.n` (R340). -/
def execVminN (t : Tok) (g : Guard) (d a b : Reg) (s : State) : Out := .next (viWord .minN t g d a b s)

/-- `vmax.n` (R340). -/
def execVmaxN (t : Tok) (g : Guard) (d a b : Reg) (s : State) : Out := .next (viWord .maxN t g d a b s)

/-- `vadd.sat` (R340). -/
def execVaddSat (t : Tok) (g : Guard) (d a b : Reg) (s : State) : Out := .next (viWord .addSat t g d a b s)

/-- `vsub.sat` (R340). -/
def execVsubSat (t : Tok) (g : Guard) (d a b : Reg) (s : State) : Out := .next (viWord .subSat t g d a b s)

/-- `vadd.s` (R341). -/
def execVaddS (t : Tok) (g : Guard) (d a b : Reg) (s : State) : Out := .next (visWord .add t g d a b s)

/-- `vsub.s` (R341). -/
def execVsubS (t : Tok) (g : Guard) (d a b : Reg) (s : State) : Out := .next (visWord .sub t g d a b s)

/-- `vrsub.s` (R341). -/
def execVrsubS (t : Tok) (g : Guard) (d a b : Reg) (s : State) : Out := .next (visWord .rsub t g d a b s)

/-- `vmul.s` (R341). -/
def execVmulS (t : Tok) (g : Guard) (d a b : Reg) (s : State) : Out := .next (visWord .mul t g d a b s)

/-- `vand.s` (R341). -/
def execVandS (t : Tok) (g : Guard) (d a b : Reg) (s : State) : Out := .next (visWord .and t g d a b s)

/-- `vor.s` (R341). -/
def execVorS (t : Tok) (g : Guard) (d a b : Reg) (s : State) : Out := .next (visWord .or t g d a b s)

/-- `vxor.s` (R341). -/
def execVxorS (t : Tok) (g : Guard) (d a b : Reg) (s : State) : Out := .next (visWord .xor t g d a b s)

/-- `vsll.s` (R341). -/
def execVsllS (t : Tok) (g : Guard) (d a b : Reg) (s : State) : Out := .next (visWord .sll t g d a b s)

/-- `vsrl.s` (R341). -/
def execVsrlS (t : Tok) (g : Guard) (d a b : Reg) (s : State) : Out := .next (visWord .srl t g d a b s)

/-- `vsra.s` (R341). -/
def execVsraS (t : Tok) (g : Guard) (d a b : Reg) (s : State) : Out := .next (visWord .sra t g d a b s)

/-- `vmin.s` (R341). -/
def execVminS (t : Tok) (g : Guard) (d a b : Reg) (s : State) : Out := .next (visWord .min t g d a b s)

/-- `vmax.s` (R341). -/
def execVmaxS (t : Tok) (g : Guard) (d a b : Reg) (s : State) : Out := .next (visWord .max t g d a b s)

/-- `vmin.n.s` (R341). -/
def execVminNS (t : Tok) (g : Guard) (d a b : Reg) (s : State) : Out := .next (visWord .minN t g d a b s)

/-- `vmax.n.s` (R341). -/
def execVmaxNS (t : Tok) (g : Guard) (d a b : Reg) (s : State) : Out := .next (visWord .maxN t g d a b s)

/-- `vadd.sat.s` (R341). -/
def execVaddSatS (t : Tok) (g : Guard) (d a b : Reg) (s : State) : Out := .next (visWord .addSat t g d a b s)

/-- `vadd.sat.n.s` (R341). -/
def execVaddSatNS (t : Tok) (g : Guard) (d a b : Reg) (s : State) : Out := .next (visWord .addSatN t g d a b s)

/-! ### Floating point (R342, R343) -/

/-- `vfadd` (R342). -/
def execVfadd (t : Tok) (g : Guard) (d a b : Reg) (s : State) : Out := .next (vfWord .add t g d a b s)

/-- `vfsub` (R342). -/
def execVfsub (t : Tok) (g : Guard) (d a b : Reg) (s : State) : Out := .next (vfWord .sub t g d a b s)

/-- `vfmul` (R342). -/
def execVfmul (t : Tok) (g : Guard) (d a b : Reg) (s : State) : Out := .next (vfWord .mul t g d a b s)

/-- `vfmin` (R342). -/
def execVfmin (t : Tok) (g : Guard) (d a b : Reg) (s : State) : Out := .next (vfWord .min t g d a b s)

/-- `vfmax` (R342). -/
def execVfmax (t : Tok) (g : Guard) (d a b : Reg) (s : State) : Out := .next (vfWord .max t g d a b s)

/-- `vfabs` (R342). -/
def execVfabs (t : Tok) (g : Guard) (d a : Reg) (s : State) : Out := .next (vfsignWord false t g d a s)

/-- `vfneg` (R342). -/
def execVfneg (t : Tok) (g : Guard) (d a : Reg) (s : State) : Out := .next (vfsignWord true t g d a s)

/-- `vfadd.s` (R342). -/
def execVfaddS (t : Tok) (g : Guard) (d a b : Reg) (s : State) : Out := .next (vfsWord .add t g d a b s)

/-- `vfmul.s` (R342). -/
def execVfmulS (t : Tok) (g : Guard) (d a b : Reg) (s : State) : Out := .next (vfsWord .mul t g d a b s)

/-- `vfmin.s` (R342). -/
def execVfminS (t : Tok) (g : Guard) (d a b : Reg) (s : State) : Out := .next (vfsWord .min t g d a b s)

/-- `vfmax.s` (R342). -/
def execVfmaxS (t : Tok) (g : Guard) (d a b : Reg) (s : State) : Out := .next (vfsWord .max t g d a b s)

/-- `vfma` (R343). -/
def execVfma (t : Tok) (g : Guard) (d a b : Reg) (s : State) : Out := .next (vfmaWord .ma t g d a b s)

/-- `vfms` (R343). -/
def execVfms (t : Tok) (g : Guard) (d a b : Reg) (s : State) : Out := .next (vfmaWord .ms t g d a b s)

/-- `vfnms` (R343). -/
def execVfnms (t : Tok) (g : Guard) (d a b : Reg) (s : State) : Out := .next (vfmaWord .nms t g d a b s)

/-- `vfnma` (R343). -/
def execVfnma (t : Tok) (g : Guard) (d a b : Reg) (s : State) : Out := .next (vfmaWord .nma t g d a b s)

/-- `vfma.s` (R343). -/
def execVfmaS (t : Tok) (g : Guard) (d a b : Reg) (s : State) : Out := .next (xWord t (jMain [] [b] (floatOk s.vtype && limVV s.vtype d a g)) (fun c => .vfmas d a (c.rdS .main b) g) s)

/-- `vmacc` (R343). -/
def execVmacc (t : Tok) (g : Guard) (d a b : Reg) (s : State) : Out := .next (xWord t (jMain [] [] (limVVV s.vtype d a b g)) (fun _ => .vmacc d a b g) s)

/-- `vmacc.s` (R343). -/
def execVmaccS (t : Tok) (g : Guard) (d a b : Reg) (s : State) : Out := .next (xWord t (jMain [] [b] (limVV s.vtype d a g)) (fun c => .vmaccs d a (c.rdS .main b) g) s)

/-! ### Compares and masks (R344, R345) -/

/-- `vcmp.eq` (R344). -/
def execVcmpEq (t : Tok) (g : Guard) (d a b : Reg) (s : State) : Out := .next (vcmpWord .eq false t g d a b s)

/-- `vcmp.ne` (R344). -/
def execVcmpNe (t : Tok) (g : Guard) (d a b : Reg) (s : State) : Out := .next (vcmpWord .ne false t g d a b s)

/-- `vcmp.lt` (R344). -/
def execVcmpLt (t : Tok) (g : Guard) (d a b : Reg) (s : State) : Out := .next (vcmpWord .lt false t g d a b s)

/-- `vcmp.le` (R344). -/
def execVcmpLe (t : Tok) (g : Guard) (d a b : Reg) (s : State) : Out := .next (vcmpWord .le false t g d a b s)

/-- `vcmp.lt.n` (R344). -/
def execVcmpLtN (t : Tok) (g : Guard) (d a b : Reg) (s : State) : Out := .next (vcmpWord .ltN false t g d a b s)

/-- `vcmp.le.n` (R344). -/
def execVcmpLeN (t : Tok) (g : Guard) (d a b : Reg) (s : State) : Out := .next (vcmpWord .leN false t g d a b s)

/-- `vfcmp.eq` (R344). -/
def execVfcmpEq (t : Tok) (g : Guard) (d a b : Reg) (s : State) : Out := .next (vcmpWord .feq true t g d a b s)

/-- `vfcmp.lt` (R344). -/
def execVfcmpLt (t : Tok) (g : Guard) (d a b : Reg) (s : State) : Out := .next (vcmpWord .flt true t g d a b s)

/-- `vfcmp.le` (R344). -/
def execVfcmpLe (t : Tok) (g : Guard) (d a b : Reg) (s : State) : Out := .next (vcmpWord .fle true t g d a b s)

/-- `vfcmp.un` (R344). -/
def execVfcmpUn (t : Tok) (g : Guard) (d a b : Reg) (s : State) : Out := .next (vcmpWord .fun' true t g d a b s)

/-- `vcmp.eq.s` (R344). -/
def execVcmpEqS (t : Tok) (g : Guard) (d a b : Reg) (s : State) : Out := .next (vcmpsWord .eq false t g d a b s)

/-- `vcmp.lt.s` (R344). -/
def execVcmpLtS (t : Tok) (g : Guard) (d a b : Reg) (s : State) : Out := .next (vcmpsWord .lt false t g d a b s)

/-- `vcmp.gt.s` (R344). -/
def execVcmpGtS (t : Tok) (g : Guard) (d a b : Reg) (s : State) : Out := .next (vcmpsWord .gt false t g d a b s)

/-- `vfcmp.lt.s` (R344). -/
def execVfcmpLtS (t : Tok) (g : Guard) (d a b : Reg) (s : State) : Out := .next (vcmpsWord .flt true t g d a b s)

/-- `vfcmp.gt.s` (R344). -/
def execVfcmpGtS (t : Tok) (g : Guard) (d a b : Reg) (s : State) : Out := .next (vcmpsWord .fgt true t g d a b s)

/-- `kand` (R345). -/
def execKand (t : Tok) (d a b : Reg) (s : State) : Out := .next (kWord .and t d a b s)

/-- `kor` (R345). -/
def execKor (t : Tok) (d a b : Reg) (s : State) : Out := .next (kWord .or t d a b s)

/-- `kxor` (R345). -/
def execKxor (t : Tok) (d a b : Reg) (s : State) : Out := .next (kWord .xor t d a b s)

/-- `kandn` (R345). -/
def execKandn (t : Tok) (d a b : Reg) (s : State) : Out := .next (kWord .andn t d a b s)

/-- `knot` (R345). -/
def execKnot (t : Tok) (d a : Reg) (s : State) : Out := .next (kWord .not t d a 0 s)

/-- `kset` (R345). -/
def execKset (t : Tok) (d : Reg) (s : State) : Out := .next (kWord .set t d 0 0 s)

/-- `kclr` (R345). -/
def execKclr (t : Tok) (d : Reg) (s : State) : Out := .next (kWord .clr t d 0 0 s)

/-! ### Conversions (R346 to R348) -/

/-- `vcvt.f32` (R346). -/
def execVcvtF32 (t : Tok) (g : Guard) (d a : Reg) (r : Fin 2) (m : Fin 4) (s : State) : Out := .next (cvtWord .f32 t g d a r m s)

/-- `vcvt.bf16` (R346). -/
def execVcvtBf16 (t : Tok) (g : Guard) (d a : Reg) (r : Fin 2) (m : Fin 4) (s : State) : Out := .next (cvtWord .bf16 t g d a r m s)

/-- `vcvt.f16` (R346). -/
def execVcvtF16 (t : Tok) (g : Guard) (d a : Reg) (r : Fin 2) (m : Fin 4) (s : State) : Out := .next (cvtWord .f16 t g d a r m s)

/-- `vcvt.e4m3` (R346). -/
def execVcvtE4m3 (t : Tok) (g : Guard) (d a : Reg) (r : Fin 2) (m : Fin 4) (s : State) : Out := .next (cvtWord .e4m3 t g d a r m s)

/-- `vcvt.e5m2` (R346). -/
def execVcvtE5m2 (t : Tok) (g : Guard) (d a : Reg) (r : Fin 2) (m : Fin 4) (s : State) : Out := .next (cvtWord .e5m2 t g d a r m s)

/-- `vcvt.e2m1` (R346). -/
def execVcvtE2m1 (t : Tok) (g : Guard) (d a : Reg) (r : Fin 2) (m : Fin 4) (s : State) : Out := .next (cvtWord .e2m1 t g d a r m s)

/-- `vcvt.ef.e4m3` (R348). -/
def execVcvtEfE4m3 (t : Tok) (g : Guard) (d a : Reg) (r : Fin 2) (m : Fin 4) (s : State) : Out := .next (cvtWord .efE4m3 t g d a r m s)

/-- `vcvt.ef.e2m1` (R348). -/
def execVcvtEfE2m1 (t : Tok) (g : Guard) (d a : Reg) (r : Fin 2) (m : Fin 4) (s : State) : Out := .next (cvtWord .efE2m1 t g d a r m s)

/-- `vcvt.ef.bf16` (R348). -/
def execVcvtEfBf16 (t : Tok) (g : Guard) (d a : Reg) (r : Fin 2) (m : Fin 4) (s : State) : Out := .next (cvtWord .efBf16 t g d a r m s)

/-- `vwid.e4m3` (R346). -/
def execVwidE4m3 (t : Tok) (g : Guard) (d a : Reg) (r : Fin 2) (m : Fin 4) (s : State) : Out := .next (cvtWord .widE4m3 t g d a r m s)

/-- `vwid.e5m2` (R346). -/
def execVwidE5m2 (t : Tok) (g : Guard) (d a : Reg) (r : Fin 2) (m : Fin 4) (s : State) : Out := .next (cvtWord .widE5m2 t g d a r m s)

/-- `vwid.e2m1` (R346). -/
def execVwidE2m1 (t : Tok) (g : Guard) (d a : Reg) (r : Fin 2) (m : Fin 4) (s : State) : Out := .next (cvtWord .widE2m1 t g d a r m s)

/-- `vcvt.f.i` (R346). -/
def execVcvtFI (t : Tok) (g : Guard) (d a : Reg) (r : Fin 2) (m : Fin 4) (s : State) : Out := .next (cvtWord .fI t g d a r m s)

/-- `vcvt.f.n` (R346). -/
def execVcvtFN (t : Tok) (g : Guard) (d a : Reg) (r : Fin 2) (m : Fin 4) (s : State) : Out := .next (cvtWord .fN t g d a r m s)

/-- `vcvt.i.f` (R346). -/
def execVcvtIF (t : Tok) (g : Guard) (d a : Reg) (r : Fin 2) (m : Fin 4) (s : State) : Out := .next (cvtWord .iF t g d a r m s)

/-- `vcvt.n.f` (R346). -/
def execVcvtNF (t : Tok) (g : Guard) (d a : Reg) (r : Fin 2) (m : Fin 4) (s : State) : Out := .next (cvtWord .nF t g d a r m s)

/-! ### Permutes (R349) -/

/-- `vslideup` (R349). -/
def execVslideup (t : Tok) (g : Guard) (d a b : Reg) (s : State) : Out := .next (permSWord .slideup t g d a b s)

/-- `vslidedn` (R349). -/
def execVslidedn (t : Tok) (g : Guard) (d a b : Reg) (s : State) : Out := .next (permSWord .slidedn t g d a b s)

/-- `vgather.c` (R349). -/
def execVgatherC (t : Tok) (g : Guard) (d a b : Reg) (s : State) : Out := .next (permVWord .gatherC t g d a b s)

/-- `vbcast.c` (R349). -/
def execVbcastC (t : Tok) (g : Guard) (d a b : Reg) (s : State) : Out := .next (permSWord .bcastC t g d a b s)

/-- `vgather.r` (R349). -/
def execVgatherR (t : Tok) (g : Guard) (d a b : Reg) (s : State) : Out := .next (permVWord .gatherR t g d a b s)

/-- `vrot.r` (R349). -/
def execVrotR (t : Tok) (g : Guard) (d a b : Reg) (s : State) : Out := .next (permSWord .rotR t g d a b s)

/-- `vbcast.r` (R349). -/
def execVbcastR (t : Tok) (g : Guard) (d a b : Reg) (s : State) : Out := .next (permSWord .bcastR t g d a b s)

/-- `vtr16` (R349). -/
def execVtr16 (t : Tok) (g : Guard) (d a : Reg) (s : State) : Out := .next (xWord t (jMain [] [] (limVV s.vtype d a g && permApart s.vtype d a)) (fun _ => .perm .tr16 d a 0 0 g) s)

/-! ### Reductions (R350) -/

/-- `vredsum.c` (R350). -/
def execVredsumC (t : Tok) (g : Guard) (d a : Reg) (s : State) : Out := .next (redVWord .sum false false t g d a s)

/-- `vredmax.c` (R350). -/
def execVredmaxC (t : Tok) (g : Guard) (d a : Reg) (s : State) : Out := .next (redVWord .max false false t g d a s)

/-- `vredmin.c` (R350). -/
def execVredminC (t : Tok) (g : Guard) (d a : Reg) (s : State) : Out := .next (redVWord .min false false t g d a s)

/-- `vredmax.n.c` (R350). -/
def execVredmaxNC (t : Tok) (g : Guard) (d a : Reg) (s : State) : Out := .next (redVWord .maxN false false t g d a s)

/-- `vredmin.n.c` (R350). -/
def execVredminNC (t : Tok) (g : Guard) (d a : Reg) (s : State) : Out := .next (redVWord .minN false false t g d a s)

/-- `vfredsum.c` (R350). -/
def execVfredsumC (t : Tok) (g : Guard) (d a : Reg) (s : State) : Out := .next (redVWord .fsum true false t g d a s)

/-- `vfredmax.c` (R350). -/
def execVfredmaxC (t : Tok) (g : Guard) (d a : Reg) (s : State) : Out := .next (redVWord .fmax true false t g d a s)

/-- `vfredmin.c` (R350). -/
def execVfredminC (t : Tok) (g : Guard) (d a : Reg) (s : State) : Out := .next (redVWord .fmin true false t g d a s)

/-- `vredsum.r` (R350). -/
def execVredsumR (t : Tok) (g : Guard) (d a : Reg) (s : State) : Out := .next (redVWord .sum false true t g d a s)

/-- `vredmax.r` (R350). -/
def execVredmaxR (t : Tok) (g : Guard) (d a : Reg) (s : State) : Out := .next (redVWord .max false true t g d a s)

/-- `vredmin.r` (R350). -/
def execVredminR (t : Tok) (g : Guard) (d a : Reg) (s : State) : Out := .next (redVWord .min false true t g d a s)

/-- `vredmax.n.r` (R350). -/
def execVredmaxNR (t : Tok) (g : Guard) (d a : Reg) (s : State) : Out := .next (redVWord .maxN false true t g d a s)

/-- `vredmin.n.r` (R350). -/
def execVredminNR (t : Tok) (g : Guard) (d a : Reg) (s : State) : Out := .next (redVWord .minN false true t g d a s)

/-- `vfredsum.r` (R350). -/
def execVfredsumR (t : Tok) (g : Guard) (d a : Reg) (s : State) : Out := .next (redVWord .fsum true true t g d a s)

/-- `vfredmax.r` (R350). -/
def execVfredmaxR (t : Tok) (g : Guard) (d a : Reg) (s : State) : Out := .next (redVWord .fmax true true t g d a s)

/-- `vfredmin.r` (R350). -/
def execVfredminR (t : Tok) (g : Guard) (d a : Reg) (s : State) : Out := .next (redVWord .fmin true true t g d a s)

/-! ### Special functions (R246, R351) -/

/-- `vexp2` (R351). -/
def execVexp2 (t : Tok) (g : Guard) (d a : Reg) (s : State) : Out := .next (sfWord .exp2 t g d a s)

/-- `vlog2` (R351). -/
def execVlog2 (t : Tok) (g : Guard) (d a : Reg) (s : State) : Out := .next (sfWord .log2 t g d a s)

/-- `vrcp` (R351). -/
def execVrcp (t : Tok) (g : Guard) (d a : Reg) (s : State) : Out := .next (sfWord .rcp t g d a s)

/-- `vrsqrt` (R351). -/
def execVrsqrt (t : Tok) (g : Guard) (d a : Reg) (s : State) : Out := .next (sfWord .rsqrt t g d a s)

/-- `vtanh` (R351). -/
def execVtanh (t : Tok) (g : Guard) (d a : Reg) (s : State) : Out := .next (sfWord .tanh t g d a s)

/-! ### Moves and select (R352) -/

/-- `vmov` (R352). -/
def execVmov (t : Tok) (g : Guard) (d a : Reg) (s : State) : Out := .next (mvWord .mov t g d a 0 [] (limVV s.vtype d a g) (fun _ => 0) s)

/-- `vmov.s` (R352). -/
def execVmovS (t : Tok) (g : Guard) (d b : Reg) (s : State) : Out := .next (mvWord .movS t g d 0 0 [b] (limV s.vtype d g) (fun c => c.rdS .main b) s)

/-- `vsel` (R352). -/
def execVsel (t : Tok) (g : Guard) (d a b : Reg) (s : State) : Out := .next (mvWord .sel t g d a b [] (limVVV s.vtype d a b g) (fun _ => 0) s)

/-- `vmovk` (R352). -/
def execVmovk (t : Tok) (g : Guard) (d a : Reg) (s : State) : Out := .next (mvWord .movk t g d a 0 [] (kDst s.vtype d.val && limV s.vtype a g) (fun _ => 0) s)

/-- `vmovv` (R352). -/
def execVmovv (t : Tok) (g : Guard) (d a : Reg) (s : State) : Out := .next (mvWord .movv t g d a 0 [] (limV s.vtype d g && kSrc s.vtype a.val) (fun _ => 0) s)

/-- `vid` (R352). -/
def execVid (t : Tok) (g : Guard) (d : Reg) (s : State) : Out := .next (mvWord .id t g d 0 0 [] (limV s.vtype d g) (fun _ => 0) s)

/-- `vrid` (R352). -/
def execVrid (t : Tok) (g : Guard) (d : Reg) (s : State) : Out := .next (mvWord .rid t g d 0 0 [] (limV s.vtype d g) (fun _ => 0) s)

/-- `vmovi` (R352). -/
def execVmovi (t : Tok) (g : Guard) (d i : Reg) (s : State) : Out := .next (mvWord .movi t g d 0 0 [] (limV s.vtype d g) (fun _ => w64 (sext 5 i.val)) s)

end Sys2Proof.Machine
end

