-- ==== Sys2Proof/Machine/Dispatch.lean ====
section
/-! DEFINITION. One arm per constructor of Instr: each calls its meaning. -/

namespace Sys2Proof.Machine

def exec (i : Instr) (s : State) : Host.Outcome State Fault Refusal :=
  match i with
  | .add t g d a b => Sys2Proof.Machine.execAdd t g d a b s
  | .sub t g d a b => Sys2Proof.Machine.execSub t g d a b s
  | .and t g d a b => Sys2Proof.Machine.execAnd t g d a b s
  | .or t g d a b => Sys2Proof.Machine.execOr t g d a b s
  | .xor t g d a b => Sys2Proof.Machine.execXor t g d a b s
  | .sll t g d a b => Sys2Proof.Machine.execSll t g d a b s
  | .srl t g d a b => Sys2Proof.Machine.execSrl t g d a b s
  | .sra t g d a b => Sys2Proof.Machine.execSra t g d a b s
  | .min t g d a b => Sys2Proof.Machine.execMin t g d a b s
  | .max t g d a b => Sys2Proof.Machine.execMax t g d a b s
  | .minN t g d a b => Sys2Proof.Machine.execMinN t g d a b s
  | .maxN t g d a b => Sys2Proof.Machine.execMaxN t g d a b s
  | .addSat t g d a b => Sys2Proof.Machine.execAddSat t g d a b s
  | .subSat t g d a b => Sys2Proof.Machine.execSubSat t g d a b s
  | .andn t g d a b => Sys2Proof.Machine.execAndn t g d a b s
  | .ror t g d a b => Sys2Proof.Machine.execRor t g d a b s
  | .addi t d a im => Sys2Proof.Machine.execAddi t d a im s
  | .andi t d a im => Sys2Proof.Machine.execAndi t d a im s
  | .ori t d a im => Sys2Proof.Machine.execOri t d a im s
  | .xori t d a im => Sys2Proof.Machine.execXori t d a im s
  | .slli t d a im => Sys2Proof.Machine.execSlli t d a im s
  | .srli t d a im => Sys2Proof.Machine.execSrli t d a im s
  | .srai t d a im => Sys2Proof.Machine.execSrai t d a im s
  | .rori t d a im => Sys2Proof.Machine.execRori t d a im s
  | .mul t g d a b => Sys2Proof.Machine.execMul t g d a b s
  | .mulh t g d a b => Sys2Proof.Machine.execMulh t g d a b s
  | .mulhN t g d a b => Sys2Proof.Machine.execMulhN t g d a b s
  | .div t g d a b => Sys2Proof.Machine.execDiv t g d a b s
  | .divN t g d a b => Sys2Proof.Machine.execDivN t g d a b s
  | .rem t g d a b => Sys2Proof.Machine.execRem t g d a b s
  | .remN t g d a b => Sys2Proof.Machine.execRemN t g d a b s
  | .clz t g d a => Sys2Proof.Machine.execClz t g d a s
  | .ctz t g d a => Sys2Proof.Machine.execCtz t g d a s
  | .cpop t g d a => Sys2Proof.Machine.execCpop t g d a s
  | .sextB t g d a => Sys2Proof.Machine.execSextB t g d a s
  | .sextH t g d a => Sys2Proof.Machine.execSextH t g d a s
  | .sextW t g d a => Sys2Proof.Machine.execSextW t g d a s
  | .zextB t g d a => Sys2Proof.Machine.execZextB t g d a s
  | .zextH t g d a => Sys2Proof.Machine.execZextH t g d a s
  | .zextW t g d a => Sys2Proof.Machine.execZextW t g d a s
  | .lim t g d im => Sys2Proof.Machine.execLim t g d im s
  | .ext p => Sys2Proof.Machine.execExt p s
  | .cmpEq t g d a b => Sys2Proof.Machine.execCmpEq t g d a b s
  | .cmpNe t g d a b => Sys2Proof.Machine.execCmpNe t g d a b s
  | .cmpLt t g d a b => Sys2Proof.Machine.execCmpLt t g d a b s
  | .cmpGe t g d a b => Sys2Proof.Machine.execCmpGe t g d a b s
  | .cmpLtN t g d a b => Sys2Proof.Machine.execCmpLtN t g d a b s
  | .cmpGeN t g d a b => Sys2Proof.Machine.execCmpGeN t g d a b s
  | .tbit t g d a b => Sys2Proof.Machine.execTbit t g d a b s
  | .pand t g d a b => Sys2Proof.Machine.execPand t g d a b s
  | .por t g d a b => Sys2Proof.Machine.execPor t g d a b s
  | .pxor t g d a b => Sys2Proof.Machine.execPxor t g d a b s
  | .pandn t g d a b => Sys2Proof.Machine.execPandn t g d a b s
  | .pnot t g d a => Sys2Proof.Machine.execPnot t g d a s
  | .pset t g d => Sys2Proof.Machine.execPset t g d s
  | .pclr t g d => Sys2Proof.Machine.execPclr t g d s
  | .br t g o => Sys2Proof.Machine.execBr t g o s
  | .call t g o => Sys2Proof.Machine.execCall t g o s
  | .jmp t g a => Sys2Proof.Machine.execJmp t g a s
  | .ret t g => Sys2Proof.Machine.execRet t g s
  | .callr t g a => Sys2Proof.Machine.execCallr t g a s
  | .loop t g n im => Sys2Proof.Machine.execLoop t g n im s
  | .brl t g n sc o => Sys2Proof.Machine.execBrl t g n sc o s
  | .rot t g => Sys2Proof.Machine.execRot t g s
  | .lcset t g n a => Sys2Proof.Machine.execLcset t g n a s
  | .lcrd t g n d => Sys2Proof.Machine.execLcrd t g n d s
  | .mfs t g d r => Sys2Proof.Machine.execMfs t g d r s
  | .mts t g a r => Sys2Proof.Machine.execMts t g a r s
  | .trap t g im => Sys2Proof.Machine.execTrap t g im s
  | .eret t g m => Sys2Proof.Machine.execEret t g m s
  | .yield t g => Sys2Proof.Machine.execYield t g s
  | .tail t g => Sys2Proof.Machine.execTail t g s
  | .tsm t g => Sys2Proof.Machine.execTsm t g s
  | .fenceRel t c => Sys2Proof.Machine.execFenceRel t c s
  | .fenceAcq t c => Sys2Proof.Machine.execFenceAcq t c s
  | .fenceAr t c => Sys2Proof.Machine.execFenceAr t c s
  | .barWait t c d a b => Sys2Proof.Machine.execBarWait t c d a b s
  | .blaze t q a b => Sys2Proof.Machine.execBlaze t q a b s
  | .join t => Sys2Proof.Machine.execJoin t s
  | .tlwait t k a b => Sys2Proof.Machine.execTlwait t k a b s
  | .tlrd t d k => Sys2Proof.Machine.execTlrd t d k s
  | .enq t g d a b => Sys2Proof.Machine.execEnq t g d a b s
  | .scopeLd t g d a => Sys2Proof.Machine.execScopeLd t g d a s
  | .cinv t g => Sys2Proof.Machine.execCinv t g s
  | .vset t d a im => Sys2Proof.Machine.execVset t d a im s
  | .vsetMax t d im => Sys2Proof.Machine.execVsetMax t d im s
  | .ldBG t d a o => Sys2Proof.Machine.execLdBG t d a o s
  | .ldHG t d a o => Sys2Proof.Machine.execLdHG t d a o s
  | .ldWG t d a o => Sys2Proof.Machine.execLdWG t d a o s
  | .ldDG t d a o => Sys2Proof.Machine.execLdDG t d a o s
  | .ldBNG t d a o => Sys2Proof.Machine.execLdBNG t d a o s
  | .ldHNG t d a o => Sys2Proof.Machine.execLdHNG t d a o s
  | .ldWNG t d a o => Sys2Proof.Machine.execLdWNG t d a o s
  | .ldBX t d a o => Sys2Proof.Machine.execLdBX t d a o s
  | .ldHX t d a o => Sys2Proof.Machine.execLdHX t d a o s
  | .ldWX t d a o => Sys2Proof.Machine.execLdWX t d a o s
  | .ldDX t d a o => Sys2Proof.Machine.execLdDX t d a o s
  | .ldBNX t d a o => Sys2Proof.Machine.execLdBNX t d a o s
  | .ldHNX t d a o => Sys2Proof.Machine.execLdHNX t d a o s
  | .ldWNX t d a o => Sys2Proof.Machine.execLdWNX t d a o s
  | .ldBL t d a o => Sys2Proof.Machine.execLdBL t d a o s
  | .ldHL t d a o => Sys2Proof.Machine.execLdHL t d a o s
  | .ldWL t d a o => Sys2Proof.Machine.execLdWL t d a o s
  | .ldDL t d a o => Sys2Proof.Machine.execLdDL t d a o s
  | .ldBNL t d a o => Sys2Proof.Machine.execLdBNL t d a o s
  | .ldHNL t d a o => Sys2Proof.Machine.execLdHNL t d a o s
  | .ldWNL t d a o => Sys2Proof.Machine.execLdWNL t d a o s
  | .ldBGRr t g d a b => Sys2Proof.Machine.execLdBGRr t g d a b s
  | .ldHGRr t g d a b => Sys2Proof.Machine.execLdHGRr t g d a b s
  | .ldWGRr t g d a b => Sys2Proof.Machine.execLdWGRr t g d a b s
  | .ldDGRr t g d a b => Sys2Proof.Machine.execLdDGRr t g d a b s
  | .ldBXRr t g d a b => Sys2Proof.Machine.execLdBXRr t g d a b s
  | .ldHXRr t g d a b => Sys2Proof.Machine.execLdHXRr t g d a b s
  | .ldWXRr t g d a b => Sys2Proof.Machine.execLdWXRr t g d a b s
  | .ldDXRr t g d a b => Sys2Proof.Machine.execLdDXRr t g d a b s
  | .ldBLRr t g d a b => Sys2Proof.Machine.execLdBLRr t g d a b s
  | .ldHLRr t g d a b => Sys2Proof.Machine.execLdHLRr t g d a b s
  | .ldWLRr t g d a b => Sys2Proof.Machine.execLdWLRr t g d a b s
  | .ldDLRr t g d a b => Sys2Proof.Machine.execLdDLRr t g d a b s
  | .vldG t g d a b => Sys2Proof.Machine.execVldG t g d a b s
  | .vldsG t g d a b => Sys2Proof.Machine.execVldsG t g d a b s
  | .vldxG t g d a b => Sys2Proof.Machine.execVldxG t g d a b s
  | .vldFfG t g d a b => Sys2Proof.Machine.execVldFfG t g d a b s
  | .vldX t g d a b => Sys2Proof.Machine.execVldX t g d a b s
  | .vldsX t g d a b => Sys2Proof.Machine.execVldsX t g d a b s
  | .vldxX t g d a b => Sys2Proof.Machine.execVldxX t g d a b s
  | .vldFfX t g d a b => Sys2Proof.Machine.execVldFfX t g d a b s
  | .vldL t g d a b => Sys2Proof.Machine.execVldL t g d a b s
  | .vldsL t g d a b => Sys2Proof.Machine.execVldsL t g d a b s
  | .vldxL t g d a b => Sys2Proof.Machine.execVldxL t g d a b s
  | .vldFfL t g d a b => Sys2Proof.Machine.execVldFfL t g d a b s
  | .ldcB t d a o => Sys2Proof.Machine.execLdcB t d a o s
  | .ldcH t d a o => Sys2Proof.Machine.execLdcH t d a o s
  | .ldcW t d a o => Sys2Proof.Machine.execLdcW t d a o s
  | .ldcD t d a o => Sys2Proof.Machine.execLdcD t d a o s
  | .ldcBN t d a o => Sys2Proof.Machine.execLdcBN t d a o s
  | .ldcHN t d a o => Sys2Proof.Machine.execLdcHN t d a o s
  | .ldcWN t d a o => Sys2Proof.Machine.execLdcWN t d a o s
  | .cpy t g d a b c => Sys2Proof.Machine.execCpy t g d a b c s
  | .cpyA t g d a b c => Sys2Proof.Machine.execCpyA t g d a b c s
  | .cpyB t g d a b c => Sys2Proof.Machine.execCpyB t g d a b c s
  | .flgetX t c d a b => Sys2Proof.Machine.execFlgetX t c d a b s
  | .flgetV t c d a => Sys2Proof.Machine.execFlgetV t c d a s
  | .ring t g d a b => Sys2Proof.Machine.execRing t g d a b s
  | .pfL1 t a o => Sys2Proof.Machine.execPfL1 t a o s
  | .pfCrew t a o => Sys2Proof.Machine.execPfCrew t a o s
  | .lrenew t a o => Sys2Proof.Machine.execLrenew t a o s
  | .vadd t g d a b => Sys2Proof.Machine.execVadd t g d a b s
  | .vsub t g d a b => Sys2Proof.Machine.execVsub t g d a b s
  | .vmul t g d a b => Sys2Proof.Machine.execVmul t g d a b s
  | .vmulh t g d a b => Sys2Proof.Machine.execVmulh t g d a b s
  | .vand t g d a b => Sys2Proof.Machine.execVand t g d a b s
  | .vor t g d a b => Sys2Proof.Machine.execVor t g d a b s
  | .vxor t g d a b => Sys2Proof.Machine.execVxor t g d a b s
  | .vsll t g d a b => Sys2Proof.Machine.execVsll t g d a b s
  | .vsrl t g d a b => Sys2Proof.Machine.execVsrl t g d a b s
  | .vsra t g d a b => Sys2Proof.Machine.execVsra t g d a b s
  | .vmin t g d a b => Sys2Proof.Machine.execVmin t g d a b s
  | .vmax t g d a b => Sys2Proof.Machine.execVmax t g d a b s
  | .vminN t g d a b => Sys2Proof.Machine.execVminN t g d a b s
  | .vmaxN t g d a b => Sys2Proof.Machine.execVmaxN t g d a b s
  | .vaddSat t g d a b => Sys2Proof.Machine.execVaddSat t g d a b s
  | .vsubSat t g d a b => Sys2Proof.Machine.execVsubSat t g d a b s
  | .vaddS t g d a b => Sys2Proof.Machine.execVaddS t g d a b s
  | .vsubS t g d a b => Sys2Proof.Machine.execVsubS t g d a b s
  | .vrsubS t g d a b => Sys2Proof.Machine.execVrsubS t g d a b s
  | .vmulS t g d a b => Sys2Proof.Machine.execVmulS t g d a b s
  | .vandS t g d a b => Sys2Proof.Machine.execVandS t g d a b s
  | .vorS t g d a b => Sys2Proof.Machine.execVorS t g d a b s
  | .vxorS t g d a b => Sys2Proof.Machine.execVxorS t g d a b s
  | .vsllS t g d a b => Sys2Proof.Machine.execVsllS t g d a b s
  | .vsrlS t g d a b => Sys2Proof.Machine.execVsrlS t g d a b s
  | .vsraS t g d a b => Sys2Proof.Machine.execVsraS t g d a b s
  | .vminS t g d a b => Sys2Proof.Machine.execVminS t g d a b s
  | .vmaxS t g d a b => Sys2Proof.Machine.execVmaxS t g d a b s
  | .vminNS t g d a b => Sys2Proof.Machine.execVminNS t g d a b s
  | .vmaxNS t g d a b => Sys2Proof.Machine.execVmaxNS t g d a b s
  | .vaddSatS t g d a b => Sys2Proof.Machine.execVaddSatS t g d a b s
  | .vaddSatNS t g d a b => Sys2Proof.Machine.execVaddSatNS t g d a b s
  | .vfadd t g d a b => Sys2Proof.Machine.execVfadd t g d a b s
  | .vfsub t g d a b => Sys2Proof.Machine.execVfsub t g d a b s
  | .vfmul t g d a b => Sys2Proof.Machine.execVfmul t g d a b s
  | .vfmin t g d a b => Sys2Proof.Machine.execVfmin t g d a b s
  | .vfmax t g d a b => Sys2Proof.Machine.execVfmax t g d a b s
  | .vfabs t g d a => Sys2Proof.Machine.execVfabs t g d a s
  | .vfneg t g d a => Sys2Proof.Machine.execVfneg t g d a s
  | .vfaddS t g d a b => Sys2Proof.Machine.execVfaddS t g d a b s
  | .vfmulS t g d a b => Sys2Proof.Machine.execVfmulS t g d a b s
  | .vfminS t g d a b => Sys2Proof.Machine.execVfminS t g d a b s
  | .vfmaxS t g d a b => Sys2Proof.Machine.execVfmaxS t g d a b s
  | .vfma t g d a b => Sys2Proof.Machine.execVfma t g d a b s
  | .vfms t g d a b => Sys2Proof.Machine.execVfms t g d a b s
  | .vfnms t g d a b => Sys2Proof.Machine.execVfnms t g d a b s
  | .vfnma t g d a b => Sys2Proof.Machine.execVfnma t g d a b s
  | .vfmaS t g d a b => Sys2Proof.Machine.execVfmaS t g d a b s
  | .vmacc t g d a b => Sys2Proof.Machine.execVmacc t g d a b s
  | .vmaccS t g d a b => Sys2Proof.Machine.execVmaccS t g d a b s
  | .vcmpEq t g d a b => Sys2Proof.Machine.execVcmpEq t g d a b s
  | .vcmpNe t g d a b => Sys2Proof.Machine.execVcmpNe t g d a b s
  | .vcmpLt t g d a b => Sys2Proof.Machine.execVcmpLt t g d a b s
  | .vcmpLe t g d a b => Sys2Proof.Machine.execVcmpLe t g d a b s
  | .vcmpLtN t g d a b => Sys2Proof.Machine.execVcmpLtN t g d a b s
  | .vcmpLeN t g d a b => Sys2Proof.Machine.execVcmpLeN t g d a b s
  | .vfcmpEq t g d a b => Sys2Proof.Machine.execVfcmpEq t g d a b s
  | .vfcmpLt t g d a b => Sys2Proof.Machine.execVfcmpLt t g d a b s
  | .vfcmpLe t g d a b => Sys2Proof.Machine.execVfcmpLe t g d a b s
  | .vfcmpUn t g d a b => Sys2Proof.Machine.execVfcmpUn t g d a b s
  | .vcmpEqS t g d a b => Sys2Proof.Machine.execVcmpEqS t g d a b s
  | .vcmpLtS t g d a b => Sys2Proof.Machine.execVcmpLtS t g d a b s
  | .vcmpGtS t g d a b => Sys2Proof.Machine.execVcmpGtS t g d a b s
  | .vfcmpLtS t g d a b => Sys2Proof.Machine.execVfcmpLtS t g d a b s
  | .vfcmpGtS t g d a b => Sys2Proof.Machine.execVfcmpGtS t g d a b s
  | .kand t d a b => Sys2Proof.Machine.execKand t d a b s
  | .kor t d a b => Sys2Proof.Machine.execKor t d a b s
  | .kxor t d a b => Sys2Proof.Machine.execKxor t d a b s
  | .kandn t d a b => Sys2Proof.Machine.execKandn t d a b s
  | .knot t d a => Sys2Proof.Machine.execKnot t d a s
  | .kset t d => Sys2Proof.Machine.execKset t d s
  | .kclr t d => Sys2Proof.Machine.execKclr t d s
  | .vcvtF32 t g d a r m => Sys2Proof.Machine.execVcvtF32 t g d a r m s
  | .vcvtBf16 t g d a r m => Sys2Proof.Machine.execVcvtBf16 t g d a r m s
  | .vcvtF16 t g d a r m => Sys2Proof.Machine.execVcvtF16 t g d a r m s
  | .vcvtE4m3 t g d a r m => Sys2Proof.Machine.execVcvtE4m3 t g d a r m s
  | .vcvtE5m2 t g d a r m => Sys2Proof.Machine.execVcvtE5m2 t g d a r m s
  | .vcvtE2m1 t g d a r m => Sys2Proof.Machine.execVcvtE2m1 t g d a r m s
  | .vcvtEfE4m3 t g d a r m => Sys2Proof.Machine.execVcvtEfE4m3 t g d a r m s
  | .vcvtEfE2m1 t g d a r m => Sys2Proof.Machine.execVcvtEfE2m1 t g d a r m s
  | .vcvtEfBf16 t g d a r m => Sys2Proof.Machine.execVcvtEfBf16 t g d a r m s
  | .vwidE4m3 t g d a r m => Sys2Proof.Machine.execVwidE4m3 t g d a r m s
  | .vwidE5m2 t g d a r m => Sys2Proof.Machine.execVwidE5m2 t g d a r m s
  | .vwidE2m1 t g d a r m => Sys2Proof.Machine.execVwidE2m1 t g d a r m s
  | .vcvtFI t g d a r m => Sys2Proof.Machine.execVcvtFI t g d a r m s
  | .vcvtFN t g d a r m => Sys2Proof.Machine.execVcvtFN t g d a r m s
  | .vcvtIF t g d a r m => Sys2Proof.Machine.execVcvtIF t g d a r m s
  | .vcvtNF t g d a r m => Sys2Proof.Machine.execVcvtNF t g d a r m s
  | .vslideup t g d a b => Sys2Proof.Machine.execVslideup t g d a b s
  | .vslidedn t g d a b => Sys2Proof.Machine.execVslidedn t g d a b s
  | .vgatherC t g d a b => Sys2Proof.Machine.execVgatherC t g d a b s
  | .vbcastC t g d a b => Sys2Proof.Machine.execVbcastC t g d a b s
  | .vgatherR t g d a b => Sys2Proof.Machine.execVgatherR t g d a b s
  | .vrotR t g d a b => Sys2Proof.Machine.execVrotR t g d a b s
  | .vbcastR t g d a b => Sys2Proof.Machine.execVbcastR t g d a b s
  | .vtr16 t g d a => Sys2Proof.Machine.execVtr16 t g d a s
  | .vredsumC t g d a => Sys2Proof.Machine.execVredsumC t g d a s
  | .vredmaxC t g d a => Sys2Proof.Machine.execVredmaxC t g d a s
  | .vredminC t g d a => Sys2Proof.Machine.execVredminC t g d a s
  | .vredmaxNC t g d a => Sys2Proof.Machine.execVredmaxNC t g d a s
  | .vfredsumC t g d a => Sys2Proof.Machine.execVfredsumC t g d a s
  | .vfredmaxC t g d a => Sys2Proof.Machine.execVfredmaxC t g d a s
  | .vfredminC t g d a => Sys2Proof.Machine.execVfredminC t g d a s
  | .vredsumR t g d a => Sys2Proof.Machine.execVredsumR t g d a s
  | .vredmaxR t g d a => Sys2Proof.Machine.execVredmaxR t g d a s
  | .vredminR t g d a => Sys2Proof.Machine.execVredminR t g d a s
  | .vredmaxNR t g d a => Sys2Proof.Machine.execVredmaxNR t g d a s
  | .vfredsumR t g d a => Sys2Proof.Machine.execVfredsumR t g d a s
  | .vfredmaxR t g d a => Sys2Proof.Machine.execVfredmaxR t g d a s
  | .vfredminR t g d a => Sys2Proof.Machine.execVfredminR t g d a s
  | .vredminNC t g d a => Sys2Proof.Machine.execVredminNC t g d a s
  | .vredminNR t g d a => Sys2Proof.Machine.execVredminNR t g d a s
  | .vexp2 t g d a => Sys2Proof.Machine.execVexp2 t g d a s
  | .vlog2 t g d a => Sys2Proof.Machine.execVlog2 t g d a s
  | .vrcp t g d a => Sys2Proof.Machine.execVrcp t g d a s
  | .vrsqrt t g d a => Sys2Proof.Machine.execVrsqrt t g d a s
  | .vtanh t g d a => Sys2Proof.Machine.execVtanh t g d a s
  | .vmov t g d a => Sys2Proof.Machine.execVmov t g d a s
  | .vmovS t g d b => Sys2Proof.Machine.execVmovS t g d b s
  | .vsel t g d a b => Sys2Proof.Machine.execVsel t g d a b s
  | .vmovk t g d a => Sys2Proof.Machine.execVmovk t g d a s
  | .vmovv t g d a => Sys2Proof.Machine.execVmovv t g d a s
  | .vid t g d => Sys2Proof.Machine.execVid t g d s
  | .vrid t g d => Sys2Proof.Machine.execVrid t g d s
  | .vmovi t g d im => Sys2Proof.Machine.execVmovi t g d im s
  | .mcfg t g d a => Sys2Proof.Machine.execMcfg t g d a s
  | .mcfgz t g => Sys2Proof.Machine.execMcfgz t g s
  | .mgo t g d => Sys2Proof.Machine.execMgo t g d s
  | .mstat t g d => Sys2Proof.Machine.execMstat t g d s
  | .accrd t g d a b => Sys2Proof.Machine.execAccrd t g d a b s
  | .acczero t g d => Sys2Proof.Machine.execAcczero t g d s
  | .accwr t g d a b => Sys2Proof.Machine.execAccwr t g d a b s
  | .wcfg t g d a => Sys2Proof.Machine.execWcfg t g d a s
  | .wgo t g a => Sys2Proof.Machine.execWgo t g a s
  | .ftld t g d a => Sys2Proof.Machine.execFtld t g d a s
  | .ftclr t g d => Sys2Proof.Machine.execFtclr t g d s
  | .ftrd t g d a => Sys2Proof.Machine.execFtrd t g d a s
  | .ftmon t g d => Sys2Proof.Machine.execFtmon t g d s
  | .stBG t d a o => Sys2Proof.Machine.execStBG t d a o s
  | .stHG t d a o => Sys2Proof.Machine.execStHG t d a o s
  | .stWG t d a o => Sys2Proof.Machine.execStWG t d a o s
  | .stDG t d a o => Sys2Proof.Machine.execStDG t d a o s
  | .stBX t d a o => Sys2Proof.Machine.execStBX t d a o s
  | .stHX t d a o => Sys2Proof.Machine.execStHX t d a o s
  | .stWX t d a o => Sys2Proof.Machine.execStWX t d a o s
  | .stDX t d a o => Sys2Proof.Machine.execStDX t d a o s
  | .stBL t d a o => Sys2Proof.Machine.execStBL t d a o s
  | .stHL t d a o => Sys2Proof.Machine.execStHL t d a o s
  | .stWL t d a o => Sys2Proof.Machine.execStWL t d a o s
  | .stDL t d a o => Sys2Proof.Machine.execStDL t d a o s
  | .stBGRr t g d a b => Sys2Proof.Machine.execStBGRr t g d a b s
  | .stHGRr t g d a b => Sys2Proof.Machine.execStHGRr t g d a b s
  | .stWGRr t g d a b => Sys2Proof.Machine.execStWGRr t g d a b s
  | .stDGRr t g d a b => Sys2Proof.Machine.execStDGRr t g d a b s
  | .stBXRr t g d a b => Sys2Proof.Machine.execStBXRr t g d a b s
  | .stHXRr t g d a b => Sys2Proof.Machine.execStHXRr t g d a b s
  | .stWXRr t g d a b => Sys2Proof.Machine.execStWXRr t g d a b s
  | .stDXRr t g d a b => Sys2Proof.Machine.execStDXRr t g d a b s
  | .stBLRr t g d a b => Sys2Proof.Machine.execStBLRr t g d a b s
  | .stHLRr t g d a b => Sys2Proof.Machine.execStHLRr t g d a b s
  | .stWLRr t g d a b => Sys2Proof.Machine.execStWLRr t g d a b s
  | .stDLRr t g d a b => Sys2Proof.Machine.execStDLRr t g d a b s
  | .vstG t g d a b => Sys2Proof.Machine.execVstG t g d a b s
  | .vstsG t g d a b => Sys2Proof.Machine.execVstsG t g d a b s
  | .vstxG t g d a b => Sys2Proof.Machine.execVstxG t g d a b s
  | .vstNtG t g d a b => Sys2Proof.Machine.execVstNtG t g d a b s
  | .vstX t g d a b => Sys2Proof.Machine.execVstX t g d a b s
  | .vstsX t g d a b => Sys2Proof.Machine.execVstsX t g d a b s
  | .vstxX t g d a b => Sys2Proof.Machine.execVstxX t g d a b s
  | .vstL t g d a b => Sys2Proof.Machine.execVstL t g d a b s
  | .vstsL t g d a b => Sys2Proof.Machine.execVstsL t g d a b s
  | .vstxL t g d a b => Sys2Proof.Machine.execVstxL t g d a b s
  | .amoLdW t c d a => Sys2Proof.Machine.execAmoLdW t c d a s
  | .amoStW t c a b => Sys2Proof.Machine.execAmoStW t c a b s
  | .amoSwapW t c d a b => Sys2Proof.Machine.execAmoSwapW t c d a b s
  | .amoCasW t c d a b => Sys2Proof.Machine.execAmoCasW t c d a b s
  | .amoAddW t c d a b => Sys2Proof.Machine.execAmoAddW t c d a b s
  | .amoOrW t c d a b => Sys2Proof.Machine.execAmoOrW t c d a b s
  | .amoMinW t c d a b => Sys2Proof.Machine.execAmoMinW t c d a b s
  | .amoMaxW t c d a b => Sys2Proof.Machine.execAmoMaxW t c d a b s
  | .amoLdD t c d a => Sys2Proof.Machine.execAmoLdD t c d a s
  | .amoStD t c a b => Sys2Proof.Machine.execAmoStD t c a b s
  | .amoSwapD t c d a b => Sys2Proof.Machine.execAmoSwapD t c d a b s
  | .amoCasD t c d a b => Sys2Proof.Machine.execAmoCasD t c d a b s
  | .amoAddD t c d a b => Sys2Proof.Machine.execAmoAddD t c d a b s
  | .amoOrD t c d a b => Sys2Proof.Machine.execAmoOrD t c d a b s
  | .amoMinD t c d a b => Sys2Proof.Machine.execAmoMinD t c d a b s
  | .amoMaxD t c d a b => Sys2Proof.Machine.execAmoMaxD t c d a b s
  | .redAddW t c a b => Sys2Proof.Machine.execRedAddW t c a b s
  | .redAddD t c a b => Sys2Proof.Machine.execRedAddD t c a b s
  | .redAddF32 t c a b => Sys2Proof.Machine.execRedAddF32 t c a b s
  | .redMinW t c a b => Sys2Proof.Machine.execRedMinW t c a b s
  | .redMaxW t c a b => Sys2Proof.Machine.execRedMaxW t c a b s
  | .redOrD t c a b => Sys2Proof.Machine.execRedOrD t c a b s
  | .lupd t c d a b => Sys2Proof.Machine.execLupd t c d a b s
  | .flput t c a b => Sys2Proof.Machine.execFlput t c a b s
  | .push t c d a b => Sys2Proof.Machine.execPush t c d a b s
  | .barArrive t c d a => Sys2Proof.Machine.execBarArrive t c d a s
  | .cwb t g a => Sys2Proof.Machine.execCwb t g a s
  | .cev t g a => Sys2Proof.Machine.execCev t g a s
  | .l1inv t g => Sys2Proof.Machine.execL1inv t g s
  | .coldReset => Sys2Proof.Machine.execColdReset s
  | .coldrst v => Sys2Proof.Machine.execColdrst v s
  | .warmReset => Sys2Proof.Machine.execWarmReset s
  | .firmwareWatchdogExpiry => Sys2Proof.Machine.execFirmwareWatchdogExpiry s
  | .portReset port => Sys2Proof.Machine.execPortReset port s
  | .functionLevelResetVf vf => Sys2Proof.Machine.execFunctionLevelResetVf vf s
  | .functionLevelResetPf pf => Sys2Proof.Machine.execFunctionLevelResetPf pf s
  | .pufReconstruction => Sys2Proof.Machine.execPufReconstruction s
  | .linkTraining port => Sys2Proof.Machine.execLinkTraining port s
  | .slotVerification => Sys2Proof.Machine.execSlotVerification s
  | .memoryTraining ok => Sys2Proof.Machine.execMemoryTraining ok s
  | .deviceReady => Sys2Proof.Machine.execDeviceReady s
  | .powerSample watts => Sys2Proof.Machine.execPowerSample watts s
  | .arithClockStepDone => Sys2Proof.Machine.execArithClockStepDone s
  | .junctionThrottle temp => Sys2Proof.Machine.execJunctionThrottle temp s
  | .throttleRelease temp => Sys2Proof.Machine.execThrottleRelease temp s
  | .thermalTrip temp => Sys2Proof.Machine.execThermalTrip temp s
  | .entdaa addr => Sys2Proof.Machine.execEntdaa addr s
  | .sbLimitWrite v => Sys2Proof.Machine.execSbLimitWrite v s
  | .sbMeasRead => Sys2Proof.Machine.execSbMeasRead s
  | .lifetimeRecordTimer => Sys2Proof.Machine.execLifetimeRecordTimer s
  | .cxlLinkLoss port => Sys2Proof.Machine.execCxlLinkLoss port s
  | .ptmDialog off => Sys2Proof.Machine.execPtmDialog off s
  | .tbStepsRead => Sys2Proof.Machine.execTbStepsRead s
  | .atsInvalidateRequest f base len => Sys2Proof.Machine.execAtsInvalidateRequest f base len s
  | .hostInboundRead f bar off len => Sys2Proof.Machine.execHostInboundRead f bar off len s
  | .hostInboundWrite f bar off data => Sys2Proof.Machine.execHostInboundWrite f bar off data s
  | .peerInboundRequest port rid off len data => Sys2Proof.Machine.execPeerInboundRequest port rid off len data s
  | .registerWrite m off v => Sys2Proof.Machine.execRegisterWrite m off v s
  | .featackWrite f w v => Sys2Proof.Machine.execFeatackWrite f w v s
  | .mbxDoneRead f => Sys2Proof.Machine.execMbxDoneRead f s
  | .queueReg f slot => Sys2Proof.Machine.execQueueReg f slot s
  | .queueUnreg f slot => Sys2Proof.Machine.execQueueUnreg f slot s
  | .queueReset f slot => Sys2Proof.Machine.execQueueReset f slot s
  | .invalidate f slot => Sys2Proof.Machine.execInvalidate f slot s
  | .attest f slot => Sys2Proof.Machine.execAttest f slot s
  | .lifetime f slot => Sys2Proof.Machine.execLifetime f slot s
  | .invqSubmit m seq => Sys2Proof.Machine.execInvqSubmit m seq s
  | .invalidationAccept => Sys2Proof.Machine.execInvalidationAccept s
  | .invalidationComplete => Sys2Proof.Machine.execInvalidationComplete s
  | .atupd m v => Sys2Proof.Machine.execAtupd m v s
  | .atupdDone => Sys2Proof.Machine.execAtupdDone s
  | .slotMap slot q => Sys2Proof.Machine.execSlotMap slot q s
  | .slotUnmap slot => Sys2Proof.Machine.execSlotUnmap slot s
  | .unmapSaveComplete slot => Sys2Proof.Machine.execUnmapSaveComplete slot s
  | .queueWake q => Sys2Proof.Machine.execQueueWake q s
  | .frontEndClockGate => Sys2Proof.Machine.execFrontEndClockGate s
  | .frontEndUngate q => Sys2Proof.Machine.execFrontEndUngate q s
  | .waitRecordEval q => Sys2Proof.Machine.execWaitRecordEval q s
  | .packetFetch p level => Sys2Proof.Machine.execPacketFetch p level s
  | .nop p => Sys2Proof.Machine.execNop p s
  | .launch p => Sys2Proof.Machine.execLaunch p s
  | .bundle p => Sys2Proof.Machine.execBundle p s
  | .ib p => Sys2Proof.Machine.execIb p s
  | .pred p => Sys2Proof.Machine.execPred p s
  | .loopPacket p => Sys2Proof.Machine.execLoopPacket p s
  | .ffence p => Sys2Proof.Machine.execFfence p s
  | .tlsig p => Sys2Proof.Machine.execTlsig p s
  | .tlwaitPacket p => Sys2Proof.Machine.execTlwaitPacket p s
  | .tlwaitSatisfied p => Sys2Proof.Machine.execTlwaitSatisfied p s
  | .tlwaitExpired p => Sys2Proof.Machine.execTlwaitExpired p s
  | .write p => Sys2Proof.Machine.execWrite p s
  | .streamCreate p => Sys2Proof.Machine.execStreamCreate p s
  | .streamStart p => Sys2Proof.Machine.execStreamStart p s
  | .streamStop p => Sys2Proof.Machine.execStreamStop p s
  | .streamSetrung p => Sys2Proof.Machine.execStreamSetrung p s
  | .streamDestroy p => Sys2Proof.Machine.execStreamDestroy p s
  | .regionCreate p => Sys2Proof.Machine.execRegionCreate p s
  | .regionModify p => Sys2Proof.Machine.execRegionModify p s
  | .regionQuiesce p => Sys2Proof.Machine.execRegionQuiesce p s
  | .regionDestroy p => Sys2Proof.Machine.execRegionDestroy p s
  | .mark p => Sys2Proof.Machine.execMark p s
  | .copy p => Sys2Proof.Machine.execCopy p s
  | .workPacketComplete p id => Sys2Proof.Machine.execWorkPacketComplete p id s
  | .devqDispatch c => Sys2Proof.Machine.execDevqDispatch c s
  | .translationWalk c va => Sys2Proof.Machine.execTranslationWalk c va s
  | .pageInFramePop im => Sys2Proof.Machine.execPageInFramePop im s
  | .pageInComplete im ok => Sys2Proof.Machine.execPageInComplete im ok s
  | .frameRelease n => Sys2Proof.Machine.execFrameRelease n s
  | .slackEvaluation n frame => Sys2Proof.Machine.execSlackEvaluation n frame s
  | .frameDeadline n frame => Sys2Proof.Machine.execFrameDeadline n frame s
  | .frameJobFinish n frame => Sys2Proof.Machine.execFrameJobFinish n frame s
  | .encoderTilePop e => Sys2Proof.Machine.execEncoderTilePop e s
  | .encoderTileFill e => Sys2Proof.Machine.execEncoderTileFill e s
  | .encoderFrameDone e => Sys2Proof.Machine.execEncoderFrameDone e s
  | .operatorAccept im => Sys2Proof.Machine.execOperatorAccept im s
  | .tileStepPlace => Sys2Proof.Machine.execTileStepPlace s
  | .tileStepStart c => Sys2Proof.Machine.execTileStepStart c s
  | .overlayLoad c => Sys2Proof.Machine.execOverlayLoad c s
  | .tileStepRetire c => Sys2Proof.Machine.execTileStepRetire c s
  | .cruiserReplay sig third => Sys2Proof.Machine.execCruiserReplay sig third s
  | .coreIdleZeroing c => Sys2Proof.Machine.execCoreIdleZeroing c s
  | .starvationPromotion im => Sys2Proof.Machine.execStarvationPromotion im s
  | .rcbWriteback r => Sys2Proof.Machine.execRcbWriteback r s
  | .forcedPreemption im => Sys2Proof.Machine.execForcedPreemption im s
  | .contextSaveComplete c => Sys2Proof.Machine.execContextSaveComplete c s
  | .contextDrain im => Sys2Proof.Machine.execContextDrain im s
  | .contextReadback im => Sys2Proof.Machine.execContextReadback im s
  | .partitionSwapOut r => Sys2Proof.Machine.execPartitionSwapOut r s
  | .partitionSwapIn r => Sys2Proof.Machine.execPartitionSwapIn r s
  | .contextResume c => Sys2Proof.Machine.execContextResume c s
  | .scrubLine pa finding => Sys2Proof.Machine.execScrubLine pa finding s
  | .crewCacheEviction crew line => Sys2Proof.Machine.execCrewCacheEviction crew line s
  | .governorWindow dom count => Sys2Proof.Machine.execGovernorWindow dom count s
  | .clockHorizonAdvance => Sys2Proof.Machine.execClockHorizonAdvance s
  | .memoryAccessPerform im => Sys2Proof.Machine.execMemoryAccessPerform im s
  | .consumedUe c => Sys2Proof.Machine.execConsumedUe c s
  | .trapDetect c => Sys2Proof.Machine.execTrapDetect c s
  | .freezeComplete c => Sys2Proof.Machine.execFreezeComplete c s
  | .systemTrapResolve c d => Sys2Proof.Machine.execSystemTrapResolve c d s
  | .systemTrapTimeout c => Sys2Proof.Machine.execSystemTrapTimeout c s
  | .boundedWaitExpiry c q => Sys2Proof.Machine.execBoundedWaitExpiry c q s
  | .arrivalReceive c rec => Sys2Proof.Machine.execArrivalReceive c rec s
  | .handlerStart c => Sys2Proof.Machine.execHandlerStart c s
  | .copyCommandFinish c ctx => Sys2Proof.Machine.execCopyCommandFinish c ctx s
  | .deferredPageDelivery c im => Sys2Proof.Machine.execDeferredPageDelivery c im s
  | .sendFinish c => Sys2Proof.Machine.execSendFinish c s
  | .ackWriteFinish c => Sys2Proof.Machine.execAckWriteFinish c s
  | .mgoAccept c => Sys2Proof.Machine.execMgoAccept c s
  | .matrixChunkPass c => Sys2Proof.Machine.execMatrixChunkPass c s
  | .windowBlockPush c => Sys2Proof.Machine.execWindowBlockPush c s
  | .ringShift crew => Sys2Proof.Machine.execRingShift crew s
  | .configurationRequest f => Sys2Proof.Machine.execConfigurationRequest f s
  | .powerLoss mid => Sys2Proof.Machine.execPowerLoss mid s
  | .orderlyShutdown => Sys2Proof.Machine.execOrderlyShutdown s

end Sys2Proof.Machine
end

