-- ==== Sys2Proof/Machine/Fetch.lean ====
section
/-! DEFINITION. What the strand at the focus does when the agenda is empty (log 1): release of held pushes, issue of a queue
head, the fetch of the next word (spec/11 R287, spec/12 R300). -/

namespace Sys2Proof.Machine

/-- One turn of the machine: a state, or an instruction to execute. -/
inductive Turn where
  | done (s : State)
  | run (i : Instr)

/-- The strand may execute its next word: it runs, and no trap has stopped it (R262, R267). -/
def Core.mayFetch (c : Core) (st : Strand) : Bool :=
  c.trap.detected.isNone && (match st with
    | .main => decide (c.phase = .running) && c.heldC.isNone
    | .ctx h => c.hnd[h].running && (decide (c.phase = .running ∨ c.phase = .draining) || decide (c.phase = .trapStrand ∧ h = 2)))

/-- A strand that runs past the last code word (R287). -/
def Core.pastEnd (c : Core) (st : Strand) : Trap := mkTrap 0x24 0 st 0 0 (BitVec.ofNat 64 (c.pcOf st % 16384 + 3 * 65536))

/-- The word at the strand's index, decoded; a word read poisoned is a consumed uncorrectable error (R155, R160); an index past the image and a word that does not decode raise ILLEGAL (R279, R287). -/
noncomputable def State.fetch (s : State) : Turn :=
  let c := s.cur
  let st := s.focusStrand
  if c.img.ncode ≤ c.pcOf st then .done (takeTrap s.focusCore (c.pastEnd st) s)
  else if c.poison.contains { file := tagI, num := c.pcOf st } then .done (s.modCur (fun c => (c.meetIn c.po st [{ file := tagI, num := c.pcOf st }]).waitAt st 0 freeWait))
  else match decodeWord (c.word (c.pcOf st)).toNat with
    | .ok i => .run i
    | .error .unassigned => .done (illegalNow 1 1 s)
    | .error _ => .done (illegalNow 1 2 s)

/-- A queue head of a core that can issue now, unless its queues are held. -/
def State.readyHead (s : State) (n : Fin 128) : Option Qid :=
  if s.held[n] then none
  else if s.canIssue n .l then some .l else if s.canIssue n .x then some .x else if s.canIssue n .s then some .s else none

/-- The turn of the machine with an empty agenda: pushes that were held, a queue head, or the next word of the strand at the focus. -/
noncomputable def State.turn (s : State) : Turn :=
  let n := s.focusCore
  let c := s.cur
  match (match c.heldC with | some t => if c.live && c.canPush 0 t then some t else none | none => none) with
  | some t => .done (s.modCore n (fun c => { (c.pushes 0 t) with heldC := none, waits := c.waits.set 0 none }))
  | none =>
    match s.readyHead n with
    | some q => .done (s.issueHead n q)
    | none => if c.mayFetch s.focusStrand then s.fetch else .done s

/-- A sideband access, a cold reset, or the change of the temperature that SB_TEMP shows: what a stopped device still answers or measures (R12, R24, R25). -/
def Input.sideband : Input → Bool
  | .event (.coldReset) | .event (.coldrst _) | .event (.sbLimitWrite _) | .event (.sbMeasRead) | .event (.entdaa _) | .event (.powerLoss _) | .sbRead _ _ | .sbWrite _ _ _ | .sbFlash _ | .temperature _ => true
  | _ => false

end Sys2Proof.Machine
end

