-- ==== Sys2Proof/Machine/Step.lean ====
section
/-! DEFINITION. One step of the machine (log 1), and the placing of a word where it fetches next. -/

namespace Sys2Proof.Machine

/-- One step: the head of the agenda, or the turn of the strand at the focus. A device whose clocks are stopped answers the
sideband only (R12). -/
noncomputable def step (s : State) : Host.Outcome State Fault Refusal :=
  if s.board.fatal && !(s.agenda.head?.map Input.sideband).getD false then .fault .clocksStopped
  else match s.agenda with
    | .event i :: t => exec i { s with agenda := t }
    | x :: t => .next (State.input { s with agenda := t } x)
    | [] =>
      match s.turn with
      | .done s' => .next s'
      | .run i => exec i s

/-- The state with a 32-bit word where the main strand of the focused core fetches next: that core runs, its queues are empty,
nothing waits, and the word lies inside the image (log 10). -/
def State.withFetchWord (s : State) (_nbits w : Nat) : State :=
  let c := s.cur
  let c1 := { c with phase := .running, imem := sset 0 c.imem c.pc (BitVec.ofNat 32 w), img := { c.img with ncode := max c.img.ncode (c.pc + 1) },
                     qL := [], qX := [], qS := [], heldC := none, popped := false, waits := c.waits.set 0 none,
                     trap := { c.trap with detected := none } }
  { (s.setCore s.focusCore c1) with agenda := [], focusStrand := .main, board := { s.board with fatal := false } }

end Sys2Proof.Machine
end

