-- ==== Sys2Proof/Safety.lean ====
section
/-! DEFINITION. What claims are stated in: when a word of a strand runs to its own effect, and the states that it leaves
(spec/07 R175 to R180, spec/11 R278, R279, spec/12 R300). -/

namespace Sys2Proof.Machine

/-! ### Words of the control slot -/

/-- No register of the core is poisoned and no parity error is pending (R155, R157). -/
def Core.unmarked (c : Core) : Prop := c.poison = [] ∧ c.parity = []

/-- A C-class word with guard `g` and judgement `j` runs at the strand at the focus: it is not ILLEGAL, its tokens are there, its
guard is true, its scalars have been written, none is marked (R278, R279, R300). -/
def State.cRuns (s : State) (t : Tok) (g : Guard) (j : Judge) : Prop :=
  j.sub s.focusStrand t = none ∧ s.cur.cReady s.focusStrand t = true ∧ s.cur.unmarked ∧ s.cur.rdP s.focusStrand g = true
  ∧ s.cur.hazard s.focusStrand j = false

/-- The state after a C-class word of `len` words whose effect is `f` on its core, and which goes on at the next word. -/
def State.ranC (s : State) (t : Tok) (len : Nat) (f : Core → Core) : State :=
  s.setCore s.focusCore ((f s.cur).cDone s.focusStrand t (s.cur.pcOf s.focusStrand + len))

/-- The same for a word that goes on at word index `pc`. -/
def State.wentC (s : State) (t : Tok) (pc : Nat) (f : Core → Core) : State :=
  s.setCore s.focusCore ((f s.cur).cDone s.focusStrand t pc)

/-- The state after a C-class word that writes `v` to scalar `d`. -/
def State.wroteS (s : State) (t : Tok) (len : Nat) (d : Reg) (v : W64) : State := s.ranC t len (fun c => c.wrS s.focusStrand d v)

/-- The state after a C-class word that writes `b` to predicate `d`. -/
def State.wroteP (s : State) (t : Tok) (d : Reg) (b : Bool) : State := s.ranC t 1 (fun c => c.wrP s.focusStrand (p3 d) b)

/-! ### Scopes and releases -/

/-- A scope entry that the word's strand can use now: valid, at the generation it is captured with (R212, R213). -/
def State.scopeReady (s : State) (i : Fin 16) : Prop :=
  scopeV (s.scopeEntry s.focusCore i) = true
  ∧ (match s.focusStrand with | .main => s.cur.waits[(0 : Fin 4)] = none | .ctx h => s.cur.hnd[h].wait = none)

/-- The strand has no write in flight: a release waits for nothing (R215). -/
def State.noWrites (s : State) : Prop := ∀ x ∈ s.fab.inflight, s.ownCount s.focusCore s.focusStrand x = 0

/-- No load or store of the strand is still to perform: nothing is in the queues of the main strand, and no write is in flight (R215). -/
def State.nothingPending (s : State) : Prop := (s.focusStrand = .main → s.cur.qL = [] ∧ s.cur.qS = []) ∧ s.noWrites

/-- What `join` acquires through the marker of `tl7` (R219). -/
def State.acquiredMarks (s : State) : State := match s.cur.mem.marks[(10 : Fin 11)] with | some g => s.takeHandlers s.focusCore g | none => s

/-- No reduction of the core is in flight: the drain of a freeze meets no error in memory (R155, R264). -/
def State.noReds (s : State) : Prop := ∀ x ∈ s.fab.inflight, x.ofCore s.focusCore = true → x.op = .data

/-! ### Routed words -/

/-- A vector load. -/
def Uop.isVload : Uop → Bool
  | .vload .. => true
  | _ => false

/-- No vector load may be replayed before a word of a queue (R176, R180). -/
def Core.noVload (c : Core) (q : Qid) : Prop := q = .x → ∀ e ∈ c.mem.lob, e.word.uop.isVload = false

/-- What queue `q` of the main strand must be for a word to be routed into it and to issue at once: the core is not frozen, the
queue is empty and not held, there is room, no scalar and no `vld.ff` is awaited, no vector load may be replayed before an X word,
the tokens are there (R173 to R180, R367). -/
def State.queueReady (s : State) (q : Qid) (t : Tok) (j : Judge) : Prop :=
  s.cur.live = true ∧ s.held[s.focusCore] = false ∧ s.cur.queue q = [] ∧ 1 ≤ s.cur.img.slip ∧ s.cur.hazard .main j = false
  ∧ s.cur.ffPending = false ∧ s.cur.noVload q ∧ s.cur.canPop q.num t = true

/-- No word waits in a queue of the core, no load may be replayed, no engine command holds a scratch range. -/
def Core.alone (c : Core) : Prop := c.qL = [] ∧ c.qX = [] ∧ c.qS = [] ∧ c.mem.lob = [] ∧ c.eng.ranges = []

/-- An L, X or S word with judgement `j` runs at once at the strand at the focus, in the main strand through its queue, in a
handler strand as it is fetched (R189). -/
def State.qRuns (s : State) (q : Qid) (t : Tok) (j : Judge) : Prop :=
  j.sub s.focusStrand t = none ∧ s.cur.unmarked ∧ (s.focusStrand = .main → s.queueReady q t j)

/-- The same for a word that reaches memory or the engines: in the main strand nothing of the core stands before it. -/
def State.memRuns (s : State) (q : Qid) (t : Tok) (j : Judge) : Prop := s.qRuns q t j ∧ (s.focusStrand = .main → s.cur.alone)

/-- The word as it issues: captured at the control slot (R174), or a word of a handler strand. -/
def State.word (s : State) (t : Tok) (u : Uop) : Routed :=
  match s.focusStrand with
  | .main => s.cur.routed t true u
  | .ctx h => { s.cur.routed noTok true u with strand := .ctx h, idx := s.cur.hnd[h].pc, po := 0 }

/-- The state in which the word issues: in the main strand it stands at the head of its queue. -/
def State.atHead (s : State) (q : Qid) (t : Tok) (len : Nat) (u : Uop) : State :=
  match s.focusStrand with
  | .main => s.modCur (fun c => c.append q len (s.word t u))
  | .ctx _ => s

/-- The word of a queue's head leaves it, remembered for replay with what its sources held in `s` (R157, R178). -/
def State.kept (s : State) (n : Fin 128) (q : Qid) (r : Routed) (c : Core) : Core :=
  ((c.remember q (s.cores[n].qseq q.num) r ((r.uop.srcTags r.vtype).map s.cores[n].tagVal)).leave q r).unhand q

/-- The state after the effect `s1` of the word: it leaves its queue, or its handler strand goes on. -/
def State.leftHead (s s1 : State) (q : Qid) (t : Tok) (len : Nat) (u : Uop) : State :=
  match s.focusStrand with
  | .main => s1.modCore s.focusCore (fun c => (s.atHead q t len u).kept s.focusCore q (s.word t u) c)
  | .ctx h => s1.modCore s.focusCore (fun c => c.handlerRan h len u)

/-- The state after a routed word of `len` words whose effect as it issues is `eff`. -/
def State.ranQ (s : State) (q : Qid) (t : Tok) (len : Nat) (u : Uop) (eff : State → State) : State :=
  s.leftHead (eff (s.atHead q t len u)) q t len u

/-! ### Memory results -/

/-- Memory after the parts of a store that perform at once: scratch and ordinary parts; scoped parts are put in flight (R207). -/
def storedMem (m : Memory) (sp : Space) : List Piece → List Byte → Memory
  | [], _ => m
  | p :: ps, b => storedMem (if sp = .x ∨ p.ordinary = true then memWrite m p.pa (b.take p.len) else m) sp ps (b.drop p.len)

/-- The parts of a store that are put in flight: addresses and bytes. -/
def scopedParts (sp : Space) : List Piece → List Byte → List (Nat × List Byte)
  | [], _ => []
  | p :: ps, b => (if sp = .x ∨ p.ordinary = true then [] else [(p.pa, b.take p.len)]) ++ scopedParts sp ps (b.drop p.len)

/-- Runs of bytes written to memory in order. -/
def storedRuns (m : Memory) (runs : List (Nat × List Byte)) : Memory := runs.foldl (fun m x => memWrite m x.1 x.2) m

/-- The elements of a vector store that one event writes are one granule (R206); an element in several parts is stored part by part. -/
def inParts : List StoreElem → Bool
  | [x] => x.ps.length != 1
  | _ => false

/-- The group performs at once: scratch, or ordinary parts. -/
def groupNow (sp : Space) (g : List StoreElem) : Bool := decide (sp = .x) || g.any (fun x => x.ps.any (·.ordinary))

/-- Memory after a group of elements of a vector store. -/
def storedGroup (sp : Space) (m : Memory) (g : List StoreElem) : Memory :=
  if inParts g then g.foldl (fun m x => storedMem m sp x.ps x.bytes) m else if groupNow sp g then storedRuns m (granuleRuns g) else m

/-- What a group puts in flight: for each write its runs of bytes. -/
def scopedGroup (sp : Space) (g : List StoreElem) : List (List (Nat × List Byte)) :=
  if inParts g then g.flatMap (fun x => (scopedParts sp x.ps x.bytes).map (fun r => [r]))
  else if groupNow sp g then [] else match granuleRuns g with | [] => [] | l => [l]

/-- No granule is poisoned and no dirty line of a crew cache is uncorrectable (R155, R163). -/
def State.clean (s : State) : Prop := s.ras.poison = [] ∧ s.fab.badDirty = []

/-- A number of `sz` bytes extended to 64 bits (R359). -/
def extended64 (signed : Bool) (sz x : Nat) : W64 := if signed then (BitVec.ofNat (8 * sz) x).signExtend 64 else BitVec.ofNat 64 x

/-- The strand at the focus has gone on by `len` words and its other registers stand: of the scalars `d` alone may have changed. -/
def State.wentOn (s s' : State) (len : Nat) (d : Option Reg) : Prop :=
  s'.cur.pcOf s.focusStrand = s.cur.pcOf s.focusStrand + len ∧ s'.cur.regs.p = s.cur.regs.p ∧ s'.cur.regs.lc = s.cur.regs.lc
  ∧ s'.cur.regs.acc = s.cur.regs.acc ∧ s'.cur.sys.rotb = s.cur.sys.rotb ∧ s'.cur.sys.fpcr = s.cur.sys.fpcr ∧ s'.cur.sys.fpsr = s.cur.sys.fpsr
  ∧ s'.cur.phase = s.cur.phase ∧ ∀ r : Reg, some r ≠ d → (∀ h : Fin 3, s.focusStrand = .ctx h → r.val < 16 ∧ ∀ x, d = some x → x.val < 16) →
      s'.cur.rdS s.focusStrand r = s.cur.rdS s.focusStrand r

/-! ### Vector results (R334, R336) -/

/-- Element (i, j) is active: its column is below VL and its mask bit is set. -/
def Core.active (c : Core) (m : Guard) (i j : Nat) : Bool := decide (j < c.sys.vl.toNat) && c.mbit m.val i j

/-- The active elements of the group at `d`, of EEW `e`, written with `f`; the others keep their values (R334). -/
def Core.setActive (c : Core) (d : Reg) (e : Nat) (m : Guard) (f : Nat → Nat → Nat) : Core :=
  c.writeGroup d.val e (vlmax c.sys.vtype) (fun i j => if c.active m i j then some (f i j) else none)

/-- The active bits of the mask group at `d` written with `f`. -/
def Core.setBits (c : Core) (d : Reg) (m : Guard) (f : Nat → Nat → Bool) : Core :=
  c.writeMask d.val (vlmax c.sys.vtype) (fun i j => if c.active m i j then some (f i j) else none)

/-- FPSR gathers flags (R237). -/
def Core.addFlags (c : Core) (fl : Nat) : Core := { c with sys := { c.sys with fpsr := c.sys.fpsr ||| BitVec.ofNat 64 fl } }

/-- The union of flags over the active elements (R237). -/
def Core.activeFlags (c : Core) (m : Guard) (f : Nat → Nat → Nat) : Nat := orFlags (fun i j => c.mbit m.val i j) c.sys.vl.toNat f

/-- No flag traps (R238). -/
def State.noFpTraps (s : State) : Prop := fld s.cur.sys.fpcr 8 5 = 0

/-! ### Packets at the ring of a slot (R86, R87, R97) -/

/-- Packet `k` stands at the parse point of slot `p`, which holds queue `q`: at level 0, outside a loop, with nothing to skip; it may
parse, its ORDER is met, and no check refuses it. -/
def State.atRing (s : State) (p : Fin 128) (q : Nat) (l : Level) (k : BitVec 512) : Prop :=
  s.fe.parsers[p].queue = some q ∧ s.fe.parsers[p].levels = [l] ∧ l.active = false ∧ l.loopNew = false ∧ l.skip = 0 ∧ l.left = none ∧ l.buf.head? = some k
  ∧ s.fe.parsers[p].free = true ∧ s.fe.parsers[p].ordered k = true ∧ s.packetCause p.val 0 none k = none

/-- A ring level `n` packets further. -/
def Level.onRing (l : Level) (n : Nat) : Level := { l with next := (l.next + n) % 2 ^ 32, buf := l.buf.drop n }

/-- Slot `p` has gone on in queue `q`: its levels are `ls`, RPTR is the first level's index, the cores stand. -/
def State.wentOnTo (s t : State) (p : Fin 128) (q : Nat) (l0 : Level) (ls : List Level) : Prop :=
  t.fe.parsers[p].queue = some q ∧ t.fe.parsers[p].levels = l0 :: ls ∧ qdRptr (t.qd q) = l0.next ∧ t.cores = s.cores

/-- No byte of memory but those of the descriptor of queue `q` has changed. -/
def State.onlyQd (s t : State) (q : Nat) : Prop :=
  ∀ a, a < s.qdAddr q ∨ s.qdAddr q + 256 ≤ a → sget Memory.dflt t.mem a = sget Memory.dflt s.mem a

/-- The interrupt that a packet asks for as it completes at parse (R92). -/
def State.irqOf (s : State) (p : Fin 128) (k : BitVec 512) : List Note := if fld k 18 1 = 1 then [.msix (s.parserFunc p.val) (fld k 8 6)] else []

/-- Slot `p` has one work packet more in flight, the latest, with executor `exec` (R90). -/
def State.addedWork (s t : State) (p : Fin 128) (k : BitVec 512) (exec : Nat) : Prop :=
  t.fe.nextWork = s.fe.nextWork + 1 ∧ ∃ w, t.fe.parsers[p].work = s.fe.parsers[p].work.map (fun w => { w with latest := false }) ++ [w]
    ∧ w.id = s.fe.nextWork ∧ w.pkt = k ∧ w.exec = exec ∧ w.latest = true ∧ w.faulted = none ∧ w.cancelled = false

/-- A parser of a hardware slot. -/
abbrev slotOf (p : Fin 128) : Fin 1152 := p.castLE (by decide)

end Sys2Proof.Machine
end

