-- ==== Sys2Proof/Certificates/Slice0/Obligations.lean ====
section
/-! DEFINITION. The statements for the provers. Each says in its docstring which rules of spec/ it formalises; what it says of a next
state it says of `exec`, and `StepRunsTheDecodedInstruction` brings it to a step. -/

open Sys2Proof Sys2Proof.Machine

/-! ### Rules of the spec, stated whole -/

/-- Division never traps (R306): wherever a word runs, the four division words write a result and go on; what they write for a zero divisor, for
the overflow, and in the examples of the rule. -/
def Obligations.DivisionNeverTraps : Prop :=
  ∀ (s : State) (t : Tok) (g : Guard) (d a b : Reg), s.cRuns t g (jGS g [d] [a, b]) →
    let x := s.cur.rdS s.focusStrand a
    let y := s.cur.rdS s.focusStrand b
    ∃ q r qn rn : W64, exec (.div t g d a b) s = .next (s.wroteS t 1 d q) ∧ exec (.rem t g d a b) s = .next (s.wroteS t 1 d r)
      ∧ exec (.divN t g d a b) s = .next (s.wroteS t 1 d qn) ∧ exec (.remN t g d a b) s = .next (s.wroteS t 1 d rn)
      ∧ (y = 0 → q = -1 ∧ r = x ∧ qn.toNat = 2 ^ 64 - 1 ∧ rn = x)
      ∧ (x.toInt = -2 ^ 63 → y.toInt = -1 → q.toInt = -2 ^ 63 ∧ r = 0)
      ∧ (x.toInt = -7 → y = 2 → q.toInt = -3 ∧ r.toInt = -1)
      ∧ (x = 0xFFFFFFFFFFFFFFF9 → y = 2 → qn = 0x7FFFFFFFFFFFFFFC ∧ rn = 1)

/-- `rot` (R315) lowers SBASE by one modulo 16 and PBASE by one modulo 4 once, and changes nothing else; a `loop`, `brl` or `rot` whose guard is
false makes its tokens and goes on at the next word, with the counters and predicates as they were. -/
def Obligations.RotationAndFalseGuards : Prop :=
  ∀ (s : State) (t : Tok) (g : Guard),
    (s.cRuns t g (jMainG g [] [] true) → ∃ r : W64, exec (.rot t g) s = .next (s.ranC t 1 (fun c => { c with sys := { c.sys with rotb := r } }))
      ∧ fld r 0 4 = (fld s.cur.sys.rotb 0 4 + 15) % 16 ∧ fld r 8 2 = (fld s.cur.sys.rotb 8 2 + 3) % 4
      ∧ ∀ k, ¬ k < 4 → ¬ (8 ≤ k ∧ k < 10) → r.getLsbD k = s.cur.sys.rotb.getLsbD k)
    ∧ ∀ (n k : Fin 4) (i : Fin 16384) (o : Fin 4096), n.val % 2 = 0 → (jMainG g [] [] true).sub s.focusStrand t = none → s.cur.unmarked →
        s.cur.cReady s.focusStrand t = true → s.cur.rdP s.focusStrand g = false → ∀ x ∈ [Instr.loop t g n i, .brl t g n k o, .rot t g],
        ∃ u, exec x s = .next u ∧ u = s.ranC t 1 id ∧ u.cur.regs.lc = s.cur.regs.lc ∧ u.cur.regs.p = s.cur.regs.p

/-! ### Words of the control slot -/

/-- The register words of R303 and R305, division by zero and overflow of R306 among them: each writes its result to `sd`, and the
strand goes on at the next word.

The one-source words of R305 write their result to `sd`: `clz` counts the powers of two that stay above the source.

The immediate words of R304 and `lim` of R307 without a prefix: imm9 and imm14 are sign-extended, shift counts lie from 0 to
63.

An EXT prefix with payload `p` at the strand's word gives its successor, with which it runs in one step, 22 more bits above its
immediate: 31 bits for `addi`, 36 bits for `lim`, scaled by the access size for a load; the strand goes on after both words
(R282). -/
def Obligations.ScalarWordsWriteTheirResult : Prop :=
  (∀ (s : State) (t : Tok) (g : Guard) (d a b : Reg), s.cRuns t g (jGS g [d] [a, b]) →
     let x := s.cur.rdS s.focusStrand a
     let y := s.cur.rdS s.focusStrand b
     let k := y.toNat % 64
     ∀ p ∈ [(Instr.add t g d a b, w64 (x.toInt + y.toInt)), (.sub t g d a b, w64 (x.toInt - y.toInt)), (.and t g d a b, x &&& y), (.or t g d a b, x ||| y),
         (.xor t g d a b, x ^^^ y), (.sll t g d a b, BitVec.ofNat 64 (x.toNat * 2 ^ k)), (.srl t g d a b, BitVec.ofNat 64 (x.toNat / 2 ^ k)),
         (.sra t g d a b, w64 (x.toInt / (2 ^ k : Nat))), (.min t g d a b, w64 (min x.toInt y.toInt)), (.max t g d a b, w64 (max x.toInt y.toInt)),
         (.minN t g d a b, BitVec.ofNat 64 (min x.toNat y.toNat)), (.maxN t g d a b, BitVec.ofNat 64 (max x.toNat y.toNat)),
         (.addSat t g d a b, w64 (max (-(2 ^ 63)) (min (2 ^ 63 - 1) (x.toInt + y.toInt)))),
         (.subSat t g d a b, w64 (max (-(2 ^ 63)) (min (2 ^ 63 - 1) (x.toInt - y.toInt)))), (.andn t g d a b, x &&& ~~~y),
         (.ror t g d a b, BitVec.ofNat 64 (x.toNat / 2 ^ k + x.toNat * 2 ^ (64 - k))),
         (.mul t g d a b, w64 (x.toInt * y.toInt)), (.mulh t g d a b, w64 (x.toInt * y.toInt / 2 ^ 64)),
         (.mulhN t g d a b, BitVec.ofNat 64 (x.toNat * y.toNat / 2 ^ 64)),
         (.div t g d a b, if y = 0 then BitVec.allOnes 64 else w64 (x.toInt.tdiv y.toInt)), (.divN t g d a b, if y = 0 then BitVec.allOnes 64 else x / y),
         (.rem t g d a b, if y = 0 then x else w64 (x.toInt.tmod y.toInt)), (.remN t g d a b, if y = 0 then x else x % y)],
       exec p.1 s = .next (s.wroteS t 1 d p.2))
  ∧ (∀ (s : State) (t : Tok) (g : Guard) (d a : Reg), s.cRuns t g (jGS g [d] [a]) →
       let x := s.cur.rdS s.focusStrand a
       ∀ p ∈ [(Instr.clz t g d a, BitVec.ofNat 64 ((List.range 64).filter (fun k => decide (x.toNat < 2 ^ k))).length),
           (.ctz t g d a, BitVec.ofNat 64 ((List.range 64).takeWhile (fun k => !x.getLsbD k)).length),
           (.cpop t g d a, BitVec.ofNat 64 ((List.range 64).filter (fun k => x.getLsbD k)).length),
           (.sextB t g d a, (x.setWidth 8).signExtend 64), (.sextH t g d a, (x.setWidth 16).signExtend 64), (.sextW t g d a, (x.setWidth 32).signExtend 64),
           (.zextB t g d a, x &&& 0xFF), (.zextH t g d a, x &&& 0xFFFF), (.zextW t g d a, x &&& 0xFFFFFFFF)],
         exec p.1 s = .next (s.wroteS t 1 d p.2))
  ∧ (∀ (s : State) (t : Tok) (g : Guard) (d a : Reg) (i : Fin 512) (l : Fin 16384),
       let x := s.cur.rdS s.focusStrand a
       let v := (BitVec.ofNat 9 i.val).signExtend 64
       (s.cRuns t 0 (jS [d] [a]) → ∀ p ∈ [(Instr.addi t d a i, x + v), (.andi t d a i, x &&& v), (.ori t d a i, x ||| v), (.xori t d a i, x ^^^ v)],
         exec p.1 s = .next (s.wroteS t 1 d p.2))
       ∧ (i.val ≤ 63 → s.cRuns t 0 (jS [d] [a]) →
         ∀ p ∈ [(Instr.slli t d a i, BitVec.ofNat 64 (x.toNat * 2 ^ i.val)), (.srli t d a i, BitVec.ofNat 64 (x.toNat / 2 ^ i.val)),
             (.srai t d a i, w64 (x.toInt / (2 ^ i.val : Nat))), (.rori t d a i, BitVec.ofNat 64 (x.toNat / 2 ^ i.val + x.toNat * 2 ^ (64 - i.val)))],
           exec p.1 s = .next (s.wroteS t 1 d p.2))
       ∧ (s.cRuns t g (jGS g [d] []) → exec (.lim t g d l) s = .next (s.wroteS t 1 d ((BitVec.ofNat 14 l.val).signExtend 64))))
  ∧ (∀ (s : State) (p : Fin 4194304) (t : Tok) (g : Guard) (d a : Reg) (i : Fin 512) (l : Fin 16384),
       let at1 := s.cur.pcOf s.focusStrand + 1
       at1 < s.cur.img.ncode →
       (s.cur.word at1 = BitVec.ofNat 32 (encI t 1 0 d.val a.val i.val) → s.cRuns t 0 (jS [d] [a]) →
         exec (.ext p) s = .next (s.wroteS t 2 d (s.cur.rdS s.focusStrand a + (BitVec.ofNat 31 (p.val * 512 + i.val)).signExtend 64)))
       ∧ (s.cur.word at1 = BitVec.ofNat 32 (encK t 3 g.val d.val l.val) → s.cRuns t g (jGS g [d] []) →
         exec (.ext p) s = .next (s.wroteS t 2 d ((BitVec.ofNat 36 (p.val * 16384 + l.val)).signExtend 64)))
       ∧ (s.cur.word at1 = BitVec.ofNat 32 (encI t 0x10 3 d.val a.val i.val) →
         exec (.ext p) s = .next (iWord .l (some p) t (jS [d] [a]) (fun c st => .load .g 8 true (c.mapDst st d)
           (c.rdS st a + (BitVec.ofNat 31 (p.val * 512 + i.val)).signExtend 64 * 8)) s)))

/-- The compares of R308 write 1 to `pd` where the test holds and 0 otherwise, and the predicate words of R309 their logic. -/
def Obligations.CompareAndPredicateWords : Prop :=
  ∀ (s : State) (t : Tok) (g : Guard) (d a b : Reg), okPd d = true →
    let st := s.focusStrand
    let x := s.cur.rdS st a
    let y := s.cur.rdS st b
    let u := s.cur.rdP st (p3 a)
    let v := s.cur.rdP st (p3 b)
    (s.cRuns t g { jGS g [] [a, b] with pd := [d] } →
      ∀ p ∈ [(Instr.cmpEq t g d a b, decide (x = y)), (.cmpNe t g d a b, decide (x ≠ y)), (.cmpLt t g d a b, x.slt y), (.cmpGe t g d a b, y.sle x),
          (.cmpLtN t g d a b, x.ult y), (.cmpGeN t g d a b, y.ule x), (.tbit t g d a b, decide (x.toNat / 2 ^ (y.toNat % 64) % 2 = 1))],
        exec p.1 s = .next (s.wroteP t d p.2))
    ∧ (okP a = true → okP b = true → s.cRuns t g { jGS g [] [] with ps := [guardReg g, a, b], pd := [d] } →
      ∀ p ∈ [(Instr.pand t g d a b, u && v), (.por t g d a b, u || v), (.pxor t g d a b, xor u v), (.pandn t g d a b, u && !v)],
        exec p.1 s = .next (s.wroteP t d p.2))
    ∧ (okP a = true → s.cRuns t g { jGS g [] [] with ps := [guardReg g, a, 0], pd := [d] } → exec (.pnot t g d a) s = .next (s.wroteP t d (!u)))
    ∧ (s.cRuns t g { jGS g [] [] with ps := [guardReg g, 0, 0], pd := [d] } →
      exec (.pset t g d) s = .next (s.wroteP t d true) ∧ exec (.pclr t g d) s = .next (s.wroteP t d false))

/-- What a C-class word leaves as it was. A scalar write changes `sd` alone, in the main strand and in a handler strand, and nothing
at all where `sd` is `s0`; a completed word of the main strand without tokens changes the index, the two counts and its wait, and
nothing else. -/
def Obligations.ScalarWriteFrame : Prop :=
  (∀ (c : Core) (d r : Reg) (v : W64), (c.wrS .main d v).rdS .main r = if r = 0 then 0 else if r = d then v else c.rdS .main r)
  ∧ (∀ (c : Core) (h : Fin 3) (d r : Reg) (v : W64), d.val < 16 → r.val < 16 →
      (c.wrS (.ctx h) d v).rdS (.ctx h) r = if r = 0 then 0 else if r = d then v else c.rdS (.ctx h) r)
  ∧ (∀ (c : Core) (d : Reg) (v : W64), c.unmarked → c.wrS .main d v = { c with regs := { c.regs with s := (c.wrS .main d v).regs.s } })
  ∧ (∀ (c : Core) (d : Reg) (h k : Fin 3) (v : W64), k ≠ h → (c.wrS (.ctx h) d v).hnd[k] = c.hnd[k] ∧ (c.wrS (.ctx h) d v).regs = c.regs)
  ∧ (∀ (c : Core) (pc : Nat), c.cDone .main noTok pc =
      { c with pc := pc, po := c.po + 1, seq := c.seq.set 0 (c.seq[(0 : Fin 4)] + 1), waits := c.waits.set 0 none, popped := false })
  ∧ (∀ (s : State) (t : Tok) (len : Nat) (d : Reg) (v : W64) (n : Fin 128), n ≠ s.focusCore →
      (s.wroteS t len d v).cores[n] = s.cores[n] ∧ (s.wroteS t len d v).mem = s.mem)

/-- A C-class word whose guard is false makes its tokens and goes on, and nothing else (R275, R300).

A C-class word of the main strand whose FIFO is empty waits with RKIND 1 and changes nothing else (R178, R272). -/
def Obligations.GuardsAndTokens : Prop :=
  (∀ (s : State) (t : Tok) (g : Guard) (d a b : Reg) (o : Fin 524288) (i : Fin 1024), s.cur.unmarked → s.cur.cReady s.focusStrand t = true →
     s.cur.rdP s.focusStrand g = false →
     let j := jGS g [d] [a, b]
     (j.sub s.focusStrand t = none → ∀ x ∈ [Instr.add t g d a b, .sub t g d a b, .mul t g d a b, .div t g d a b], exec x s = .next (s.ranC t 1 id))
     ∧ ((jGS g [] []).sub s.focusStrand t = none → ∀ x ∈ [Instr.br t g o, .trap t g i, .tail t g, .yield t g], exec x s = .next (s.ranC t 1 id)))
  ∧ (∀ (s : State) (t : Tok) (g : Guard) (d a b : Reg), s.focusStrand = .main → (jGS g [d] [a, b]).sub .main t = none → s.cur.cReady .main t = false →
       ∃ w : Wait, w.rkind = 1 ∧ exec (.add t g d a b) s = .next (s.setCore s.focusCore (s.cur.setWait 0 (some (keepLimit s.cur.waits[(0 : Fin 4)] w)))))

/-- `br`, `call`, `jmp`, `ret`, `callr` (R310, R311): the strand goes on at the target; `call` and `callr` leave the index of the
next word in the link register, and `callr` reads its target first. An offset that leads below 0 leads past every word.

`loop` and `brl` of the counter pair (N, N + 1), N even, with S stages (R313, R314), complete wherever a guarded word of the main strand runs:
`loop` of trip count 0 goes on at its exit with the index 0, and of another trip count at the next word with the stage predicates 1, 0, 0, 0; `brl`
raises the index, and rotates and goes back while the index is below n + S − 1, writing the entering stage's predicate through the new base.

`rot` applies Rotate() once, which lowers SBASE by one modulo 16 and PBASE by one modulo 4 and changes nothing else; `lcset` and
`lcrd` write and read a counter whole; each completes wherever a guarded word of the main strand runs (R312, R314, R315). -/
def Obligations.TransfersAndLoops : Prop :=
  (∀ (s : State) (t : Tok) (g : Guard) (a : Reg) (o : Fin 524288),
     let st := s.focusStrand
     let i := s.cur.pcOf st
     let ret := BitVec.ofNat 64 (i + 1)
     let off := (BitVec.ofNat 19 o.val).toInt
     let dest := if 0 ≤ (i : Int) + off then ((i : Int) + off).toNat else ((i : Int) + off + 2 ^ 64).toNat
     (i < 2 ^ 63 → s.cRuns t g (jGS g [] []) → exec (.br t g o) s = .next (s.wentC t dest id))
     ∧ (i < 2 ^ 63 → s.cRuns t g (jGS g [15] []) → exec (.call t g o) s = .next (s.wentC t dest (fun c => c.wrS st 15 ret)))
     ∧ (s.cRuns t g (jGS g [] [a]) → exec (.jmp t g a) s = .next (s.wentC t (s.cur.rdS st a).toNat id))
     ∧ (s.cRuns t g (jGS g [] [15]) → exec (.ret t g) s = .next (s.wentC t (s.cur.rdS st 15).toNat id))
     ∧ (s.cRuns t g (jGS g [15] [a]) → exec (.callr t g a) s = .next (s.wentC t (s.cur.rdS st a).toNat (fun c => c.wrS st 15 ret))))
  ∧ (∀ (s : State) (t : Tok) (g : Guard) (n k : Fin 4) (i : Fin 16384) (o : Fin 4096), n.val % 2 = 0 → s.cur.pc < 2 ^ 63 → s.cRuns t g (jMainG g [] [] true) →
       let c := s.cur
       let m : Fin 4 := n + 1
       let trip := c.regs.lc[n]
       let j := (c.regs.lc[m]).toNat + 1
       let at' := fun (off : Int) => if 0 ≤ (c.pc : Int) + off then ((c.pc : Int) + off).toNat else ((c.pc : Int) + off + 2 ^ 64).toNat
       (∃ u, exec (.loop t g n i) s = .next u
         ∧ (trip = 0 → u = s.wentC t (at' (BitVec.ofNat 14 i.val).toInt) (fun c => c.setLc m 0))
         ∧ (trip ≠ 0 → u = s.ranC t 1 (fun c => ((((c.setLc m 0).wrP .main 4 true).wrP .main 5 false).wrP .main 6 false).wrP .main 7 false)))
       ∧ (∃ u, exec (.brl t g n k o) s = .next u
         ∧ (j < trip.toNat + k.val → u = s.wentC t (at' (BitVec.ofNat 12 o.val).toInt)
             (fun c => (c.setLc m (BitVec.ofNat 64 j)).rotate.wrP .main 4 (decide (j < trip.toNat))))
         ∧ (trip.toNat + k.val ≤ j → u = s.ranC t 1 (fun c => c.setLc m (BitVec.ofNat 64 j)))))
  ∧ ((∀ (s : State) (t : Tok) (g : Guard), s.cRuns t g (jMainG g [] [] true) → exec (.rot t g) s = .next (s.ranC t 1 Core.rotate))
     ∧ (∀ (s : State) (t : Tok) (g : Guard) (n : Fin 4) (a : Reg), s.cRuns t g (jMainG g [] [a] true) →
         exec (.lcset t g n a) s = .next (s.ranC t 1 (fun c => { c with regs := { c.regs with lc := c.regs.lc.set n (c.rdS .main a) } })))
     ∧ (∀ (s : State) (t : Tok) (g : Guard) (n : Fin 4) (d : Reg), s.cRuns t g (jMainG g [d] [] true) →
         exec (.lcrd t g n d) s = .next (s.wroteS t 1 d s.cur.regs.lc[n]))
     ∧ (∀ c : Core, fld c.rotate.sys.rotb 0 4 = (fld c.sys.rotb 0 4 + 15) % 16 ∧ fld c.rotate.sys.rotb 8 2 = (fld c.sys.rotb 8 2 + 3) % 4
         ∧ c.rotate = { c with sys := { c.sys with rotb := c.rotate.sys.rotb } } ∧ ∀ k, ¬ k < 4 → ¬ (8 ≤ k ∧ k < 10) → c.rotate.sys.rotb.getLsbD k = c.sys.rotb.getLsbD k))

/-- `mfs` writes the system register of R285 that it names to `sd`, as the register stands; reading CYCLE or TIME makes the step
non-replayable (R318, R319). COREID of core n is n + 128 × (n div 8); a register that no rule gives reads nothing here.

`mts` writes the five registers that R285 lets it write: reserved bits are ignored, QWLIM is clamped to 1,024 and 2^40 (R318). -/
def Obligations.SystemRegisterWords : Prop :=
  (∀ (s : State) (t : Tok) (g : Guard) (d : Reg),
     let c := s.cur
     let n := s.focusCore.val
     ∀ p ∈ [((0x000 : Fin 1024), c.sys.vl), (0x001, c.sys.vtype), (0x008, c.sys.fpcr), (0x009, c.sys.fpsr), (0x010, c.sys.ftbase), (0x011, c.sys.rotb),
         (0x012, c.sys.qwlim), (0x020, c.sys.stepid), (0x021, c.sys.argbase), (0x022, c.sys.coord), (0x023, c.sys.lpbaddr), (0x024, c.sys.opbaddr),
         (0x025, c.sys.fjpb), (0x026, c.sys.stepinfo), (0x027, BitVec.ofNat 64 (n + 128 * (n / 8))), (0x030, c.sys.cycle), (0x031, s.tb.now),
         (0x040, c.sys.trapcause), (0x041, c.sys.trapaddr), (0x042, c.sys.trapd0), (0x043, c.sys.trapd1)],
       s.cRuns t g { jGS g [d] [] with handler := c.isTrapStrand s.focusStrand || decide (0x012 < p.1.val) } →
       (s.focusStrand = .main → (p.1.val = 9 → c.xWords = 0) ∧ (p.1.val ≤ 1 → c.ffPending = false)) →
       exec (.mfs t g d p.1) s = .next (s.ranC t 1 (fun c =>
         { c.wrS s.focusStrand d p.2 with replayable := c.replayable && decide (p.1.val ≠ 0x030) && decide (p.1.val ≠ 0x031) })))
  ∧ (∀ (s : State) (t : Tok) (g : Guard) (a : Reg) (r : Fin 1024),
       let v := s.cur.rdS s.focusStrand a
       let runs := s.cRuns t g { jGS g [] [a] with handler := s.cur.isTrapStrand s.focusStrand && trapWritable r.val }
       runs → (s.focusStrand = .main → r.val = 9 → s.cur.xWords = 0) →
       ∀ p ∈ [((0x008 : Fin 1024), fun (c : Core) => { c with sys := { c.sys with fpcr := v &&& 0x1F03 } }),
           (0x009, fun c => { c with sys := { c.sys with fpsr := v &&& 0x3F } }), (0x010, fun c => { c with sys := { c.sys with ftbase := v &&& 0x7F } }),
           (0x011, fun c => { c with sys := { c.sys with rotb := v &&& 0x30F } }),
           (0x012, fun c => { c with sys := { c.sys with qwlim := BitVec.ofNat 64 (max 1024 (min (2 ^ 40) v.toNat)) } })],
         r = p.1 → exec (.mts t g a r) s = .next (s.ranC t 1 p.2))

/-- `vset` and `vset.max` complete wherever a word of the main strand runs, no earlier `vld.ff` is awaited and SEW is not 3: VTYPE is the immediate, VL
the least of the request and VLMAX, and `sd` is VL (R329, R330). -/
def Obligations.VectorTypeWords : Prop :=
  (∀ (s : State) (t : Tok) (d a : Reg) (i : Fin 128), i.val % 4 ≠ 3 → s.cur.ffPending = false → s.cRuns t 0 (jMain [d] [a] true) →
    ∃ vl : W64, vl.toNat = min (s.cur.rdS .main a).toNat (2048 / (8 * 2 ^ (i.val % 4)) * 2 ^ (i.val / 4 % 4))
      ∧ exec (.vset t d a i) s = .next (s.ranC t 1 (fun c => Core.wrS { c with sys := { c.sys with vtype := BitVec.ofNat 64 i.val, vl := vl } } .main d vl)))
  ∧ (∀ (s : State) (t : Tok) (d : Reg) (i : Fin 128), i.val % 4 ≠ 3 → s.cur.ffPending = false → s.cRuns t 0 (jMain [d] [] true) →
    ∃ vl : W64, vl.toNat = 2048 / (8 * 2 ^ (i.val % 4)) * 2 ^ (i.val / 4 % 4)
      ∧ exec (.vsetMax t d i) s = .next (s.ranC t 1 (fun c => Core.wrS { c with sys := { c.sys with vtype := BitVec.ofNat 64 i.val, vl := vl } } .main d vl)))

/-- `trap imm` of the main strand takes the user trap SOFT (R261, R266, R267, R320): the cut is after the word, the trap strand
starts in context 2 at TRAPENT with HDR, FADDR, DETAIL0 and DETAIL1 in `h1` to `h4`, TRAPCAUSE to TRAPD1 hold the same, and the
registers of the main strand stand.

A user trap of a step whose image has no trap entry is delivered to firmware as NESTED_USER with the cause in DETAIL0, and the
core is frozen (R260).

`eret` of the trap strand ends the trap of a C-class word of the main strand (R268, R321): `resume` goes on at the cut, `skip`
goes on after the word, of which a two-word EXT form is skipped whole; both clear TRAPCAUSE to TRAPD1; `abort` hands STEP_ABORT to
firmware with the original cause and `h1`. -/
def Obligations.TrapsAreTakenAndLeft : Prop :=
  (∀ (s : State) (t : Tok) (g : Guard) (i : Fin 1024), s.focusStrand = .main → s.cRuns t g (jGS g [] []) → s.cur.phase = .running → s.cur.img.hastrap = true →
     s.cur.trap.later = none → s.cur.trap.multi = false → s.noReds →
     ∃ s', exec (.trap t g i) s = .next s' ∧ s'.cur.phase = .trapStrand ∧ s'.cur.pc = s.cur.pc + 1 ∧ s'.cur.regs = s.cur.regs
       ∧ s'.cur.hnd[(2 : Fin 3)].running = true ∧ s'.cur.hnd[(2 : Fin 3)].pc = s.cur.img.trapent
       ∧ s'.cur.hnd[(2 : Fin 3)].h = (((Vector.replicate 16 0).set 1 (0x01FF0009 : W64)).set 3 (BitVec.ofNat 64 i.val))
       ∧ s'.cur.sys = { s.cur.sys with trapcause := 0x01FF0009, trapaddr := 0, trapd0 := BitVec.ofNat 64 i.val, trapd1 := 0 }
       ∧ fld s'.cur.trap.composite 0 64 = 0x01FF0009 ∧ fld s'.cur.trap.composite 64 64 = s.cur.sys.stepid.toNat
       ∧ fld s'.cur.trap.composite 640 64 = (s.cur.pc + 1) % 16384)
  ∧ (∀ (s : State) (t : Tok) (g : Guard) (i : Fin 1024), s.cRuns t g (jGS g [] []) → s.cur.phase = .running → s.cur.img.hastrap = false →
       ∃ s' tr, exec (.trap t g i) s = .next s' ∧ s'.cur.phase = .frozen ∧ s'.cur.trap.active = some tr ∧ tr.cause = 0x28 ∧ tr.d0 = 9)
  ∧ (∀ (s : State) (t : Tok) (g : Guard) (tr : Trap), s.focusStrand = .ctx 2 → s.cur.phase = .trapStrand →
       s.cRuns t g (jGS g [] []) → s.cur.trap.active = some tr → tr.strand = .main → tr.queue = 0 → tr.engine = 0xFF → tr.rkind = 0 → tr.after = false →
       s.cur.loading = false → s.cur.trap.back = true → bits (s.cur.word s.cur.pc).toNat 26 2 = 0 → bits (s.cur.word (s.cur.pc + 1)).toNat 26 2 = 0 →
       let len := if bits (s.cur.word s.cur.pc).toNat 22 6 = 4 then 2 else 1
       (∃ s', exec (.eret t g 0) s = .next s' ∧ s'.cur.phase = .running ∧ s'.cur.pc = s.cur.pc ∧ s'.cur.regs = s.cur.regs ∧ s'.cur.trap.active = none
         ∧ s'.cur.hnd[(2 : Fin 3)].running = false ∧ s'.cur.sys = { s.cur.sys with trapcause := 0, trapaddr := 0, trapd0 := 0, trapd1 := 0 })
       ∧ (∃ s', exec (.eret t g 1) s = .next s' ∧ s'.cur.phase = .running ∧ s'.cur.pc = s.cur.pc + len ∧ s'.cur.regs = s.cur.regs ∧ s'.cur.trap.active = none
         ∧ s'.cur.hnd[(2 : Fin 3)].running = false ∧ s'.cur.sys = { s.cur.sys with trapcause := 0, trapaddr := 0, trapd0 := 0, trapd1 := 0 })
       ∧ (∃ s' t2, exec (.eret t g 2) s = .next s' ∧ s'.cur.phase = .frozen ∧ s'.cur.pc = s.cur.pc ∧ s'.cur.trap.active = some t2 ∧ t2.cause = 0x27
         ∧ t2.d0 = BitVec.ofNat 64 tr.cause ∧ t2.d1 = s.cur.hnd[(2 : Fin 3)].h[1]))

/-- `yield` changes nothing but its strand's place; `tail` ends its strand: the main strand drains, an arrival handler stops, the
trap strand ends the step with TRAP_END; `tsm` puts a tile-start point at its place (R322 to R324).

`enq` from `s8` (R96, R184, R326): with room in context 5 it offers the packet to the dispatcher and waits; the dispatcher's
answer goes to `pd`. -/
def Obligations.StrandAndQueueWords : Prop :=
  (let point (c : Core) : TilePoint :=
     { TilePoint.reset with
       po := c.po + 1, seqL := (c.seq[(1 : Fin 4)]).toNat, seqX := (c.seq[(2 : Fin 4)]).toNat, rotb := c.sys.rotb, aprod := c.mat.aprod,
       bprod := c.mat.bprod, acons := c.mat.acons, bcons := c.mat.bcons, issued := c.eng.issued }
   ∀ (s : State) (t : Tok) (g : Guard), s.cRuns t g (jGS g [] []) →
     exec (.yield t g) s = .next (s.ranC t 1 id)
     ∧ (s.focusStrand = .main → exec (.tail t g) s = .next (s.ranC t 1 (fun c => { c with phase := .draining })))
     ∧ (∀ h : Fin 3, s.focusStrand = .ctx h → ¬ (s.cur.phase = .trapStrand ∧ h = 2) → ∃ s', exec (.tail t g) s = .next s' ∧ s'.cur.hnd[h].running = false
         ∧ s'.cur.phase = s.cur.phase ∧ s'.cur.regs = s.cur.regs ∧ s'.mem = s.mem)
     ∧ (s.focusStrand = .ctx 2 → s.cur.phase = .trapStrand → ∃ s' tr, exec (.tail t g) s = .next s' ∧ s'.cur.phase = .frozen
         ∧ s'.cur.trap.active = some tr ∧ tr.cause = 0x26)
     ∧ (s.focusStrand = .main → exec (.tsm t g) s = .next (s.ranC t 1 (fun c =>
         Core.passMarkers { c with tile := { c.tile with reachedL := false, reachedX := false, next := some (point c) } }))))
  ∧ (∀ (s : State) (t : Tok) (g : Guard) (d b : Reg) (q : Nat), okPd d = true →
       let c := s.cur
       let st := s.focusStrand
       let pkt : BitVec 512 := BitVec.ofNat 512 ((List.range 8).foldr (fun k acc => (c.rdS st (Fin.ofNat 32 (8 + k))).toNat + 2 ^ 64 * acc) 0)
       s.cRuns t g { jGS g [] (b :: (List.range 8).map (fun k => Fin.ofNat 32 (8 + k))) with pd := [d] } →
       (c.enqOffer = none → (c.rdS st b).toNat = q → q < 4096 → s.scopeReady (Fin.ofNat 16 (fld pkt 20 4)) → s.nothingPending → c.roomIn 5 = true →
         ∃ s', exec (.enq t g d 8 b) s = .next s' ∧ s'.cur.enqOffer = some (st, q, pkt) ∧ s'.cur.enqAnswer = none ∧ s'.cur.replayable = false
           ∧ s'.cur.eng.issued[(5 : Fin 8)] = c.eng.issued[(5 : Fin 8)] + 1 ∧ s'.cur.pcOf st = c.pcOf st ∧ s'.mem = s.mem)
       ∧ (∀ (pk : BitVec 512) (ok : Bool), c.enqOffer = some (st, q, pk) → c.enqAnswer = some ok →
         ∃ s', exec (.enq t g d 8 b) s = .next s' ∧ s'.cur.rdP st (p3 d) = ok ∧ s'.cur.enqOffer = none ∧ s'.cur.pcOf st = c.pcOf st + 1 ∧ s'.mem = s.mem
           ∧ (st = .main → s'.cur.regs.s = c.regs.s)))

/-- With nothing to wait for, `fence.rel`, `fence.acq` and `fence.ar` complete: the release, of this core at the scope's present members and at its
clock, is carried by the strand's later writes; the acquire raises the clock to the greatest stamp among the releases that the strand's reads have
observed and that synchronise with it; memory and the registers stand (R214 to R217).

`fence.rel` waits with RKIND 11, and the count in D0, while a scoped write of its strand that its scope covers has not
performed (R215, R272).

`cinv` with no write of the strand outstanding empties the constant cache and begins a new epoch (R225, R328).

`scope.ld`, with no load or store of the strand to perform, gives an entry from 1 to 14 of the region's table the members of the image that its
ordinary loads bind, and the next generation (R211, R213, R327). -/
def Obligations.FencesScopesAndConstants : Prop :=
  (∀ (s : State) (t : Tok) (i : Fin 16), s.cRuns t 0 (jS [] []) → s.scopeReady i → s.nothingPending →
     let st := s.focusStrand
     let e := s.scopeEntry s.focusCore i
     let rel : Release := { agent := s.focusCore.val, cores := BitVec.ofNat 128 (fld e 0 128), all := i == 15, stamp := s.cur.mem.clock }
     let top := acquired s.cur.mem.seen[st.slot] s.focusCore.val e i.val
     exec (.fenceRel t i) s = .next (s.ranC t 1 (fun c => c.fenced st rel))
     ∧ exec (.fenceAcq t i) s = .next (s.ranC t 1 (fun c => { c with mem := { c.mem with clock := max c.mem.clock top } }))
     ∧ exec (.fenceAr t i) s = .next (s.ranC t 1 (fun c => { c.fenced st rel with mem := { (c.fenced st rel).mem with clock := max c.mem.clock top } })))
  ∧ (∀ (s : State) (t : Tok) (i : Fin 16), s.cRuns t 0 (jS [] []) → s.scopeReady i → s.focusStrand = .main →
       (∃ x ∈ s.fab.inflight, x.core = s.focusCore ∧ x.strand = .main ∧ x.performed = false ∧ x.op = .data) →
       ∃ k cap, 0 < k ∧ exec (.fenceRel t i) s = .next (s.setCore s.focusCore ((s.cur.popFirst .main t).setWait 0 (some
         { rkind := 11, rindex := 0, d0 := BitVec.ofNat 64 k, d1 := 0, faddr := 0, limit := some s.cur.sys.qwlim.toNat, cap := some cap }))))
  ∧ (∀ (s : State) (t : Tok) (g : Guard), s.cRuns t g (jGS g [] []) → s.nothingPending →
       exec (.cinv t g) s = .next (s.ranC t 1 (fun c => { c with mem := { c.mem with cc := [], epoch := c.mem.epoch + 1 } })))
  ∧ (∀ (s : State) (t : Tok) (g : Guard) (a : Reg) (i : Fin 16) (ps : List Piece), i.val ≠ 0 → i.val ≠ 15 → s.cRuns t g (jGS g [] [a]) →
       let addr := (s.cur.rdS s.focusStrand a).toNat / 32 * 32
       let img : BitVec 256 := BitVec.ofNat 256 (leNat (loadPieces s.mem (s.bindPieces s.focusCore none ps).2 ps))
       let old := (s.region s.cur.ctx.region).scopes[i]
       s.cur.loadWords s.focusStrand + s.cur.storeWords s.focusStrand = 0 → s.checkAccess s.focusCore 0 s.focusStrand 0 .g kRead (BitVec.ofNat 64 addr) 32 = .ok ps → s.badPa ps = none →
       scopeBad s.cur.ctx.coreMask img = false → s.updateHeld s.focusCore i = 0 →
       ∃ s', exec (.scopeLd t g (i.castLE (by decide)) a) s = .next s'
         ∧ scopeGen (s'.region s.cur.ctx.region).scopes[i] = (scopeGen old + 1) % 256
         ∧ fld (s'.region s.cur.ctx.region).scopes[i] 0 160 = fld img 0 160 ∧ scopeV (s'.region s.cur.ctx.region).scopes[i] = scopeV img
         ∧ (∀ j : Fin 16, j ≠ i → (s'.region s.cur.ctx.region).scopes[j] = (s.region s.cur.ctx.region).scopes[j]) ∧ s'.mem = s.mem ∧ s'.cur.regs = s.cur.regs)

/-- `blaze` places markers in the queues and contexts of its mask, `join` with every marker reached removes them and raises the
clock to the stamps that the covered commands of the contexts reported, `tlwait` goes on once the counter has reached the value and raises the clock to
the stamps of the commands up to it, `tlrd` reads a counter; on `tl7` both acquire the handlers' writes (R218, R219, R378 to R380).

`tlwait` on a counter below its value waits with RKIND 6, the value and the counter in D0 and D1, and its limit: QWLIM for 0,
another value clamped (R219, R272, R382).

`bar.wait` completes once the barrier object's PHASE is no longer the phase awaited: memory stands, and the step is no longer
replayable (R223, R381).

`bar.arrive` at a well-formed barrier object returns its PHASE and counts the arrival; the last arrival of EXPECT starts the next
phase with COUNT 0; every other byte of memory stands (R222, R223, R381). -/
def Obligations.TimelinesAndBarriers : Prop :=
  (∀ (s : State) (t : Tok) (q b8 : Fin 8) (m d k a b : Reg),
     let mask := q.val + m.val * 8 + b8.val * 256
     (mask ≠ 0 → s.cRuns t 0 (jMain [] [] true) → ∃ s', exec (.blaze t q m b8) s = .next s' ∧ (∀ j : Fin 11, s'.cur.mem.marks[j] =
         if bits mask j.val 1 = 1 then some (if j.val < 3 then (s.cur.seq[Fin.ofNat 4 (j.val + 1)]).toNat else (s.cur.eng.issued[Fin.ofNat 8 (j.val - 3)]).toNat)
         else s.cur.mem.marks[j]) ∧ s' = s.ranC t 1 (fun c => { c with mem := { c.mem with marks := s'.cur.mem.marks } }))
     ∧ (s.cRuns t 0 (jMain [] [] true) → s.marksLeft s.focusCore = 0 → exec (.join t) s = .next ((s.acquiredMarks).ranC t 1 (fun c =>
         { c.raiseClock c.joinStamps with mem := { (c.raiseClock c.joinStamps).mem with marks := Vector.replicate 11 none } })))
     ∧ (∀ h : k.val < 8, s.cRuns t 0 (jMain [] [a, b] true) → (s.cur.rdS .main a).toNat ≤ (s.cur.eng.tl[k.val]).toNat →
         exec (.tlwait t k a b) s = .next ((if k.val = 7 then s.takeHandlers s.focusCore (s.cur.rdS .main a).toNat else s).ranC t 1 (fun c =>
           { c.raiseClock (c.stampUpTo ⟨k.val, h⟩ (s.cur.rdS .main a).toNat) with replayable := false })))
     ∧ (∀ h : k.val < 8, s.cRuns t 0 (jMain [d] [] true) → exec (.tlrd t d k) s = .next (s.wroteS t 1 d s.cur.eng.tl[k.val])))
  ∧ (∀ (s : State) (t : Tok) (k a b : Reg) (h : k.val < 8), s.cRuns t 0 (jMain [] [a, b] true) → s.cur.waits[(0 : Fin 4)] = none →
       (s.cur.eng.tl[k.val]).toNat < (s.cur.rdS .main a).toNat →
       let v := (s.cur.rdS .main b).toNat
       exec (.tlwait t k a b) s = .next (s.setCore s.focusCore ((s.cur.popFirst .main t).setWait 0 (some
         { rkind := 6, rindex := k.val, d0 := s.cur.rdS .main a, d1 := s.cur.eng.tl[k.val], faddr := 0,
           limit := some (if v = 0 then s.cur.sys.qwlim.toNat else max 1024 (min (2 ^ 40) v)) }))))
  ∧ (∀ (s : State) (t : Tok) (i : Fin 16) (d a b : Reg) (p : Piece), s.cRuns t 0 (jS [] [d, a, b]) → s.scopeReady i →
       s.tagged s.focusCore 0 { s.cur.routed noTok true .nop with strand := s.focusStrand } kAtomic (s.cur.rdS s.focusStrand a) 32 = .ok p →
       s.clean → memNat s.mem p.pa 8 ≠ (s.cur.rdS s.focusStrand d).toNat →
       ∃ s', exec (.barWait t i d a b) s = .next s' ∧ s'.mem = s.mem ∧ s'.cur.regs = s.cur.regs ∧ s'.cur.replayable = false
         ∧ s'.cur.pcOf s.focusStrand = s.cur.pcOf s.focusStrand + 1 ∧ s.cur.mem.clock ≤ s'.cur.mem.clock)
  ∧ (∀ (s : State) (t : Tok) (k : Fin 16) (d a : Reg) (p : Piece), scopeV (s.scopeEntry s.focusCore k) = true → s.noWrites → s.clean → s.memRuns .s t (jS [d] [a]) →
       s.tagged s.focusCore 3 (s.word t .nop) kAtomic (s.cur.rdS s.focusStrand a) 32 = .ok p →
       let phase := memNat s.mem p.pa 8
       let count := memNat s.mem (p.pa + 8) 4
       let expect := memNat s.mem (p.pa + 12) 4
       memNat s.mem (p.pa + 16) 16 = 0 → count < expect →
       let full := count + 1 = expect
       ∃ s', exec (.barArrive t k d a) s = .next s' ∧ s.wentOn s' 1 (some d) ∧ s'.cur.rdS s.focusStrand d = (if d = 0 then 0 else BitVec.ofNat 64 phase)
         ∧ memNat s'.mem p.pa 8 = (if full then (phase + 1) % 2 ^ 64 else phase) ∧ memNat s'.mem (p.pa + 8) 4 = (if full then 0 else count + 1)
         ∧ memNat s'.mem (p.pa + 12) 4 = expect ∧ (∀ x, x < p.pa ∨ p.pa + 32 ≤ x → sget Memory.dflt s'.mem x = sget Memory.dflt s.mem x))

/-! ### Vector words -/

/-- The integer vector words of R340 and R341, and the integer accumulates of R343: every active element takes its result modulo
2^SEW, or clamped in the `.sat` forms; no flag is raised. -/
def Obligations.VectorIntegerWords : Prop :=
  ∀ (s : State) (t : Tok) (m : Guard) (d a b : Reg),
    let e := vsew s.vtype
    let x (i j : Nat) : Nat := s.cur.elem a.val e i j
    let y (i j : Nat) : Nat := s.cur.elem b.val e i j
    let z (i j : Nat) : Nat := s.cur.elem d.val e i j
    let v : Nat := (s.cur.rdS .main b).toNat % 2 ^ e
    let wrap (k : Int) : Nat := (k % (2 ^ e : Nat)).toNat
    let top : Int := 2 ^ (e - 1)
    let ran (i : Instr) (u : Uop) (f : Nat → Nat → Nat) : Prop :=
      exec i s = .next (s.ranQ .x t 1 u (fun s1 => s1.modCur (fun c => c.setActive d e m f)))
    (s.qRuns .x t (jMain [] [] (limVVV s.vtype d a b m)) →
      (∀ p ∈ ([(Instr.vadd t m d a b, IOp.add, fun x y => (x + y) % 2 ^ e), (.vsub t m d a b, .sub, fun x y => wrap ((x : Int) - y)),
          (.vmul t m d a b, .mul, fun x y => x * y % 2 ^ e), (.vmulh t m d a b, .mulh, fun x y => wrap (sgn e x * sgn e y / (2 ^ e : Nat))),
          (.vand t m d a b, .and, fun x y => x &&& y), (.vor t m d a b, .or, fun x y => x ||| y), (.vxor t m d a b, .xor, fun x y => x ^^^ y),
          (.vsll t m d a b, .sll, fun x y => x * 2 ^ (y % e) % 2 ^ e), (.vsrl t m d a b, .srl, fun x y => x / 2 ^ (y % e)),
          (.vsra t m d a b, .sra, fun x y => wrap (sgn e x / (2 ^ (y % e) : Nat))), (.vmin t m d a b, .min, fun x y => wrap (min (sgn e x) (sgn e y))),
          (.vmax t m d a b, .max, fun x y => wrap (max (sgn e x) (sgn e y))), (.vminN t m d a b, .minN, fun x y => min x y),
          (.vmaxN t m d a b, .maxN, fun x y => max x y),
          (.vaddSat t m d a b, .addSat, fun x y => wrap (max (-top) (min (top - 1) (sgn e x + sgn e y)))),
          (.vsubSat t m d a b, .subSat, fun x y => wrap (max (-top) (min (top - 1) (sgn e x - sgn e y))))] : List (Instr × IOp × (Nat → Nat → Nat))),
        ran p.1 (.vi p.2.1 d a b m) (fun i j => p.2.2 (x i j) (y i j)))
      ∧ ran (.vmacc t m d a b) (.vmacc d a b m) (fun i j => (z i j + x i j * y i j) % 2 ^ e))
    ∧ (s.qRuns .x t (jMain [] [b] (limVV s.vtype d a m)) →
      (∀ p ∈ ([(Instr.vaddS t m d a b, IOp.add, fun x => (x + v) % 2 ^ e), (.vsubS t m d a b, .sub, fun x => wrap ((x : Int) - v)),
          (.vrsubS t m d a b, .rsub, fun x => wrap ((v : Int) - x)), (.vmulS t m d a b, .mul, fun x => x * v % 2 ^ e),
          (.vandS t m d a b, .and, fun x => x &&& v), (.vorS t m d a b, .or, fun x => x ||| v), (.vxorS t m d a b, .xor, fun x => x ^^^ v),
          (.vsllS t m d a b, .sll, fun x => x * 2 ^ (v % e) % 2 ^ e), (.vsrlS t m d a b, .srl, fun x => x / 2 ^ (v % e)),
          (.vsraS t m d a b, .sra, fun x => wrap (sgn e x / (2 ^ (v % e) : Nat))), (.vminS t m d a b, .min, fun x => wrap (min (sgn e x) (sgn e v))),
          (.vmaxS t m d a b, .max, fun x => wrap (max (sgn e x) (sgn e v))), (.vminNS t m d a b, .minN, fun x => min x v),
          (.vmaxNS t m d a b, .maxN, fun x => max x v),
          (.vaddSatS t m d a b, .addSat, fun x => wrap (max (-top) (min (top - 1) (sgn e x + sgn e v)))),
          (.vaddSatNS t m d a b, .addSatN, fun x => min (2 ^ e - 1) (x + v))] : List (Instr × IOp × (Nat → Nat))),
        ran p.1 (.vis p.2.1 d a (s.cur.rdS .main b) m) (fun i j => p.2.2 (x i j)))
      ∧ ran (.vmaccS t m d a b) (.vmaccs d a (s.cur.rdS .main b) m) (fun i j => (z i j + x i j * v) % 2 ^ e))

/-- The floating-point words of R342 and R343 where no flag traps: every active element takes the operation of the vector format on
its operands, rounded once with FPCR.RM, and FPSR gathers the flags of the active elements (R237). The sign words change the sign
bit alone and raise nothing.

A flag that a vector word raises and whose trap is enabled raises FP_EXC after the word (R238): the results and the flags are
written, and the cut is after the word. -/
def Obligations.VectorFloatWords : Prop :=
  (∀ (s : State) (t : Tok) (m : Guard) (d a b : Reg), s.noFpTraps →
     let e := vsew s.vtype
     let f := vfmtD s.vtype
     let rm : Fin 4 := Fin.ofNat 4 (fld s.cur.sys.fpcr 0 2)
     let x (i j : Nat) : Nat := s.cur.elem a.val e i j
     let y (i j : Nat) : Nat := s.cur.elem b.val e i j
     let z (i j : Nat) : FVal := f.decode (s.cur.elem d.val e i j)
     let v : Nat := (s.cur.rdS .main b).toNat % 2 ^ e
     let ran (i : Instr) (u : Uop) (o : Nat → Nat → FRes) : Prop :=
       exec i s = .next (s.ranQ .x t 1 u (fun s1 => s1.modCur (fun c =>
         (c.setActive d e m (fun i j => (o i j).bits)).addFlags (c.activeFlags m (fun i j => (o i j).flags)))))
     (s.qRuns .x t (jMain [] [] (floatOk s.vtype && limVVV s.vtype d a b m)) →
       (∀ p ∈ ([(Instr.vfadd t m d a b, FOp.add, fun x y => f.addV rm (f.decode x) (f.decode y)),
           (.vfsub t m d a b, .sub, fun x y => f.addV rm (f.decode x) (f.decode y).neg), (.vfmul t m d a b, .mul, fun x y => f.mulV rm (f.decode x) (f.decode y)),
           (.vfmin t m d a b, .min, fun x y => f.minMax false x y), (.vfmax t m d a b, .max, fun x y => f.minMax true x y)] : List (Instr × FOp × (Nat → Nat → FRes))),
         ran p.1 (.vf p.2.1 d a b m) (fun i j => p.2.2 (x i j) (y i j)))
       ∧ (∀ p ∈ ([(Instr.vfma t m d a b, FmaOp.ma, false, false), (.vfms t m d a b, .ms, false, true), (.vfnms t m d a b, .nms, true, false),
           (.vfnma t m d a b, .nma, true, true)] : List (Instr × FmaOp × Bool × Bool)),
         ran p.1 (.vfma p.2.1 d a b m) (fun i j => f.fmaV rm p.2.2.1 p.2.2.2 (z i j) (f.decode (x i j)) (f.decode (y i j)))))
     ∧ (s.qRuns .x t (jMain [] [] (floatOk s.vtype && limVV s.vtype d a m)) →
       ran (.vfabs t m d a) (.vfsign false d a m) (fun i j => ⟨x i j % 2 ^ (e - 1), 0⟩)
       ∧ ran (.vfneg t m d a) (.vfsign true d a m) (fun i j => ⟨(x i j + 2 ^ (e - 1)) % 2 ^ e, 0⟩))
     ∧ (s.qRuns .x t (jMain [] [b] (floatOk s.vtype && limVV s.vtype d a m)) →
       (∀ p ∈ ([(Instr.vfaddS t m d a b, FOp.add, fun x => f.addV rm (f.decode x) (f.decode v)), (.vfmulS t m d a b, .mul, fun x => f.mulV rm (f.decode x) (f.decode v)),
           (.vfminS t m d a b, .min, fun x => f.minMax false x v), (.vfmaxS t m d a b, .max, fun x => f.minMax true x v)] : List (Instr × FOp × (Nat → FRes))),
         ran p.1 (.vfs p.2.1 d a (s.cur.rdS .main b) m) (fun i j => p.2.2 (x i j)))
       ∧ ran (.vfmaS t m d a b) (.vfmas d a (s.cur.rdS .main b) m) (fun i j => f.fmaV rm false false (z i j) (f.decode (x i j)) (f.decode v))))
  ∧ (∀ (s : State) (t : Tok) (m : Guard) (d a b : Reg), s.qRuns .x t (jMain [] [] (floatOk s.vtype && limVVV s.vtype d a b m)) →
       let e := vsew s.vtype
       let f := vfmtD s.vtype
       let o (i j : Nat) : FRes := f.addV (Fin.ofNat 4 (fld s.cur.sys.fpcr 0 2)) (f.decode (s.cur.elem a.val e i j)) (f.decode (s.cur.elem b.val e i j))
       let fl := s.cur.activeFlags m (fun i j => (o i j).flags)
       (fl &&& fld s.cur.sys.fpcr 8 5) ≠ 0 → s.cur.img.hastrap = true → s.cur.trap.later = none → s.noReds →
       ∃ s' tr, exec (.vfadd t m d a b) s = .next s' ∧ s'.cur.phase = .trapStrand ∧ s'.cur.trap.active = some tr ∧ tr.cause = 0x03 ∧ tr.after = true ∧ tr.queue = 2
         ∧ tr.d1 = BitVec.ofNat 64 fl ∧ s'.cur.pc = s.cur.pc + 1 ∧ s'.cur.sys.fpsr = s.cur.sys.fpsr ||| BitVec.ofNat 64 fl
         ∧ s'.cur.regs.v = (s.cur.setActive d e m (fun i j => (o i j).bits)).regs.v)

/-- The compares of R344 write the test to every active bit of a mask, and the mask words of R345 their logic to every bit of a
column below VL. The ordered compares raise NV for any NaN, the other floating-point ones for a signalling NaN alone. -/
def Obligations.CompareAndMaskWords : Prop :=
  ∀ (s : State) (t : Tok) (m : Guard) (d a b : Reg), s.noFpTraps →
    let vt := s.vtype
    let e := vsew vt
    let f := vfmtD vt
    let x (i j : Nat) : Nat := s.cur.elem a.val e i j
    let y (i j : Nat) : Nat := s.cur.elem b.val e i j
    let v : Nat := (s.cur.rdS .main b).toNat % 2 ^ e
    let nan (x y : Nat) : Bool := (f.decode x).isNaN || (f.decode y).isNaN
    let lt (x y : Nat) : Bool := !nan x y && (f.decode x).lt (f.decode y)
    let le (x y : Nat) : Bool := !nan x y && ((f.decode x).lt (f.decode y) || (f.decode x).eq (f.decode y))
    let quiet (x y : Nat) : Nat := sigFlag [f.decode x, f.decode y]
    let ran (i : Instr) (u : Uop) (m : Guard) (o : Nat → Nat → Bool) (fl : Nat → Nat → Nat) : Prop :=
      exec i s = .next (s.ranQ .x t 1 u (fun s1 => s1.modCur (fun c => (c.setBits d m o).addFlags (c.activeFlags m fl))))
    (s.qRuns .x t (jMain [] [] (kDst vt d.val && limVV vt a b m)) →
      ∀ p ∈ ([(Instr.vcmpEq t m d a b, CmpOp.eq, fun x y => decide (x = y)), (.vcmpNe t m d a b, .ne, fun x y => decide (x ≠ y)),
          (.vcmpLt t m d a b, .lt, fun x y => decide (sgn e x < sgn e y)), (.vcmpLe t m d a b, .le, fun x y => decide (sgn e x ≤ sgn e y)),
          (.vcmpLtN t m d a b, .ltN, fun x y => decide (x < y)), (.vcmpLeN t m d a b, .leN, fun x y => decide (x ≤ y))] : List (Instr × CmpOp × (Nat → Nat → Bool))),
        ran p.1 (.vcmp p.2.1 d a b m) m (fun i j => p.2.2 (x i j) (y i j)) (fun _ _ => 0))
    ∧ (s.qRuns .x t (jMain [] [] (floatOk vt && kDst vt d.val && limVV vt a b m)) →
      ∀ p ∈ ([(Instr.vfcmpEq t m d a b, CmpOp.feq, fun x y => !nan x y && (f.decode x).eq (f.decode y), quiet),
          (.vfcmpLt t m d a b, .flt, lt, fun x y => (nan x y).toNat), (.vfcmpLe t m d a b, .fle, le, fun x y => (nan x y).toNat),
          (.vfcmpUn t m d a b, .fun', nan, quiet)] : List (Instr × CmpOp × (Nat → Nat → Bool) × (Nat → Nat → Nat))),
        ran p.1 (.vcmp p.2.1 d a b m) m (fun i j => p.2.2.1 (x i j) (y i j)) (fun i j => p.2.2.2 (x i j) (y i j)))
    ∧ (s.qRuns .x t (jMain [] [b] (kDst vt d.val && limV vt a m)) →
      ∀ p ∈ ([(Instr.vcmpEqS t m d a b, CmpOp.eq, fun x => decide (x = v)), (.vcmpLtS t m d a b, .lt, fun x => decide (sgn e x < sgn e v)),
          (.vcmpGtS t m d a b, .gt, fun x => decide (sgn e v < sgn e x))] : List (Instr × CmpOp × (Nat → Bool))),
        ran p.1 (.vcmps p.2.1 d a (s.cur.rdS .main b) m) m (fun i j => p.2.2 (x i j)) (fun _ _ => 0))
    ∧ (s.qRuns .x t (jMain [] [b] (floatOk vt && kDst vt d.val && limV vt a m)) →
      ran (.vfcmpLtS t m d a b) (.vcmps .flt d a (s.cur.rdS .main b) m) m (fun i j => lt (x i j) v) (fun i j => (nan (x i j) v).toNat)
      ∧ ran (.vfcmpGtS t m d a b) (.vcmps .fgt d a (s.cur.rdS .main b) m) m (fun i j => lt v (x i j)) (fun i j => (nan (x i j) v).toNat))
    ∧ (s.qRuns .x t (jMain [] [] (kDst vt d.val && kSrc vt a.val && kSrc vt b.val)) →
      ∀ p ∈ ([(Instr.kand t d a b, KOp.and, fun u w => u && w), (.kor t d a b, .or, fun u w => u || w), (.kxor t d a b, .xor, fun u w => xor u w),
          (.kandn t d a b, .andn, fun u w => u && !w)] : List (Instr × KOp × (Bool → Bool → Bool))),
        ran p.1 (.kop p.2.1 d a b) 0 (fun i j => p.2.2 (s.cur.mbit a.val i j) (s.cur.mbit b.val i j)) (fun _ _ => 0))
    ∧ (s.qRuns .x t (jMain [] [] (kDst vt d.val && kSrc vt a.val)) → ran (.knot t d a) (.kop .not d a 0) 0 (fun i j => !s.cur.mbit a.val i j) (fun _ _ => 0))
    ∧ (s.qRuns .x t (jMain [] [] (kDst vt d.val)) →
      ran (.kset t d) (.kop .set d 0 0) 0 (fun _ _ => true) (fun _ _ => 0) ∧ ran (.kclr t d) (.kop .clr d 0 0) 0 (fun _ _ => false) (fun _ _ => 0))

/-- The conversions of R346 between the vector format, the other formats and the integers of SEW bits, where SEW is 16 or 32: every
active element is converted with RM of the word, or with FPCR.RM where RS is 0.

The error-feedback conversions of R348: the narrowed group at d, and the residual group of EEW SEW at d + G, whose rounding is
RNE. -/
def Obligations.ConversionWords : Prop :=
  (∀ (s : State) (t : Tok) (m : Guard) (d a : Reg) (rs : Fin 2) (rm : Fin 4), s.noFpTraps → (fld s.vtype 0 2 = 1 ∨ fld s.vtype 0 2 = 2) →
     let vt := s.vtype
     let e := vsew vt
     let v := vfmtD vt
     let r : Fin 4 := if rs = 1 then rm else Fin.ofNat 4 (fld s.cur.sys.fpcr 0 2)
     let lo : Int := -(2 ^ (e - 1))
     ∀ p ∈ ([(Instr.vcvtF32 t m d a rs rm, CvtOp.f32, e, 32, fun x => v.convert fmtF32 r x), (.vcvtBf16 t m d a rs rm, .bf16, e, 16, fun x => v.convert fmtBF16 r x),
         (.vcvtF16 t m d a rs rm, .f16, e, 16, fun x => v.convert fmtF16 r x), (.vcvtE4m3 t m d a rs rm, .e4m3, e, 8, fun x => v.convert fmtE4M3 r x),
         (.vcvtE5m2 t m d a rs rm, .e5m2, e, 8, fun x => v.convert fmtE5M2 r x), (.vcvtE2m1 t m d a rs rm, .e2m1, e, 4, fun x => v.convert fmtE2M1 r x),
         (.vwidE4m3 t m d a rs rm, .widE4m3, 8, e, fun x => fmtE4M3.convert v r x), (.vwidE5m2 t m d a rs rm, .widE5m2, 8, e, fun x => fmtE5M2.convert v r x),
         (.vwidE2m1 t m d a rs rm, .widE2m1, 4, e, fun x => fmtE2M1.convert v r x), (.vcvtFI t m d a rs rm, .fI, e, e, fun x => v.ofInt r (sgn e x)),
         (.vcvtFN t m d a rs rm, .fN, e, e, fun x => v.ofInt r (x : Int)), (.vcvtIF t m d a rs rm, .iF, e, e, fun x => v.toInt r e lo (-lo - 1) x),
         (.vcvtNF t m d a rs rm, .nF, e, e, fun x => v.toInt r e 0 (2 ^ e - 1) x)] : List (Instr × CvtOp × Nat × Nat × (Nat → FRes))),
       s.qRuns .x t { jMain [] [] (limCvt p.2.1 vt d a m) with res := rs.val == 1 || rm.val == 0 } →
       exec p.1 s = .next (s.ranQ .x t 1 (.cvt p.2.1 (rs.val == 1) rm d a m) (fun s1 => s1.modCur (fun c =>
         (c.setActive d p.2.2.2.1 m (fun i j => (p.2.2.2.2 (s.cur.elem a.val p.2.2.1 i j)).bits)).addFlags
           (c.activeFlags m (fun i j => (p.2.2.2.2 (s.cur.elem a.val p.2.2.1 i j)).flags))))))
  ∧ (∀ (s : State) (t : Tok) (m : Guard) (d a : Reg) (rs : Fin 2) (rm : Fin 4), s.noFpTraps → (fld s.vtype 0 2 = 1 ∨ fld s.vtype 0 2 = 2) →
       let vt := s.vtype
       let e := vsew vt
       let v := vfmtD vt
       let r : Fin 4 := if rs = 1 then rm else Fin.ofNat 4 (fld s.cur.sys.fpcr 0 2)
       ∀ p ∈ ([(Instr.vcvtEfE4m3 t m d a rs rm, CvtOp.efE4m3, fmtE4M3), (.vcvtEfE2m1 t m d a rs rm, .efE2m1, fmtE2M1), (.vcvtEfBf16 t m d a rs rm, .efBf16, fmtBF16)] : List (Instr × CvtOp × Fmt)),
         s.qRuns .x t { jMain [] [] (limCvt p.2.1 vt d a m) with res := rs.val == 1 || rm.val == 0 } →
         let nar (i j : Nat) : FRes := v.convert p.2.2 r (s.cur.elem a.val e i j)
         let res (i j : Nat) : FRes := efResidual v p.2.2 (s.cur.elem a.val e i j) (nar i j).bits
         exec p.1 s = .next (s.ranQ .x t 1 (.cvt p.2.1 (rs.val == 1) rm d a m) (fun s1 => s1.modCur (fun c =>
           (((c.setActive d p.2.2.width m (fun i j => (nar i j).bits)).writeGroup (d.val + vgrp vt) e (vlmax vt)
             (fun i j => if c.active m i j then some (res i j).bits else none))).addFlags (c.activeFlags m (fun i j => (nar i j).flags ||| (res i j).flags))))))

/-- The permutes of R349 move elements of `va` to the active elements of `vd`; `vslideup` leaves the columns below its distance as
they are. The moves of R352 copy, select, and write column and row numbers. -/
def Obligations.PermuteAndMoveWords : Prop :=
  ∀ (s : State) (t : Tok) (m : Guard) (d a b : Reg) (i5 : Reg),
    let vt := s.vtype
    let e := vsew vt
    let vl := s.cur.sys.vl.toNat
    let x (i j : Nat) : Nat := s.cur.elem a.val e i j
    let y (i j : Nat) : Nat := s.cur.elem b.val e i j
    let v := s.cur.rdS .main b
    let n : Nat := v.toNat
    let ran (i : Instr) (u : Uop) (m : Guard) (f : Nat → Nat → Option Nat) : Prop :=
      exec i s = .next (s.ranQ .x t 1 u (fun s1 => s1.modCur (fun c => c.writeGroup d.val e (vlmax vt) (fun i j => if c.active m i j then f i j else none))))
    (s.qRuns .x t (jMain [] [b] (limVV vt d a m && permApart vt d a)) →
      ∀ p ∈ ([(Instr.vslideup t m d a b, PermOp.slideup, fun i j => if n ≤ j then some (x i (j - n)) else none),
          (.vslidedn t m d a b, .slidedn, fun i j => some (if j + n < vl then x i (j + n) else 0)), (.vbcastC t m d a b, .bcastC, fun i _ => some (if n < vl then x i n else 0)),
          (.vrotR t m d a b, .rotR, fun i j => some (x ((i + n) % 16) j)), (.vbcastR t m d a b, .bcastR, fun _ j => some (x (n % 16) j))] : List (Instr × PermOp × (Nat → Nat → Option Nat))),
        ran p.1 (.perm p.2.1 d a 0 v m) m p.2.2)
    ∧ (s.qRuns .x t (jMain [] [] (limVVV vt d a b m && permApart vt d a && permApart vt d b)) →
      ran (.vgatherC t m d a b) (.perm .gatherC d a b 0 m) m (fun i j => some (if y i j < vl then x i (y i j) else 0))
      ∧ ran (.vgatherR t m d a b) (.perm .gatherR d a b 0 m) m (fun i j => some (if y i j < 16 then x (y i j) j else 0)))
    ∧ (s.qRuns .x t (jMain [] [] (limVV vt d a m && permApart vt d a)) →
      ran (.vtr16 t m d a) (.perm .tr16 d a 0 0 m) m (fun i j => some (if j / 16 * 16 + i < vl then x (j % 16) (j / 16 * 16 + i) else 0)))
    ∧ (s.qRuns .x t (jMain [] [] (limVV vt d a m)) → ran (.vmov t m d a) (.mv .mov d a 0 0 m) m (fun i j => some (x i j)))
    ∧ (s.qRuns .x t (jMain [] [b] (limV vt d m)) → ran (.vmovS t m d b) (.mv .movS d 0 0 v m) m (fun _ _ => some (n % 2 ^ e)))
    ∧ (s.qRuns .x t (jMain [] [] (limVVV vt d a b m)) →
      ran (.vsel t m d a b) (.mv .sel d a b 0 m) 0 (fun i j => some (if s.cur.mbit m.val i j then x i j else y i j)))
    ∧ (s.qRuns .x t (jMain [] [] (kDst vt d.val && limV vt a m)) → exec (.vmovk t m d a) s = .next (s.ranQ .x t 1 (.mv .movk d a 0 0 m) (fun s1 =>
        s1.modCur (fun c => c.setBits d m (fun i j => decide (x i j ≠ 0))))))
    ∧ (s.qRuns .x t (jMain [] [] (limV vt d m && kSrc vt a.val)) → ran (.vmovv t m d a) (.mv .movv d a 0 0 m) m (fun i j => some (if s.cur.mbit a.val i j then 1 else 0)))
    ∧ (s.qRuns .x t (jMain [] [] (limV vt d m)) →
      ran (.vid t m d) (.mv .id d 0 0 0 m) m (fun _ j => some (j % 2 ^ e)) ∧ ran (.vrid t m d) (.mv .rid d 0 0 0 m) m (fun i _ => some i)
      ∧ ran (.vmovi t m d i5) (.mv .movi d 0 0 ((BitVec.ofNat 5 i5.val).signExtend 64) m) m (fun _ _ => some (((BitVec.ofNat 5 i5.val).signExtend 64).toNat % 2 ^ e)))

/-- The reductions of R350: the active elements of a row (`.c`) or of a column (`.r`) take one result, the integer sum modulo 2^SEW
or the integer maximum or minimum of the line's active elements, or for the floating-point forms the tree of R245 over them.

TreeSum (R245): two or more inputs split at the greatest power of two below their number, an absent half gives the other half,
and two present halves are combined; one input is itself.

The special functions of R351 give every active element the function of its operand in the vector format, with its flags (R246);
the value inside the bound of R246 is the model's free value (log 11), on which nothing here rests. -/
def Obligations.ReductionAndSpecialWords : Prop :=
  (∀ (s : State) (t : Tok) (m : Guard) (d a : Reg), s.noFpTraps →
     let vt := s.vtype
     let e := vsew vt
     let f := vfmtD vt
     let rm : Fin 4 := Fin.ofNat 4 (fld s.cur.sys.fpcr 0 2)
     let vl := s.cur.sys.vl.toNat
     let row (i : Nat) : List Nat := ((List.range vl).filter (fun j => s.cur.mbit m.val i j)).map (fun j => s.cur.elem a.val e i j)
     let col (j : Nat) : List Nat := ((List.range 16).filter (fun i => s.cur.mbit m.val i j)).map (fun i => s.cur.elem a.val e i j)
     let inp (i j : Nat) : Option Nat := if s.cur.mbit m.val i j then some (s.cur.elem a.val e i j) else none
     let wrap (k : Int) : Nat := (k % (2 ^ e : Nat)).toNat
     let top : Int := 2 ^ (e - 1)
     let ran (i : Instr) (u : Uop) (f : Nat → Nat → Nat) : Prop := exec i s = .next (s.ranQ .x t 1 u (fun s1 => s1.modCur (fun c => c.setActive d e m f)))
     (s.qRuns .x t (jMain [] [] (limVV vt d a m)) →
       ∀ p ∈ ([(Instr.vredsumC t m d a, Instr.vredsumR t m d a, RedOp.sum, fun (l : List Nat) => l.sum % 2 ^ e),
           (.vredmaxC t m d a, .vredmaxR t m d a, .max, fun l => wrap ((l.map (sgn e)).foldl max (-top))),
           (.vredminC t m d a, .vredminR t m d a, .min, fun l => wrap ((l.map (sgn e)).foldl min (top - 1))),
           (.vredmaxNC t m d a, .vredmaxNR t m d a, .maxN, fun l => l.foldl max 0), (.vredminNC t m d a, .vredminNR t m d a, .minN, fun l => l.foldl min (2 ^ e - 1))] : List (Instr × Instr × RedOp × (List Nat → Nat))),
         ran p.1 (.vred p.2.2.1 false d a m) (fun i _ => p.2.2.2 (row i)) ∧ ran p.2.1 (.vred p.2.2.1 true d a m) (fun _ j => p.2.2.2 (col j)))
     ∧ (s.qRuns .x t (jMain [] [] (floatOk vt && limVV vt d a m)) →
       ∀ p ∈ ([(Instr.vfredsumC t m d a, Instr.vfredsumR t m d a, RedOp.fsum, fun x y => f.addV rm (f.decode x) (f.decode y)),
           (.vfredmaxC t m d a, .vfredmaxR t m d a, .fmax, fun x y => f.minMax true x y), (.vfredminC t m d a, .vfredminR t m d a, .fmin, fun x y => f.minMax false x y)] : List (Instr × Instr × RedOp × (Nat → Nat → FRes))),
         let tr (i : Nat) : Option Nat × Nat := treeRed p.2.2.2 (fun j => inp i j) vl 0 vl
         let tc (j : Nat) : Option Nat × Nat := treeRed p.2.2.2 (fun i => inp i j) 16 0 16
         exec p.1 s = .next (s.ranQ .x t 1 (.vred p.2.2.1 false d a m) (fun s1 => s1.modCur (fun c =>
           (c.writeGroup d.val e (vlmax vt) (fun i j => if c.active m i j then (tr i).1 else none)).addFlags
             (if vl = 0 then 0 else (List.range 16).foldl (fun acc k => acc ||| (tr k).2) 0))))
         ∧ exec p.2.1 s = .next (s.ranQ .x t 1 (.vred p.2.2.1 true d a m) (fun s1 => s1.modCur (fun c =>
           (c.writeGroup d.val e (vlmax vt) (fun i j => if c.active m i j then (tc j).1 else none)).addFlags
             (if vl = 0 then 0 else (List.range vl).foldl (fun acc k => acc ||| (tc k).2) 0))))))
  ∧ (∀ (comb : Nat → Nat → FRes) (x : Nat → Option Nat) (lo n fuel : Nat), n ≤ fuel →
       (n = 1 → (treeRed comb x fuel lo n) = (x lo, 0))
       ∧ (∀ k, 2 ^ k < n → n ≤ 2 ^ (k + 1) →
         let l := treeRed comb x n lo (2 ^ k)
         let r := treeRed comb x n (lo + 2 ^ k) (n - 2 ^ k)
         treeRed comb x fuel lo n = match l.1, r.1 with
           | none, y => (y, l.2 ||| r.2)
           | some a, none => (some a, l.2 ||| r.2)
           | some a, some b => (some (comb a b).bits, l.2 ||| r.2 ||| (comb a b).flags)))
  ∧ (∀ (s : State) (t : Tok) (m : Guard) (d a : Reg), s.noFpTraps → s.qRuns .x t (jMain [] [] (floatOk s.vtype && limVV s.vtype d a m)) →
       let e := vsew s.vtype
       ∀ p ∈ [(Instr.vexp2 t m d a, SfOp.exp2), (.vlog2 t m d a, .log2), (.vrcp t m d a, .rcp), (.vrsqrt t m d a, .rsqrt), (.vtanh t m d a, .tanh)],
         let o (i j : Nat) : FRes := sfop p.2 (vfmtD s.vtype) (s.cur.elem a.val e i j)
         exec p.1 s = .next (s.ranQ .x t 1 (.sf p.2 d a m) (fun s1 => s1.modCur (fun c =>
           (c.setActive d e m (fun i j => (o i j).bits)).addFlags (c.activeFlags m (fun i j => (o i j).flags))))))

/-- What a vector write changes (R332 to R334, R336): an active element of the group takes its value, every other element of the
group, every other register and everything else of the core stays; the same for the bits of a mask group, of which `k0` takes
nothing. -/
def Obligations.ActiveElementsAloneAreWritten : Prop :=
  (∀ (c : Core) (d : Reg) (e : Nat) (m : Guard) (f : Nat → Nat → Nat) (i j : Nat), e ∈ [4, 8, 16, 32] → i < 16 → j < vlmax c.sys.vtype →
    (c.setActive d e m f).elem d.val e i j = if c.active m i j then f i j % 2 ^ e else c.elem d.val e i j)
  ∧ (∀ (c : Core) (d : Reg) (e : Nat) (m : Guard) (f : Nat → Nat → Nat) (n i : Nat), e ∈ [4, 8, 16, 32] → i < 16 →
      (n < d.val ∨ d.val + (vlmax c.sys.vtype + 2048 / e - 1) / (2048 / e) ≤ n) → (c.setActive d e m f).vrow n i = c.vrow n i)
  ∧ (∀ (c : Core) (d : Reg) (e : Nat) (m : Guard) (f : Nat → Nat → Nat), c.setActive d e m f = { c with regs := { c.regs with v := (c.setActive d e m f).regs.v } })
  ∧ (∀ (c : Core) (d : Reg) (m : Guard) (f : Nat → Nat → Bool) (i j : Nat), d ≠ 0 → i < 16 → j < vlmax c.sys.vtype →
      (c.setBits d m f).mbit d.val i j = if c.active m i j then f i j else c.mbit d.val i j)
  ∧ (∀ (c : Core) (d : Reg) (m : Guard) (f : Nat → Nat → Bool), c.setBits d m f = { c with regs := { c.regs with k := (c.setBits d m f).regs.k } })

/-! ### Memory and synchronisation words -/

/-- The scalar loads of R359 and R360, in both strands, where every part of the access is granted and not poisoned: `sd` takes the
bytes, least significant first, sign-extended or, in the `.n` forms, zero-extended; memory stands. Ordinary parts come from the copies
of their lines that LoadBind gives (R201), others from memory. The offset of the immediate forms is scaled by the access size.

`ldc` (R224, R362) with nothing of its bytes in the constant cache reads memory, and from then on its COHERENT bytes are held
until `cinv`: the same word later reads what was held, whatever memory holds.

Hints and cache operations change no register, and no memory where the access tables refuse none of them (R363, R383). `cwb` and
`cev` of a COHERENT line leave it clean in the core's crew, `cev` leaves no core of the crew a copy of it, and `l1inv` empties the
core's L1. -/
def Obligations.ScalarLoadsAndHints : Prop :=
  (∀ (s : State) (t : Tok) (g : Guard) (d a b : Reg) (o : Fin 512) (ps : List Piece), s.cur.rdP s.focusStrand g = true →
     let st := s.focusStrand
     let imm (sz : Nat) : W64 := s.cur.rdS st a + (BitVec.ofNat 9 o.val).signExtend 64 * BitVec.ofNat 64 sz
     let sum : W64 := s.cur.rdS st a + s.cur.rdS st b
     let loads (i : Instr) (sp : Space) (sz : Nat) (signed : Bool) (addr : W64) : Prop :=
       s.checkAccess s.focusCore 1 st 0 sp kRead addr sz = .ok ps → s.badPa ps = none →
       ∃ s', exec i s = .next s' ∧ s'.cur.rdS st d = (if d = 0 then 0 else extended64 signed sz (leNat (loadPieces s.mem (s.bindPieces s.focusCore none ps).2 ps)))
         ∧ s.wentOn s' 1 (some d) ∧ s'.cur.regs.v = s.cur.regs.v ∧ s'.mem = s.mem
     (s.memRuns .l t (jS [d] [a]) →
       ∀ p ∈ ([(Instr.ldBG t d a o, .g, 1, true), (.ldHG t d a o, .g, 2, true), (.ldWG t d a o, .g, 4, true), (.ldDG t d a o, .g, 8, true),
           (.ldBNG t d a o, .g, 1, false), (.ldHNG t d a o, .g, 2, false), (.ldWNG t d a o, .g, 4, false),
           (.ldBX t d a o, .x, 1, true), (.ldHX t d a o, .x, 2, true), (.ldWX t d a o, .x, 4, true), (.ldDX t d a o, .x, 8, true),
           (.ldBNX t d a o, .x, 1, false), (.ldHNX t d a o, .x, 2, false), (.ldWNX t d a o, .x, 4, false),
           (.ldBL t d a o, .l, 1, true), (.ldHL t d a o, .l, 2, true), (.ldWL t d a o, .l, 4, true), (.ldDL t d a o, .l, 8, true),
           (.ldBNL t d a o, .l, 1, false), (.ldHNL t d a o, .l, 2, false), (.ldWNL t d a o, .l, 4, false)] : List (Instr × Space × Nat × Bool)),
         loads p.1 p.2.1 p.2.2.1 p.2.2.2 (imm p.2.2.1))
     ∧ (s.memRuns .l t (jGS g [d] [a, b]) →
       ∀ p ∈ ([(Instr.ldBGRr t g d a b, .g, 1), (.ldHGRr t g d a b, .g, 2), (.ldWGRr t g d a b, .g, 4), (.ldDGRr t g d a b, .g, 8),
           (.ldBXRr t g d a b, .x, 1), (.ldHXRr t g d a b, .x, 2), (.ldWXRr t g d a b, .x, 4), (.ldDXRr t g d a b, .x, 8),
           (.ldBLRr t g d a b, .l, 1), (.ldHLRr t g d a b, .l, 2), (.ldWLRr t g d a b, .l, 4), (.ldDLRr t g d a b, .l, 8)] : List (Instr × Space × Nat)),
         loads p.1 p.2.1 p.2.2 true sum))
  ∧ (∀ (s : State) (t : Tok) (d a : Reg) (o : Fin 512) (ps : List Piece),
       let st := s.focusStrand
       s.memRuns .l t (jS [d] [a]) → s.badPa ps = none →
       ∀ p ∈ ([(Instr.ldcB t d a o, 1, true), (.ldcH t d a o, 2, true), (.ldcW t d a o, 4, true), (.ldcD t d a o, 8, true), (.ldcBN t d a o, 1, false),
           (.ldcHN t d a o, 2, false), (.ldcWN t d a o, 4, false)] : List (Instr × Nat × Bool)),
         let addr := s.cur.rdS st a + (BitVec.ofNat 9 o.val).signExtend 64 * BitVec.ofNat 64 p.2.1
         s.checkAccess s.focusCore 1 st 0 .g kRead addr p.2.1 = .ok ps →
         (s.cur.mem.cc = [] → ∃ s', exec p.1 s = .next s' ∧ s'.cur.rdS st d = (if d = 0 then 0 else extended64 p.2.2 p.2.1 (leNat (readPieces s.mem ps)))
           ∧ s.wentOn s' 1 (some d) ∧ s'.mem = s.mem
           ∧ ∀ x ∈ ps, x.ordinary = true → ∀ k < x.len, sget none s'.cur.mem.cc (x.pa + k) = some (sget Memory.dflt s.mem (x.pa + k)))
         ∧ (∀ held : Nat → Byte, (∀ x ∈ ps, x.ordinary = true ∧ ∀ k < x.len, sget none s.cur.mem.cc (x.pa + k) = some (held (x.pa + k))) →
           ∃ s', exec p.1 s = .next s' ∧ s.wentOn s' 1 (some d) ∧ s'.mem = s.mem
             ∧ s'.cur.rdS st d = (if d = 0 then 0 else extended64 p.2.2 p.2.1 (leNat (ps.flatMap (fun x => (List.range x.len).map (fun k => held (x.pa + k))))))))
  ∧ (∀ (s : State) (t : Tok) (g : Guard) (a : Reg) (o : Fin 512), s.cur.rdP s.focusStrand g = true → s.clean →
       let st := s.focusStrand
       let at' : W64 := s.cur.rdS st a + (BitVec.ofNat 9 o.val).signExtend 64 * 128
       let open' (va : W64) : Prop := (∀ pa leaf, s.coreTranslate s.focusCore va.toNat kPrefetch = .ok (pa, leaf) → s.refusal (coreMaster s.focusCore) 1 (pa / 128 * 128) 128 = none)
         ∧ ∀ ea tr, s.coreTranslate s.focusCore va.toNat kPrefetch ≠ .error (.walk ea tr)
       let same (i : Instr) (va : W64) (more : State → Prop) : Prop := s.coreTranslate s.focusCore va.toNat kPrefetch ≠ .error .wait →
         ∃ s', exec i s = .next s' ∧ s.wentOn s' 1 none ∧ s'.cur.regs.v = s.cur.regs.v ∧ (open' va → s'.mem = s.mem ∧ more s')
       let dirtyIn (s' : State) (pa : Nat) : Prop := ∃ x ∈ s'.fab.dirty, x.crew = (crewOf s.focusCore).val ∧ x.line = pa / 128
       (s.memRuns .l t (jS [] [a]) → ∀ i ∈ [Instr.pfL1 t a o, .pfCrew t a o, .lrenew t a o], same i at' (fun _ => True))
       ∧ (s.memRuns .s t (jGS g [] [a]) → ∀ pa leaf, s.coreTranslate s.focusCore (s.cur.rdS st a).toNat kPrefetch = .ok (pa, leaf) → fld leaf 56 2 = 0 → l1Holds pa = true →
         same (.cwb t g a) (s.cur.rdS st a) (fun s' => ¬ dirtyIn s' pa)
         ∧ same (.cev t g a) (s.cur.rdS st a) (fun s' => ¬ dirtyIn s' pa
             ∧ ∀ n : Fin 128, crewOf n = crewOf s.focusCore → ∀ x ∈ s'.cores[n].mem.l1, x.line ≠ pa / 128))
       ∧ (s.memRuns .s t (jGS g [] []) → ∃ s', exec (.l1inv t g) s = .next s' ∧ s.wentOn s' 1 none ∧ s'.cur.regs.v = s.cur.regs.v ∧ s'.mem = s.mem ∧ s'.cur.mem.l1 = []))

/-- The scalar stores of R359 and R360, in both strands, where every part is granted and no poison stands: the low bytes of `sd`, least significant first,
go to the parts of the access that are scratch or ordinary, and every other byte of memory stands; scoped parts go in flight in
order. No register changes.

What a write to memory changes: the bytes written read back, every other byte reads as before, and the canonical form is kept;
a number of n bytes is stored least significant byte first (R3). -/
def Obligations.ScalarStoresAndReadBack : Prop :=
  (∀ (s : State) (t : Tok) (g : Guard) (d a b : Reg) (o : Fin 512) (ps : List Piece), s.cur.rdP s.focusStrand g = true → s.clean →
     let st := s.focusStrand
     let imm (sz : Nat) : W64 := s.cur.rdS st a + (BitVec.ofNat 9 o.val).signExtend 64 * BitVec.ofNat 64 sz
     let sum : W64 := s.cur.rdS st a + s.cur.rdS st b
     let stores (i : Instr) (sp : Space) (sz : Nat) (addr : W64) : Prop :=
       s.checkAccess s.focusCore 3 st 0 sp kWrite addr sz = .ok ps →
       let bytes := natLe sz (s.cur.rdS st d).toNat
       ∃ s', exec i s = .next s' ∧ s'.mem = storedMem s.mem sp ps bytes
         ∧ s'.fab.inflight.map (fun x => (x.pa, x.data)) = s.fab.inflight.map (fun x => (x.pa, x.data)) ++ scopedParts sp ps bytes
         ∧ s.wentOn s' 1 none ∧ s'.cur.regs = s.cur.regs
     (s.memRuns .s t (jS [] [d, a]) →
       ∀ p ∈ ([(Instr.stBG t d a o, .g, 1), (.stHG t d a o, .g, 2), (.stWG t d a o, .g, 4), (.stDG t d a o, .g, 8), (.stBX t d a o, .x, 1), (.stHX t d a o, .x, 2),
           (.stWX t d a o, .x, 4), (.stDX t d a o, .x, 8), (.stBL t d a o, .l, 1), (.stHL t d a o, .l, 2), (.stWL t d a o, .l, 4), (.stDL t d a o, .l, 8)]
           : List (Instr × Space × Nat)),
         stores p.1 p.2.1 p.2.2 (imm p.2.2))
     ∧ (s.memRuns .s t (jGS g [] [d, a, b]) →
       ∀ p ∈ ([(Instr.stBGRr t g d a b, .g, 1), (.stHGRr t g d a b, .g, 2), (.stWGRr t g d a b, .g, 4), (.stDGRr t g d a b, .g, 8), (.stBXRr t g d a b, .x, 1),
           (.stHXRr t g d a b, .x, 2), (.stWXRr t g d a b, .x, 4), (.stDXRr t g d a b, .x, 8), (.stBLRr t g d a b, .l, 1), (.stHLRr t g d a b, .l, 2),
           (.stWLRr t g d a b, .l, 4), (.stDLRr t g d a b, .l, 8)] : List (Instr × Space × Nat)),
         stores p.1 p.2.1 p.2.2 sum))
  ∧ (∀ (m : Memory) (a : Nat) (b : List Byte),
       memRead (memWrite m a b) a b.length = b
       ∧ (∀ k, k < a ∨ a + b.length ≤ k → sget Memory.dflt (memWrite m a b) k = sget Memory.dflt m k)
       ∧ (m.wf = true → (memWrite m a b).wf = true)
       ∧ (∀ n v, memNat (memWrite m a (natLe n v)) a n = v % 2 ^ (8 * n)))

/-- The address of element (i, j) of a vector access (R364, R365): base, pitch and element size; base, pitch and stride of 32 bits
each; base and the byte offset in the index group.

The vector loads of R364 to R366: where the parts of every active element are granted and not poisoned, each active element of
`vd` takes the bytes at its address, bound in the order of the elements to the copies that LoadBind gives (R201, R206), and memory, the scalars and the other elements stand. A `vld.ff` that no column trims leaves
VL as it is; one whose first refused column is k, above 0, for another cause than ACCESS, sets VL to k and writes the columns below
(R367). -/
def Obligations.VectorLoads : Prop :=
  (∀ (s : State) (t : Tok) (u : Uop) (a p : W64) (b : Reg) (i j : Nat),
     let e := vsew s.vtype
     let at' (kind : Fin 4) : W64 := s.cur.vaddr (s.cur.routed t true u) kind a p b i j
     let lo : Int := (p.setWidth 32).toInt
     let hi : Int := ((p >>> 32).setWidth 32).toInt
     at' 0 = a + BitVec.ofNat 64 i * p + BitVec.ofNat 64 (j * (e / 8)) ∧ at' 3 = at' 0
     ∧ at' 1 = a + BitVec.ofInt 64 (i * lo + j * hi) ∧ at' 2 = a + BitVec.ofNat 64 (s.cur.elem b.val e i j))
  ∧ (∀ (s : State) (t : Tok) (m : Guard) (d a b : Reg) (ps : Nat → Nat → List Piece),
       let e := vsew s.vtype
       let r (sp : Space) (kind : Fin 4) : Routed := s.cur.routed t true (.vload sp kind d m (s.cur.rdS .main a) (if kind = 2 then 0 else s.cur.rdS .main b) b)
       let addr (sp : Space) (kind : Fin 4) (i j : Nat) : W64 := s.cur.vaddr (r sp kind) kind (s.cur.rdS .main a) (if kind = 2 then 0 else s.cur.rdS .main b) b i j
       let granted (sp : Space) (kind : Fin 4) (vl : Nat) : Prop := ∀ i < 16, ∀ j < vl, s.cur.mbit m.val i j = true →
         s.checkAccess s.focusCore 1 .main 0 sp kRead (addr sp kind i j) (e / 8) = .ok (ps i j) ∧ s.badPa (ps i j) = none
       let loaded (i : Instr) (vl : Nat) : Prop :=
         let es := (List.range 16).flatMap (fun i => (s.cur.activeCols m vl i).map (fun j => (i, j, ps i j)))
         let vals := elemVals s.mem es (s.bindPieces s.focusCore none (es.flatMap (·.2.2))).2
         ∃ s', exec i s = .next s' ∧ s'.cur.regs = { s.cur.regs with v := (s.cur.writeGroup d.val e (vlmax s.vtype)
             (elemVal vals)).regs.v }
           ∧ s'.cur.sys = { s.cur.sys with vl := BitVec.ofNat 64 vl } ∧ s'.cur.pc = s.cur.pc + 1 ∧ s'.mem = s.mem
       let vl := s.cur.sys.vl.toNat
       (∀ p ∈ ([(Instr.vldG t m d a b, .g, 0), (.vldsG t m d a b, .g, 1), (.vldxG t m d a b, .g, 2), (.vldFfG t m d a b, .g, 3), (.vldX t m d a b, .x, 0),
           (.vldsX t m d a b, .x, 1), (.vldxX t m d a b, .x, 2), (.vldFfX t m d a b, .x, 3), (.vldL t m d a b, .l, 0), (.vldsL t m d a b, .l, 1),
           (.vldxL t m d a b, .l, 2), (.vldFfL t m d a b, .l, 3)] : List (Instr × Space × Fin 4)),
         s.memRuns .l t (jMain [] (if p.2.2 = 2 then [a] else [a, b]) (limVmem s.vtype true p.2.2 d b m)) →
         (granted p.2.1 p.2.2 vl → loaded p.1 vl)
         ∧ (p.2.2 = 3 → ∀ k tr i, 0 < k → k < vl → i < 16 → granted p.2.1 3 k → s.cur.mbit m.val i k = true →
             (∀ i' < i, s.cur.mbit m.val i' k = true → ∃ q, s.checkAccess s.focusCore 1 .main 0 p.2.1 kRead (addr p.2.1 3 i' k) (e / 8) = .ok q) →
             s.checkAccess s.focusCore 1 .main 0 p.2.1 kRead (addr p.2.1 3 i k) (e / 8) = .error tr → tr.cause ≠ 0x22 → tr.cause ≠ 0 → loaded p.1 k)))

/-- The vector stores of R364, R365 and R368: where the parts of every active element are granted and no poison stands, the active
elements go to memory row by row in ascending column, those of one granule of R206 together; scoped granules, and every granule of a
`vst.nt` to ordinary memory, are put in flight in that order. No register changes. -/
def Obligations.VectorStores : Prop :=
  ∀ (s : State) (t : Tok) (m : Guard) (d a b : Reg) (ps : Nat → Nat → List Piece), s.clean →
    let e := vsew s.vtype
    ∀ p ∈ ([(Instr.vstG t m d a b, .g, 0), (.vstsG t m d a b, .g, 1), (.vstxG t m d a b, .g, 2), (.vstNtG t m d a b, .g, 3), (.vstX t m d a b, .x, 0),
        (.vstsX t m d a b, .x, 1), (.vstxX t m d a b, .x, 2), (.vstL t m d a b, .l, 0), (.vstsL t m d a b, .l, 1), (.vstxL t m d a b, .l, 2)]
        : List (Instr × Space × Fin 4)),
      let pitch : W64 := if p.2.2 = 2 then 0 else s.cur.rdS .main b
      let r := s.cur.routed t true (.vstore p.2.1 p.2.2 d m (s.cur.rdS .main a) pitch b)
      let es := s.cur.vaccess r p.2.2 m (s.cur.rdS .main a) pitch b s.cur.sys.vl.toNat
      let nt := decide (p.2.2 = 3) && es.any (fun x => (ps x.1 x.2.1).any (·.ordinary))
      let gs := granules (s.storeList s.focusCore r p.2.2 nt (es.map (fun x => (x, (x.1, x.2.1, ps x.1 x.2.1)))))
      s.memRuns .s t (jMain [] (if p.2.2 = 2 then [a] else [a, b]) (limVmem s.vtype false p.2.2 d b m)) →
      (∀ x ∈ es, s.checkAccess s.focusCore 3 .main 0 p.2.1 kWrite x.2.2 (e / 8) = .ok (ps x.1 x.2.1)) → (nt = true → s.cur.roomIn 6 = true) →
      ∃ s', exec p.1 s = .next s' ∧ s'.mem = gs.foldl (storedGroup p.2.1) s.mem
        ∧ s'.fab.inflight.map (fun x => (x.pa, x.data) :: x.more) = s.fab.inflight.map (fun x => (x.pa, x.data) :: x.more) ++ gs.flatMap (scopedGroup p.2.1)
        ∧ s'.cur.regs = s.cur.regs ∧ s'.cur.sys = s.cur.sys ∧ s'.cur.pc = s.cur.pc + 1

/-- The atomics of R369, R370, in both strands, whose scope is valid and whose address is granted, where no poison stands, with
no write of the strand outstanding: memory takes the new value of its word or doubleword and nothing else, and `sd` the old value,
sign-extended from 32 bits; `amo.ld` and a failed `amo.cas` leave memory, and `amo.st` leaves `sd`.

A reduction at memory (R371) and `lupd` (R372) with a valid scope and room in context 6 are accepted: memory stands until the
write performs, one acknowledgement more is owed, no register changes. -/
def Obligations.AtomicAndReductionWords : Prop :=
  (∀ (s : State) (t : Tok) (k : Fin 16) (d a b : Reg) (p : Piece), scopeV (s.scopeEntry s.focusCore k) = true → s.noWrites → s.clean →
     let st := s.focusStrand
     let v := (s.cur.rdS st b).toNat
     let expect := (s.cur.rdS st d).toNat
     let atomic (i : Instr) (w : Nat) (ss sd : List Reg) (new : Nat → Option Nat) (ret : Option Reg) : Prop :=
       s.memRuns .s t (jS sd ss) → s.tagged s.focusCore 3 (s.word t .nop) kAtomic (s.cur.rdS st a) (w / 8) = .ok p →
       let old := memNat s.mem p.pa (w / 8)
       ∃ s', exec i s = .next s' ∧ s.wentOn s' 1 ret ∧ (∀ x, ret = some x → s'.cur.rdS st x = if x = 0 then 0 else (BitVec.ofNat w old).signExtend 64)
         ∧ s'.mem = (match new old with | some x => memWrite s.mem p.pa (natLe (w / 8) x) | none => s.mem)
     ∀ w ∈ [32, 64],
       let i (x y : Instr) : Instr := if w = 32 then x else y
       let sg (x : Nat) : Int := (BitVec.ofNat w x).toInt
       let val := v % 2 ^ w
       atomic (i (.amoLdW t k d a) (.amoLdD t k d a)) w [a] [d] (fun _ => none) (some d)
       ∧ atomic (i (.amoStW t k a b) (.amoStD t k a b)) w [a, b] [] (fun _ => some val) none
       ∧ atomic (i (.amoSwapW t k d a b) (.amoSwapD t k d a b)) w [a, b] [d] (fun _ => some val) (some d)
       ∧ atomic (i (.amoCasW t k d a b) (.amoCasD t k d a b)) w [d, a, b] [d] (fun old => if old = expect % 2 ^ w then some val else none) (some d)
       ∧ atomic (i (.amoAddW t k d a b) (.amoAddD t k d a b)) w [a, b] [d] (fun old => some ((old + v) % 2 ^ w)) (some d)
       ∧ atomic (i (.amoOrW t k d a b) (.amoOrD t k d a b)) w [a, b] [d] (fun old => some (old ||| val)) (some d)
       ∧ atomic (i (.amoMinW t k d a b) (.amoMinD t k d a b)) w [a, b] [d] (fun old => some (if sg old ≤ sg val then old else val)) (some d)
       ∧ atomic (i (.amoMaxW t k d a b) (.amoMaxD t k d a b)) w [a, b] [d] (fun old => some (if sg old ≤ sg val then val else old)) (some d))
  ∧ (∀ (s : State) (t : Tok) (k : Fin 16) (a b : Reg) (p : Piece), scopeV (s.scopeEntry s.focusCore k) = true → s.cur.roomIn 6 = true →
       let st := s.focusStrand
       let accepted (i : Instr) (op : WriteOp) (data : List Byte) : Prop :=
         ∃ s' x, exec i s = .next s' ∧ s'.mem = s.mem ∧ s'.fab.inflight = s.fab.inflight ++ [x] ∧ x.op = op ∧ x.pa = p.pa ∧ x.data = data ∧ x.performed = false
           ∧ x.cmd = (s.cur.eng.issued[(6 : Fin 8)]).toNat + 1 ∧ x.core = s.focusCore ∧ s.wentOn s' 1 none ∧ s'.cur.regs = s.cur.regs ∧ s'.cur.eng.issued[(6 : Fin 8)] = s.cur.eng.issued[(6 : Fin 8)] + 1
       (s.memRuns .s t (jS [] [a, b]) → ∀ q ∈ ([(Instr.redAddW t k a b, .addW, 4), (.redAddD t k a b, .addD, 8), (.redAddF32 t k a b, .addF32, 4),
           (.redMinW t k a b, .minW, 4), (.redMaxW t k a b, .maxW, 4), (.redOrD t k a b, .orD, 8)] : List (Instr × MemRed × Nat)),
         s.tagged s.focusCore 3 (s.word t .nop) kAtomic (s.cur.rdS st a) q.2.2 = .ok p → accepted q.1 (.red q.2.1) (natLe q.2.2 (s.cur.rdS st b).toNat))
       ∧ (∀ d : Fin 4, s.memRuns .s t (jMain [] [a, b] true) → fld (s.cur.rdS st a) 62 2 = 1 →
         s.tagged s.focusCore 3 (s.word t .nop) kAtomic (s.cur.rdS st a) 128 = .ok p → (s.cur.rdS st b).toNat % 128 = 0 →
         (s.cur.rdS st b).toNat + 128 ≤ s.cur.ctx.scratchQuota → s.poisoned (scratchPa s.focusCore (s.cur.rdS st b).toNat) 128 = false →
         accepted (.lupd t k (d.castLE (by decide)) a b) (.line (match d with | 0 => .addI32 | 1 => .addF32 | 2 => .maxF32 | 3 => .minF32))
           (memRead s.mem (scratchPa s.focusCore (s.cur.rdS st b).toNat) 128)))

/-- `flput`, `flget.x` and `flget.v` on a bound flume of the core's region (R374, R375): a put reserves the next slot and sends the
element of scratch with the release of its strand, a get takes the oldest element whose copy has finished, to scratch or to a vector
group, and `flget.x` gives its index.

`push` to a core of the step's mask with room gives it an arrival record of kind 1 with the argument, the address, the handler,
the operator sequence number and the source core, and the release of its strand (R187, R214, R376); a target at which it is discarded counts it in ARRDROP. -/
def Obligations.FlumeAndPushWords : Prop :=
  (∀ (s : State) (t : Tok) (k : Fin 16) (d a b : Reg) (f : Fin 256), scopeV (s.scopeEntry s.focusCore k) = true → s.noWrites →
     let st := s.focusStrand
     let fl := s.fab.flumes[f]
     let off := (s.cur.rdS st b).toNat
     let taken : Flume := { fl with out := fl.out + 1, rels := fl.rels.filter (fun x => x.1 != fl.out.toNat) }
     fl.region = some s.cur.ctx.region → fl.stream = none → (s.cur.rdS st a).toNat = f.val →
     (s.memRuns .s t (jS [] [a, b]) → off % 64 = 0 → off + fl.esize ≤ s.cur.ctx.scratchQuota → s.cur.roomIn 5 = true → (fl.inn - fl.out).toNat ≠ 2 ^ fl.slog2 →
       s.poisoned (scratchPa s.focusCore off) fl.esize = false →
       ∃ s', exec (.flput t k a b) s = .next s'
         ∧ s'.fab.flumes[f] = { fl.enter (s.releaseOf s.focusCore (s.scopeEntry s.focusCore k) k.val) with pending := fl.pending ++ [fl.inn.toNat] }
         ∧ s'.cur.eng.sends = s.cur.eng.sends ++ [.flume f.val fl.inn.toNat (memRead s.mem (scratchPa s.focusCore off) fl.esize)]
         ∧ s'.mem = s.mem ∧ s.wentOn s' 1 none ∧ s'.cur.regs = s.cur.regs)
     ∧ (fl.inn ≠ fl.out → fl.pending.contains fl.out.toNat = false → s.poisoned (fl.slotPa fl.out.toNat) fl.esize = false →
       s.refusal (coreMaster s.focusCore) 1 (fl.slotPa fl.out.toNat) fl.esize = none →
       (s.memRuns .l t (jS [d] [a, b]) → off % 64 = 0 → off + fl.esize ≤ s.cur.ctx.scratchQuota →
         ∃ s', exec (.flgetX t k d a b) s = .next s' ∧ s'.fab.flumes[f] = taken
           ∧ s'.mem = memWrite s.mem (scratchPa s.focusCore off) (memRead s.mem (fl.slotPa fl.out.toNat) fl.esize)
           ∧ s'.cur.rdS st d = (if d = 0 then 0 else BitVec.ofNat 64 fl.out.toNat) ∧ s.wentOn s' 1 (some d))
       ∧ (s.memRuns .l t (jMain [] [a] (d.val % vgrp s.vtype == 0)) →
         ∃ s', exec (.flgetV t k d a) s = .next s' ∧ s'.fab.flumes[f] = taken ∧ s'.mem = s.mem ∧ s.wentOn s' 1 none
           ∧ s'.cur.regs.v = (s.cur.writeGroupBytes d.val (vgrp s.vtype) (memRead s.mem (fl.slotPa fl.out.toNat) fl.esize)).regs.v)))
  ∧ (∀ (s : State) (t : Tok) (k : Fin 16) (d a b : Reg) (n : Fin 128), scopeV (s.scopeEntry s.focusCore k) = true → s.noWrites →
       let st := s.focusStrand
       let tgt := s.cur.rdS st a
       let ar := arrivalRec (s.cur.rdS st b) (s.cur.rdS st d) 0 (fld tgt 16 14) s.cur.ctx.opseq s.focusCore.val 0 1
       s.memRuns .s t (jS [] [d, a, b]) → n ≠ s.focusCore → fld tgt 0 7 = n.val → fld tgt 7 9 = 0 → fld tgt 30 34 = 0 → fld s.cur.ctx.coreMask n.val 1 = 1 →
       s.cur.roomIn 5 = true →
       (s.cores[n].discards ar = false → s.cores[n].arrivals.length < 16 → ∃ s', exec (.push t k d a b) s = .next s'
         ∧ s'.cores[n] = { s.cores[n] with arrivals := s.cores[n].arrivals ++ [⟨ar, some (s.releaseOf s.focusCore (s.scopeEntry s.focusCore k) k.val)⟩], replayable := false } ∧ s'.mem = s.mem ∧ s.wentOn s' 1 none
         ∧ s'.cur.eng.issued[(5 : Fin 8)] = s.cur.eng.issued[(5 : Fin 8)] + 1)
       ∧ (s.cores[n].discards ar = true → ∃ s', exec (.push t k d a b) s = .next s'
         ∧ s'.cores[n] = { s.cores[n] with arrdrop := s.cores[n].arrdrop + 1 } ∧ s'.mem = s.mem ∧ s.wentOn s' 1 none))

/-! ### Engine words -/

/-- `cpy`, `cpy.a`, `cpy.b` of context k with a descriptor in scratch that is not refused: the command joins its context with the
descriptor as it stands, and `cpy.a` and `cpy.b` take NB stream positions (R389, R390, R396, R397).

`ring` and `wgo` with room join their contexts, and `wgo` takes max(1, NB) stream positions of A (R377, R397, R406). -/
def Obligations.EngineWordsAreAccepted : Prop :=
  (∀ (s : State) (t : Tok) (g : Guard) (d a b : Reg) (k : Fin 2), s.focusStrand = .main → s.cur.rdP .main g = true → s.memRuns .l t (jMainG g [] [d, a, b] true) →
     let c := s.cur
     let off := (c.rdS .main a).toNat / 64 * 64
     let h := readHdr s.mem s.focusCore off
     let fl := s.fab.flumes[Fin.ofNat 256 (fld h 448 8)]
     let nb := fld (c.rdS .main d) 0 16
     c.roomIn (Fin.ofNat 8 k.val) = true → (dTo h = 5 → fl.region = some c.ctx.region) → off + 64 + 16 * dNdim h ≤ c.ctx.scratchQuota → (dTo h = 4 → fld c.ctx.coreMask (fld h 42 7) 1 = 1) → s.clean →
     ∀ p ∈ ([(Instr.cpy t g d a b k, 0, 0), (.cpyA t g d a b k, 1, c.mat.aprod.toNat), (.cpyB t g d a b k, 2, c.mat.bprod.toNat)] : List (Instr × Fin 3 × Nat)),
       let cmd : CopyCmd := ⟨(c.eng.issued[Fin.ofNat 8 k.val] + 1).toNat, c.po, h, readDims s.mem s.focusCore off (dNdim h), c.rdS .main b,
         if p.2.1 = 0 then c.rdS .main d else 0, p.2.1, p.2.2, 0, false, false⟩
       cpyRefused p.2.1 nb cmd fl.esize = false →
       ∃ s', exec p.1 s = .next s' ∧ s'.cur.eng.cpy[k] = c.eng.cpy[k] ++ [cmd] ∧ s'.cur.eng.issued = c.eng.issued.set k.val (c.eng.issued[Fin.ofNat 8 k.val] + 1)
         ∧ s'.cur.mat = { c.mat with aprod := if p.2.1 = 1 then c.mat.aprod + BitVec.ofNat 64 nb else c.mat.aprod,
                                     bprod := if p.2.1 = 2 then c.mat.bprod + BitVec.ofNat 64 nb else c.mat.bprod }
         ∧ s'.mem = s.mem ∧ s'.cur.regs = c.regs ∧ s'.cur.pc = c.pc + 1)
  ∧ (∀ (s : State) (t : Tok) (g : Guard) (d a b : Reg), s.focusStrand = .main → s.cur.rdP .main g = true →
       let c := s.cur
       let nb := max 1 (fld (c.rdS .main a) 0 16)
       (s.memRuns .l t (jMainG g [] [d, a, b] true) → ringBad s.focusCore (c.rdS .main d) (c.rdS .main a) (c.rdS .main b) = false → c.roomIn 4 = true →
         ∃ s', exec (.ring t g d a b) s = .next s' ∧ s'.cur.eng.rings = c.eng.rings ++ [⟨(c.eng.issued[(4 : Fin 8)] + 1).toNat, c.po, c.rdS .main d, c.rdS .main a, c.rdS .main b⟩]
           ∧ s'.cur.eng.issued[(4 : Fin 8)] = c.eng.issued[(4 : Fin 8)] + 1 ∧ s'.mem = s.mem ∧ s'.cur.regs = c.regs ∧ s'.cur.pc = c.pc + 1)
       ∧ (s.memRuns .x t (jMainG g [] [a] true) → c.roomIn 3 = true →
         ∃ s', exec (.wgo t g a) s = .next s' ∧ s'.cur.eng.wins = c.eng.wins ++ [⟨(c.eng.issued[(3 : Fin 8)] + 1).toNat, c.po, c.mat.win, c.mat.aprod.toNat, nb, 0⟩]
           ∧ s'.cur.mat = { c.mat with aprod := c.mat.aprod + BitVec.ofNat 64 nb } ∧ s'.cur.eng.issued[(3 : Fin 8)] = c.eng.issued[(3 : Fin 8)] + 1
           ∧ s'.mem = s.mem ∧ s'.cur.regs = c.regs ∧ s'.cur.pc = c.pc + 1))

/-- The configuration words write the control slot's matrix and window configuration as they are routed, reserved bits ignored, and
nothing else of it: `mcfg` one of NEST0 to NEST5 and MGRP, `mcfgz` all to their reset values, `wcfg` one window register (R388,
R398, R405).

The accumulator and format-table words with no go in flight (R403, R404, R409): `accrd` reads a block of a tile into rows of 64
words, `accwr` writes one, `acczero` clears the tile, `ftld` loads the configuration bits of an entry and keeps its monitors, `ftclr`
clears the monitors, `ftrd`, `ftmon` and `mstat` write row 0 of `vd` and zero its other rows. -/
def Obligations.ConfigurationAndAccumulatorWords : Prop :=
  (∀ (s : State) (t : Tok) (g : Guard) (d a : Reg), s.focusStrand = .main → s.cur.rdP .main g = true →
     let c := s.cur
     let v := c.rdS .main a
     let wrote (i : Instr) (f : MatRegs) : Prop :=
       ∃ s', exec i s = .next s' ∧ s'.cur.mat = f ∧ s'.mem = s.mem ∧ s'.cur.regs = c.regs ∧ s'.cur.eng = c.eng ∧ s'.cur.pc = c.pc + 1
     (∀ h : d.val < 6, s.memRuns .x t (jMainG g [] [a] true) → wrote (.mcfg t g d a) { c.mat with cfg := { c.mat.cfg with nest := c.mat.cfg.nest.set d.val (v &&& 0x3FFFFFF) } })
     ∧ (d = 6 → s.memRuns .x t (jMainG g [] [a] true) → wrote (.mcfg t g d a) { c.mat with cfg := { c.mat.cfg with mgrp := v &&& 0xFFFFF00FF3F01 } })
     ∧ (s.memRuns .x t (jMainG g [] [] true) → wrote (.mcfgz t g) { c.mat with cfg := { nest := Vector.replicate 6 1, mgrp := 0 } })
     ∧ (∀ h : d.val < 7, s.memRuns .x t (jMainG g [] [a] true) → wrote (.wcfg t g d a) { c.mat with win := c.mat.win.set d.val (v &&& winMask d.val) }))
  ∧ (∀ (s : State) (t : Tok) (g : Guard) (d b : Reg) (n : Fin 4) (k : Fin 16), s.focusStrand = .main → s.cur.rdP .main g = true → s.cur.eng.gos = [] →
       let c := s.cur
       let v := c.rdS .main b
       let rb := fld v 0 3
       let cb := fld v 3 1
       let img : BitVec 256 := BitVec.ofNat 256 (c.vrow d.val 0).toNat
       let n5 : Reg := n.castLE (by decide)
       let k5 : Reg := k.castLE (by decide)
       let left (i : Instr) (more : State → Prop) : Prop := ∃ s', exec i s = .next s' ∧ s'.mem = s.mem ∧ s'.cur.regs.s = c.regs.s ∧ s'.cur.regs.p = c.regs.p
         ∧ s'.cur.sys = c.sys ∧ s'.cur.pc = c.pc + 1 ∧ more s'
       let row0 (i : Instr) (f : Nat → Nat) : Prop := left i (fun s' => s'.cur.regs.acc = c.regs.acc ∧ s'.cur.mat = c.mat
         ∧ (∀ j < 64, s'.cur.elem d.val 32 0 j = f j) ∧ (∀ i < 16, 0 < i → s'.cur.vrow d.val i = 0) ∧ ∀ r : Reg, r ≠ d → ∀ i < 16, s'.cur.vrow r.val i = c.vrow r.val i)
       (s.memRuns .x t (jMainG g [] [b] true) →
         left (.accrd t g d n5 b) (fun s' => s'.cur.regs.acc = c.regs.acc
           ∧ ∀ i < 16, ∀ j < 64, s'.cur.elem d.val 32 i j = (c.accWord n.val (16 * rb + i) (64 * cb + j)).toNat)
         ∧ left (.accwr t g n5 d b) (fun s' => s'.cur.regs.v = c.regs.v
           ∧ ∀ (m : Fin 4) (i j : Nat), i < 128 → j < 128 → s'.cur.accWord m.val i j =
               if m = n ∧ i / 16 = rb ∧ j / 64 = cb then BitVec.ofNat 32 (c.elem d.val 32 (i % 16) (j % 64)) else c.accWord m.val i j))
       ∧ (s.memRuns .x t (jMainG g [] [] true) →
         left (.acczero t g n5) (fun s' => s'.cur.regs.v = c.regs.v
           ∧ ∀ (m : Fin 4) (i j : Nat), i < 128 → j < 128 → s'.cur.accWord m.val i j = if m = n then 0 else c.accWord m.val i j)
         ∧ (ftRefused img = false → left (.ftld t g k5 d) (fun s' => s'.cur.regs = c.regs
             ∧ fld s'.cur.mat.ft[k] 0 112 = fld img 0 112 ∧ fld s'.cur.mat.ft[k] 112 144 = fld c.mat.ft[k] 112 144 ∧ ∀ m : Fin 16, m ≠ k → s'.cur.mat.ft[m] = c.mat.ft[m]))
         ∧ left (.ftclr t g k5) (fun s' => s'.cur.regs = c.regs
             ∧ fld s'.cur.mat.ft[k] 0 112 = fld c.mat.ft[k] 0 112 ∧ fld s'.cur.mat.ft[k] 112 144 = 0 ∧ ∀ m : Fin 16, m ≠ k → s'.cur.mat.ft[m] = c.mat.ft[m])
         ∧ row0 (.ftrd t g d k5) (fun j => fld c.mat.ft[k] (32 * j) 32)
         ∧ (∀ x, c.eng.lastGo = some x → row0 (.ftmon t g d) (fun j => [x.satTotal, x.uflTotal, x.cncTotal, x.chunksDone, x.skipped].getD j 0 % 2 ^ 32))
         ∧ row0 (.mstat t g d) (fun j => [c.estat 2, c.estat 2 / 2 ^ 32, (c.eng.tl[(2 : Fin 8)]).toNat, (c.eng.tl[(2 : Fin 8)]).toNat / 2 ^ 32, c.estat 3, c.estat 3 / 2 ^ 32,
             (c.eng.tl[(3 : Fin 8)]).toNat, (c.eng.tl[(3 : Fin 8)]).toNat / 2 ^ 32, c.mat.skipped.toNat].getD j 0 % 2 ^ 32)))

/-- `mgo` with room, a valid format-table entry and admissible chunks is accepted: it takes its stream positions of A and B as it is
routed, and joins the matrix engine's context (R397, R399 to R401, R256). -/
def Obligations.MatrixGoIsAccepted : Prop :=
  ∀ (s : State) (t : Tok) (g : Guard) (d : Fin 4), s.focusStrand = .main → s.cur.rdP .main g = true → s.memRuns .x t (jMainG g [] [] true) →
    let c := s.cur
    let cfg := c.mat.cfg
    let ent := c.mat.ft[c.ftIndex]
    let counts := rowCounts s.mem s.focusCore cfg
    let chunks := if cfg.grouped then cfg.groupedChunks d.val counts else cfg.chunks d.val
    c.roomIn 2 = true → s.clean → fld ent 0 1 = 1 → (cfg.grouped = true → fld cfg.mgrp 32 20 / 2 * 2 + 2 * cfg.ng ≤ c.ctx.scratchQuota ∧ counts.foldl (· + ·) 0 ≤ cfg.rowb) →
    inadmissible (if fld ent 16 1 = 1 then 2 else 4) chunks = none →
    ∃ s', exec (.mgo t g (d.castLE (by decide))) s = .next s'
      ∧ s'.cur.mat = { c.mat with acons := c.mat.acons + BitVec.ofNat 64 cfg.positions.1, bcons := c.mat.bcons + BitVec.ofNat 64 cfg.positions.2 }
      ∧ s'.cur.eng.issued[(2 : Fin 8)] = c.eng.issued[(2 : Fin 8)] + 1
      ∧ (chunks ≠ [] → ∃ x, s'.cur.eng.gos = c.eng.gos ++ [x] ∧ x.tile = d ∧ x.todo = chunks ∧ x.ent = ent ∧ x.abase = c.mat.acons.toNat ∧ x.bbase = c.mat.bcons.toNat)
      ∧ s'.mem = s.mem ∧ s'.cur.regs = c.regs ∧ s'.cur.pc = c.pc + 1

/-! ### Events of the board -/

/-- What the resets leave (R23, R25, R27, R32): a cold reset loses every core, every region, every stream and device memory and begins
at boot step 1; COLDRST does the same for its one value; a warm reset and a firmware watchdog expiry keep device memory and the time
base, the watchdog's keeps the links trained, and the other ends a slew (R104); a power loss leaves boot step 0 and the flash, with one damaged record more where one was
being written.

PERST# on one port takes its link down; before boot step 6 it changes only that port's link, its power state and its queues' wake
latches. A Function Level Reset of an enabled virtual function withdraws its features, its registrations and its completed mailbox
slots (R18). -/
def Obligations.ResetsClearWhatTheySay : Prop :=
  (∀ s : State,
     let cleared (t : State) : Prop := t.cores = Vector.replicate 128 Core.reset ∧ t.streams = [] ∧ t.sched = Sched.reset ∧ t.fe = FrontEnd.reset
       ∧ t.trans = Trans.reset ∧ t.fab = Fabric.reset
     let cold (t : State) : Prop := cleared t ∧ t.tb = TimeBase.reset
       ∧ t.board = { Board.reset with flash := s.board.flash, bootStep := 1, bootErr := if s.board.flash.dirOk then 0 else 1 }
       ∧ ∀ a, sget Memory.dflt t.mem a = if a < Config.cxlBase then 0 else sget Memory.dflt s.mem a
     let warm (dog : Bool) (t : State) : Prop := cleared t ∧ t.tb = (if dog then s.tb else { s.tb with slewPpm := 0, remaining := 0, frac := 0 }) ∧ t.board.bootStep = 1 ∧ t.board.flash = s.board.flash ∧ t.board.limit = s.board.limit
       ∧ t.board.trained = (if dog then s.board.trained else Vector.replicate 2 false) ∧ t.board.retry = true
       ∧ ∀ a, a < 0x4000000000 ∨ Config.cxlBase ≤ a → sget Memory.dflt t.mem a = sget Memory.dflt s.mem a
     (∃ t, exec .coldReset s = .next t ∧ cold t) ∧ (∃ t, exec (.coldrst 0x00000C01) s = .next t ∧ cold t)
     ∧ (∀ v, v ≠ 0x00000C01 → exec (.coldrst v) s = .next s)
     ∧ (∃ t, exec .warmReset s = .next t ∧ warm false t)
     ∧ (5 ≤ s.board.bootStep → ∃ t, exec .firmwareWatchdogExpiry s = .next t ∧ warm true t)
     ∧ (∃ t, exec (.powerLoss false) s = .next t ∧ cleared t ∧ t.board = { Board.reset with flash := s.board.flash })
     ∧ (5 ≤ s.board.bootStep → s.board.lifeBank = false → s.board.lifeSlot < 256 → ∃ t, exec (.powerLoss true) s = .next t ∧ cleared t ∧ t.board.bootStep = 0
       ∧ t.board.flash = { s.board.flash with bank0 := s.board.flash.bank0 ++ [{ seq := s.board.lifeSeq, ok := false, counts := s.board.life }] }))
  ∧ (∀ s : State,
       (∀ p : Fin 2, ∃ t, exec (.portReset p) s = .next t ∧ t.board.trained[p] = false ∧ t.board.d3hot[p] = false
         ∧ (s.board.bootStep < 6 → t.cores = s.cores ∧ t.mem = s.mem ∧ t.sched = s.sched ∧ t.trans = s.trans
           ∧ t.board = { s.board with trained := s.board.trained.set p false, d3hot := s.board.d3hot.set p false }
           ∧ (∀ q, q ∈ t.fe.latchFifo ↔ q ∈ s.fe.latchFifo ∧ fld (s.qd q) 148 1 ≠ p.val)))
       ∧ (∀ vf : Fin 8, s.board.vfEnable[vf] = true → 6 ≤ s.board.bootStep → s.regionIds = [0] → s.streams = [] →
         let f : Fin 10 := Fin.ofNat 10 (vf.val + 1)
         ∃ t, exec (.functionLevelResetVf vf) s = .next t ∧ t.fe.featack[f] = 0 ∧ t.fe.registered[f] = false ∧ t.fe.mbxDone[f] = 0)
       ∧ (∀ pf : Fin 2, 6 ≤ s.board.bootStep → s.regionIds = [0] → s.streams = [] → s.board.vfEnable = Vector.replicate 8 false →
         let f : Fin 10 := if pf = 0 then 0 else 9
         ∃ t, exec (.functionLevelResetPf pf) s = .next t ∧ t.fe.featack[f] = 0 ∧ t.fe.registered[f] = false ∧ t.fe.mbxDone[f] = 0
           ∧ t.board.vfEnable = Vector.replicate 8 false))

/-- The boot steps in order (R27, R28): each event moves the boot on from the step before it, and from no other; slot A is preferred to
slot B, and the boot goes on where slot B runs; a device without a good slot stays at step 4; a warm reset trains no memory, so that none
fails; configuration requests get retry status until step 7. -/
def Obligations.BootSteps : Prop :=
  ∀ s : State,
    let b := s.board
    let goesOn (i : Instr) (f : State → Prop) : Prop := ∃ t, exec i s = .next t ∧ f t
    let board (x : Board) (t : State) : Prop := t = { s with board := x }
    (b.bootErr = 0 → b.bootStep = 1 → b.flash.helperOk = true → goesOn .pufReconstruction (board { b with bootStep := if b.watchdog then 3 else 2, idKey := true }))
    ∧ (b.bootErr = 0 → b.bootStep = 1 → b.flash.helperOk = false → goesOn .pufReconstruction (board { b with bootStep := 2, bootErr := 4 }))
    ∧ (b.bootStep ≠ 1 → goesOn .pufReconstruction (fun t => t = s))
    ∧ (b.bootErr = 0 → b.bootStep = 2 → s.input .trainingBegins = { s with board := { b with bootStep := 3 } })
    ∧ (∀ p : Fin 2, 2 ≤ b.bootStep → b.bootErr ≠ 4 → b.trained[p] = false →
      goesOn (.linkTraining p) (board { b with trained := b.trained.set p true, bootStep := max b.bootStep 3 }))
    ∧ (b.bootErr = 0 → b.bootStep = 3 →
      let ok (x : SlotImage) : Prop := x.chainOk = true ∧ x.sigOk = true ∧ (if b.flash.secMacOk then b.flash.secVersion else 0) ≤ x.version
      let started (x : SlotImage) (t : State) : Prop := t.board.bootStep = 5 ∧ t.board.meas = x.digest ∧ t.board.runVersion = x.version ∧ t.mem = s.mem ∧ t.cores = s.cores
      (ok b.flash.slotA → goesOn .slotVerification (fun t => started b.flash.slotA t ∧ t.board.slotB = false ∧ t.board.bootErr = 0))
      ∧ (¬ ok b.flash.slotA → ok b.flash.slotB → goesOn .slotVerification (fun t => started b.flash.slotB t ∧ t.board.slotB = true ∧ t.board.bootErr = 2))
      ∧ (¬ ok b.flash.slotA → ¬ ok b.flash.slotB → goesOn .slotVerification (board { b with bootStep := 4, bootErr := 3 })))
    ∧ (b.bootErr ≠ 5 → b.bootStep = 5 → b.warm = false → goesOn (.memoryTraining false) (board { b with bootErr := 5 }))
    ∧ (b.bootErr ≠ 5 → b.bootStep = 5 → b.flash.blob.roots = [] → ∀ ok : Bool, ok = true ∨ b.warm = true →
      goesOn (.memoryTraining ok) (fun t => t.board.bootStep = 6 ∧ t.board.bootErr = b.bootErr ∧ t.board.blob = b.flash.blob
      ∧ t.board.tags = (if b.warm then b.tags else b.flash.blob.tags)
      ∧ t.mem = s.mem ∧ t.cores = s.cores ∧ (t.region 0).exist = true ∧ (t.region 0).state = 0 ∧ t.effMask 0 = BitVec.allOnes 128 ∧ t.effScrq 0 = 256))
    ∧ (b.bootErr ≠ 5 → b.bootStep = 6 → goesOn .deviceReady (fun t => t.board = { b with bootStep := 7, retry := false } ∧ t.fe.features = 0x1FF
      ∧ t.mem = s.mem ∧ t.cores = s.cores))
    ∧ (∀ f : Fin 10, goesOn (.configurationRequest f) (fun t => t = { s with notes := s.notes ++ [.config f.val b.retry] }))

/-- The arithmetic clock (R11 to R13): an average over the last 1 ms above the limit steps it 50 MHz down, not below 1,650 MHz; 100
samples below 95 % of the limit step it up, not above 3,300 MHz; 105 °C holds it at 1,650 MHz until the temperature is below 100 °C;
115 °C stops the device; a clock step moves it 50 MHz towards the clock asked for.

The voltage governor at the end of a window (R166), by the corrected errors and parity errors logged for the domain in it: a count
above PFT takes the offset back to nominal, locks the domain for 8,640 windows and is recorded under class 0x0F; a quiet run of 360
windows deepens it by 5 mV; a fourth window above PFT at nominal is predictive failure, with the status bit and in-band interrupt 3. The
next window counts from 0. A window that counts another number than the arrays have logged does not end. -/
def Obligations.PowerThermalAndVoltage : Prop :=
  (∀ s : State,
     let b := s.board
     let becomes (i : Instr) (x : Board) : Prop := ∃ t, exec i s = .next t ∧ t = { s with board := x }
     (∀ w, 5 ≤ b.bootStep → b.throttle = false →
       let l := (w :: b.samples).take 10
       let sum := sumPower l
       let b1 : Board := { b with samples := l, power := 4 * sum / l.length }
       let low : Prop := 100 * sum < 95 * (b.limit * l.length)
       (b.limit * l.length < sum → let c := max 1650 (b.capMhz - 50)
         becomes (.powerSample w) { b1 with capMhz := c, clockTarget := c, belowRun := 0 })
       ∧ (low → 99 ≤ b.belowRun → let c := min 3300 (b.capMhz + 50)
         becomes (.powerSample w) { b1 with capMhz := c, clockTarget := c, belowRun := 0 })
       ∧ (low → b.belowRun < 99 → becomes (.powerSample w) { b1 with clockTarget := b.capMhz, belowRun := b.belowRun + 1 })
       ∧ (¬ low → sum ≤ b.limit * l.length → becomes (.powerSample w) { b1 with clockTarget := b.capMhz, belowRun := 0 }))
     ∧ (b.clockMhz < b.clockTarget → becomes .arithClockStepDone { b with clockMhz := min b.clockTarget (b.clockMhz + 50) })
     ∧ (b.clockTarget < b.clockMhz → becomes .arithClockStepDone { b with clockMhz := max b.clockTarget (b.clockMhz - 50) })
     ∧ (∀ d : Int, 840 ≤ d → d < 920 → b.throttle = false →
       becomes (.junctionThrottle d) { b with temp := d, throttle := true, clockMhz := min b.clockMhz 1650, clockTarget := 1650, ibi := b.ibi ++ [1] })
     ∧ (∀ d : Int, d < 800 → b.throttle = true → becomes (.throttleRelease d) { b with temp := d, throttle := false, clockTarget := b.capMhz })
     ∧ (∀ d : Int, 920 ≤ d → becomes (.thermalTrip d) { b with temp := d, fatal := true, ibi := b.ibi ++ [2] }))
  ∧ (∀ (s : State) (d : Fin 18), 5 ≤ s.board.bootStep →
       let b := s.board
       let n := b.domCount[d]
       let pft := b.blob.pft[d]
       let ends (f : State → Prop) : Prop := ∃ t, exec (.governorWindow d n) s = .next t ∧ t.board.domCount[d] = 0 ∧ t.cores = s.cores ∧ f t
       (pft < n → b.voff[d] ≠ 0 → ends (fun t => t.board.voff = b.voff.set d 0 ∧ t.board.vlock[d] = 8640 ∧ t.board.vrun[d] = 0
         ∧ t.ras.elogSeq = s.ras.elogSeq + 1 ∧ t.board.predfail = b.predfail))
       ∧ (8 * n ≤ pft → b.voff[d] + 5 ≤ 60 → b.voff[d] + 5 ≤ b.blob.deepest[d] → 359 ≤ b.vquiet[d] → b.vlock[d] ≤ 1 →
         ends (fun t => t.board.voff = b.voff.set d (b.voff[d] + 5) ∧ t.ras = s.ras ∧ t.mem = s.mem))
       ∧ (pft < n → b.voff[d] = 0 → b.vrun[d] = 3 → ends (fun t => t.board.predfail = true ∧ t.board.ibi = b.ibi ++ [3]
         ∧ t.ras.elogSeq = s.ras.elogSeq + 1 ∧ t.board.voff = b.voff))
       ∧ ∀ m, m ≠ n → exec (.governorWindow d m) s = .next s)

/-- The sideband, lifetime records and the time base (R24, R25, R32, R103, R104): a limit written is clamped to 900 W to 1,650 W; the
digest is read word by word; the timer and an orderly shutdown append a good record; a dialog ahead by more than 1 ms steps the time base,
one that lies behind by more slows it; reading TB_STEPS returns and clears it. -/
def Obligations.SidebandAndTimeEvents : Prop :=
  ∀ s : State,
    let b := s.board
    (∀ a, exec (.entdaa a) s = .next { s with board := { b with i3cAddr := some a } })
    ∧ (∀ v : BitVec 32, exec (.sbLimitWrite v) s = .next { s with board := { b with limit := max 900 (min 1650 v.toNat) } })
    ∧ exec .sbMeasRead s = .next { s with board := { b with sbData := b.meas.extractLsb' (32 * b.measPos.val) 32, measPos := b.measPos + 1 } }
    ∧ (5 ≤ b.bootStep → b.lifeSlot < 256 → ∀ e ∈ [Instr.lifetimeRecordTimer, .orderlyShutdown], ∃ t, exec e s = .next t ∧ t.board.lifeSeq = b.lifeSeq + 1
      ∧ (b.lifeBank = false → t.board.flash = { b.flash with bank0 := b.flash.bank0 ++ [⟨b.lifeSeq, true, b.life⟩] })
      ∧ (b.lifeBank = true → t.board.flash = { b.flash with bank1 := b.flash.bank1 ++ [⟨b.lifeSeq, true, b.life⟩] }) ∧ t.mem = s.mem ∧ t.cores = s.cores)
    ∧ exec .tbStepsRead s = .next { s with tb := { s.tb with steps := 0 }, notes := s.notes ++ [.data 0 (some (natLe 4 s.tb.steps.toNat)) false] }
    ∧ (∀ off : Int, s.tb.ctl = 1 → b.trained[(0 : Fin 2)] = true → b.ptmEnable[(0 : Fin 2)] = true → 5 ≤ b.bootStep →
      (1000000 < off → ∃ t, exec (.ptmDialog off) s = .next t ∧ t.tb.now = s.tb.now + BitVec.ofInt 64 off ∧ t.tb.steps = s.tb.steps + 1 ∧ t.tb.slewPpm = 0)
      ∧ (off < -1000000 → ∃ t, exec (.ptmDialog off) s = .next t ∧ t.tb.now = s.tb.now ∧ t.tb.steps = s.tb.steps ∧ t.tb.slewPpm = -1000 ∧ t.tb.remaining = off)
      ∧ (-1000000 ≤ off → off ≤ 1000000 → ∃ t, exec (.ptmDialog off) s = .next t ∧ t.tb.now = s.tb.now ∧ t.tb.steps = s.tb.steps ∧ t.tb.remaining = off
        ∧ -100 ≤ t.tb.slewPpm ∧ t.tb.slewPpm ≤ 100))
    ∧ (∀ p : Fin 2, ∃ t, exec (.cxlLinkLoss p) s = .next t ∧ t.cores = s.cores
      ∧ ∀ h ∈ b.hdm, h.enabled = true → h.interleave = true ∨ h.port = p → (h.base, h.size) ∈ t.board.lostCxl)

/-! ### Events of translation, ports and registers -/

/-- A walk that ends in a leaf which a cache may hold puts it into the core's and the crew's TLB; one whose page an invalidation has covered since it
began gives it to the access that waits and to no cache; one that faults installs nothing, and a read that a target refuses is recorded (R46 to R48, R51,
R61).

Invalidation (R37, R50, R51): a good descriptor of firmware joins the queue; acceptance takes it out of every TLB and gives INV_ACC
its SEQ; completion, with no write that used a covered entry outstanding, gives INV_DONE its SEQ and raises the interrupt that is enabled;
an ATS request lets the writes through a port perform, clears the range and is answered.

What a descriptor covers (R50): KIND 0 the pages of one ASID, an entry of a larger page with any part of its span in the range; KIND 1
every entry of the ASID; KIND 2 every entry. -/
def Obligations.WalksAndInvalidations : Prop :=
  (∀ (s : State) (c : Fin 128) (va : W64), s.cores[c].phase ≠ .idle → va.toNat < 2 ^ 48 →
     let x := s.cores[c].ctx
     (∀ l, s.walk x.root x.asid va.toNat = .ok l → cacheable (s.marked l.leaf l.shift va.toNat) = true →
       let e : TlbEntry := { asid := x.asid, va := va.toNat / 2 ^ l.shift * 2 ^ l.shift, shift := l.shift, leaf := l.leaf }
       (s.trans.walks = [] → ∃ t, exec (.translationWalk c va) s = .next t ∧ e ∈ t.cores[c].mem.tlb ∧ e ∈ t.trans.crewTlb[crewOf c] ∧ t.mem = s.mem ∧ t.fab = s.fab
         ∧ t.cores[c].mem.tlb.length ≤ 96 ∧ t.cores[c].regs = s.cores[c].regs ∧ ∀ n : Fin 128, n ≠ c → t.cores[n] = s.cores[n])
       ∧ (∀ w, s.trans.walks = [w] → w.asid = x.asid → w.va = va.toNat → w.stale = true → w.cores = [c] →
         ∃ t, exec (.translationWalk c va) s = .next t ∧ t.trans = { s.trans with walks := [] } ∧ t.mem = s.mem
           ∧ t.cores[c] = { s.cores[c] with mem := { s.cores[c].mem with handed := some e } } ∧ ∀ n : Fin 128, n ≠ c → t.cores[n] = s.cores[n]))
     ∧ (∀ f, s.walk x.root x.asid va.toNat = .error f → ∃ t, exec (.translationWalk c va) s = .next t ∧ t.cores = s.cores ∧ t.trans.crewTlb = s.trans.crewTlb
       ∧ t.trans.walkCache = s.trans.walkCache ∧ t.ras.elogSeq = s.ras.elogSeq + (match f with | .walk _ _ => 1 | _ => 0)))
  ∧ (∀ s : State,
       (∀ seq : W64, let d : BitVec 256 := setFld s.trans.invq 192 64 seq.toNat
         s.trans.queue.length < 64 → s.invBad d = false → ∃ t, exec (.invqSubmit 0x8C seq) s = .next t ∧ t.mem = s.mem ∧ t.cores = s.cores
           ∧ t.trans.queue = s.trans.queue ++ [⟨fld d 0 4, fld d 16 12, fld d 76 36 * 4096, fld d 128 32, seq.toNat, none⟩] ∧ t.trans.nextSeq = seq.toNat + 1)
       ∧ (∀ d rest, s.trans.queue = d :: rest → d.mbx = none → ∃ t, exec .invalidationAccept s = .next t ∧ t.trans.queue = rest
         ∧ t.trans.accepted = s.trans.accepted ++ [d] ∧ t.trans.invAcc = BitVec.ofNat 64 d.seq ∧ t.mem = s.mem
         ∧ (∀ (n : Fin 128) (e : TlbEntry), e ∈ t.cores[n].mem.tlb ↔ e ∈ s.cores[n].mem.tlb ∧ d.covers e.asid e.va e.shift = false)
         ∧ (∀ (n : Fin 16) (e : TlbEntry), e ∈ t.trans.crewTlb[n] ↔ e ∈ s.trans.crewTlb[n] ∧ d.covers e.asid e.va e.shift = false))
       ∧ (∀ d rest, s.trans.accepted = d :: rest → (∀ x ∈ s.fab.inflight, s.drains d x = false) → ∃ t, exec .invalidationComplete s = .next t
         ∧ t.trans = { s.trans with accepted := rest, invDone := BitVec.ofNat 64 d.seq } ∧ t.cores = s.cores ∧ t.mem = s.mem
         ∧ t.notes = (if fld s.trans.invIrq 0 1 = 1 then s.notes ++ [.fwIrq] else s.notes))
       ∧ (∀ (f : Fin 10) (base len : Nat), s.funcOn f = true → s.trans.atsEnable[f] = true → ∃ t, exec (.atsInvalidateRequest f base len) s = .next t
         ∧ t.notes.getLast? = some (.atsComplete f.val)
         ∧ (∀ e ∈ t.trans.ats, ¬ (e.func = f.val ∧ e.page * 4096 < base + len ∧ base < e.page * 4096 + 4096))
         ∧ ((∀ x ∈ s.fab.inflight, x.outward = false) → ∀ e, e ∈ t.trans.ats ↔ e ∈ s.trans.ats ∧ ¬ (e.func = f.val ∧ e.page * 4096 < base + len ∧ base < e.page * 4096 + 4096))))
  ∧ (∀ (d : InvDesc) (asid va shift : Nat),
       let lo := va / 2 ^ shift * 2 ^ shift
       (d.kind = 0 → 0 < d.pages → (d.covers asid va shift = true ↔ asid = d.asid ∧ ∃ a, lo ≤ a ∧ a < lo + 2 ^ shift ∧ d.va ≤ a ∧ a < d.va + d.pages * 4096))
       ∧ (d.kind = 1 → (d.covers asid va shift = true ↔ asid = d.asid)) ∧ (2 ≤ d.kind → d.covers asid va shift = true))

/-- Page-ins (R54, R55), where the access tables let the service do its accesses and no poison stands: with a frame in the ring the page-in pops it and HEAD moves on; an empty ring is told to firmware once; a copy that
ends well puts the page's bytes into the frame, swaps the leaf for one that names the frame with TIER and TMISS 0, and drops the page's
cached translations; a copy that fails gives the frame back and leaves memory as it was.

Access-table updates (R37, R59): firmware's write queues the record; the update, whose record firmware may read, loads all 8 windows of its master and gives ATDONE its
sequence number, once no request that passed under the old ones is outstanding; before that ATDONE stands; the windows of other masters
stand. -/
def Obligations.PageInsAndAccessTables : Prop :=
  (∀ (s : State) (i : Nat) (x : PageIn), s.trans.pageIns[i]? = some x → s.clean →
     let b := s.pageInBlock x
     let head := fld b (x.ring + 48) 16
     (x.frame = none → x.pools = true → s.popBehind i x = false → s.popRefusal x b = none → pibOk b = true →
       (head ≠ fld b (x.ring + 32) 16 → ∃ t, exec (.pageInFramePop i) s = .next t ∧ t.trans.pageIns[i]? = some { x with frame := some (s.poolFrame x b) }
         ∧ memNat t.mem (x.pib + (x.ring + 48) / 8) 2 = (head + 1) % 65536 ∧ t.cores = s.cores ∧ t.notes = s.notes)
       ∧ (head = fld b (x.ring + 32) 16 → x.emptied = false → ∃ t, exec (.pageInFramePop i) s = .next t ∧ t.notes = s.notes ++ [.poolEmpty x.pib]
         ∧ t.trans.pageIns[i]? = some { x with emptied := true } ∧ t.mem = s.mem))
     ∧ (∀ f, x.frame = some f → x.waiters = [] → s.copyOk x f = true → memNat s.mem x.leafAddr 8 = x.old.toNat → (∀ y ∈ s.fab.inflight, s.drains x.inval y = false) →
       x.leafAddr + 8 ≤ f ∨ f + x.size ≤ x.leafAddr →
       ∃ t, exec (.pageInComplete i true) s = .next t ∧ t.trans.pageIns = s.trans.pageIns.eraseIdx i
         ∧ memRead t.mem f x.size = memRead s.mem (pteAddr x.old) x.size ∧ memNat t.mem x.leafAddr 8 = (newLeaf x.old f).toNat
         ∧ (∀ a, (a < f ∨ f + x.size ≤ a) → (a < x.leafAddr ∨ x.leafAddr + 8 ≤ a) → sget Memory.dflt t.mem a = sget Memory.dflt s.mem a)
         ∧ t.notes.getLast? = some (.pagein x.asid x.va (pteAddr x.old) f)
         ∧ ∀ (n : Fin 128), ∀ e ∈ t.cores[n].mem.tlb, x.inval.covers e.asid e.va e.shift = false)
     ∧ (∀ f, x.frame = some f → x.waiters = [] → s.copyOk x f = true → ∃ t, exec (.pageInComplete i false) s = .next t ∧ t.mem = s.mem
       ∧ t.trans.pageIns = s.trans.pageIns.eraseIdx i ∧ t.notes = s.notes ++ [.frameReturn x.asid f x.size]))
  ∧ (∀ s : State,
       (∀ v : W64, s.trans.atQueue.length < 16 → ∃ t, exec (.atupd 0x8C v) s = .next t ∧ t.mem = s.mem ∧ t.trans =
         { s.trans with atQueue := s.trans.atQueue ++ [⟨Fin.ofNat 256 (v.toNat % 256), s.trans.atupdAddr.toNat, BitVec.ofNat 32 (v.toNat / 2 ^ 32), [], Vector.replicate 8 0⟩] })
       ∧ (∀ u rest, s.trans.atQueue = u :: rest → u.loaded = [] → s.refusal 0x8C 1 u.addr 128 = none → (∀ i : Fin 8, windowBad (s.windowRec u)[i] = false) →
         ((∃ x ∈ s.fab.inflight, x.performed = false ∧ x.core.val = u.master.val) → ∃ t, exec .atupdDone s = .next t ∧ t.trans.atDone = s.trans.atDone ∧ t.mem = s.mem)
         ∧ ((∀ x ∈ s.fab.inflight, x.performed = true ∨ x.core.val ≠ u.master.val) → ∃ t, exec .atupdDone s = .next t ∧ t.trans.atQueue = rest ∧ t.trans.atDone = u.seq ∧ t.mem = s.mem
           ∧ (∀ i : Fin 8, t.trans.windows[u.master][i] = BitVec.ofNat 128 (memNat s.mem (u.addr + 16 * i.val) 16))
           ∧ ∀ m : Fin 256, m ≠ u.master → t.trans.windows[m] = s.trans.windows[m])))

/-- Requests of the host and of peers to device memory (R36, R64, R65, R228, R229), where no poison stands: a granted read
is answered with the bytes, a granted write leaves them in memory and no other byte changes; a read that the access table refuses is
recorded and answered with Unsupported Request.

Registers (R5, R6, R67, R70, R158): a granted write sets a register's writable fields and drops its reserved bits; FEATACK takes a word
until the function has registered a queue, and from then on the write is ignored and logged; MBX_DONE is returned and cleared. -/
def Obligations.RequestsAndRegisters : Prop :=
  (∀ (s : State) (f : Fin 10) (off len : Nat) (data : List Byte), s.clean →
     let m := funcMaster f
     let wrote (t : State) (pa : Nat) : Prop := memRead t.mem pa data.length = data ∧ t.cores = s.cores
       ∧ ∀ a, a < pa ∨ pa + data.length ≤ a → sget Memory.dflt t.mem a = sget Memory.dflt s.mem a
     (s.funcOn f = true → s.board.d3hot[funcPort f] = false → (f = 0 ∨ f = 9) → off < 0x3000000000 → off < s.usableTop →
       (s.refusal m 1 off len = none → ∃ t, exec (.hostInboundRead f .bar4 off len) s = .next t ∧ t.mem = s.mem ∧ t.cores = s.cores
         ∧ t.notes = s.notes ++ [.data f.val (some (memRead s.mem off len)) false])
       ∧ (∀ k, s.refusal m 1 off len = some k → ∃ t, exec (.hostInboundRead f .bar4 off len) s = .next t ∧ t.ras.elogSeq = s.ras.elogSeq + 1
         ∧ t.notes = s.notes ++ [.data f.val none false])
       ∧ (data ≠ [] → s.refusal m 2 off data.length = none → ∃ t, exec (.hostInboundWrite f .bar4 off data) s = .next t ∧ wrote t off))
     ∧ (∀ (port : Fin 2) (rid : BitVec 16) (p : Fin 16) (pa : Nat), s.board.bootStep = 7 → s.board.trained[port] = true → s.peerOf port rid = some p →
       (0 < len → off + len ≤ 0x800000000 → s.exported p false off len = some pa → s.refusal (Fin.ofNat 256 (0xA0 + p.val)) 1 pa len = none →
         ∃ t, exec (.peerInboundRequest port rid off len none) s = .next t ∧ t.mem = s.mem
           ∧ t.notes = s.notes ++ [.peerData p.val (some (memRead s.mem pa len)) false])
       ∧ (data ≠ [] → off + data.length ≤ 0x800000000 → s.exported p true off data.length = some pa →
         s.refusal (Fin.ofNat 256 (0xA0 + p.val)) 2 pa data.length = none →
         ∃ t, exec (.peerInboundRequest port rid off len (some data)) s = .next t ∧ wrote t pa)))
  ∧ (∀ s : State,
       (∀ v : W64, (∀ o, o % 4 = 0 → o < 0x4000000 → s.refusal 0x8C 2 (0x4100000000 + o) 4 = none) →
         (exec (.registerWrite 0x8C 0x58 v) s = .next { s with fe := { s.fe with lwbase := v.setWidth 32 &&& 0x7800000 } })
         ∧ (fld v 0 1 = 1 → fld v 1 1 = fld s.tb.ctl 1 1 → exec (.registerWrite 0x8C 0x208 v) s = .next { s with tb := { s.tb with ctl := v.setWidth 32 &&& 3 } })
         ∧ (fld v 0 1 = 0 ∨ fld v 1 1 ≠ fld s.tb.ctl 1 1 → exec (.registerWrite 0x8C 0x208 v) s = .next { s with tb := { s.tb with ctl := v.setWidth 32 &&& 3, slewPpm := 0, remaining := 0, frac := 0 } })
         ∧ (exec (.registerWrite 0x8C 0x200024 v) s = .next { s with ras := { s.ras with crSeed := v.setWidth 32 } })
         ∧ (exec (.registerWrite 0x8C 0x120000 v) s = .next { s with trans := { s.trans with domainSelf := v.setWidth 32 &&& 15 } })
         ∧ (exec (.registerWrite 0x8C 0x100038 v) s = .next { s with trans := { s.trans with invIrq := v.setWidth 32 &&& 1 } })
         ∧ (fld v 0 5 ≤ 20 → exec (.registerWrite 0x8C 0x200020 v) s = .next { s with ras := { s.ras with crCtl := v.setWidth 32 &&& 0x11F } }))
       ∧ (∀ (m : Fin 256) (o k : Nat) (v : W64), o % 4 = 0 → o < 0x4000000 → s.refusal m 2 (0x4100000000 + o) 4 = some k →
         ∃ t, exec (.registerWrite m o v) s = .next t ∧ t.ras.elogSeq = s.ras.elogSeq + 1 ∧ t.fe = s.fe ∧ t.trans = s.trans ∧ t.tb = s.tb)
       ∧ (∀ (f : Fin 10) (w : Fin 8) (v : W32), s.funcOn f = true →
         (s.fe.registered[f] = false → ∃ t, exec (.featackWrite f w v) s = .next t ∧ fld t.fe.featack[f] (32 * w.val) 32 = v.toNat
           ∧ (∀ k : Nat, k < 8 → k ≠ w.val → fld t.fe.featack[f] (32 * k) 32 = fld s.fe.featack[f] (32 * k) 32) ∧ t.mem = s.mem)
         ∧ (s.fe.registered[f] = true → ∃ t, exec (.featackWrite f w v) s = .next t ∧ t.fe = s.fe ∧ t.ras.elogSeq = s.ras.elogSeq + 1))
       ∧ (∀ f : Fin 10, s.funcOn f = true → exec (.mbxDoneRead f) s = .next { s with
           fe := { s.fe with mbxDone := s.fe.mbxDone.set f 0 }, notes := s.notes ++ [.data f.val (some (natLe 4 s.fe.mbxDone[f].toNat)) false] }))

/-- A mailbox command that nothing refuses completes its slot, where no poison stands: STATUS 1, the result at byte 128, the DONE bit, MSI-X vector 0.

Mapping (R68, R76): an UNMAPPED queue whose turn it is comes to a free slot, MAPPED, with SLOT the slot and its parse state at RPTR; an unmap of a mapped
queue makes it UNMAPPING, and when the save completes it is UNMAPPED with RPTR at its parse point, the slot is free and UNMAPDONE is
raised. -/
def Obligations.MailboxAndMapping : Prop :=
  (∀ (s : State) (f : Fin 10) (k : Fin 8), s.fe.qdbase + 0x100000 ≤ Config.landingBase → s.clean →
     let done (t : State) (result : List Byte) : Prop := t.mbxStatus f k.val = 1 ∧ memRead t.mem (mbxAddr f k.val + 128) result.length = result
       ∧ fld t.fe.mbxDone[f] k.val 1 = 1 ∧ fld t.fe.mbxRung[f] k.val 1 = 0 ∧ .msix f.val 0 ∈ t.notes
     let arg (o n : Nat) : Nat := memNat s.mem (mbxAddr f k.val + o) n
     let q := arg 8 2
     let mine : Prop := q < 4096 ∧ qdState (s.qd q) ≠ 0 ∧ qdFunc (s.qd q) = f.val
     -- QUEUE_REG of a ring of 16 packets
     (s.asked f k 1 = true → arg 8 8 % 1024 = 0 → arg 16 1 = 0 → arg 17 1 = 0 → s.owns f.val (arg 18 2) = true → arg 18 2 < 4096 → arg 20 1 < 8 → arg 21 107 = 0 →
       ∀ n < 4096, qdState (s.qd n) = 0 → (∀ j < n, qdState (s.qd j) ≠ 0) →
       ∃ t, exec (.queueReg f k) s = .next t ∧ done t (natLe 2 n) ∧ qdState (t.qd n) = 1 ∧ fld (t.qd n) 0 64 = arg 8 8 ∧ qdSize (t.qd n) = 16
         ∧ qdRegion (t.qd n) = arg 18 2 ∧ qdFunc (t.qd n) = f.val ∧ qdWptr (t.qd n) = 0 ∧ qdRptr (t.qd n) = 0 ∧ t.fe.registered[f] = true)
     ∧ (s.asked f k 2 = true → mine → arg 10 118 = 0 → ∃ t, exec (.queueUnreg f k) s = .next t ∧ done t [] ∧ qdState (t.qd q) = 0)
     ∧ (s.asked f k 3 = true → mine → arg 10 2 = 0 → arg 16 112 = 0 → qdState (s.qd q) = 4 → ∃ t, exec (.queueReset f k) s = .next t ∧ done t []
       ∧ qdState (t.qd q) = 1 ∧ qdRptr (t.qd q) = arg 12 4 ∧ fld (t.qd q) 0 64 = fld (s.qd q) 0 64)
     ∧ (let d : BitVec 256 := BitVec.ofNat 256 (arg 8 32)
       s.asked f k 4 = true → arg 40 88 = 0 → s.invBad d = false → s.trans.queue.length < 64 → (∀ x ∈ s.trans.queue, x.mbx ≠ some (8 * f.val + k.val)) →
       ∃ t, exec (.invalidate f k) s = .next t ∧ t.mem = s.mem ∧ ∃ x, t.trans.queue = s.trans.queue ++ [x] ∧ x.seq = fld d 192 64 ∧ x.mbx = some (8 * f.val + k.val))
     ∧ (let r := s.report (memRead s.mem (mbxAddr f k.val + 8) 32)
       s.asked f k 5 = true → arg 48 80 = 0 → fld (s.fe.featack[f] &&& s.fe.features) 8 1 = 1 → s.refusal 0x8C 2 (arg 40 8) r.length = none →
       ∃ t, exec (.attest f k) s = .next t ∧ done t (natLe 4 r.length) ∧ (arg 40 8 + r.length ≤ Config.landingBase → memRead t.mem (arg 40 8) r.length = r))
     ∧ (s.asked f k 6 = true → (f = 0 ∨ f = 9) → arg 16 112 = 0 → arg 8 8 % 4096 = 0 → s.refusal 0x8C 2 (arg 8 8) s.lifeBytes.length = none →
       ∃ t, exec (.lifetime f k) s = .next t ∧ done t (natLe 8 s.board.lifeSeq ++ natLe 4 4096)
         ∧ (arg 8 8 + 4096 ≤ Config.landingBase → memNat t.mem (arg 8 8) 8 = s.board.lifeSeq % 2 ^ 64)))
  ∧ (∀ (s : State) (k : Fin 128) (q : Fin 4096),
       let d := s.qd q.val
       let x := s.fe.parsers[k]
       (x.queue = none → qdState d = 1 → qdWaiting d = false → fld d 1024 832 = 0 → (qdWptr d + 2 ^ 32 - qdRptr d) % 2 ^ 32 ≤ qdSize d → sget Kept.none s.fe.kept q.val = Kept.none →
         s.nextQueue = some q.val →
         ∃ t, exec (.slotMap k q) s = .next t ∧ qdState (t.qd q.val) = 2 ∧ qdSlot (t.qd q.val) = k.val ∧ t.fe.parsers[k].queue = some q.val
           ∧ t.fe.parsers[k].wptr = qdWptr d ∧ (∃ l, t.fe.parsers[k].levels = [l] ∧ l.next = qdRptr d ∧ l.buf = [] ∧ l.active = false ∧ l.skip = 0) ∧ t.cores = s.cores)
       ∧ (x.queue = some q.val → x.unmapping = false → ∃ t, exec (.slotUnmap k) s = .next t ∧ qdState (t.qd q.val) = 3
         ∧ t.fe.parsers[k] = { x with unmapping := true } ∧ t.cores = s.cores)
       ∧ (x.queue = some q.val → x.unmapping = true → x.tlwait = none → ∀ l rest, x.levels = l :: rest → l.loopNew = false → l.next < 2 ^ 32 →
         ∃ t, exec (.unmapSaveComplete k) s = .next t ∧ qdState (t.qd q.val) = 1 ∧ qdSlot (t.qd q.val) = 0xFF ∧ qdRptr (t.qd q.val) = l.next
           ∧ t.fe.parsers[k] = Parser.reset ∧ fld t.fe.unmapDone k.val 1 = 1 ∧ .unmapDone k.val ∈ t.notes ∧ t.cores = s.cores))

/-- Wakes (R75, R78, R79): the slot of a mapped queue rereads WPTR; an unmapped queue gets PWAKE and firmware QWAKE; a front end that has
been idle 50 µs gates, and a wake while gated ungates it and is handled.

The dispatcher of device queues (R96): a packet offered by a core to a device queue of its region with room is written at WPTR, WPTR
moves on, and the core hears ACCEPTED; a full queue answers FULL and nothing is written. -/
def Obligations.WakesAndDeviceQueues : Prop :=
  (∀ (s : State) (q : Fin 4096),
     let d := s.qd q.val
     let k : Fin 128 := Fin.ofNat 128 (qdSlot d)
     let x := s.fe.parsers[k]
     (s.fe.gated = false → qdState d = 2 → x.queue = some q.val → ∀ l, x.levels = [l] → l.left = none → l.active = false → l.loopNew = false → l.skip = 0 → l.next < 2 ^ 32 →
       (qdWptr d + 2 ^ 32 - l.next) % 2 ^ 32 ≤ qdSize d →
       ∃ t, exec (.queueWake q) s = .next t ∧ t.fe.parsers[k].wptr = qdWptr d ∧ t.fe.parsers[k].levels = [l] ∧ t.cores = s.cores)
     ∧ (s.fe.gated = false → qdState d = 1 → ∃ t, exec (.queueWake q) s = .next t ∧ qdPwake (t.qd q.val) = true ∧ t.notes = s.notes ++ [.qwake q.val] ∧ t.cores = s.cores)
     ∧ (s.fe.gated = false → (∀ j : Fin 128, s.fe.parsers[j].queue = none) → exec .frontEndClockGate s = .next { s with fe := { s.fe with gated := true } })
     ∧ (s.fe.gated = true → qdState d = 1 → sget none s.fe.latchMap q.val = none → s.fe.latchBits = 0 → s.fe.latchFifo = [] → s.fe.latchOverflow = false →
       ∃ t, exec (.frontEndUngate q) s = .next t ∧ t.fe.gated = false ∧ qdPwake (t.qd q.val) = true ∧ t.notes = s.notes ++ [.qwake q.val])
     ∧ (∀ v pa, qdState d = 1 → qdWaiting d = true → s.readTimeline (qdRegion d) (fld d 1856 64) = .value v pa → fld d 1920 64 ≤ v →
       ∃ t, exec (.waitRecordEval q) s = .next t ∧ q.val ∈ t.fe.runnableSince ∧ t.mem = s.mem ∧ t.cores = s.cores
         ∧ acquired (s.fab.relsAt pa 8) feKey (s.regionScope (qdRegion d) 15) 15 ≤ sget 0 t.fab.eclock feKey))
  ∧ (∀ (s : State) (c : Fin 128) (st : Strand) (q : Nat) (pkt : BitVec 512),
       s.cores[c].enqOffer = some (st, q, pkt) → s.cores[c].enqAnswer = none → s.devqCause c q pkt = none → s.clean →
       let d := s.qd q
       let full : Prop := (qdWptr d + 2 ^ 32 - qdRptr d) % 2 ^ 32 = qdSize d
       (¬ full → s.fe.gated = false → qdState d = 1 → (qdPacket d (qdWptr d) + 64 ≤ s.qdAddr q ∨ s.qdAddr q + 256 ≤ qdPacket d (qdWptr d)) →
         ∃ t, exec (.devqDispatch c) s = .next t ∧ t.cores[c].enqAnswer = some true ∧ memNat t.mem (qdPacket d (qdWptr d)) 64 = pkt.toNat
           ∧ qdWptr (t.qd q) = (qdWptr d + 1) % 2 ^ 32 ∧ qdPwake (t.qd q) = true)
       ∧ (full → ∃ t, exec (.devqDispatch c) s = .next t ∧ t.cores[c].enqAnswer = some false ∧ t.mem = s.mem ∧ t.fe = s.fe))

/-! ### Events of the front end and the streams -/

/-- PRED's eight tests (R83).

Packets that complete at parse, and the fetch that comes before (R83, R86, R87, R89): a fetch takes one packet more of the ring, or of the body
of a loop, whose last packet makes the LOOP packet complete (and with PASSES 0 the level goes on past the body); NOP goes on by one packet; IB opens
a level at ADDR with COUNT packets; PRED whose test holds goes on and one whose test fails leaves N units to skip; LOOP begins with its body still to
be read, RPTR at the LOOP itself until then; FFENCE goes on and discards what was fetched.

TLWAIT (R84): an object that has reached VALUE lets the packet complete, with an acquire; one below it holds the parser, with the limit
in device time; the hold ends when the object has reached VALUE, and the queue faults with cause 0x10 when the limit runs out first. -/
def Obligations.PacketsAtParse : Prop :=
  (∀ w v : W64, predTest 0 w v = (w == v) ∧ predTest 1 w v = (w != v) ∧ predTest 2 w v = w.ult v ∧ predTest 3 w v = w.ule v ∧ predTest 4 w v = v.ult w
     ∧ predTest 5 w v = v.ule w ∧ predTest 6 w v = w.slt v ∧ predTest 7 w v = v.sle w)
  ∧ (∀ (s : State) (p : Fin 128) (q : Nat) (l : Level),
       (let x := s.fe.parsers[p]
        let fetched (pos : Nat) (k : BitVec 512) : Prop :=
          let pa := qdPacket (s.qd q) ((l.next + pos) % 2 ^ 32)
          x.queue = some q ∧ x.levels = [l] ∧ x.unmapping = false ∧ l.skip = 0 ∧ l.left = none ∧ l.early = [] ∧ pos < (x.wptr + 2 ^ 32 - l.next) % 2 ^ 32
            ∧ s.refusal 0x88 1 pa 64 = none ∧ s.badGranule [(pa, 64)] = none ∧ k = BitVec.ofNat 512 (memNat s.mem pa 64)
        (∀ k, fetched l.buf.length k → l.active = false → l.loopNew = false → l.buf.length < 16 →
          ∃ t, exec (.packetFetch (slotOf p) 0) s = .next t ∧ t.fe.parsers[p].levels = [{ l with buf := l.buf ++ [k], early := [] }] ∧ t.cores = s.cores ∧ s.onlyQd t q)
        ∧ (∀ k, fetched (l.bodyFrom + l.body.length) k → l.active = true → l.loopNew = true → l.body.length + 1 = l.bodyLen - l.bodyFrom → l.bodyPos < l.bodyLen →
          bodyCause l.bodyFrom l.bodyLen (l.body ++ [k]) = none →
          let l1 := { l with body := l.body ++ [k], early := [], loopNew := false }
          ∃ t, exec (.packetFetch (slotOf p) 0) s = .next t ∧ t.fe.parsers[p].levels = [if l.passes = 0 then l1.endLoop 1 else l1] ∧ t.cores = s.cores ∧ s.onlyQd t q
            ∧ (qdPacket (s.qd q) ((l.next + l.bodyFrom + l.body.length) % 2 ^ 32) < Config.peerBase → t.notes = s.notes ++ s.irqOf p l.loopPkt)))
       ∧ ∀ k : BitVec 512, s.atRing p q l k →
         let wentIf (quiet : Prop) (i : Instr) (l0 : Level) (ls : List Level) : Prop :=
           ∃ t, exec i s = .next t ∧ s.wentOnTo t p q l0 ls ∧ s.onlyQd t q ∧ (quiet → t.notes = s.notes ++ s.irqOf p k)
         let went := wentIf True
         (pkType k = 0 → went (.nop (slotOf p)) (l.onRing 1) [])
         ∧ (pkType k = 3 → went (.ib (slotOf p)) (l.onRing 1) [bufferLevel (fld k 64 64) (fld k 128 32)])
         ∧ (∀ w, pkType k = 4 → s.readBlock p.val (fld k 64 64) 8 = .ok w →
           let ok := predTest (fld k 256 4) (BitVec.ofNat 64 w &&& BitVec.ofNat 64 (fld k 192 64)) (BitVec.ofNat 64 (fld k 128 64))
           let quiet : Prop := ∀ x, s.devPiece 0x88 (s.parserRegion p.val) kRead (fld k 64 64, 8) = .ok x → x.1 < Config.peerBase
           (ok = true → wentIf quiet (.pred (slotOf p)) (l.onRing 1) [])
           ∧ (ok = false → l.buf = [k] → wentIf quiet (.pred (slotOf p)) { l.onRing 1 with skip := fld k 264 8 } []))
         ∧ (pkType k = 5 → ∃ t, exec (.loopPacket (slotOf p)) s = .next t ∧ t.fe.parsers[p].levels = [l.enterLoop 1 k] ∧ qdRptr (t.qd q) = l.next % 2 ^ 32
           ∧ t.cores = s.cores ∧ s.onlyQd t q ∧ t.notes = s.notes)
         ∧ (pkType k = 6 → went (.ffence (slotOf p)) { l.onRing 1 with buf := [], early := [], body := [], bodyFrom := 0 } []))
  ∧ (∀ (s : State) (p : Fin 128) (q : Nat) (l : Level) (k : BitVec 512) (y pa : Nat),
       let x := s.fe.parsers[p]
       let synced (t : State) : Prop :=
         acquired (s.fab.relsAt pa 8) feKey (s.regionScope (s.parserRegion p.val) (pkScope k)) (pkScope k) ≤ sget 0 t.fab.eclock feKey
       (s.atRing p q l k → pkType k = 8 → s.readTimeline (s.parserRegion p.val) (fld k 64 64) = .value y pa →
         (fld k 128 64 ≤ y → ∃ t, exec (.tlwaitPacket (slotOf p)) s = .next t ∧ s.wentOnTo t p q (l.onRing 1) [] ∧ t.fe.parsers[p].tlwait = none ∧ synced t)
         ∧ (y < fld k 128 64 → x.waitLeft = none → ∃ t, exec (.tlwaitPacket (slotOf p)) s = .next t ∧ t.fe.parsers[p].levels = [l] ∧ t.mem = s.mem
           ∧ t.fe.parsers[p].tlwait = some (fld k 64 64, fld k 128 64, if fld k 192 32 = 0 then none else some (s.tb.now.toNat + 1000 * fld k 192 32))))
       ∧ (∀ va v e, x.queue = some q → x.levels = [l] → l.active = false → l.loopNew = false → l.skip = 0 → l.left = none → l.buf.head? = some k → x.unmapping = false →
         x.tlwait = some (va, v, e) → s.readTimeline (s.parserRegion p.val) va = .value y pa →
         (v ≤ y → ∃ t, exec (.tlwaitSatisfied (slotOf p)) s = .next t ∧ s.wentOnTo t p q (l.onRing 1) [] ∧ t.fe.parsers[p].tlwait = none ∧ synced t)
         ∧ (∀ te, e = some te → te ≤ s.tb.now.toNat → y < v → qdState (s.qd q) = 2 → qdSlot (s.qd q) = p.val →
           ∃ t, exec (.tlwaitExpired (slotOf p)) s = .next t ∧ qdState (t.qd q) = 4 ∧ fld (t.qd q) 176 8 = 0x10 ∧ t.fe.parsers[p].queue = none ∧ t.cores = s.cores)))

/-- Work packets as they leave parse (R81, R84, R90, R134): WRITE and MARK have written their bytes, TLSIG has raised the object where its
page grants AT and stored the value elsewhere, COPY is with the copy channel; LAUNCH and BUNDLE wait for the bucker and hold the parser.

Completion of a work packet (R84, R92, R95): one whose executor is done signals CTLADDR, raises its interrupt and is no longer in flight; a COPY of
one piece has copied its bytes; a LAUNCH with a faulted member faults its queue with cause 0x11. -/
def Obligations.WorkPackets : Prop :=
  (∀ (s : State) (p : Fin 128) (q : Nat) (l : Level) (k : BitVec 512) (pa : Nat) (leaf : W64), s.atRing p q l k →
     let r := s.parserRegion p.val
     let va := fld k 64 64
     let away (n : Nat) : Prop := pa + n ≤ s.qdAddr q ∨ s.qdAddr q + 256 ≤ pa
     let gone (i : Instr) (exec' : Nat) (more : State → Prop) : Prop := ∃ t, exec i s = .next t ∧ s.wentOnTo t p q (l.onRing 1) [] ∧ s.addedWork t p k exec' ∧ more t
     (pkType k = 9 → s.devRange 0x88 r kWrite va (pkArg k) = .ok [(pa, pkArg k, leaf)] → away (pkArg k) →
       gone (.write (slotOf p)) 0 (fun t => memRead t.mem pa (pkArg k) = natLe (pkArg k) (fld k 128 384)))
     ∧ (pkType k = 12 → s.devRange 0x88 r kWrite va 16 = .ok [(pa, 16, leaf)] → away 16 →
       gone (.mark (slotOf p)) 0 (fun t => memNat t.mem pa 8 = fld k 128 64 ∧ memNat t.mem (pa + 8) 8 = s.tb.now.toNat))
     ∧ (pkType k = 7 → s.devPiece 0x88 r kWrite (va, 8) = .ok (pa, 8, leaf) → away 8 →
       (fld leaf 4 1 = 1 → fld leaf 62 2 ≤ 1 → s.refusal 0x88 3 pa 8 = none → gone (.tlsig (slotOf p)) 0 (fun t => memNat t.mem pa 8 = max (memNat s.mem pa 8) (fld k 128 64)))
       ∧ (fld leaf 4 1 = 0 → gone (.tlsig (slotOf p)) 0 (fun t => memNat t.mem pa 8 = fld k 128 64)))
     ∧ (pkType k = 13 → gone (.copy (slotOf p)) 2 (fun t => s.onlyQd t q))
     ∧ (∀ i ∈ [(Instr.launch (slotOf p), 1), (.bundle (slotOf p), 2)], pkType k = i.2 → ∃ t, exec i.1 s = .next t ∧ s.addedWork t p k 1 ∧ t.fe.parsers[p].levels = [l]
       ∧ t.fe.parsers[p].stalled = true ∧ t.sched = { s.sched with waiting := s.sched.waiting ++ [(p.val, s.fe.nextWork)] } ∧ t.mem = s.mem ∧ t.cores = s.cores))
  ∧ (∀ (s : State) (p : Fin 128) (id : Nat) (w : Work), s.workOf p.val id = some (w, none) → w.id = id → s.clean →
       let noOps : Prop := s.sched.waiting.any (fun x => x.2 == id) = false ∧ s.sched.ops.any (fun o => o.work == id) = false
       let irq : List Note := if fld w.pkt 18 1 = 1 then [.msix w.func (fld w.pkt 8 6)] else []
       let tail : Prop := hasTail (pkType w.pkt) = true ∧ fld w.pkt 384 64 ≠ 0
       let ended (m : Memory) (l : List Note) : Prop := ∃ t, exec (.workPacketComplete (slotOf p) id) s = .next t ∧ (∀ y ∈ t.fe.parsers[p].work, y.id ≠ id) ∧ t.cores = s.cores
         ∧ t.notes = l ++ irq ∧ t.mem = m
       (w.exec = 0 ∨ (w.exec = 1 ∧ noOps ∧ w.cancelled = false ∧ w.faulted = none) →
         (¬ tail → ended s.mem s.notes)
         ∧ (∀ u, tail → s.signal w.region (pkScope w.pkt) (fld w.pkt 384 64) (BitVec.ofNat 64 (fld w.pkt 448 64)) w.rels = .ok u → ended u.mem u.notes))
       ∧ (∀ src dst, w.exec = 2 → w.copied = 0 → ¬ tail → 0 < fld w.pkt 192 32 → fld w.pkt 192 32 ≤ 4096 →
         s.devRange 0x88 w.region kRead (fld w.pkt 128 64) (fld w.pkt 192 32) = .ok src → s.devRange 0x88 w.region kWrite (fld w.pkt 64 64) (fld w.pkt 192 32) = .ok dst →
         let u := ((s.partsOut w.region false src).devPut feKey dst (src.flatMap (fun x => memRead s.mem x.1 x.2.1))).partsOut w.region true dst
         ended u.mem u.notes)
       ∧ (∀ m q, w.exec = 1 → noOps → w.cancelled = false → w.faulted = some m → s.fe.parsers[p].queue = some q → qdState (s.qd q) = 2 → qdSlot (s.qd q) = p.val →
         ∃ t, exec (.workPacketComplete (slotOf p) id) s = .next t ∧ qdState (t.qd q) = 4 ∧ fld (t.qd q) 176 8 = 0x11 ∧ t.fe.parsers[p].queue = none))

/-- STREAM packets (R108): CREATE makes a STOPPED stream of the control block; START makes it RUNNING with its anchor, its rung, an encoder and
its flume; STOP of a stream without jobs in flight stops it at once, and unbinds its flume, unless the write of its control block waits for a page; SETRUNG names the rung of the next release;
DESTROY of a STOPPED stream frees its number.

NextRung (R114): SETRUNG's rung; else one rung down after negative slack, not below LOWEST; else one rung up after CLIMBN frames in a run;
RUNGHIST takes the rung.

Frame jobs (R110, R112, R114): at its time a release with room in flight makes a job of the next frame at the rung of NextRung, and a
release without room is counted as deferred once; an evaluation keeps the least slack and marks the first negative one; at its deadline a
job of a stream that cancels ends late; a job whose packets and slot are done finishes, in time or late. -/
def Obligations.StreamsAndFrameJobs : Prop :=
  (∀ (s : State) (p : Fin 128) (q : Nat) (l : Level) (k : BitVec 512), s.atRing p q l k → pkType k = 10 →
     let n := pkStream k
     let done (i : Instr) (exec' : Nat) (more : State → Prop) : Prop := ∃ t, exec i s = .next t ∧ s.wentOnTo t p q (l.onRing 1) [] ∧ s.addedWork t p k exec' ∧ more t
     (∀ b e u, pkArg k = 0 → n < 1024 → s.stream n = none → s.readScb p.val k (pkRegion k) = .ok (b, e) →
       (s.scbAsked p.val k b).devWrite 0x88 feKey (s.parserRegion p.val) (fld k 128 64 + 128) (List.replicate 64 0) = .ok u →
       done (.streamCreate (slotOf p)) 0 (fun t => ∃ y, t.stream n = some y ∧ y.state = 0 ∧ y.region = pkRegion k ∧ y.func = s.parserFunc p.val ∧ y.scb = fld k 128 64
         ∧ y.frame = fld b 64 64 ∧ y.rung = fld b 176 3 ∧ y.jobs = [] ∧ y.encoder = none))
     ∧ (∀ x, s.stream n = some x → s.under (pkRegion k) x.region = true →
       (∀ b e enc, pkArg k = 1 → x.state = 0 → s.readScb p.val k x.region = .ok (b, e) →
         s.pickEncoder (fld b 200 4) (loadOf e (fld b 128 32) (fld b 160 16)) = some enc →
         let f : Fin 256 := Fin.ofNat 256 (fld b 208 8)
         s.fab.flumes[f].region = none → s.fab.flumes[f].stream = none →
         done (.streamStart (slotOf p)) 0 (fun t => t.fab.flumes[f].stream = some n ∧ ∃ y, t.stream n = some y ∧ y.state = 1 ∧ y.encoder = some enc
           ∧ y.anchorA = (if fld b 0 64 = 0 then s.tb.now.toNat else fld b 0 64) ∧ y.frame = fld b 64 64 ∧ y.rung = fld b 176 3 ∧ y.stopcause = 0))
       ∧ (pkArg k = 2 → x.state = 1 → x.jobs ≠ [] → done (.streamStop (slotOf p)) 3 (fun t => t.stream n = some { x with state := 2 }))
       ∧ (pkArg k = 2 → x.state = 1 → x.jobs = [] → x.owedFin = 0 → x.destroying = false → ∃ t y, exec (.streamStop (slotOf p)) s = .next t
         ∧ t.fe.parsers[p].levels = [l.onRing 1] ∧ t.stream n = some y
         ∧ ((y.state = 0 ∧ y.encoder = none ∧ y.region = x.region ∧ t.fab.flumes[x.flume].stream = none) ∨ y = { x with state := 2 }))
       ∧ (pkArg k = 3 → x.state ≠ 2 → fld k 192 8 < x.nrungs → done (.streamSetrung (slotOf p)) 0 (fun t => t.stream n = some { x with setrung := some (fld k 192 8) }))
       ∧ (pkArg k = 4 → x.state = 0 → done (.streamDestroy (slotOf p)) 0 (fun t => t.stream n = none))))
  ∧ (∀ x : Stream,
       let y := x.nextRung
       y.rung = (match x.setrung with
         | some r => r
         | none => if x.dropPending then (if x.rung < x.lowest then x.rung + 1 else x.rung) else if x.climbn ≠ 0 ∧ x.climbn ≤ x.run ∧ 0 < x.rung then x.rung - 1 else x.rung)
       ∧ y.setrung = none ∧ y.dropPending = false ∧ y.runghist = x.runghist <<< 4 ||| BitVec.ofNat 64 y.rung
       ∧ (y.run = x.run ∨ y.run = 0) ∧ y.drops + y.climbs ≤ x.drops + x.climbs + 1 ∧ y.frame = x.frame ∧ y.jobs = x.jobs)
  ∧ (∀ (s : State) (n : Fin 1024) (x : Stream) (f : Nat), s.stream n.val = some x →
       let now := s.tb.now.toNat
       (x.state = 1 → x.releaseOf x.frame ≤ now → s.regionActive x.region = true →
         (∀ u, x.jobs.length ≤ x.overlap → s.releaseFrame n.val x = (u, none) →
           exec (.frameRelease n) s = .next u ∧ ∃ y j, u.stream n.val = some y ∧ y.frame = x.frame + 1 ∧ y.released = x.released + 1 ∧ y.rung = (if x.stage = 0 then x.nextRung else x).rung
             ∧ y.jobs = x.jobs ++ [j] ∧ j.frame = x.frame ∧ j.release = x.releaseOf x.frame ∧ j.deadline = x.releaseOf x.frame + x.dloff ∧ j.rung = y.rung ∧ j.retired = 0)
         ∧ (x.overlap < x.jobs.length → x.deferredNow = false → ∃ t, exec (.frameRelease n) s = .next t
           ∧ t.stream n.val = some { x with deferred := x.deferred + 1, deferredNow := true } ∧ t.mem = s.mem))
       ∧ ∀ j, x.job f = some j →
         (∀ k : Nat, k = j.est * (j.steps - j.retired) * 3300 → 0 < j.steps → 0 < s.board.clockMhz → j.retired ≤ j.steps → (now - j.releasedAt) % 1000 = 0 →
           let v : Int := j.deadline - now - ((k + j.steps * s.board.clockMhz - 1) / (j.steps * s.board.clockMhz) : Nat)
           ∃ t y, exec (.slackEvaluation n f) s = .next t ∧ t.stream n.val = some y ∧ y.job f = some { j with minSlack := min j.minSlack v, neg := j.neg || decide (v < 0) }
             ∧ y.negslack = (if v < 0 ∧ j.neg = false then x.negslack + 1 else x.negslack) ∧ (v < 0 → j.neg = false → y.dropPending = true ∧ y.run = 0) ∧ t.mem = s.mem)
         ∧ (x.cancels = true → j.deadline ≤ now → x.state = 1 → j.cancelled = false → j.slot = none ∨ j.left = true → (∀ i ∈ x.jobs, i = j ∨ (i.frame ≠ f ∧ i.cancelled = false)) →
           ∃ t y, exec (.frameDeadline n f) s = .next t ∧ t.stream n.val = some y ∧ y.job f = none ∧ y.late = x.late + 1
           ∧ y.ontime = x.ontime)
         ∧ (x.packetsOver f = true → j.slot = none ∨ j.left = true → x.state = 1 → j.cancelled = false → ∃ t y, exec (.frameJobFinish n f) s = .next t ∧ t.stream n.val = some y
           ∧ y.job f = none ∧ y.lastfin = now ∧ (now ≤ j.deadline → y.ontime = x.ontime + 1 ∧ y.late = x.late) ∧ (j.deadline < now → y.late = x.late + 1 ∧ y.ontime = x.ontime)
           ∧ (∀ pa leaf, s.clean → x.owedFin = 0 → s.devPiece 0x88 x.scbCtx kWrite (x.scb + 8, 184) = .ok (pa, 184, leaf) → pa + 184 ≤ Config.peerBase →
             t.notes = (if x.irq then s.notes ++ [.msix x.func x.vec] else s.notes))))

/-- Encoders (R118, R120, R121, R124): a good tile record of the present frame is popped and assembled; a frame whose packets have completed
with tiles missing is filled with what the missing tiles repeat; a frame that fits its slot leaves it READY, one that does not makes the next frame a key
frame. -/
def Obligations.EncoderEvents : Prop :=
  ∀ (s : State) (e : Fin 8) (n f : Nat) (x : Stream), s.encoders[e].current = some (n, f) → s.stream n = some x →
    (∀ h, s.headRecord x = some (h, false) → recFrame h = f % 2 ^ 32 → tileBad x s.encoders[e].tiles h = false → ∃ t, exec (.encoderTilePop e) s = .next t
      ∧ t.encoders[e].tiles = s.encoders[e].tiles ++ [⟨(recTile h).1, (recTile h).2, s.headSamples x⟩] ∧ t.fab.flumes[x.flume].out = s.fab.flumes[x.flume].out + 1 ∧ t.mem = s.mem)
    ∧ (x.packetsOver f = true → s.comesYet x f = false → s.encoders[e].full x = false → ∃ t, exec (.encoderTileFill e) s = .next t ∧ t.encoders[e].filled = true
      ∧ t.encoders[e].tiles = s.encoders[e].tiles ++ x.fillers f s.encoders[e].tiles ∧ t.mem = s.mem)
    ∧ (∀ j, x.job f = some j → s.encoders[e].full x = true →
      let body := x.bitstream (x.isKey f) ((List.range (Config.bitstreamLength s.fresh)).map (Config.bitstreamByte s.fresh))
      let slot := j.slot.getD 0
      let put (va : Nat) (b : List Byte) : Except FeStop State := State.devWrite { s with fresh := s.fresh + 1 } (encMaster e) (encKey e) x.region va b
      let left (t : State) (key : Bool) : Prop := t.encoders[e].current = none ∧ t.encoders[e].tiles = [] ∧ ∃ y, t.stream n = some y ∧ y.forceKey = key
      (∀ u pa leaf, 64 + body.length ≤ x.slotBytes →
        put (x.payBase + slot * x.slotBytes) (natLe 64 (outHeader x n j body.length s.tb.now.toNat (x.isKey f) (decide (j.deadline < s.tb.now.toNat))) ++ body) = .ok u →
        u.devRange (encMaster e) x.region kWrite (x.ringBase + 16 * slot) 16 = .ok [(pa, 16, leaf)] →
        ∃ t, exec (.encoderFrameDone e) s = .next t ∧ left t false ∧ memNat t.mem pa 1 % 16 = 2 ∧ ∃ y, t.stream n = some y ∧ y.job f = some { j with left := true })
      ∧ (∀ u, x.slotBytes < 64 + body.length → put (x.payBase + slot * x.slotBytes + 64) (body.take (x.slotBytes - 64)) = .ok u →
        ∃ t, exec (.encoderFrameDone e) s = .next t ∧ left t true))

/-- REGION packets (R131): a block that every check passes makes an ACTIVE region of its parent; MODIFY gives a region the new block and makes it
ACTIVE; QUIESCE stops its subtree, which is QUIESCED at once where it runs no step; DESTROY of a region with no child, stream or queue, and no
step running, frees its number. The write-back puts the status section 128 bytes into the block (R130). -/
def Obligations.RegionPackets : Prop :=
  (∀ (s : State) (p : Fin 128) (q : Nat) (l : Level) (k : BitVec 512), s.atRing p q l k → pkType k = 11 → s.regionBusy (pkRegion k) = false →
    let r := pkRegion k
    let func := s.parserFunc p.val
    let x := s.region r
    let done (i : Instr) (more : State → Prop) : Prop := ∃ t, exec i s = .next t ∧ s.wentOnTo t p q (l.onRing 1) [] ∧ s.addedWork t p k 4 ∧ more t
    (∀ b u, let parent := fld k 80 12
      pkArg k = 0 → (s.devAsked 0x88 (s.parserRegion p.val) (fld k 128 64) 256).devWrite 0x88 feKey (s.parserRegion p.val) (fld k 128 64 + 128) (List.replicate 32 0) = .ok u → s.readRcb p.val k = .ok b → x.exist = false → r ≠ 0 → s.owns func parent = true → (s.region parent).destroying = false → rcbStray b = false →
      s.scopeInitStop b = none → rcbRange b = true → s.rcbWithin b parent r func = true → s.scopeInitOk b (s.maskOf b parent) = true →
      done (.regionCreate (slotOf p)) (fun t => (t.region r).exist = true ∧ (t.region r).state = 0 ∧ (t.region r).parent = parent ∧ (t.region r).func = func
        ∧ (t.region r).rcb = setFld b 1024 256 0 ∧ (t.region r).retired = 0 ∧ ∀ y, y ≠ r → t.region y = s.region y))
    ∧ (∀ b, let u := s.modRegion r (fun x => { x with rcb := setFld b 1024 256 0, rcbAddr := fld k 128 64, rcbCtx := s.parserRegion p.val, state := if x.lost then x.state else 0 })
      pkArg k = 1 → s.readRcb p.val k = .ok b → x.destroying = false → x.lost = false → rcbStray b = false → s.scopeInitStop b = none → rcbRange b = true → s.rcbWithin b x.parent r func = true →
      s.scopeInitOk b (s.maskOf b x.parent) = true → (∀ y ∈ s.subtree r, y ≠ r → u.rcbWithin (u.region y).rcb (u.region y).parent y func = true) →
      (∀ o ∈ s.sched.ops, s.under r o.region = true → hdrScratch o.hdr ≤ u.effScrq o.region) → u.maskChanged r = [] →
      done (.regionModify (slotOf p)) (fun t => t.region r = u.region r ∧ (t.region r).state = 0 ∧ (t.region r).rcb = setFld b 1024 256 0))
    ∧ (pkArg k = 2 → x.exist = true → x.destroying = false → ∃ t, exec (.regionQuiesce (slotOf p)) s = .next t ∧ s.wentOnTo t p q (l.onRing 1) [] ∧ s.addedWork t p k 4
      ∧ (t.region r).state = (if s.runningUnder r then 1 else 2) ∧ t.regionActive r = false)
    ∧ (pkArg k = 3 → s.destroyOk p.val r = true → x.exist = true → r ≠ 0 → s.runningUnder r = false → (∀ y ∈ s.regionIds, (s.region y).destroying = false) →
      s.board.flr = Vector.replicate 10 false → ∃ t, exec (.regionDestroy (slotOf p)) s = .next t ∧ (t.region r).exist = false))
  ∧ (∀ (s : State) (r : Fin 4096) (pa : Nat) (leaf : W64), (s.region r.val).exist = true → (s.region r.val).rcbAddr ≠ 0 →
    s.devRange 0x88 (s.region r.val).rcbCtx kWrite ((s.region r.val).rcbAddr + 128) 32 = .ok [(pa, 32, leaf)] →
    ∃ t, exec (.rcbWriteback r) s = .next t ∧ memRead t.mem pa 32 = natLe 32 (s.region r.val).status ∧ t.cores = s.cores ∧ t.sched = s.sched
      ∧ ∀ a, a < pa ∨ pa + 32 ≤ a → sget Memory.dflt t.mem a = sget Memory.dflt s.mem a)

/-! ### Events of operators and tile steps -/

/-- Acceptance (R134, R135): the first LAUNCH or BUNDLE that waits, with every member read and well formed and room in the bucker, gives each
member an operator number in order, leaves dispatch, and its parser goes on. COORD of step i of an operator counts DIM0 fastest (R136).

Placement (R113, R142): the step placed is one that may be placed and has an eligible idle core, no such step comes before it in the
order, and no eligible core is preferred to the one it is given; it is PLACED there, to work under what its region gives it now (R131). -/
def Obligations.OperatorsAndPlacement : Prop :=
  ((∀ (s : State) (i : Nat) (p : Fin 128) (w : Work) (ms : List Member), s.sched.waiting[i]? = some (p.val, w.id) →
     s.fe.parsers[p].work.find? (fun x => x.id == w.id) = some w →
     let r := pkRegion w.pkt
     (s.region r).exist = true → (s.region r).destroying = false → s.sched.ops.length + (pkMembers w.pkt).length ≤ 256 →
     (pkMembers w.pkt).mapM (fun m => s.readMember w.region r m.1 m.2) = .ok ms →
     ∃ t, exec (.operatorAccept i) s = .next t ∧ t.sched.opseq = s.sched.opseq + BitVec.ofNat 32 ms.length ∧ (∀ x ∈ t.sched.waiting, x.2 ≠ w.id)
       ∧ t.fe.parsers[p].stalled = false ∧ t.cores = s.cores
       ∧ ∀ j m, ms[j]? = some m → 0 < opbTotal m.opb → ∃ o ∈ t.sched.ops, o.opseq = (s.sched.opseq.toNat + j) % 2 ^ 32 ∧ o.opb = m.opb ∧ o.hdr = m.hdr ∧ o.region = r
         ∧ o.total = opbTotal m.opb ∧ o.member = j)
   ∧ ∀ (o : Operator) (i : Nat), i < opbTotal o.opb →
       let c := o.coord i
       i = c % 65536 + opbCount o.opb 0 * (c / 2 ^ 16 % 65536 + opbCount o.opb 1 * (c / 2 ^ 32 % 65536 + opbCount o.opb 2 * (c / 2 ^ 48))))
  ∧ (∀ (s : State) (y : Step) (k : Fin 128), y ∈ s.sched.steps → s.placeable y = true → s.eligible y k = true →
       ∃ u t n, exec .tileStepPlace s = .next u ∧ t ∈ s.sched.steps ∧ s.placeable t = true ∧ s.eligible t n = true
         ∧ u = s.modStep t.stepid (fun x => x.placed n.val s.tb.now.toNat (s.rankOf x) ((s.opAt t.op).map s.ctxOf))
         ∧ (∀ z ∈ s.sched.steps, s.placeable z = true → (∃ m, s.eligible z m = true) → lexLt (s.orderKey z) (s.orderKey t) = false)
         ∧ (∀ m, s.eligible t m = true → lexLt (s.coreKey t m) (s.coreKey t n) = false))

/-- A step begins (R143 to R145): the mailbox has GO, `s1` to `s4` hold ARG, COORD, the launch block and the frame-job block, the other
scalars are 0, `p0` alone is true, masks, vectors and accumulators are 0, the control slot stands at ENTRY, CLOCK covers what the start acquires,
the constant cache is empty; the loader is asked unless the core holds the image.

The overlay loader (R144, R196): with the image in the cache it fills instruction memory with the patched words, and the core goes on; with the
image in memory only, a readable and unpoisoned image does the same, and no byte outside the cache's range changes unless a refusal of the cache's slices
is recorded.

Patches (R299): a value of kind 1, 2, 3 or 7 goes into the field of its word that its kind names, and the word's other bits stand. -/
def Obligations.StepsBeginWithTheirImage : Prop :=
  (∀ (s : State) (n : Fin 128) (t : Step) (o : Operator), s.placedOn n = some (t, o) → s.recordOf t.stepid = none →
     let held := s.holdsAs o (s.ctxFor o t).asid n
     ∃ u, exec (.tileStepStart n) s = .next u
       ∧ u.cores[n].phase = (if held then .running else .starting) ∧ u.cores[n].loading = !held ∧ u.cores[n].ctx = s.ctxFor o t ∧ u.cores[n].pc = fld o.hdr 64 14
       ∧ (∀ r : Reg, u.cores[n].rdS .main r = if r = 1 then BitVec.ofNat 64 (fld o.opb 128 64) else if r = 2 then BitVec.ofNat 64 t.coord
           else if r = 3 then BitVec.ofNat 64 o.lpb else if r = 4 then BitVec.ofNat 64 o.fjpb else 0)
       ∧ (∀ g : Guard, u.cores[n].rdP .main g = decide (g = 0)) ∧ u.cores[n].regs.v = [] ∧ u.cores[n].regs.k = [] ∧ u.cores[n].regs.acc = []
       ∧ u.cores[n].sys.stepid = BitVec.ofNat 64 t.stepid ∧ u.cores[n].sys.coord = BitVec.ofNat 64 t.coord ∧ u.cores[n].sys.vl = 0 ∧ u.cores[n].sys.fpsr = 0
       ∧ s.startClock n o t ≤ u.cores[n].mem.clock ∧ u.cores[n].mem.cc = [] ∧ fld u.cores[n].mbx 0 1 = 1
       ∧ (∀ x ∈ u.sched.steps, x.stepid = t.stepid → x.state = 2) ∧ ∀ k : Fin 128, k ≠ n → u.cores[k] = s.cores[k])
  ∧ (∀ (s : State) (n : Fin 128) (t : Step) (o : Operator), s.cores[n].phase = .starting → s.cores[n].loading = true → s.cores[n].trap.detected = none →
       s.stepOn n = some t → s.opAt t.op = some o →
       let cached := s.sched.images.find? (fun e => decide (e.asid = s.cores[n].ctx.asid) && decide (e.addr = o.image))
       let base := Config.landingBase + s.board.blob.cacheBase
       let loaded (u : State) (b : List Byte) : Prop := u.cores[n].phase = s.cores[n].resumePhase ∧ u.cores[n].loading = false ∧ u.cores[n].regs = s.cores[n].regs
         ∧ ∀ i w, (o.patches.foldl applyPatch (wordsOf b))[i]? = some w → u.cores[n].word i = BitVec.ofNat 32 w
       (∀ e, cached = some e → s.refusal (coreMaster n) 1 (s.cachePa e) e.len = none → s.badPa [{ pa := s.cachePa e, len := e.len, ordinary := false }] = none → ∃ u, exec (.overlayLoad n) s = .next u ∧ loaded u (memRead s.mem (s.cachePa e) e.len) ∧ u.mem = s.mem)
       ∧ (∀ b ps, cached = none → s.loadBytes n (o.image + 64) (4 * hdrNcode o.hdr) = .ok (b, ps) → s.badWords o.image ps = [] → s.badPa ps = none →
         ∃ u, exec (.overlayLoad n) s = .next u ∧ loaded u b ∧ (u.ras.elogSeq = s.ras.elogSeq → ∀ a, a < base ∨ base + s.cacheSize ≤ a → sget Memory.dflt u.mem a = sget Memory.dflt s.mem a)))
  ∧ (∀ (ws : List Nat) (i w : Nat) (v : Int), ws[i]? = some w →
       (∀ k lo n, (k, lo, n) ∈ [(1, 0, 9), (2, 0, 9), (3, 0, 14), (7, 18, 4)] → ∃ x, (applyPatch ws (i, k, v))[i]? = some x ∧ (bits x lo n : Int) = v % 2 ^ n
         ∧ bits x 0 lo = bits w 0 lo ∧ x / 2 ^ (lo + n) = w / 2 ^ (lo + n))
       ∧ (∀ k j, j ≠ i → j ≠ i + 1 → (applyPatch ws (i, k, v))[j]? = ws[j]?))

/-- Retirement (R138): a core on which everything has ended is idle, keeps its carry, and its step is counted in the region; the other cores stand where
no reduction in flight holds operands of this core and of another.

The cruiser (R169, R170): no step that could be placed waits and a core is there for the replay; an equal signature counts in CR_MATCH; an
unequal one, with a third run where a core is there for it, counts in CR_MISMATCH, is recorded under class 0x0E and told to the region's fault domain,
with two records; the verdict is that of the two runs of three that agree.

Idle cores and waiting steps (R141, R146): a core idle for 3 µs has its registers and scratch zeroed; a ready BATCH or BACKGROUND step
past its bound rises one class, counted in PROMOTED. -/
def Obligations.StepsRetire : Prop :=
  (∀ (s : State) (n : Fin 128) (t : Step) (o : Operator), s.cores[n].finished = true → s.stepOn n = some t → s.opAt t.op = some o →
     (s.region o.region).exist = true → (∀ r, (s.region r).destroying = false) → s.board.flr = Vector.replicate 10 false →
     ∃ u, exec (.tileStepRetire n) s = .next u ∧ u.cores[n].phase = .idle ∧ u.cores[n].carryOk = true ∧ (u.region o.region).retired = (s.region o.region).retired + 1
       ∧ (∀ x ∈ u.fab.inflight, x.core ≠ n)
       ∧ ((∀ x ∈ s.fab.inflight, x.ofCore n = true → x.core = n ∧ ∀ k ∈ x.joined, k.core = n) → ∀ k : Fin 128, k ≠ n → u.cores[k] = s.cores[k]))
  ∧ (∀ (s : State) (x : Sample) (rest : List Sample) (sig : W64) (third : Option W64) (n : Fin 128), s.ras.samples = x :: rest → s.regionActive x.region = true →
       s.stepsWait = false → s.replayCore x = some n →
       (sig = x.sig → ∃ t, exec (.cruiserReplay sig third) s = .next t ∧ t.ras.crMatch = s.ras.crMatch + 1 ∧ t.ras.samples = rest ∧ t.mem = s.mem
         ∧ ∀ k : Fin 128, k ≠ n → t.cores[k] = s.cores[k])
       ∧ (sig ≠ x.sig → s.thirdCore x n = none ∨ third.isSome = true → ∃ t, exec (.cruiserReplay sig third) s = .next t ∧ t.ras.crMismatch = s.ras.crMismatch + 1
         ∧ t.ras.samples = rest ∧ t.ras.elogSeq = s.ras.elogSeq + 2 ∧ (∀ k : Fin 128, t.cores[k].regs = s.cores[k].regs)
         ∧ t.notes = s.notes ++ [.msix (s.region (s.effFdom x.region)).func (s.effFdvec x.region)])
       ∧ (∀ o r y : W64, cruiseVerdict o r none = 3 ∧ cruiseVerdict o r (some o) = 1 ∧ (r ≠ o → cruiseVerdict o r (some r) = 2)
         ∧ (y ≠ o → y ≠ r → cruiseVerdict o r (some y) = 3)))
  ∧ ((∀ (s : State) (n : Fin 128), s.cores[n].phase = .idle → s.stepOn n = none → s.cores[n].clean = false → s.cores[n].idleSince + 3000 ≤ s.tb.now.toNat →
       ∃ t, exec (.coreIdleZeroing n) s = .next t ∧ t.cores[n].regs = Regs.reset ∧ t.cores[n].clean = true ∧ (∀ k : Fin 128, k ≠ n → t.cores[k] = s.cores[k])
         ∧ ∀ a, sget Memory.dflt t.mem a = if scratchPa n 0 ≤ a ∧ a < scratchPa n 0 + 0x100000 then 0 else sget Memory.dflt s.mem a)
     ∧ (∀ (s : State) (i : Nat) (t : Step), s.sched.steps[i]? = some t → t.state = 0 ∨ t.state = 3 → 2 ≤ s.rankOf t → t.since + s.effStarve t.region < s.tb.now.toNat →
       ∃ u, exec (.starvationPromotion i) s = .next u ∧ u.sched.steps = s.sched.steps.map (fun x => if x.stepid = t.stepid then
           { x with promos := x.promos + 1, eclass := s.rankOf t - 1, since := x.since + s.effStarve t.region } else x)
         ∧ (u.region t.region).promoted = (s.region t.region).promoted + 1 ∧ u.cores = s.cores ∧ u.mem = s.mem))

/-- Forced pre-emption and context records (R149 to R153, R274): the victim of the first overdue step is frozen to be saved where it is resumable,
and leaves its core free where it is not; the save makes the record, its scratch behind its head, and frees the core; draining and reading back move
the record's bytes; a step resumes on its core with what its record holds, after a load where the core does not hold its image.

Partition swaps (R147, R153): a swap out of a region without running steps quiesces it, marks its subtree and ends the carry of its cores, and
writes nothing where no step and no operator is its; a swap in takes the marks away and makes the region ACTIVE. -/
def Obligations.PreemptionAndPartitions : Prop :=
  ((∀ (s : State) (i : Nat) (w v : Step), s.sched.steps[i]? = some w → s.firstOverdue = some w → firstBy s.victimKey (s.sched.steps.filter (s.victim w)) = some v →
     let n : Fin 128 := Fin.ofNat 128 v.core
     (s.cores[n].img.resumable = true → s.cores[n].trap.active = none → s.cores[n].trap.detected = none → ∃ t, exec (.forcedPreemption i) s = .next t ∧ t.cores[n].phase = .frozen ∧ t.cores[n].saving = true
       ∧ t.cores[n].regs = s.cores[n].regs ∧ t.cores[n].pc = s.cores[n].pc ∧ ∀ x ∈ t.fab.inflight, x.core ≠ n)
     ∧ (s.cores[n].img.resumable = false → s.stepOn n = some v → (∀ r, (s.region r).destroying = false) → s.board.flr = Vector.replicate 10 false →
       ∃ t, exec (.forcedPreemption i) s = .next t ∧ t.cores[n].phase = .idle
       ∧ (t.region v.region).frestart = (s.region v.region).frestart + 1 ∧ (∀ x ∈ t.sched.steps, x.stepid = v.stepid → x.state = 3)))
   ∧ (∀ (s : State) (n : Fin 128) (t : Step), s.cores[n].phase = .frozen → s.cores[n].saving = true → s.stepOn n = some t → t.trapPending = false →
     s.cores[n].saveAt < shadowKib → s.saveLost n = false → (∀ y ∈ s.fab.inflight, y.ofCore n = false) → (∀ r, (s.region r).destroying = false) → s.board.flr = Vector.replicate 10 false →
     ∃ u x, exec (.contextSaveComplete n) s = .next u ∧ u.cores[n].phase = .idle ∧ x ∈ u.sched.records ∧ x.stepid = t.stepid ∧ x.region = t.region ∧ x.drained = false
       ∧ x.core.regs = s.cores[n].regs ∧ x.core.pc = s.cores[n].pc
       ∧ memRead u.mem (u.recordPa x + recordHead) s.cores[n].ctx.scratchQuota = memRead s.mem (scratchPa n 0) s.cores[n].ctx.scratchQuota
       ∧ (u.region t.region).fresume = (s.region t.region).fresume + 1)
   ∧ (∀ (s : State) (i : Nat) (x : CtxRecord), s.sched.records[i]? = some x → s.recordBad x = false →
     let may (y : CtxRecord) : Prop := s.refusal fwMaster 1 (s.recordPa x) (x.size * 1024) = none ∧ s.refusal fwMaster 2 (s.recordPa y) (x.size * 1024) = none
     let moved (u : State) (y : CtxRecord) : Prop := may y → (∀ z ∈ u.sched.records, z.stepid = x.stepid → z = y) ∧ u.cores = s.cores
       ∧ memRead u.mem (s.recordPa y) (x.size * 1024) = memRead s.mem (s.recordPa x) (x.size * 1024)
       ∧ ∀ a, a < s.recordPa y ∨ s.recordPa y + x.size * 1024 ≤ a → sget Memory.dflt u.mem a = sget Memory.dflt s.mem a
     (∀ a, x.drained = false → s.savePlace x.region x.size = some a → ∃ u, exec (.contextDrain i) s = .next u ∧ moved u { x with drained := true, at' := a })
     ∧ (x.drained = true → s.shadowPlace x.size < shadowKib → ∃ u, exec (.contextReadback i) s = .next u ∧ moved u { x with drained := false, at' := s.shadowPlace x.size }))
   ∧ (∀ (s : State) (n : Fin 128) (t : Step) (o : Operator) (x : CtxRecord), s.placedOn n = some (t, o) → s.recordOf t.stepid = some x → x.drained = false → s.recordBad x = false →
     let held := s.holdsAs o (s.ctxFor o t).asid n
     let size := min x.core.ctx.scratchQuota (s.ctxFor o t).scratchQuota
     let then' := if x.core.phase = .starting then x.core.resumePhase else x.core.phase
     ∃ u, exec (.contextResume n) s = .next u ∧ u.cores[n].regs = x.core.regs ∧ u.cores[n].pc = x.core.pc ∧ u.cores[n].hnd = x.core.hnd
       ∧ u.cores[n].phase = (if held then then' else .starting) ∧ u.cores[n].resumePhase = then' ∧ u.cores[n].loading = !held ∧ u.cores[n].ctx = s.ctxFor o t
       ∧ u.cores[n].eng = x.core.eng ∧ x.core.mem.clock ≤ u.cores[n].mem.clock ∧ (∀ y ∈ u.sched.steps, y.stepid = t.stepid → y.state = 2)
       ∧ (∀ y ∈ u.sched.records, y.stepid ≠ t.stepid)
       ∧ (s.recordPa x + recordHead + size ≤ scratchPa n 0 ∨ scratchPa n 0 + 0x100000 ≤ s.recordPa x →
         memRead u.mem (scratchPa n 0) size = memRead s.mem (s.recordPa x + recordHead) size)))
  ∧ (∀ (s : State) (r : Fin 4096), (s.region r.val).exist = true →
       ((s.region r.val).swapped = false → s.stepsUnder r.val = [] → (∀ x, (s.region x).destroying = false) → s.board.flr = Vector.replicate 10 false →
         ∃ t, exec (.partitionSwapOut r) s = .next t ∧ (∀ x ∈ s.subtree r.val, (t.region x).swapped = true) ∧ (t.region r.val).state ≠ 0
           ∧ (∀ k : Fin 128, t.cores[k] = if fld (s.effMask r.val) k.val 1 = 1 then { s.cores[k] with carryOk := false } else s.cores[k])
           ∧ ((∀ x ∈ s.sched.steps, s.under r.val x.region = false) → (∀ o ∈ s.sched.ops, s.under r.val o.region = false) → t.mem = s.mem))
       ∧ ((s.region r.val).swapped = true → (s.region r.val).lost = false → ∃ t, exec (.partitionSwapIn r) s = .next t ∧ (t.region r.val).state = 0
         ∧ (∀ x ∈ s.subtree r.val, (t.region x).swapped = false) ∧ t.cores = s.cores ∧ t.mem = s.mem))

/-! ### Events inside the cores -/

/-- The scrubber, evictions, the clock horizon and the writes in flight (R155, R156, R163, R192, R201, R202, R207): a line scrubbed counts its pass
at the last line; an uncorrectable line is logged and its poisoned write-back set out; an eviction takes the line from the crew's cache,
and one that is uncorrectable leaves it poisoned; every core's clock reaches the horizon, which becomes the greatest clock; a scoped write
in flight that may perform does so, and a reduction on a poisoned target does not. -/
def Obligations.ReliabilityAndMemoryEvents : Prop :=
  ∀ s : State,
    (∀ pa y, s.scrubs (pa / 128 * 128) = true → fld s.ras.scrubCtl 16 1 = 1 → 6 ≤ s.board.bootStep → s.ras.scrubbing = none → s.fab.badDirty = [] →
      s.scrubRefusal 1 (pa / 128 * 128) = none →
      let passes := s.ras.scrubPass + (if pa / 128 * 128 + 128 = s.usableTop then 1 else 0)
      (∃ t, exec (.scrubLine pa .clean) s = .next t ∧ t.ras.scrubPass = passes ∧ t.mem = s.mem ∧ t.ras.poison = s.ras.poison ∧ t.cores = s.cores)
      ∧ ∃ t, exec (.scrubLine pa (.uncorrectable y)) s = .next t ∧ t.ras.scrubPass = passes ∧ t.ras.elogSeq = s.ras.elogSeq + 1 ∧ t.cores = s.cores
          ∧ t.ras.poison = s.ras.poison ∧ t.ras.scrubbing = some (pa / 128))
    ∧ (∀ (crew : Fin 16) line, ∃ t, exec (.crewCacheEviction crew line) s = .next t ∧ (∀ d ∈ t.fab.dirty, ¬ (d.crew = crew.val ∧ d.line = line))
        ∧ (∀ d ∈ s.fab.dirty, ¬ (d.crew = crew.val ∧ d.line = line) → d ∈ t.fab.dirty) ∧ t.cores = s.cores
        ∧ (s.clean → t.mem = s.mem ∧ t.ras.poison = [] ∧ t.ras.elogSeq = s.ras.elogSeq)
        ∧ (∀ d ∈ s.fab.dirty, d.crew = crew.val → d.line = line → line ∈ s.fab.badDirty → t.poisoned (line * 128) 128 = true ∧ t.ras.elogSeq = s.ras.elogSeq + 1))
    ∧ (∃ t, exec .clockHorizonAdvance s = .next t ∧ t.mem = s.mem ∧ t.fab.wts = s.fab.wts ∧ t.fab.rts = s.fab.rts
        ∧ (∀ c : Fin 128, s.fab.horizon ≤ t.cores[c].mem.clock ∧ s.cores[c].mem.clock < t.cores[c].mem.clock ∧ s.cores[c].mem.clock ≤ t.fab.horizon
            ∧ t.cores[c].regs = s.cores[c].regs)
        ∧ ∀ k, k < 1040 → sget 0 t.fab.eclock k = max (sget 0 s.fab.eclock k) s.fab.horizon)
    ∧ ∀ i x, s.fab.inflight[i]? = some x → s.mayPerform i = true → ∃ t, exec (.memoryAccessPerform i) s = .next t
        ∧ (∃ y, t.fab.inflight[i]? = some y ∧ y.performed = true ∧ y.pa = x.pa ∧ y.data = x.data)
        ∧ (x.blocked s = false → s.fab.badDirty = [] → s.ras.poison = [] → t.mem = storedRuns (memWrite s.mem x.pa (x.result s.mem)) x.more
          ∧ (x.op = .data → x.joined = [] → t.cores = s.cores) ∧ ∀ c : Fin 128, t.cores[c].regs = s.cores[c].regs)
        ∧ (x.blocked s = true → t.cores[x.core].metUe.isSome = true ∧ (x.joined = [] → ∀ c : Fin 128, c ≠ x.core → t.cores[c] = s.cores[c])
          ∧ ∀ a, a < s.ras.elogBase ∨ s.ras.elogBase + 64 * 2 ^ s.ras.elogLog2 ≤ a → sget Memory.dflt t.mem a = sget Memory.dflt s.mem a)

/-- Traps without a word of their own (R262 to R272): an engine's fault is detected; a freeze that ends delivers a system trap to firmware and a
user trap to the trap strand, with HDR, FADDR and details in `h1` to `h4`; firmware resumes a core whose PAGE is resolved; a RESUMABLE
step is frozen to be saved 50 µs after; a handler's wait that has a limit and is not satisfied expires with BWAIT and what it waits for now.

A consumed uncorrectable error (R161, R162), with no scoped write of the core in flight: where nothing escalates, the core goes back to
its tile-start point: the retained words stand again in L and X before those that have not issued, the commands and the blocks made
since are gone, and the rollback is logged; where something does, a RESTARTABLE step goes back to READY, to start again elsewhere. -/
def Obligations.TrapsAndRollbacks : Prop :=
  (∀ (s : State) (c : Fin 128) (x : Trap),
     let k := s.cores[c]
     let quiet : Prop := ∀ y ∈ s.fab.inflight, y.ofCore c = true → y.op = .data
     (k.live = true → k.trap.engineFault = some x → ∃ t, exec (.trapDetect c) s = .next t ∧ t.cores[c].trap.detected = some x
       ∧ t.cores[c].trap.engineFault = none ∧ t.cores[c].live = false ∧ t.mem = s.mem ∧ ∀ n : Fin 128, n ≠ c → t.cores[n] = s.cores[n])
     ∧ (k.trap.detected = some x → k.phase = .running → k.trap.later = none → quiet →
       (x.system = true → ∃ t, exec (.freezeComplete c) s = .next t ∧ t.cores[c].phase = .frozen ∧ t.cores[c].trap.detected = none
         ∧ t.cores[c].trap.active = some x ∧ t.cores[c].regs = k.regs ∧ t.cores[c].pc = k.pc ∧ t.cores[c].mem.lob = [])
       ∧ (x.system = false → k.img.hastrap = true → ∃ t, exec (.freezeComplete c) s = .next t ∧ t.cores[c].phase = .trapStrand
         ∧ t.cores[c].hnd[(2 : Fin 3)].running = true ∧ t.cores[c].hnd[(2 : Fin 3)].pc = k.img.trapent ∧ t.cores[c].rdS (.ctx 2) 1 = BitVec.ofNat 64 (trapHdr x k.trap.multi)
         ∧ t.cores[c].rdS (.ctx 2) 2 = x.faddr ∧ t.cores[c].rdS (.ctx 2) 3 = x.d0 ∧ t.cores[c].rdS (.ctx 2) 4 = x.d1 ∧ t.cores[c].regs = k.regs ∧ t.cores[c].pc = k.pc))
     ∧ (k.phase = .frozen → k.saving = false → k.trap.active = some x →
       (x.cause = 0x20 → k.trap.later = none → k.trap.outer = none → k.loading = false → ∃ t, exec (.systemTrapResolve c .resume) s = .next t
         ∧ t.cores[c].phase = (if k.trap.back then .running else .draining) ∧ t.cores[c].trap.active = none ∧ t.cores[c].regs = k.regs ∧ t.cores[c].pc = k.pc
         ∧ t.mem = s.mem)
       ∧ ∀ y : Step, s.stepOn c = some y → k.img.resumable = true → k.trap.since + 50000 ≤ s.tb.now.toNat → ∃ t, exec (.systemTrapTimeout c) s = .next t
         ∧ t.cores[c].saving = true ∧ t.cores[c].phase = .frozen ∧ t.cores[c].regs = k.regs ∧ t.mem = s.mem ∧ ∀ z ∈ t.sched.steps, z.stepid = y.stepid → z.trapPending = true)
     ∧ ∀ (h : Fin 3) (w0 w : Wait) (n : Nat), k.live = true → k.hnd[h].running = true → k.hnd[h].wait = some w0 → s.retest c (.ctx h) w0 = some w → w.limit = some n →
         k.img.hastrap = true → k.trap.later = none → quiet → ∃ t, exec (.boundedWaitExpiry c (Fin.ofNat 10 (4 + h.val))) s = .next t
         ∧ t.cores[c].phase = .trapStrand ∧ fld t.cores[c].sys.trapcause 0 8 = 0x01 ∧ t.cores[c].sys.trapaddr = w.faddr ∧ t.cores[c].sys.trapd0 = w.d0
         ∧ t.cores[c].sys.trapd1 = w.d1 ∧ t.cores[c].regs = k.regs)
  ∧ (∀ (s : State) (c : Fin 128) (po : Nat), s.cores[c].metUe = some po → s.cores[c].live = true → (∀ x ∈ s.fab.inflight, x.ofCore c = false) →
       let k := s.cores[c].drained.passMarkers
       (k.escalation c po = none → k.tile.stores = [] → ∃ t, exec (.consumedUe c) s = .next t ∧ t.cores[c].metUe = none ∧ t.cores[c].phase = k.phase
         ∧ t.cores[c].qL = k.tile.retainedL ++ k.qL.filter (fun r => !r.done) ∧ t.cores[c].qX = k.tile.retainedX ++ k.qX.filter (fun r => !r.done)
         ∧ t.cores[c].qS = k.qS ∧ t.cores[c].pc = k.pc ∧ t.cores[c].regs.s = k.regs.s ∧ (∀ g ∈ t.cores[c].eng.gos, g.po < k.tile.point.po)
         ∧ (∀ b ∈ t.cores[c].eng.fifoA, b.pos < k.tile.point.aprod.toNat) ∧ t.ras.elogSeq = s.ras.elogSeq + 1
         ∧ (∀ n : Fin 128, n ≠ c → t.cores[n] = s.cores[n]))
       ∧ ∀ r y, k.escalation c po = some r → s.stepOn c = some y → k.img.resumable = false → y.attempt < 3 → (∀ x, (s.region x).destroying = false) →
         s.board.flr = Vector.replicate 10 false → ∃ t, exec (.consumedUe c) s = .next t
         ∧ t.cores[c].phase = .idle ∧ t.cores[c].regs = Regs.reset ∧ t.ras.elogSeq = s.ras.elogSeq + 1
         ∧ (∀ z ∈ t.sched.steps, z.stepid = y.stepid → z.state = 3 ∧ z.attempt = y.attempt + 1 ∧ z.avoid = some c.val)
         ∧ ∀ o, o < Config.scratchSize → sget Memory.dflt t.mem (scratchPa c o) = 0)

/-- Arrivals and handlers (R187 to R189, R226): a record that its core discards is counted, another joins its queue while there is room; a
handler starts in the lowest free context with the record's fields in `h1` to `h4`, `p0` alone true, at its entry, after an acquire of what its sender released. -/
def Obligations.ArrivalsStartHandlers : Prop :=
  ∀ (s : State) (c : Fin 128) (ar : BitVec 256),
    (fld ar 0 8 ≠ 0 → fld ar 0 8 ≤ 3 → fld ar 24 8 = 0 → fld ar 78 18 = 0 →
      (s.cores[c].discards ar = true → ∃ t, exec (.arrivalReceive c ar) s = .next t ∧ t = s.modCore c (fun k => { k with arrdrop := k.arrdrop + 1 }))
      ∧ (s.cores[c].discards ar = false → s.cores[c].arrivals.length < Config.arrivalDepth → ∃ t, exec (.arrivalReceive c ar) s = .next t
          ∧ t.cores[c].arrivals = s.cores[c].arrivals ++ [⟨ar, none⟩] ∧ t.cores[c].regs = s.cores[c].regs ∧ t.mem = s.mem)
      ∧ (s.cores[c].discards ar = false → Config.arrivalDepth ≤ s.cores[c].arrivals.length → exec (.arrivalReceive c ar) s = .next s))
    ∧ ∀ rel rest h, s.cores[c].arrivals = ⟨ar, rel⟩ :: rest → s.cores[c].freeContext = some h → s.cores[c].live = true →
        ∃ t, exec (.handlerStart c) s = .next t ∧ t.cores[c].arrivals = rest ∧ t.cores[c].hnd[h].running = true ∧ t.cores[c].hnd[h].pc = fld ar 64 14
          ∧ t.cores[c].rdS (.ctx h) 1 = BitVec.ofNat 64 (fld ar 128 64) ∧ t.cores[c].rdS (.ctx h) 2 = BitVec.ofNat 64 (fld ar 96 32)
          ∧ t.cores[c].rdS (.ctx h) 3 = BitVec.ofNat 64 (fld ar 192 64) ∧ t.cores[c].rdS (.ctx h) 4 = BitVec.ofNat 64 (fld ar 0 64)
          ∧ (∀ g : Guard, g.val < 4 → t.cores[c].rdP (.ctx h) g = decide (g = 0)) ∧ (∀ h', h' ≠ h → t.cores[c].hnd[h'] = s.cores[c].hnd[h'])
          ∧ s.cores[c].mem.clock ≤ t.cores[c].mem.clock ∧ acquired rel.toList c.val (s.scopeEntry c 15) 15 ≤ t.cores[c].mem.clock ∧ t.cores[c].regs = s.cores[c].regs ∧ t.cores[c].pc = s.cores[c].pc ∧ t.mem = s.mem

/-- Copies, deferred pages, sends and acknowledgements finish (R184, R374, R391, R392, R395): a copy to memory whose elements all move leaves
what they wrote, and its context's counter reaches its number; a page whose page-in has failed brings its arrival with status 1; an
accepted send and a flume element copied into its slot raise `tl5` by one; the oldest command of `tl6` finishes once all its writes have performed. -/
def Obligations.CopiesAndSendsFinish : Prop :=
  ∀ (s : State) (c : Fin 128),
    (∀ (x : Fin 2) (cmd : CopyCmd) l u n, s.cores[c].engineRuns (copyCtx x) = true → s.cores[c].eng.cpy[x] = cmd :: l → s.engineHeld c cmd.po cmd.spans = false →
      dTo cmd.hdr < 3 → s.copyMemory c x cmd (s, cmd.progress) (cmd.total - cmd.progress) cmd.progress = (u, n, .done) → u.cores[c].eng.deferred = [] → s.cores[c].eng.cpy[x] = u.cores[c].eng.cpy[x] →
      ∃ t, exec (.copyCommandFinish c x) s = .next t ∧ t.mem = u.mem ∧ t.cores[c].eng.cpy[x] = l
        ∧ t.cores[c].eng.tl[copyCtx x] = BitVec.ofNat 64 (max (u.cores[c].eng.tl[copyCtx x]).toNat cmd.num) ∧ t.cores[c].regs = u.cores[c].regs)
    ∧ (∀ i d, s.cores[c].eng.deferred[i]? = some d → s.cores[c].engineRuns (copyCtx d.ctx) = true → d.ended = some false → fld d.cmd.hdr 49 1 = 1 →
      let ar := d.arrival s.cores[c].ctx.opseq 1
      s.cores[c].discards ar = false → s.cores[c].arrivals.length < Config.arrivalDepth → ∃ t, exec (.deferredPageDelivery c i) s = .next t
        ∧ (∃ rel, t.cores[c].arrivals = s.cores[c].arrivals ++ [⟨ar, some rel⟩]) ∧ d ∉ t.cores[c].eng.deferred ∧ fld ar 8 8 = 1 ∧ fld ar 128 64 = d.page.toNat ∧ t.mem = s.mem)
    ∧ (s.cores[c].engineRuns 5 = true →
      (∀ l, s.cores[c].eng.sends = .accepted :: l → l.head? ≠ some .accepted → ∃ t, exec (.sendFinish c) s = .next t ∧ t.cores[c].eng.sends = l
        ∧ t.cores[c].eng.tl[(5 : Fin 8)] = BitVec.ofNat 64 ((s.cores[c].eng.tl[(5 : Fin 8)]).toNat + 1) ∧ t.mem = s.mem)
      ∧ ∀ (f : Fin 256) k b l, s.cores[c].eng.sends = .flume f.val k b :: l → l.head? ≠ some .accepted →
        s.landingAsk c 4 .main f.val 2 (s.fab.flumes[f].slotPa k) b.length 0 = none → ∃ t, exec (.sendFinish c) s = .next t ∧ t.cores[c].eng.sends = l
        ∧ t.cores[c].eng.tl[(5 : Fin 8)] = BitVec.ofNat 64 ((s.cores[c].eng.tl[(5 : Fin 8)]).toNat + 1)
        ∧ (s.clean → t.mem = memWrite s.mem (s.fab.flumes[f].slotPa k) b) ∧ k ∉ t.fab.flumes[f].pending)
    ∧ ∀ k, s.ackNext c = some k → (∀ y ∈ s.fab.inflight, (y.cmds c).contains k = true → y.performed = true) →
        ∃ t, exec (.ackWriteFinish c) s = .next t ∧ t.cores[c].eng.tl[(6 : Fin 8)] = BitVec.ofNat 64 (max (s.cores[c].eng.tl[(6 : Fin 8)]).toNat k)
          ∧ (∀ y ∈ t.fab.inflight, y.core = c → y.cmd ≠ k) ∧ t.mem = s.mem

/-- The matrix engine (R253, R254, R399): a go that can issue at the head of X is accepted. A chunk whose blocks are there: with a null block
it is skipped; one whose pass exceeds its budget below the ceiling runs again one width wider, with the registers as they were; any
other adds each value of the pass to its word of the tile, and the go goes on to its next chunk at FLOOR.

The window engine and the crew ring (R193, R406, R407): the next block of a window command enters the A FIFO, and the last one ends the
command; when every member of a ring is ready, agrees and may reach its tiles, each tile lands at the next member's destination. -/
def Obligations.EnginesRun : Prop :=
  (∀ (s : State) (c : Fin 128),
     (∀ r l tile ft cfg ab bb na nb u, s.cores[c].qX = r :: l → r.uop = .mgo tile ft cfg ab bb na nb → r.on = true → r.done = false → s.cores[c].live = true →
       s.issueRes c .x = .ok u → ∃ t, exec (.mgoAccept c) s = .next t ∧ t = u ∧ t.cores[c].eng.issued[(2 : Fin 8)] = s.cores[c].eng.issued[(2 : Fin 8)] + 1)
     ∧ ∀ (g : Go) (l : List Go) (x : Chunk) (xs : List Chunk) (a b : Block), s.cores[c].engineRuns 2 = true → s.cores[c].eng.gos = g :: l → g.todo = x :: xs →
       0 < x.rows → x.row0 + x.rows ≤ 128 → x.tile < 4 → xs ≠ [] → s.cores[c].eng.fifoA.find? (fun k => k.pos == g.abase + x.pa) = some a →
       s.cores[c].eng.fifoB.find? (fun k => k.pos == g.bbase + x.pb) = some b →
       let co := g.coarse.getD (s.coarse c g.ent x)
       let r := chunkPass g.width (fld g.ent 27 5) a b x.row0 x.rows (fun i => co.getD i 0x3F800000)
       let ran (p : State → Prop) : Prop := ∃ t, exec (.matrixChunkPass c) s = .next t ∧ t.mem = s.mem ∧ p t
       let next (t : State) (k : Nat) : Prop := ∃ y, t.cores[c].eng.gos = y :: l ∧ y.num = g.num ∧ y.todo = xs ∧ y.width = fld g.ent 2 2 ∧ y.skipped = sat32 g.skipped k
       ((a.null || b.null) = true → ran (fun t => next t 1 ∧ t.cores[c].regs = s.cores[c].regs))
       ∧ (a.null = false → b.null = false → a.poison = false → b.poison = false → fld g.ent 68 1 = 0 → tagsDiffer g.ent a b = false →
         (overBudget g.ent r = true → g.width < fld g.ent 4 2 → ran (fun t => t.cores[c].regs = s.cores[c].regs
           ∧ ∃ y, t.cores[c].eng.gos = y :: l ∧ y.todo = g.todo ∧ y.width = g.width + 1 ∧ y.satTotal = sat32 g.satTotal r.sat))
         ∧ (overBudget g.ent r = false ∨ fld g.ent 4 2 ≤ g.width → g.skipped < 2 ^ 32 → ran (fun t => next t 0
           ∧ (∀ k, k < x.rows * 128 → t.cores[c].accWord x.tile (x.row0 + k / 128) (k % 128) =
               BitVec.ofNat 32 (fmtF32.addV 0 (fmtF32.decode (s.cores[c].accWord x.tile (x.row0 + k / 128) (k % 128)).toNat) (fmtF32.decode (r.vals.getD k 0))).bits)
           ∧ (∀ n i j, n < 4 → i < 128 → j < 128 → n ≠ x.tile ∨ i < x.row0 ∨ x.row0 + x.rows ≤ i → t.cores[c].accWord n i j = s.cores[c].accWord n i j)
           ∧ t.cores[c].regs.s = s.cores[c].regs.s ∧ t.cores[c].regs.v = s.cores[c].regs.v))))
  ∧ ((∀ (s : State) (c : Fin 128) (w : WinCmd) (l : List WinCmd) (b : Block) (k : Core), s.cores[c].engineRuns 3 = true → s.cores[c].eng.wins = w :: l →
       s.engineHeld c w.po (winSpans w.cfg) = false → s.winBlock c w w.pushed = .ok b → (b.null = true ∨ s.winPoison c (winGeo w.cfg) ((winGeo w.cfg).sources w.pushed) = none) →
       s.cores[c].pushA b = some k → ∃ t, exec (.windowBlockPush c) s = .next t ∧ t.cores[c].eng.fifoA = k.eng.fifoA ∧ t.mem = s.mem ∧ t.cores[c].regs = s.cores[c].regs
         ∧ t.cores[c].eng.wins = (if w.pushed + 1 < w.nb then { w with pushed := w.pushed + 1 } :: l else l)
         ∧ t.cores[c].eng.tl[(3 : Fin 8)] = (if w.pushed + 1 < w.nb then s.cores[c].eng.tl[(3 : Fin 8)] else BitVec.ofNat 64 (max (s.cores[c].eng.tl[(3 : Fin 8)]).toNat w.num)))
     ∧ ∀ (s : State) (crew : Fin 16) (n : Nat) (r : RingCmd), ((List.range 8).map (· + 8 * crew.val)).find? s.ringReady = some n → s.ringAt n = some r →
       s.ringAgree (s.ringOf n) r.d = true → s.clean →
       (∀ m ∈ s.ringOf n, ∀ x, s.ringAt m = some x → x.a.toNat + fld r.d 32 21 ≤ s.cores[(Fin.ofNat 128 m : Fin 128)].ctx.scratchQuota
         ∧ x.b.toNat + fld r.d 32 21 ≤ s.cores[(Fin.ofNat 128 m : Fin 128)].ctx.scratchQuota ∧ s.cores[(Fin.ofNat 128 m : Fin 128)].ctx.scratchQuota ≤ Config.scratchSize
         ∧ s.poisoned (scratchPa (Fin.ofNat 128 m) x.a.toNat) (fld r.d 32 21) = false) →
       ∃ t, exec (.ringShift crew) s = .next t ∧ ∀ m ∈ s.ringOf n, ∀ x y, s.ringAt m = some x → s.ringAt (ringNext (fld r.d 8 1 == 0) (s.ringOf n) m) = some y →
         memRead t.mem (scratchPa (Fin.ofNat 128 (ringNext (fld r.d 8 1 == 0) (s.ringOf n) m)) y.b.toNat) (fld r.d 32 21)
           = memRead s.mem (scratchPa (Fin.ofNat 128 m) x.a.toNat) (fld r.d 32 21)
         ∧ t.cores[(Fin.ofNat 128 m : Fin 128)].eng.rings = s.cores[(Fin.ofNat 128 m : Fin 128)].eng.rings.tail)

/-! ### The machine as a whole -/

/-- Encodings are kept (R277, R280): every instruction that has a word is what the word decodes to. -/
def Obligations.DecodeOfEncode : Prop := ∀ (i : Instr) (w : Nat), encode i = some w → w < 2 ^ 32 ∧ decodeWord w = .ok i

/-- No two words are one instruction, and no bit of a word is dropped (R277, R279, R280, R281). -/
def Obligations.EncodeOfDecode : Prop := ∀ (w : Nat) (i : Instr), w < 2 ^ 32 → decodeWord w = .ok i → encode i = some w

/-- Words that the spec prints decode to the instructions that it prints beside them (R282, R289). -/
def Obligations.PrintedWordsDecode : Prop :=
  let n : Tok := ⟨false, false, false, false⟩
  decodeWord 0x00C27FFF = .ok (.lim n 0 9 0x3FFF)
  ∧ decodeWord 0x40114C70 = .ok (.add ⟨false, true, false, false⟩ 2 5 6 7)
  ∧ decodeWord 0x01CFFFF4 = .ok (.br n 1 0x7FFF4)
  ∧ decodeWord 0x08C91090 = .ok (.vfma n 1 4 8 9)

/-- One step (log 1): with the agenda empty, no push held and no queue head that can issue, a strand that may run executes the instruction that
its word decodes to; a word that does not decode, and an index past the image, raise ILLEGAL; an event at the head of the agenda is executed.

A word placed where the machine fetches is what the next step runs (log 10). -/
def Obligations.StepRunsTheDecodedInstruction : Prop :=
  (∀ s : State, s.board.fatal = false →
     (s.agenda = [] → s.cur.heldC = none → s.readyHead s.focusCore = none → s.cur.mayFetch s.focusStrand = true →
       let k := s.cur.pcOf s.focusStrand
       (k < s.cur.img.ncode → s.cur.poison.contains { file := tagI, num := k } = false →
         (∀ i, decodeWord (s.cur.word k).toNat = .ok i → step s = exec i s)
         ∧ (decodeWord (s.cur.word k).toNat = .error .unassigned → step s = .next (illegalNow 1 1 s))
         ∧ (decodeWord (s.cur.word k).toNat = .error .reserved → step s = .next (illegalNow 1 2 s)))
       ∧ (s.cur.img.ncode ≤ k → step s = .next (takeTrap s.focusCore (s.cur.pastEnd s.focusStrand) s)))
     ∧ (∀ i l, s.agenda = .event i :: l → step s = exec i { s with agenda := l }))
  ∧ (∀ (s : State) (n w : Nat) (i : Instr), w < 2 ^ 32 → decodeWord w = .ok i → s.cur.poison.contains { file := tagI, num := s.cur.pc } = false →
       step (s.withFetchWord n w) = exec i (s.withFetchWord n w))

/-- While the clocks run every step answers a next state; once THERMAL_TRIP or a fatal error has stopped them, a step answers the
sideband alone (R12).

A device whose clocks are stopped makes no step but for the sideband, a cold reset and a power loss (R12): with nothing on the
agenda, or another input at its head, `step` faults. -/
def Obligations.RunningStepsComplete : Prop :=
  ((∀ s : State, s.board.fatal = false → ∃ t, step s = .next t) ∧ ∀ (i : Instr) (s : State), ∃ t, exec i s = .next t)
  ∧ (∀ s : State, s.board.fatal = true →
       (s.agenda = [] → step s = .fault .clocksStopped)
       ∧ (∀ i rest, s.agenda = .event i :: rest → i ∈ [Instr.coldReset, .coldrst 0x00000C01] →
         ∃ t, step s = .next t ∧ t.board.fatal = false ∧ t.board.bootStep = 1)
       ∧ (∀ x rest, s.agenda = x :: rest → x.sideband = false → step s = .fault .clocksStopped))

/-- Every step keeps memory in its canonical form: addresses strictly rising, no byte listed that reads as an unlisted one does. -/
def Obligations.EveryStepKeepsMemoryCanonical : Prop :=
  ∀ s t : State, Memory.wf s.mem = true → step s = .next t → Memory.wf t.mem = true

/-- The machine after reset: memory lists nothing and is canonical, boot stands at step 0 with no error (R26), the registers that R37, R57, R60, R62,
R64, R67 and R158 give a reset value hold it, and no core runs. -/
def Obligations.ResetState : Prop :=
  let s := State.reset
  Memory.wf s.mem = true ∧ s.mem = [] ∧ s.board.bootStep = 0 ∧ s.board.bootErr = 0 ∧ s.board.throttle = false ∧ s.board.fatal = false ∧ s.board.limit = 1500
  ∧ s.tb.now = 0 ∧ s.trans.invIrq = 0 ∧ s.trans.atupdAddr = 0 ∧ s.trans.domainSelf = 0 ∧ (∀ i : Fin 16, s.trans.peers[i] = 0) ∧ (∀ i : Fin 64, s.trans.exports[i] = 0)
  ∧ (∀ (m : Fin 256) (i : Fin 8), m ≠ 0x8C → s.trans.windows[m][i] = 0) ∧ winContains (s.trans.windows[(0x8C : Fin 256)])[(0 : Fin 8)] 0 (2 ^ 50) = true
  ∧ fld s.ras.scrubCtl 0 16 = 24 ∧ fld s.ras.scrubCtl 16 1 = 1 ∧ s.ras.crCtl = 0
  ∧ ∀ c : Fin 128, s.cores[c].phase = .idle ∧ s.cores[c].regs = Regs.reset ∧ s.cores[c].sys.qwlim = 2 ^ 24 ∧ s.cores[c].sys.vl = 0 ∧ s.cores[c].sys.fpcr = 0

/-- A word of one core leaves the registers, system registers and pc of every other core as they are (R172). -/
def Obligations.WordsKeepOtherCores : Prop :=
  ∀ (i : Instr) (s t : State) (w : Nat) (c : Fin 128), encode i = some w → exec i s = .next t → c ≠ s.focusCore →
    t.cores[c].regs = s.cores[c].regs ∧ t.cores[c].sys = s.cores[c].sys ∧ t.cores[c].pc = s.cores[c].pc
end

