-- ==== Sys2Proof/Laws/Encoding.lean ====
section
/-! SUPPORT. Fields of encoded words: what each format of R280 puts into a word is read back from it. -/

namespace Sys2Proof

/-- Token bits fill bits 31 to 28 alone (R277). -/
theorem encTok_lt (t : Tok) : encTok t < 4294967296 ∧ encTok t % 268435456 = 0 := by
  obtain ⟨x1,x2,x3,x4⟩ := t; cases x1 <;> cases x2 <;> cases x3 <;> cases x4 <;> decide

/-- The token bits of a word below which the fields lie. -/
theorem tokOf_add (t : Tok) (v : Nat) (h : v < 268435456) : tokOf (encTok t + v) = t := by
  obtain ⟨x1,x2,x3,x4⟩ := t
  simp only [tokOf, encTok, bits]
  cases x1 <;> cases x2 <;> cases x3 <;> cases x4 <;> simp <;> omega

/-- A field below the token bits. -/
theorem bits_encTok (t : Tok) (v lo len : Nat) (h : lo + len ≤ 28) : bits (encTok t + v) lo len = bits v lo len := by
  have ⟨_, h2⟩ := encTok_lt t
  obtain ⟨k, hk⟩ : ∃ k, encTok t = 268435456 * k := ⟨_, (Nat.mul_div_cancel' (Nat.dvd_of_mod_eq_zero h2)).symm⟩
  rw [hk]
  have : (268435456:Nat) = 2^lo * (2^len * 2^(28-lo-len)) := by
    rw [← pow_add, ← pow_add, show lo + (len + (28-lo-len)) = 28 by omega]; norm_num
  unfold bits
  rw [this, Nat.mul_assoc, Nat.mul_add_div (by positivity), Nat.mul_assoc, Nat.mul_add_mod]

/-- A field as a number of its width. -/
theorem fin_of_bits (w lo n len : Nat) [NeZero n] (hn : n = 2^len) (x : Fin n) (h : bits w lo len = x.val) : fin w lo n = x := by
  subst hn
  apply Fin.ext
  simpa [fin, Fin.ofNat, bits] using h


/-! Format R (R280). -/

theorem tok_encR (t : Tok) (mj g d a b fn : Nat) (hmj : mj < 64) (hg : g < 8) (hd : d < 32) (ha : a < 32) (hb : b < 32) (hfn : fn < 16) : tokOf (encR t mj g d a b fn) = t := by
  simp only [encR, Nat.add_assoc]; exact tokOf_add _ _ (by omega)
theorem encR_mj (t : Tok) (mj g d a b fn : Nat) (hmj : mj < 64) (hg : g < 8) (hd : d < 32) (ha : a < 32) (hb : b < 32) (hfn : fn < 16) : bits (encR t mj g d a b fn) 22 6 = mj := by
  simp only [encR, Nat.add_assoc]; rw [bits_encTok _ _ _ _ (by omega)]; simp only [bits]; omega
theorem encR_g (t : Tok) (mj g d a b fn : Nat) (hmj : mj < 64) (hg : g < 8) (hd : d < 32) (ha : a < 32) (hb : b < 32) (hfn : fn < 16) : bits (encR t mj g d a b fn) 19 3 = g := by
  simp only [encR, Nat.add_assoc]; rw [bits_encTok _ _ _ _ (by omega)]; simp only [bits]; omega
theorem encR_d (t : Tok) (mj g d a b fn : Nat) (hmj : mj < 64) (hg : g < 8) (hd : d < 32) (ha : a < 32) (hb : b < 32) (hfn : fn < 16) : bits (encR t mj g d a b fn) 14 5 = d := by
  simp only [encR, Nat.add_assoc]; rw [bits_encTok _ _ _ _ (by omega)]; simp only [bits]; omega
theorem encR_a (t : Tok) (mj g d a b fn : Nat) (hmj : mj < 64) (hg : g < 8) (hd : d < 32) (ha : a < 32) (hb : b < 32) (hfn : fn < 16) : bits (encR t mj g d a b fn) 9 5 = a := by
  simp only [encR, Nat.add_assoc]; rw [bits_encTok _ _ _ _ (by omega)]; simp only [bits]; omega
theorem encR_b (t : Tok) (mj g d a b fn : Nat) (hmj : mj < 64) (hg : g < 8) (hd : d < 32) (ha : a < 32) (hb : b < 32) (hfn : fn < 16) : bits (encR t mj g d a b fn) 4 5 = b := by
  simp only [encR, Nat.add_assoc]; rw [bits_encTok _ _ _ _ (by omega)]; simp only [bits]; omega
theorem encR_fn (t : Tok) (mj g d a b fn : Nat) (hmj : mj < 64) (hg : g < 8) (hd : d < 32) (ha : a < 32) (hb : b < 32) (hfn : fn < 16) : bits (encR t mj g d a b fn) 0 4 = fn := by
  simp only [encR, Nat.add_assoc]; rw [bits_encTok _ _ _ _ (by omega)]; simp only [bits]; omega

/-! Format I (R280). -/

theorem tok_encI (t : Tok) (mj g d a i : Nat) (hmj : mj < 64) (hg : g < 8) (hd : d < 32) (ha : a < 32) (hi : i < 512) : tokOf (encI t mj g d a i) = t := by
  simp only [encI, Nat.add_assoc]; exact tokOf_add _ _ (by omega)
theorem encI_mj (t : Tok) (mj g d a i : Nat) (hmj : mj < 64) (hg : g < 8) (hd : d < 32) (ha : a < 32) (hi : i < 512) : bits (encI t mj g d a i) 22 6 = mj := by
  simp only [encI, Nat.add_assoc]; rw [bits_encTok _ _ _ _ (by omega)]; simp only [bits]; omega
theorem encI_g (t : Tok) (mj g d a i : Nat) (hmj : mj < 64) (hg : g < 8) (hd : d < 32) (ha : a < 32) (hi : i < 512) : bits (encI t mj g d a i) 19 3 = g := by
  simp only [encI, Nat.add_assoc]; rw [bits_encTok _ _ _ _ (by omega)]; simp only [bits]; omega
theorem encI_d (t : Tok) (mj g d a i : Nat) (hmj : mj < 64) (hg : g < 8) (hd : d < 32) (ha : a < 32) (hi : i < 512) : bits (encI t mj g d a i) 14 5 = d := by
  simp only [encI, Nat.add_assoc]; rw [bits_encTok _ _ _ _ (by omega)]; simp only [bits]; omega
theorem encI_a (t : Tok) (mj g d a i : Nat) (hmj : mj < 64) (hg : g < 8) (hd : d < 32) (ha : a < 32) (hi : i < 512) : bits (encI t mj g d a i) 9 5 = a := by
  simp only [encI, Nat.add_assoc]; rw [bits_encTok _ _ _ _ (by omega)]; simp only [bits]; omega
theorem encI_i (t : Tok) (mj g d a i : Nat) (hmj : mj < 64) (hg : g < 8) (hd : d < 32) (ha : a < 32) (hi : i < 512) : bits (encI t mj g d a i) 0 9 = i := by
  simp only [encI, Nat.add_assoc]; rw [bits_encTok _ _ _ _ (by omega)]; simp only [bits]; omega

/-! Format K (R280). -/

theorem tok_encK (t : Tok) (mj g d i : Nat) (hmj : mj < 64) (hg : g < 8) (hd : d < 32) (hi : i < 16384) : tokOf (encK t mj g d i) = t := by
  simp only [encK, Nat.add_assoc]; exact tokOf_add _ _ (by omega)
theorem encK_mj (t : Tok) (mj g d i : Nat) (hmj : mj < 64) (hg : g < 8) (hd : d < 32) (hi : i < 16384) : bits (encK t mj g d i) 22 6 = mj := by
  simp only [encK, Nat.add_assoc]; rw [bits_encTok _ _ _ _ (by omega)]; simp only [bits]; omega
theorem encK_g (t : Tok) (mj g d i : Nat) (hmj : mj < 64) (hg : g < 8) (hd : d < 32) (hi : i < 16384) : bits (encK t mj g d i) 19 3 = g := by
  simp only [encK, Nat.add_assoc]; rw [bits_encTok _ _ _ _ (by omega)]; simp only [bits]; omega
theorem encK_d (t : Tok) (mj g d i : Nat) (hmj : mj < 64) (hg : g < 8) (hd : d < 32) (hi : i < 16384) : bits (encK t mj g d i) 14 5 = d := by
  simp only [encK, Nat.add_assoc]; rw [bits_encTok _ _ _ _ (by omega)]; simp only [bits]; omega
theorem encK_i (t : Tok) (mj g d i : Nat) (hmj : mj < 64) (hg : g < 8) (hd : d < 32) (hi : i < 16384) : bits (encK t mj g d i) 0 14 = i := by
  simp only [encK, Nat.add_assoc]; rw [bits_encTok _ _ _ _ (by omega)]; simp only [bits]; omega

/-! Format B (R280). -/

theorem tok_encB (t : Tok) (mj g o : Nat) (hmj : mj < 64) (hg : g < 8) (ho : o < 524288) : tokOf (encB t mj g o) = t := by
  simp only [encB, Nat.add_assoc]; exact tokOf_add _ _ (by omega)
theorem encB_mj (t : Tok) (mj g o : Nat) (hmj : mj < 64) (hg : g < 8) (ho : o < 524288) : bits (encB t mj g o) 22 6 = mj := by
  simp only [encB, Nat.add_assoc]; rw [bits_encTok _ _ _ _ (by omega)]; simp only [bits]; omega
theorem encB_g (t : Tok) (mj g o : Nat) (hmj : mj < 64) (hg : g < 8) (ho : o < 524288) : bits (encB t mj g o) 19 3 = g := by
  simp only [encB, Nat.add_assoc]; rw [bits_encTok _ _ _ _ (by omega)]; simp only [bits]; omega
theorem encB_o (t : Tok) (mj g o : Nat) (hmj : mj < 64) (hg : g < 8) (ho : o < 524288) : bits (encB t mj g o) 0 19 = o := by
  simp only [encB, Nat.add_assoc]; rw [bits_encTok _ _ _ _ (by omega)]; simp only [bits]; omega

/-! Format S (R280). -/

theorem tok_encS (t : Tok) (mj c d a b fn : Nat) (hmj : mj < 64) (hc : c < 16) (hd : d < 32) (ha : a < 32) (hb : b < 32) (hfn : fn < 8) : tokOf (encS t mj c d a b fn) = t := by
  simp only [encS, Nat.add_assoc]; exact tokOf_add _ _ (by omega)
theorem encS_mj (t : Tok) (mj c d a b fn : Nat) (hmj : mj < 64) (hc : c < 16) (hd : d < 32) (ha : a < 32) (hb : b < 32) (hfn : fn < 8) : bits (encS t mj c d a b fn) 22 6 = mj := by
  simp only [encS, Nat.add_assoc]; rw [bits_encTok _ _ _ _ (by omega)]; simp only [bits]; omega
theorem encS_c (t : Tok) (mj c d a b fn : Nat) (hmj : mj < 64) (hc : c < 16) (hd : d < 32) (ha : a < 32) (hb : b < 32) (hfn : fn < 8) : bits (encS t mj c d a b fn) 18 4 = c := by
  simp only [encS, Nat.add_assoc]; rw [bits_encTok _ _ _ _ (by omega)]; simp only [bits]; omega
theorem encS_d (t : Tok) (mj c d a b fn : Nat) (hmj : mj < 64) (hc : c < 16) (hd : d < 32) (ha : a < 32) (hb : b < 32) (hfn : fn < 8) : bits (encS t mj c d a b fn) 13 5 = d := by
  simp only [encS, Nat.add_assoc]; rw [bits_encTok _ _ _ _ (by omega)]; simp only [bits]; omega
theorem encS_a (t : Tok) (mj c d a b fn : Nat) (hmj : mj < 64) (hc : c < 16) (hd : d < 32) (ha : a < 32) (hb : b < 32) (hfn : fn < 8) : bits (encS t mj c d a b fn) 8 5 = a := by
  simp only [encS, Nat.add_assoc]; rw [bits_encTok _ _ _ _ (by omega)]; simp only [bits]; omega
theorem encS_b (t : Tok) (mj c d a b fn : Nat) (hmj : mj < 64) (hc : c < 16) (hd : d < 32) (ha : a < 32) (hb : b < 32) (hfn : fn < 8) : bits (encS t mj c d a b fn) 3 5 = b := by
  simp only [encS, Nat.add_assoc]; rw [bits_encTok _ _ _ _ (by omega)]; simp only [bits]; omega
theorem encS_fn (t : Tok) (mj c d a b fn : Nat) (hmj : mj < 64) (hc : c < 16) (hd : d < 32) (ha : a < 32) (hb : b < 32) (hfn : fn < 8) : bits (encS t mj c d a b fn) 0 3 = fn := by
  simp only [encS, Nat.add_assoc]; rw [bits_encTok _ _ _ _ (by omega)]; simp only [bits]; omega
end Sys2Proof
end

