-- ==== Sys2Proof/Laws/State.lean ====
section
/-! SUPPORT. What the plain updates of the state and of a core leave as it was: one lemma for each field that an update does not touch. -/


namespace Sys2Proof.Machine

/-! ### The core at the focus, and other cores -/

@[simp] theorem State.setCore_cur (s : State) (c : Core) : (s.setCore s.focusCore c).cur = c := by simp [State.cur, State.setCore]

@[simp] theorem State.setCore_setCore (s : State) (n : Fin 128) (c d : Core) : (s.setCore n c).setCore n d = s.setCore n d := by simp [State.setCore]

/-- The core that an update names holds what it was given. -/
@[simp] theorem State.setCore_core (s : State) (n : Fin 128) (c : Core) : (s.setCore n c).cores[n] = c := by simp [State.setCore]

/-- Every other core stands. -/
theorem State.setCore_core_ne (s : State) {n m : Fin 128} (c : Core) (h : m ≠ n) : (s.setCore n c).cores[m] = s.cores[m] := by
  have : n.val ≠ m.val := fun e => h (Fin.ext e.symm)
  simp [State.setCore, this]

theorem State.modCur_eq (s : State) (f : Core → Core) : s.modCur f = s.setCore s.focusCore (f s.cur) := rfl
theorem State.modCore_eq (s : State) (n) (f : Core → Core) : s.modCore n f = s.setCore n (f s.cores[n]) := rfl

@[simp] theorem State.modCore_core (s : State) (n : Fin 128) (f : Core → Core) : (s.modCore n f).cores[n] = f s.cores[n] := by
  rw [State.modCore_eq, State.setCore_core]

theorem State.modCore_core_ne (s : State) {n m : Fin 128} (f : Core → Core) (h : m ≠ n) : (s.modCore n f).cores[m] = s.cores[m] :=
  State.setCore_core_ne s _ h

/-! ### Updates of the state -/

@[simp] theorem State.setCore_held (s : State) (n : Fin 128) (c : Core) : (s.setCore n c).held = s.held := rfl
@[simp] theorem State.setCore_mem (s : State) (n : Fin 128) (c : Core) : (s.setCore n c).mem = s.mem := rfl
@[simp] theorem State.setCore_board (s : State) (n : Fin 128) (c : Core) : (s.setCore n c).board = s.board := rfl
@[simp] theorem State.setCore_tb (s : State) (n : Fin 128) (c : Core) : (s.setCore n c).tb = s.tb := rfl
@[simp] theorem State.setCore_trans (s : State) (n : Fin 128) (c : Core) : (s.setCore n c).trans = s.trans := rfl
@[simp] theorem State.setCore_fe (s : State) (n : Fin 128) (c : Core) : (s.setCore n c).fe = s.fe := rfl
@[simp] theorem State.setCore_streams (s : State) (n : Fin 128) (c : Core) : (s.setCore n c).streams = s.streams := rfl
@[simp] theorem State.setCore_encoders (s : State) (n : Fin 128) (c : Core) : (s.setCore n c).encoders = s.encoders := rfl
@[simp] theorem State.setCore_sched (s : State) (n : Fin 128) (c : Core) : (s.setCore n c).sched = s.sched := rfl
@[simp] theorem State.setCore_ras (s : State) (n : Fin 128) (c : Core) : (s.setCore n c).ras = s.ras := rfl
@[simp] theorem State.setCore_fab (s : State) (n : Fin 128) (c : Core) : (s.setCore n c).fab = s.fab := rfl
@[simp] theorem State.setCore_notes (s : State) (n : Fin 128) (c : Core) : (s.setCore n c).notes = s.notes := rfl
@[simp] theorem State.setCore_agenda (s : State) (n : Fin 128) (c : Core) : (s.setCore n c).agenda = s.agenda := rfl
@[simp] theorem State.setCore_focusCore (s : State) (n : Fin 128) (c : Core) : (s.setCore n c).focusCore = s.focusCore := rfl
@[simp] theorem State.setCore_focusStrand (s : State) (n : Fin 128) (c : Core) : (s.setCore n c).focusStrand = s.focusStrand := rfl
@[simp] theorem State.setCore_fresh (s : State) (n : Fin 128) (c : Core) : (s.setCore n c).fresh = s.fresh := rfl
@[simp] theorem State.modCore_held (s : State) (n : Fin 128) (f : Core → Core) : (s.modCore n f).held = s.held := rfl
@[simp] theorem State.modCore_mem (s : State) (n : Fin 128) (f : Core → Core) : (s.modCore n f).mem = s.mem := rfl
@[simp] theorem State.modCore_board (s : State) (n : Fin 128) (f : Core → Core) : (s.modCore n f).board = s.board := rfl
@[simp] theorem State.modCore_tb (s : State) (n : Fin 128) (f : Core → Core) : (s.modCore n f).tb = s.tb := rfl
@[simp] theorem State.modCore_trans (s : State) (n : Fin 128) (f : Core → Core) : (s.modCore n f).trans = s.trans := rfl
@[simp] theorem State.modCore_fe (s : State) (n : Fin 128) (f : Core → Core) : (s.modCore n f).fe = s.fe := rfl
@[simp] theorem State.modCore_streams (s : State) (n : Fin 128) (f : Core → Core) : (s.modCore n f).streams = s.streams := rfl
@[simp] theorem State.modCore_encoders (s : State) (n : Fin 128) (f : Core → Core) : (s.modCore n f).encoders = s.encoders := rfl
@[simp] theorem State.modCore_sched (s : State) (n : Fin 128) (f : Core → Core) : (s.modCore n f).sched = s.sched := rfl
@[simp] theorem State.modCore_ras (s : State) (n : Fin 128) (f : Core → Core) : (s.modCore n f).ras = s.ras := rfl
@[simp] theorem State.modCore_fab (s : State) (n : Fin 128) (f : Core → Core) : (s.modCore n f).fab = s.fab := rfl
@[simp] theorem State.modCore_notes (s : State) (n : Fin 128) (f : Core → Core) : (s.modCore n f).notes = s.notes := rfl
@[simp] theorem State.modCore_agenda (s : State) (n : Fin 128) (f : Core → Core) : (s.modCore n f).agenda = s.agenda := rfl
@[simp] theorem State.modCore_focusCore (s : State) (n : Fin 128) (f : Core → Core) : (s.modCore n f).focusCore = s.focusCore := rfl
@[simp] theorem State.modCore_focusStrand (s : State) (n : Fin 128) (f : Core → Core) : (s.modCore n f).focusStrand = s.focusStrand := rfl
@[simp] theorem State.modCore_fresh (s : State) (n : Fin 128) (f : Core → Core) : (s.modCore n f).fresh = s.fresh := rfl
@[simp] theorem State.modCur_held (s : State) (f : Core → Core) : (s.modCur f).held = s.held := rfl
@[simp] theorem State.modCur_mem (s : State) (f : Core → Core) : (s.modCur f).mem = s.mem := rfl
@[simp] theorem State.modCur_board (s : State) (f : Core → Core) : (s.modCur f).board = s.board := rfl
@[simp] theorem State.modCur_tb (s : State) (f : Core → Core) : (s.modCur f).tb = s.tb := rfl
@[simp] theorem State.modCur_trans (s : State) (f : Core → Core) : (s.modCur f).trans = s.trans := rfl
@[simp] theorem State.modCur_fe (s : State) (f : Core → Core) : (s.modCur f).fe = s.fe := rfl
@[simp] theorem State.modCur_streams (s : State) (f : Core → Core) : (s.modCur f).streams = s.streams := rfl
@[simp] theorem State.modCur_encoders (s : State) (f : Core → Core) : (s.modCur f).encoders = s.encoders := rfl
@[simp] theorem State.modCur_sched (s : State) (f : Core → Core) : (s.modCur f).sched = s.sched := rfl
@[simp] theorem State.modCur_ras (s : State) (f : Core → Core) : (s.modCur f).ras = s.ras := rfl
@[simp] theorem State.modCur_fab (s : State) (f : Core → Core) : (s.modCur f).fab = s.fab := rfl
@[simp] theorem State.modCur_notes (s : State) (f : Core → Core) : (s.modCur f).notes = s.notes := rfl
@[simp] theorem State.modCur_agenda (s : State) (f : Core → Core) : (s.modCur f).agenda = s.agenda := rfl
@[simp] theorem State.modCur_focusCore (s : State) (f : Core → Core) : (s.modCur f).focusCore = s.focusCore := rfl
@[simp] theorem State.modCur_focusStrand (s : State) (f : Core → Core) : (s.modCur f).focusStrand = s.focusStrand := rfl
@[simp] theorem State.modCur_fresh (s : State) (f : Core → Core) : (s.modCur f).fresh = s.fresh := rfl
@[simp] theorem State.setMem_cores (s : State) (m : Memory) : (s.setMem m).cores = s.cores := rfl
@[simp] theorem State.setMem_held (s : State) (m : Memory) : (s.setMem m).held = s.held := rfl
@[simp] theorem State.setMem_board (s : State) (m : Memory) : (s.setMem m).board = s.board := rfl
@[simp] theorem State.setMem_tb (s : State) (m : Memory) : (s.setMem m).tb = s.tb := rfl
@[simp] theorem State.setMem_trans (s : State) (m : Memory) : (s.setMem m).trans = s.trans := rfl
@[simp] theorem State.setMem_fe (s : State) (m : Memory) : (s.setMem m).fe = s.fe := rfl
@[simp] theorem State.setMem_streams (s : State) (m : Memory) : (s.setMem m).streams = s.streams := rfl
@[simp] theorem State.setMem_encoders (s : State) (m : Memory) : (s.setMem m).encoders = s.encoders := rfl
@[simp] theorem State.setMem_sched (s : State) (m : Memory) : (s.setMem m).sched = s.sched := rfl
@[simp] theorem State.setMem_ras (s : State) (m : Memory) : (s.setMem m).ras = s.ras := rfl
@[simp] theorem State.setMem_fab (s : State) (m : Memory) : (s.setMem m).fab = s.fab := rfl
@[simp] theorem State.setMem_notes (s : State) (m : Memory) : (s.setMem m).notes = s.notes := rfl
@[simp] theorem State.setMem_agenda (s : State) (m : Memory) : (s.setMem m).agenda = s.agenda := rfl
@[simp] theorem State.setMem_focusCore (s : State) (m : Memory) : (s.setMem m).focusCore = s.focusCore := rfl
@[simp] theorem State.setMem_focusStrand (s : State) (m : Memory) : (s.setMem m).focusStrand = s.focusStrand := rfl
@[simp] theorem State.setMem_fresh (s : State) (m : Memory) : (s.setMem m).fresh = s.fresh := rfl
@[simp] theorem State.note_cores (s : State) (x : Note) : (s.note x).cores = s.cores := rfl
@[simp] theorem State.note_held (s : State) (x : Note) : (s.note x).held = s.held := rfl
@[simp] theorem State.note_mem (s : State) (x : Note) : (s.note x).mem = s.mem := rfl
@[simp] theorem State.note_board (s : State) (x : Note) : (s.note x).board = s.board := rfl
@[simp] theorem State.note_tb (s : State) (x : Note) : (s.note x).tb = s.tb := rfl
@[simp] theorem State.note_trans (s : State) (x : Note) : (s.note x).trans = s.trans := rfl
@[simp] theorem State.note_fe (s : State) (x : Note) : (s.note x).fe = s.fe := rfl
@[simp] theorem State.note_streams (s : State) (x : Note) : (s.note x).streams = s.streams := rfl
@[simp] theorem State.note_encoders (s : State) (x : Note) : (s.note x).encoders = s.encoders := rfl
@[simp] theorem State.note_sched (s : State) (x : Note) : (s.note x).sched = s.sched := rfl
@[simp] theorem State.note_ras (s : State) (x : Note) : (s.note x).ras = s.ras := rfl
@[simp] theorem State.note_fab (s : State) (x : Note) : (s.note x).fab = s.fab := rfl
@[simp] theorem State.note_agenda (s : State) (x : Note) : (s.note x).agenda = s.agenda := rfl
@[simp] theorem State.note_focusCore (s : State) (x : Note) : (s.note x).focusCore = s.focusCore := rfl
@[simp] theorem State.note_focusStrand (s : State) (x : Note) : (s.note x).focusStrand = s.focusStrand := rfl
@[simp] theorem State.note_fresh (s : State) (x : Note) : (s.note x).fresh = s.fresh := rfl
@[simp] theorem State.modBoard_cores (s : State) (f : Board → Board) : (s.modBoard f).cores = s.cores := rfl
@[simp] theorem State.modBoard_held (s : State) (f : Board → Board) : (s.modBoard f).held = s.held := rfl
@[simp] theorem State.modBoard_mem (s : State) (f : Board → Board) : (s.modBoard f).mem = s.mem := rfl
@[simp] theorem State.modBoard_tb (s : State) (f : Board → Board) : (s.modBoard f).tb = s.tb := rfl
@[simp] theorem State.modBoard_trans (s : State) (f : Board → Board) : (s.modBoard f).trans = s.trans := rfl
@[simp] theorem State.modBoard_fe (s : State) (f : Board → Board) : (s.modBoard f).fe = s.fe := rfl
@[simp] theorem State.modBoard_streams (s : State) (f : Board → Board) : (s.modBoard f).streams = s.streams := rfl
@[simp] theorem State.modBoard_encoders (s : State) (f : Board → Board) : (s.modBoard f).encoders = s.encoders := rfl
@[simp] theorem State.modBoard_sched (s : State) (f : Board → Board) : (s.modBoard f).sched = s.sched := rfl
@[simp] theorem State.modBoard_ras (s : State) (f : Board → Board) : (s.modBoard f).ras = s.ras := rfl
@[simp] theorem State.modBoard_fab (s : State) (f : Board → Board) : (s.modBoard f).fab = s.fab := rfl
@[simp] theorem State.modBoard_notes (s : State) (f : Board → Board) : (s.modBoard f).notes = s.notes := rfl
@[simp] theorem State.modBoard_agenda (s : State) (f : Board → Board) : (s.modBoard f).agenda = s.agenda := rfl
@[simp] theorem State.modBoard_focusCore (s : State) (f : Board → Board) : (s.modBoard f).focusCore = s.focusCore := rfl
@[simp] theorem State.modBoard_focusStrand (s : State) (f : Board → Board) : (s.modBoard f).focusStrand = s.focusStrand := rfl
@[simp] theorem State.modBoard_fresh (s : State) (f : Board → Board) : (s.modBoard f).fresh = s.fresh := rfl
@[simp] theorem State.msix_cores (s : State) (a b : Nat) : (s.msix a b).cores = s.cores := rfl
@[simp] theorem State.msix_held (s : State) (a b : Nat) : (s.msix a b).held = s.held := rfl
@[simp] theorem State.msix_mem (s : State) (a b : Nat) : (s.msix a b).mem = s.mem := rfl
@[simp] theorem State.msix_board (s : State) (a b : Nat) : (s.msix a b).board = s.board := rfl
@[simp] theorem State.msix_tb (s : State) (a b : Nat) : (s.msix a b).tb = s.tb := rfl
@[simp] theorem State.msix_trans (s : State) (a b : Nat) : (s.msix a b).trans = s.trans := rfl
@[simp] theorem State.msix_fe (s : State) (a b : Nat) : (s.msix a b).fe = s.fe := rfl
@[simp] theorem State.msix_streams (s : State) (a b : Nat) : (s.msix a b).streams = s.streams := rfl
@[simp] theorem State.msix_encoders (s : State) (a b : Nat) : (s.msix a b).encoders = s.encoders := rfl
@[simp] theorem State.msix_sched (s : State) (a b : Nat) : (s.msix a b).sched = s.sched := rfl
@[simp] theorem State.msix_ras (s : State) (a b : Nat) : (s.msix a b).ras = s.ras := rfl
@[simp] theorem State.msix_fab (s : State) (a b : Nat) : (s.msix a b).fab = s.fab := rfl
@[simp] theorem State.msix_agenda (s : State) (a b : Nat) : (s.msix a b).agenda = s.agenda := rfl
@[simp] theorem State.msix_focusCore (s : State) (a b : Nat) : (s.msix a b).focusCore = s.focusCore := rfl
@[simp] theorem State.msix_focusStrand (s : State) (a b : Nat) : (s.msix a b).focusStrand = s.focusStrand := rfl
@[simp] theorem State.msix_fresh (s : State) (a b : Nat) : (s.msix a b).fresh = s.fresh := rfl
@[simp] theorem State.setRegion_cores (s : State) (r : Nat) (x : Region) : (s.setRegion r x).cores = s.cores := rfl
@[simp] theorem State.setRegion_held (s : State) (r : Nat) (x : Region) : (s.setRegion r x).held = s.held := rfl
@[simp] theorem State.setRegion_mem (s : State) (r : Nat) (x : Region) : (s.setRegion r x).mem = s.mem := rfl
@[simp] theorem State.setRegion_board (s : State) (r : Nat) (x : Region) : (s.setRegion r x).board = s.board := rfl
@[simp] theorem State.setRegion_tb (s : State) (r : Nat) (x : Region) : (s.setRegion r x).tb = s.tb := rfl
@[simp] theorem State.setRegion_trans (s : State) (r : Nat) (x : Region) : (s.setRegion r x).trans = s.trans := rfl
@[simp] theorem State.setRegion_fe (s : State) (r : Nat) (x : Region) : (s.setRegion r x).fe = s.fe := rfl
@[simp] theorem State.setRegion_streams (s : State) (r : Nat) (x : Region) : (s.setRegion r x).streams = s.streams := rfl
@[simp] theorem State.setRegion_encoders (s : State) (r : Nat) (x : Region) : (s.setRegion r x).encoders = s.encoders := rfl
@[simp] theorem State.setRegion_ras (s : State) (r : Nat) (x : Region) : (s.setRegion r x).ras = s.ras := rfl
@[simp] theorem State.setRegion_fab (s : State) (r : Nat) (x : Region) : (s.setRegion r x).fab = s.fab := rfl
@[simp] theorem State.setRegion_notes (s : State) (r : Nat) (x : Region) : (s.setRegion r x).notes = s.notes := rfl
@[simp] theorem State.setRegion_agenda (s : State) (r : Nat) (x : Region) : (s.setRegion r x).agenda = s.agenda := rfl
@[simp] theorem State.setRegion_focusCore (s : State) (r : Nat) (x : Region) : (s.setRegion r x).focusCore = s.focusCore := rfl
@[simp] theorem State.setRegion_focusStrand (s : State) (r : Nat) (x : Region) : (s.setRegion r x).focusStrand = s.focusStrand := rfl
@[simp] theorem State.setRegion_fresh (s : State) (r : Nat) (x : Region) : (s.setRegion r x).fresh = s.fresh := rfl
@[simp] theorem State.setPoison_cores (s : State) (a n : Nat) : (s.setPoison a n).cores = s.cores := rfl
@[simp] theorem State.setPoison_held (s : State) (a n : Nat) : (s.setPoison a n).held = s.held := rfl
@[simp] theorem State.setPoison_mem (s : State) (a n : Nat) : (s.setPoison a n).mem = s.mem := rfl
@[simp] theorem State.setPoison_board (s : State) (a n : Nat) : (s.setPoison a n).board = s.board := rfl
@[simp] theorem State.setPoison_tb (s : State) (a n : Nat) : (s.setPoison a n).tb = s.tb := rfl
@[simp] theorem State.setPoison_trans (s : State) (a n : Nat) : (s.setPoison a n).trans = s.trans := rfl
@[simp] theorem State.setPoison_fe (s : State) (a n : Nat) : (s.setPoison a n).fe = s.fe := rfl
@[simp] theorem State.setPoison_streams (s : State) (a n : Nat) : (s.setPoison a n).streams = s.streams := rfl
@[simp] theorem State.setPoison_encoders (s : State) (a n : Nat) : (s.setPoison a n).encoders = s.encoders := rfl
@[simp] theorem State.setPoison_sched (s : State) (a n : Nat) : (s.setPoison a n).sched = s.sched := rfl
@[simp] theorem State.setPoison_fab (s : State) (a n : Nat) : (s.setPoison a n).fab = s.fab := rfl
@[simp] theorem State.setPoison_notes (s : State) (a n : Nat) : (s.setPoison a n).notes = s.notes := rfl
@[simp] theorem State.setPoison_agenda (s : State) (a n : Nat) : (s.setPoison a n).agenda = s.agenda := rfl
@[simp] theorem State.setPoison_focusCore (s : State) (a n : Nat) : (s.setPoison a n).focusCore = s.focusCore := rfl
@[simp] theorem State.setPoison_focusStrand (s : State) (a n : Nat) : (s.setPoison a n).focusStrand = s.focusStrand := rfl
@[simp] theorem State.setPoison_fresh (s : State) (a n : Nat) : (s.setPoison a n).fresh = s.fresh := rfl
@[simp] theorem State.writeBytes_cores (s : State) (a : Nat) (b : List Byte) : (s.writeBytes a b).cores = s.cores := rfl
@[simp] theorem State.writeBytes_held (s : State) (a : Nat) (b : List Byte) : (s.writeBytes a b).held = s.held := rfl
@[simp] theorem State.writeBytes_board (s : State) (a : Nat) (b : List Byte) : (s.writeBytes a b).board = s.board := rfl
@[simp] theorem State.writeBytes_tb (s : State) (a : Nat) (b : List Byte) : (s.writeBytes a b).tb = s.tb := rfl
@[simp] theorem State.writeBytes_trans (s : State) (a : Nat) (b : List Byte) : (s.writeBytes a b).trans = s.trans := rfl
@[simp] theorem State.writeBytes_fe (s : State) (a : Nat) (b : List Byte) : (s.writeBytes a b).fe = s.fe := rfl
@[simp] theorem State.writeBytes_streams (s : State) (a : Nat) (b : List Byte) : (s.writeBytes a b).streams = s.streams := rfl
@[simp] theorem State.writeBytes_encoders (s : State) (a : Nat) (b : List Byte) : (s.writeBytes a b).encoders = s.encoders := rfl
@[simp] theorem State.writeBytes_sched (s : State) (a : Nat) (b : List Byte) : (s.writeBytes a b).sched = s.sched := rfl
@[simp] theorem State.writeBytes_fab (s : State) (a : Nat) (b : List Byte) : (s.writeBytes a b).fab = s.fab := rfl
@[simp] theorem State.writeBytes_notes (s : State) (a : Nat) (b : List Byte) : (s.writeBytes a b).notes = s.notes := rfl
@[simp] theorem State.writeBytes_agenda (s : State) (a : Nat) (b : List Byte) : (s.writeBytes a b).agenda = s.agenda := rfl
@[simp] theorem State.writeBytes_focusCore (s : State) (a : Nat) (b : List Byte) : (s.writeBytes a b).focusCore = s.focusCore := rfl
@[simp] theorem State.writeBytes_focusStrand (s : State) (a : Nat) (b : List Byte) : (s.writeBytes a b).focusStrand = s.focusStrand := rfl
@[simp] theorem State.writeBytes_fresh (s : State) (a : Nat) (b : List Byte) : (s.writeBytes a b).fresh = s.fresh := rfl
@[simp] theorem State.modStep_cores (s : State) (i : Nat) (f : Step → Step) : (s.modStep i f).cores = s.cores := rfl
@[simp] theorem State.modStep_held (s : State) (i : Nat) (f : Step → Step) : (s.modStep i f).held = s.held := rfl
@[simp] theorem State.modStep_mem (s : State) (i : Nat) (f : Step → Step) : (s.modStep i f).mem = s.mem := rfl
@[simp] theorem State.modStep_board (s : State) (i : Nat) (f : Step → Step) : (s.modStep i f).board = s.board := rfl
@[simp] theorem State.modStep_tb (s : State) (i : Nat) (f : Step → Step) : (s.modStep i f).tb = s.tb := rfl
@[simp] theorem State.modStep_trans (s : State) (i : Nat) (f : Step → Step) : (s.modStep i f).trans = s.trans := rfl
@[simp] theorem State.modStep_fe (s : State) (i : Nat) (f : Step → Step) : (s.modStep i f).fe = s.fe := rfl
@[simp] theorem State.modStep_streams (s : State) (i : Nat) (f : Step → Step) : (s.modStep i f).streams = s.streams := rfl
@[simp] theorem State.modStep_encoders (s : State) (i : Nat) (f : Step → Step) : (s.modStep i f).encoders = s.encoders := rfl
@[simp] theorem State.modStep_ras (s : State) (i : Nat) (f : Step → Step) : (s.modStep i f).ras = s.ras := rfl
@[simp] theorem State.modStep_fab (s : State) (i : Nat) (f : Step → Step) : (s.modStep i f).fab = s.fab := rfl
@[simp] theorem State.modStep_notes (s : State) (i : Nat) (f : Step → Step) : (s.modStep i f).notes = s.notes := rfl
@[simp] theorem State.modStep_agenda (s : State) (i : Nat) (f : Step → Step) : (s.modStep i f).agenda = s.agenda := rfl
@[simp] theorem State.modStep_focusCore (s : State) (i : Nat) (f : Step → Step) : (s.modStep i f).focusCore = s.focusCore := rfl
@[simp] theorem State.modStep_focusStrand (s : State) (i : Nat) (f : Step → Step) : (s.modStep i f).focusStrand = s.focusStrand := rfl
@[simp] theorem State.modStep_fresh (s : State) (i : Nat) (f : Step → Step) : (s.modStep i f).fresh = s.fresh := rfl
@[simp] theorem State.modOp_cores (s : State) (q : Nat) (f : Operator → Operator) : (s.modOp q f).cores = s.cores := rfl
@[simp] theorem State.modOp_held (s : State) (q : Nat) (f : Operator → Operator) : (s.modOp q f).held = s.held := rfl
@[simp] theorem State.modOp_mem (s : State) (q : Nat) (f : Operator → Operator) : (s.modOp q f).mem = s.mem := rfl
@[simp] theorem State.modOp_board (s : State) (q : Nat) (f : Operator → Operator) : (s.modOp q f).board = s.board := rfl
@[simp] theorem State.modOp_tb (s : State) (q : Nat) (f : Operator → Operator) : (s.modOp q f).tb = s.tb := rfl
@[simp] theorem State.modOp_trans (s : State) (q : Nat) (f : Operator → Operator) : (s.modOp q f).trans = s.trans := rfl
@[simp] theorem State.modOp_fe (s : State) (q : Nat) (f : Operator → Operator) : (s.modOp q f).fe = s.fe := rfl
@[simp] theorem State.modOp_streams (s : State) (q : Nat) (f : Operator → Operator) : (s.modOp q f).streams = s.streams := rfl
@[simp] theorem State.modOp_encoders (s : State) (q : Nat) (f : Operator → Operator) : (s.modOp q f).encoders = s.encoders := rfl
@[simp] theorem State.modOp_ras (s : State) (q : Nat) (f : Operator → Operator) : (s.modOp q f).ras = s.ras := rfl
@[simp] theorem State.modOp_fab (s : State) (q : Nat) (f : Operator → Operator) : (s.modOp q f).fab = s.fab := rfl
@[simp] theorem State.modOp_notes (s : State) (q : Nat) (f : Operator → Operator) : (s.modOp q f).notes = s.notes := rfl
@[simp] theorem State.modOp_agenda (s : State) (q : Nat) (f : Operator → Operator) : (s.modOp q f).agenda = s.agenda := rfl
@[simp] theorem State.modOp_focusCore (s : State) (q : Nat) (f : Operator → Operator) : (s.modOp q f).focusCore = s.focusCore := rfl
@[simp] theorem State.modOp_focusStrand (s : State) (q : Nat) (f : Operator → Operator) : (s.modOp q f).focusStrand = s.focusStrand := rfl
@[simp] theorem State.modOp_fresh (s : State) (q : Nat) (f : Operator → Operator) : (s.modOp q f).fresh = s.fresh := rfl
@[simp] theorem State.sign_held (s : State) (n : Fin 128) (k a : Nat) (b : List Byte) : (s.sign n k a b).held = s.held := rfl
@[simp] theorem State.sign_mem (s : State) (n : Fin 128) (k a : Nat) (b : List Byte) : (s.sign n k a b).mem = s.mem := rfl
@[simp] theorem State.sign_board (s : State) (n : Fin 128) (k a : Nat) (b : List Byte) : (s.sign n k a b).board = s.board := rfl
@[simp] theorem State.sign_tb (s : State) (n : Fin 128) (k a : Nat) (b : List Byte) : (s.sign n k a b).tb = s.tb := rfl
@[simp] theorem State.sign_trans (s : State) (n : Fin 128) (k a : Nat) (b : List Byte) : (s.sign n k a b).trans = s.trans := rfl
@[simp] theorem State.sign_fe (s : State) (n : Fin 128) (k a : Nat) (b : List Byte) : (s.sign n k a b).fe = s.fe := rfl
@[simp] theorem State.sign_streams (s : State) (n : Fin 128) (k a : Nat) (b : List Byte) : (s.sign n k a b).streams = s.streams := rfl
@[simp] theorem State.sign_encoders (s : State) (n : Fin 128) (k a : Nat) (b : List Byte) : (s.sign n k a b).encoders = s.encoders := rfl
@[simp] theorem State.sign_sched (s : State) (n : Fin 128) (k a : Nat) (b : List Byte) : (s.sign n k a b).sched = s.sched := rfl
@[simp] theorem State.sign_ras (s : State) (n : Fin 128) (k a : Nat) (b : List Byte) : (s.sign n k a b).ras = s.ras := rfl
@[simp] theorem State.sign_fab (s : State) (n : Fin 128) (k a : Nat) (b : List Byte) : (s.sign n k a b).fab = s.fab := rfl
@[simp] theorem State.sign_notes (s : State) (n : Fin 128) (k a : Nat) (b : List Byte) : (s.sign n k a b).notes = s.notes := rfl
@[simp] theorem State.sign_agenda (s : State) (n : Fin 128) (k a : Nat) (b : List Byte) : (s.sign n k a b).agenda = s.agenda := rfl
@[simp] theorem State.sign_focusCore (s : State) (n : Fin 128) (k a : Nat) (b : List Byte) : (s.sign n k a b).focusCore = s.focusCore := rfl
@[simp] theorem State.sign_focusStrand (s : State) (n : Fin 128) (k a : Nat) (b : List Byte) : (s.sign n k a b).focusStrand = s.focusStrand := rfl
@[simp] theorem State.sign_fresh (s : State) (n : Fin 128) (k a : Nat) (b : List Byte) : (s.sign n k a b).fresh = s.fresh := rfl
@[simp] theorem State.meetAt_held (s : State) (n : Fin 128) (p a : Nat) : (s.meetAt n p a).held = s.held := by
  unfold State.meetAt; split
  · rfl
  · unfold State.logDemand State.logRead State.log; rfl
@[simp] theorem State.meetAt_tb (s : State) (n : Fin 128) (p a : Nat) : (s.meetAt n p a).tb = s.tb := by
  unfold State.meetAt; split
  · rfl
  · unfold State.logDemand State.logRead State.log; rfl
@[simp] theorem State.meetAt_trans (s : State) (n : Fin 128) (p a : Nat) : (s.meetAt n p a).trans = s.trans := by
  unfold State.meetAt; split
  · rfl
  · unfold State.logDemand State.logRead State.log; rfl
@[simp] theorem State.meetAt_fe (s : State) (n : Fin 128) (p a : Nat) : (s.meetAt n p a).fe = s.fe := by
  unfold State.meetAt; split
  · rfl
  · unfold State.logDemand State.logRead State.log; rfl
@[simp] theorem State.meetAt_streams (s : State) (n : Fin 128) (p a : Nat) : (s.meetAt n p a).streams = s.streams := by
  unfold State.meetAt; split
  · rfl
  · unfold State.logDemand State.logRead State.log; rfl
@[simp] theorem State.meetAt_encoders (s : State) (n : Fin 128) (p a : Nat) : (s.meetAt n p a).encoders = s.encoders := by
  unfold State.meetAt; split
  · rfl
  · unfold State.logDemand State.logRead State.log; rfl
@[simp] theorem State.meetAt_sched (s : State) (n : Fin 128) (p a : Nat) : (s.meetAt n p a).sched = s.sched := by
  unfold State.meetAt; split
  · rfl
  · unfold State.logDemand State.logRead State.log; rfl
@[simp] theorem State.meetAt_fab (s : State) (n : Fin 128) (p a : Nat) : (s.meetAt n p a).fab = s.fab := by
  unfold State.meetAt; split
  · rfl
  · unfold State.logDemand State.logRead State.log; rfl
@[simp] theorem State.meetAt_agenda (s : State) (n : Fin 128) (p a : Nat) : (s.meetAt n p a).agenda = s.agenda := by
  unfold State.meetAt; split
  · rfl
  · unfold State.logDemand State.logRead State.log; rfl
@[simp] theorem State.meetAt_focusCore (s : State) (n : Fin 128) (p a : Nat) : (s.meetAt n p a).focusCore = s.focusCore := by
  unfold State.meetAt; split
  · rfl
  · unfold State.logDemand State.logRead State.log; rfl
@[simp] theorem State.meetAt_focusStrand (s : State) (n : Fin 128) (p a : Nat) : (s.meetAt n p a).focusStrand = s.focusStrand := by
  unfold State.meetAt; split
  · rfl
  · unfold State.logDemand State.logRead State.log; rfl
@[simp] theorem State.stampRecord_held (s : State) (n : Fin 128) (t : Step) (x y : Nat) : (s.stampRecord n t x y).held = s.held := rfl
@[simp] theorem State.stampRecord_mem (s : State) (n : Fin 128) (t : Step) (x y : Nat) : (s.stampRecord n t x y).mem = s.mem := rfl
@[simp] theorem State.stampRecord_board (s : State) (n : Fin 128) (t : Step) (x y : Nat) : (s.stampRecord n t x y).board = s.board := rfl
@[simp] theorem State.stampRecord_tb (s : State) (n : Fin 128) (t : Step) (x y : Nat) : (s.stampRecord n t x y).tb = s.tb := rfl
@[simp] theorem State.stampRecord_trans (s : State) (n : Fin 128) (t : Step) (x y : Nat) : (s.stampRecord n t x y).trans = s.trans := rfl
@[simp] theorem State.stampRecord_fe (s : State) (n : Fin 128) (t : Step) (x y : Nat) : (s.stampRecord n t x y).fe = s.fe := rfl
@[simp] theorem State.stampRecord_streams (s : State) (n : Fin 128) (t : Step) (x y : Nat) : (s.stampRecord n t x y).streams = s.streams := rfl
@[simp] theorem State.stampRecord_encoders (s : State) (n : Fin 128) (t : Step) (x y : Nat) : (s.stampRecord n t x y).encoders = s.encoders := rfl
@[simp] theorem State.stampRecord_sched (s : State) (n : Fin 128) (t : Step) (x y : Nat) : (s.stampRecord n t x y).sched = s.sched := rfl
@[simp] theorem State.stampRecord_ras (s : State) (n : Fin 128) (t : Step) (x y : Nat) : (s.stampRecord n t x y).ras = s.ras := rfl
@[simp] theorem State.stampRecord_fab (s : State) (n : Fin 128) (t : Step) (x y : Nat) : (s.stampRecord n t x y).fab = s.fab := rfl
@[simp] theorem State.stampRecord_notes (s : State) (n : Fin 128) (t : Step) (x y : Nat) : (s.stampRecord n t x y).notes = s.notes := rfl
@[simp] theorem State.stampRecord_agenda (s : State) (n : Fin 128) (t : Step) (x y : Nat) : (s.stampRecord n t x y).agenda = s.agenda := rfl
@[simp] theorem State.stampRecord_focusCore (s : State) (n : Fin 128) (t : Step) (x y : Nat) : (s.stampRecord n t x y).focusCore = s.focusCore := rfl
@[simp] theorem State.stampRecord_focusStrand (s : State) (n : Fin 128) (t : Step) (x y : Nat) : (s.stampRecord n t x y).focusStrand = s.focusStrand := rfl
@[simp] theorem State.stampRecord_fresh (s : State) (n : Fin 128) (t : Step) (x y : Nat) : (s.stampRecord n t x y).fresh = s.fresh := rfl
@[simp] theorem State.modQd_cores (s : State) (q : Nat) (f : BitVec 2048 → BitVec 2048) : (s.modQd q f).cores = s.cores := by unfold State.modQd; rfl
@[simp] theorem State.modQd_held (s : State) (q : Nat) (f : BitVec 2048 → BitVec 2048) : (s.modQd q f).held = s.held := by unfold State.modQd; rfl
@[simp] theorem State.modQd_board (s : State) (q : Nat) (f : BitVec 2048 → BitVec 2048) : (s.modQd q f).board = s.board := by unfold State.modQd; rfl
@[simp] theorem State.modQd_tb (s : State) (q : Nat) (f : BitVec 2048 → BitVec 2048) : (s.modQd q f).tb = s.tb := by unfold State.modQd; rfl
@[simp] theorem State.modQd_trans (s : State) (q : Nat) (f : BitVec 2048 → BitVec 2048) : (s.modQd q f).trans = s.trans := by unfold State.modQd; rfl
@[simp] theorem State.modQd_fe (s : State) (q : Nat) (f : BitVec 2048 → BitVec 2048) : (s.modQd q f).fe = s.fe := by unfold State.modQd; rfl
@[simp] theorem State.modQd_streams (s : State) (q : Nat) (f : BitVec 2048 → BitVec 2048) : (s.modQd q f).streams = s.streams := by unfold State.modQd; rfl
@[simp] theorem State.modQd_encoders (s : State) (q : Nat) (f : BitVec 2048 → BitVec 2048) : (s.modQd q f).encoders = s.encoders := by unfold State.modQd; rfl
@[simp] theorem State.modQd_sched (s : State) (q : Nat) (f : BitVec 2048 → BitVec 2048) : (s.modQd q f).sched = s.sched := by unfold State.modQd; rfl
@[simp] theorem State.modQd_fab (s : State) (q : Nat) (f : BitVec 2048 → BitVec 2048) : (s.modQd q f).fab = s.fab := by unfold State.modQd; rfl
@[simp] theorem State.modQd_notes (s : State) (q : Nat) (f : BitVec 2048 → BitVec 2048) : (s.modQd q f).notes = s.notes := by unfold State.modQd; rfl
@[simp] theorem State.modQd_agenda (s : State) (q : Nat) (f : BitVec 2048 → BitVec 2048) : (s.modQd q f).agenda = s.agenda := by unfold State.modQd; rfl
@[simp] theorem State.modQd_focusCore (s : State) (q : Nat) (f : BitVec 2048 → BitVec 2048) : (s.modQd q f).focusCore = s.focusCore := by unfold State.modQd; rfl
@[simp] theorem State.modQd_focusStrand (s : State) (q : Nat) (f : BitVec 2048 → BitVec 2048) : (s.modQd q f).focusStrand = s.focusStrand := by unfold State.modQd; rfl
@[simp] theorem State.modQd_fresh (s : State) (q : Nat) (f : BitVec 2048 → BitVec 2048) : (s.modQd q f).fresh = s.fresh := by unfold State.modQd; rfl
@[simp] theorem State.setWindows_cores (s : State) (m : Nat) (w : Vector (BitVec 128) 8) : (s.setWindows m w).cores = s.cores := rfl
@[simp] theorem State.setWindows_held (s : State) (m : Nat) (w : Vector (BitVec 128) 8) : (s.setWindows m w).held = s.held := rfl
@[simp] theorem State.setWindows_mem (s : State) (m : Nat) (w : Vector (BitVec 128) 8) : (s.setWindows m w).mem = s.mem := rfl
@[simp] theorem State.setWindows_board (s : State) (m : Nat) (w : Vector (BitVec 128) 8) : (s.setWindows m w).board = s.board := rfl
@[simp] theorem State.setWindows_tb (s : State) (m : Nat) (w : Vector (BitVec 128) 8) : (s.setWindows m w).tb = s.tb := rfl
@[simp] theorem State.setWindows_fe (s : State) (m : Nat) (w : Vector (BitVec 128) 8) : (s.setWindows m w).fe = s.fe := rfl
@[simp] theorem State.setWindows_streams (s : State) (m : Nat) (w : Vector (BitVec 128) 8) : (s.setWindows m w).streams = s.streams := rfl
@[simp] theorem State.setWindows_encoders (s : State) (m : Nat) (w : Vector (BitVec 128) 8) : (s.setWindows m w).encoders = s.encoders := rfl
@[simp] theorem State.setWindows_sched (s : State) (m : Nat) (w : Vector (BitVec 128) 8) : (s.setWindows m w).sched = s.sched := rfl
@[simp] theorem State.setWindows_ras (s : State) (m : Nat) (w : Vector (BitVec 128) 8) : (s.setWindows m w).ras = s.ras := rfl
@[simp] theorem State.setWindows_fab (s : State) (m : Nat) (w : Vector (BitVec 128) 8) : (s.setWindows m w).fab = s.fab := rfl
@[simp] theorem State.setWindows_notes (s : State) (m : Nat) (w : Vector (BitVec 128) 8) : (s.setWindows m w).notes = s.notes := rfl
@[simp] theorem State.setWindows_agenda (s : State) (m : Nat) (w : Vector (BitVec 128) 8) : (s.setWindows m w).agenda = s.agenda := rfl
@[simp] theorem State.setWindows_focusCore (s : State) (m : Nat) (w : Vector (BitVec 128) 8) : (s.setWindows m w).focusCore = s.focusCore := rfl
@[simp] theorem State.setWindows_focusStrand (s : State) (m : Nat) (w : Vector (BitVec 128) 8) : (s.setWindows m w).focusStrand = s.focusStrand := rfl
@[simp] theorem State.setWindows_fresh (s : State) (m : Nat) (w : Vector (BitVec 128) 8) : (s.setWindows m w).fresh = s.fresh := rfl
@[simp] theorem State.log_cores (s : State) (r : LogRec) : (s.log r).cores = s.cores := by unfold State.log; rfl
@[simp] theorem State.log_held (s : State) (r : LogRec) : (s.log r).held = s.held := by unfold State.log; rfl
@[simp] theorem State.log_tb (s : State) (r : LogRec) : (s.log r).tb = s.tb := by unfold State.log; rfl
@[simp] theorem State.log_trans (s : State) (r : LogRec) : (s.log r).trans = s.trans := by unfold State.log; rfl
@[simp] theorem State.log_fe (s : State) (r : LogRec) : (s.log r).fe = s.fe := by unfold State.log; rfl
@[simp] theorem State.log_streams (s : State) (r : LogRec) : (s.log r).streams = s.streams := by unfold State.log; rfl
@[simp] theorem State.log_encoders (s : State) (r : LogRec) : (s.log r).encoders = s.encoders := by unfold State.log; rfl
@[simp] theorem State.log_sched (s : State) (r : LogRec) : (s.log r).sched = s.sched := by unfold State.log; rfl
@[simp] theorem State.log_fab (s : State) (r : LogRec) : (s.log r).fab = s.fab := by unfold State.log; rfl
@[simp] theorem State.log_notes (s : State) (r : LogRec) : (s.log r).notes = s.notes := by unfold State.log; rfl
@[simp] theorem State.log_agenda (s : State) (r : LogRec) : (s.log r).agenda = s.agenda := by unfold State.log; rfl
@[simp] theorem State.log_focusCore (s : State) (r : LogRec) : (s.log r).focusCore = s.focusCore := by unfold State.log; rfl
@[simp] theorem State.log_focusStrand (s : State) (r : LogRec) : (s.log r).focusStrand = s.focusStrand := by unfold State.log; rfl
@[simp] theorem State.log_fresh (s : State) (r : LogRec) : (s.log r).fresh = s.fresh := by unfold State.log; rfl

/-! ### Updates of a core -/

@[simp] theorem Core.setWait_phase (c : Core) (q : Fin 4) (w : Option Wait) : (c.setWait q w).phase = c.phase := rfl
@[simp] theorem Core.setWait_mbx (c : Core) (q : Fin 4) (w : Option Wait) : (c.setWait q w).mbx = c.mbx := rfl
@[simp] theorem Core.setWait_stepRec (c : Core) (q : Fin 4) (w : Option Wait) : (c.setWait q w).stepRec = c.stepRec := rfl
@[simp] theorem Core.setWait_imem (c : Core) (q : Fin 4) (w : Option Wait) : (c.setWait q w).imem = c.imem := rfl
@[simp] theorem Core.setWait_img (c : Core) (q : Fin 4) (w : Option Wait) : (c.setWait q w).img = c.img := rfl
@[simp] theorem Core.setWait_ctx (c : Core) (q : Fin 4) (w : Option Wait) : (c.setWait q w).ctx = c.ctx := rfl
@[simp] theorem Core.setWait_pc (c : Core) (q : Fin 4) (w : Option Wait) : (c.setWait q w).pc = c.pc := rfl
@[simp] theorem Core.setWait_po (c : Core) (q : Fin 4) (w : Option Wait) : (c.setWait q w).po = c.po := rfl
@[simp] theorem Core.setWait_seq (c : Core) (q : Fin 4) (w : Option Wait) : (c.setWait q w).seq = c.seq := rfl
@[simp] theorem Core.setWait_qL (c : Core) (q : Fin 4) (w : Option Wait) : (c.setWait q w).qL = c.qL := rfl
@[simp] theorem Core.setWait_qX (c : Core) (q : Fin 4) (w : Option Wait) : (c.setWait q w).qX = c.qX := rfl
@[simp] theorem Core.setWait_qS (c : Core) (q : Fin 4) (w : Option Wait) : (c.setWait q w).qS = c.qS := rfl
@[simp] theorem Core.setWait_heldC (c : Core) (q : Fin 4) (w : Option Wait) : (c.setWait q w).heldC = c.heldC := rfl
@[simp] theorem Core.setWait_push (c : Core) (q : Fin 4) (w : Option Wait) : (c.setWait q w).push = c.push := rfl
@[simp] theorem Core.setWait_pop (c : Core) (q : Fin 4) (w : Option Wait) : (c.setWait q w).pop = c.pop := rfl
@[simp] theorem Core.setWait_regs (c : Core) (q : Fin 4) (w : Option Wait) : (c.setWait q w).regs = c.regs := rfl
@[simp] theorem Core.setWait_sys (c : Core) (q : Fin 4) (w : Option Wait) : (c.setWait q w).sys = c.sys := rfl
@[simp] theorem Core.setWait_mat (c : Core) (q : Fin 4) (w : Option Wait) : (c.setWait q w).mat = c.mat := rfl
@[simp] theorem Core.setWait_eng (c : Core) (q : Fin 4) (w : Option Wait) : (c.setWait q w).eng = c.eng := rfl
@[simp] theorem Core.setWait_hnd (c : Core) (q : Fin 4) (w : Option Wait) : (c.setWait q w).hnd = c.hnd := rfl
@[simp] theorem Core.setWait_arrivals (c : Core) (q : Fin 4) (w : Option Wait) : (c.setWait q w).arrivals = c.arrivals := rfl
@[simp] theorem Core.setWait_enqOffer (c : Core) (q : Fin 4) (w : Option Wait) : (c.setWait q w).enqOffer = c.enqOffer := rfl
@[simp] theorem Core.setWait_enqAnswer (c : Core) (q : Fin 4) (w : Option Wait) : (c.setWait q w).enqAnswer = c.enqAnswer := rfl
@[simp] theorem Core.setWait_mem (c : Core) (q : Fin 4) (w : Option Wait) : (c.setWait q w).mem = c.mem := rfl
@[simp] theorem Core.setWait_tile (c : Core) (q : Fin 4) (w : Option Wait) : (c.setWait q w).tile = c.tile := rfl
@[simp] theorem Core.setWait_trap (c : Core) (q : Fin 4) (w : Option Wait) : (c.setWait q w).trap = c.trap := rfl
@[simp] theorem Core.setWait_arrdrop (c : Core) (q : Fin 4) (w : Option Wait) : (c.setWait q w).arrdrop = c.arrdrop := rfl
@[simp] theorem Core.setWait_loreplay (c : Core) (q : Fin 4) (w : Option Wait) : (c.setWait q w).loreplay = c.loreplay := rfl
@[simp] theorem Core.setWait_parity (c : Core) (q : Fin 4) (w : Option Wait) : (c.setWait q w).parity = c.parity := rfl
@[simp] theorem Core.setWait_poison (c : Core) (q : Fin 4) (w : Option Wait) : (c.setWait q w).poison = c.poison := rfl
@[simp] theorem Core.setWait_replay (c : Core) (q : Fin 4) (w : Option Wait) : (c.setWait q w).replay = c.replay := rfl
@[simp] theorem Core.setWait_sig (c : Core) (q : Fin 4) (w : Option Wait) : (c.setWait q w).sig = c.sig := rfl
@[simp] theorem Core.setWait_replayable (c : Core) (q : Fin 4) (w : Option Wait) : (c.setWait q w).replayable = c.replayable := rfl
@[simp] theorem Core.setWait_widths (c : Core) (q : Fin 4) (w : Option Wait) : (c.setWait q w).widths = c.widths := rfl
@[simp] theorem Core.setWait_clean (c : Core) (q : Fin 4) (w : Option Wait) : (c.setWait q w).clean = c.clean := rfl
@[simp] theorem Core.setWait_lastRegion (c : Core) (q : Fin 4) (w : Option Wait) : (c.setWait q w).lastRegion = c.lastRegion := rfl
@[simp] theorem Core.setWait_lastOp (c : Core) (q : Fin 4) (w : Option Wait) : (c.setWait q w).lastOp = c.lastOp := rfl
@[simp] theorem Core.setWait_carryOk (c : Core) (q : Fin 4) (w : Option Wait) : (c.setWait q w).carryOk = c.carryOk := rfl
@[simp] theorem Core.setWait_loading (c : Core) (q : Fin 4) (w : Option Wait) : (c.setWait q w).loading = c.loading := rfl
@[simp] theorem Core.setWait_idleSince (c : Core) (q : Fin 4) (w : Option Wait) : (c.setWait q w).idleSince = c.idleSince := rfl
@[simp] theorem Core.setWait_saving (c : Core) (q : Fin 4) (w : Option Wait) : (c.setWait q w).saving = c.saving := rfl
@[simp] theorem Core.setWait_uePa (c : Core) (q : Fin 4) (w : Option Wait) : (c.setWait q w).uePa = c.uePa := rfl
@[simp] theorem Core.setWait_origins (c : Core) (q : Fin 4) (w : Option Wait) : (c.setWait q w).origins = c.origins := rfl
@[simp] theorem Core.setWait_resumePhase (c : Core) (q : Fin 4) (w : Option Wait) : (c.setWait q w).resumePhase = c.resumePhase := rfl
@[simp] theorem Core.setWait_saveAt (c : Core) (q : Fin 4) (w : Option Wait) : (c.setWait q w).saveAt = c.saveAt := rfl
@[simp] theorem Core.setWait_shown (c : Core) (q : Fin 4) (w : Option Wait) : (c.setWait q w).shown = c.shown := rfl
@[simp] theorem Core.setWait_ueStrand (c : Core) (q : Fin 4) (w : Option Wait) : (c.setWait q w).ueStrand = c.ueStrand := rfl
@[simp] theorem Core.setWait_popped (c : Core) (q : Fin 4) (w : Option Wait) : (c.setWait q w).popped = c.popped := rfl
@[simp] theorem Core.setHnd_phase (c : Core) (h : Fin 3) (x : Handler) : (c.setHnd h x).phase = c.phase := rfl
@[simp] theorem Core.setHnd_mbx (c : Core) (h : Fin 3) (x : Handler) : (c.setHnd h x).mbx = c.mbx := rfl
@[simp] theorem Core.setHnd_stepRec (c : Core) (h : Fin 3) (x : Handler) : (c.setHnd h x).stepRec = c.stepRec := rfl
@[simp] theorem Core.setHnd_imem (c : Core) (h : Fin 3) (x : Handler) : (c.setHnd h x).imem = c.imem := rfl
@[simp] theorem Core.setHnd_img (c : Core) (h : Fin 3) (x : Handler) : (c.setHnd h x).img = c.img := rfl
@[simp] theorem Core.setHnd_ctx (c : Core) (h : Fin 3) (x : Handler) : (c.setHnd h x).ctx = c.ctx := rfl
@[simp] theorem Core.setHnd_pc (c : Core) (h : Fin 3) (x : Handler) : (c.setHnd h x).pc = c.pc := rfl
@[simp] theorem Core.setHnd_po (c : Core) (h : Fin 3) (x : Handler) : (c.setHnd h x).po = c.po := rfl
@[simp] theorem Core.setHnd_seq (c : Core) (h : Fin 3) (x : Handler) : (c.setHnd h x).seq = c.seq := rfl
@[simp] theorem Core.setHnd_qL (c : Core) (h : Fin 3) (x : Handler) : (c.setHnd h x).qL = c.qL := rfl
@[simp] theorem Core.setHnd_qX (c : Core) (h : Fin 3) (x : Handler) : (c.setHnd h x).qX = c.qX := rfl
@[simp] theorem Core.setHnd_qS (c : Core) (h : Fin 3) (x : Handler) : (c.setHnd h x).qS = c.qS := rfl
@[simp] theorem Core.setHnd_heldC (c : Core) (h : Fin 3) (x : Handler) : (c.setHnd h x).heldC = c.heldC := rfl
@[simp] theorem Core.setHnd_waits (c : Core) (h : Fin 3) (x : Handler) : (c.setHnd h x).waits = c.waits := rfl
@[simp] theorem Core.setHnd_push (c : Core) (h : Fin 3) (x : Handler) : (c.setHnd h x).push = c.push := rfl
@[simp] theorem Core.setHnd_pop (c : Core) (h : Fin 3) (x : Handler) : (c.setHnd h x).pop = c.pop := rfl
@[simp] theorem Core.setHnd_regs (c : Core) (h : Fin 3) (x : Handler) : (c.setHnd h x).regs = c.regs := rfl
@[simp] theorem Core.setHnd_sys (c : Core) (h : Fin 3) (x : Handler) : (c.setHnd h x).sys = c.sys := rfl
@[simp] theorem Core.setHnd_mat (c : Core) (h : Fin 3) (x : Handler) : (c.setHnd h x).mat = c.mat := rfl
@[simp] theorem Core.setHnd_eng (c : Core) (h : Fin 3) (x : Handler) : (c.setHnd h x).eng = c.eng := rfl
@[simp] theorem Core.setHnd_arrivals (c : Core) (h : Fin 3) (x : Handler) : (c.setHnd h x).arrivals = c.arrivals := rfl
@[simp] theorem Core.setHnd_enqOffer (c : Core) (h : Fin 3) (x : Handler) : (c.setHnd h x).enqOffer = c.enqOffer := rfl
@[simp] theorem Core.setHnd_enqAnswer (c : Core) (h : Fin 3) (x : Handler) : (c.setHnd h x).enqAnswer = c.enqAnswer := rfl
@[simp] theorem Core.setHnd_mem (c : Core) (h : Fin 3) (x : Handler) : (c.setHnd h x).mem = c.mem := rfl
@[simp] theorem Core.setHnd_tile (c : Core) (h : Fin 3) (x : Handler) : (c.setHnd h x).tile = c.tile := rfl
@[simp] theorem Core.setHnd_trap (c : Core) (h : Fin 3) (x : Handler) : (c.setHnd h x).trap = c.trap := rfl
@[simp] theorem Core.setHnd_arrdrop (c : Core) (h : Fin 3) (x : Handler) : (c.setHnd h x).arrdrop = c.arrdrop := rfl
@[simp] theorem Core.setHnd_loreplay (c : Core) (h : Fin 3) (x : Handler) : (c.setHnd h x).loreplay = c.loreplay := rfl
@[simp] theorem Core.setHnd_parity (c : Core) (h : Fin 3) (x : Handler) : (c.setHnd h x).parity = c.parity := rfl
@[simp] theorem Core.setHnd_poison (c : Core) (h : Fin 3) (x : Handler) : (c.setHnd h x).poison = c.poison := rfl
@[simp] theorem Core.setHnd_replay (c : Core) (h : Fin 3) (x : Handler) : (c.setHnd h x).replay = c.replay := rfl
@[simp] theorem Core.setHnd_sig (c : Core) (h : Fin 3) (x : Handler) : (c.setHnd h x).sig = c.sig := rfl
@[simp] theorem Core.setHnd_replayable (c : Core) (h : Fin 3) (x : Handler) : (c.setHnd h x).replayable = c.replayable := rfl
@[simp] theorem Core.setHnd_widths (c : Core) (h : Fin 3) (x : Handler) : (c.setHnd h x).widths = c.widths := rfl
@[simp] theorem Core.setHnd_clean (c : Core) (h : Fin 3) (x : Handler) : (c.setHnd h x).clean = c.clean := rfl
@[simp] theorem Core.setHnd_lastRegion (c : Core) (h : Fin 3) (x : Handler) : (c.setHnd h x).lastRegion = c.lastRegion := rfl
@[simp] theorem Core.setHnd_lastOp (c : Core) (h : Fin 3) (x : Handler) : (c.setHnd h x).lastOp = c.lastOp := rfl
@[simp] theorem Core.setHnd_carryOk (c : Core) (h : Fin 3) (x : Handler) : (c.setHnd h x).carryOk = c.carryOk := rfl
@[simp] theorem Core.setHnd_loading (c : Core) (h : Fin 3) (x : Handler) : (c.setHnd h x).loading = c.loading := rfl
@[simp] theorem Core.setHnd_idleSince (c : Core) (h : Fin 3) (x : Handler) : (c.setHnd h x).idleSince = c.idleSince := rfl
@[simp] theorem Core.setHnd_saving (c : Core) (h : Fin 3) (x : Handler) : (c.setHnd h x).saving = c.saving := rfl
@[simp] theorem Core.setHnd_uePa (c : Core) (h : Fin 3) (x : Handler) : (c.setHnd h x).uePa = c.uePa := rfl
@[simp] theorem Core.setHnd_origins (c : Core) (h : Fin 3) (x : Handler) : (c.setHnd h x).origins = c.origins := rfl
@[simp] theorem Core.setHnd_resumePhase (c : Core) (h : Fin 3) (x : Handler) : (c.setHnd h x).resumePhase = c.resumePhase := rfl
@[simp] theorem Core.setHnd_saveAt (c : Core) (h : Fin 3) (x : Handler) : (c.setHnd h x).saveAt = c.saveAt := rfl
@[simp] theorem Core.setHnd_shown (c : Core) (h : Fin 3) (x : Handler) : (c.setHnd h x).shown = c.shown := rfl
@[simp] theorem Core.setHnd_ueStrand (c : Core) (h : Fin 3) (x : Handler) : (c.setHnd h x).ueStrand = c.ueStrand := rfl
@[simp] theorem Core.setHnd_popped (c : Core) (h : Fin 3) (x : Handler) : (c.setHnd h x).popped = c.popped := rfl
@[simp] theorem Core.setVrow_phase (c : Core) (n i : Nat) (x : VRow) : (c.setVrow n i x).phase = c.phase := rfl
@[simp] theorem Core.setVrow_mbx (c : Core) (n i : Nat) (x : VRow) : (c.setVrow n i x).mbx = c.mbx := rfl
@[simp] theorem Core.setVrow_stepRec (c : Core) (n i : Nat) (x : VRow) : (c.setVrow n i x).stepRec = c.stepRec := rfl
@[simp] theorem Core.setVrow_imem (c : Core) (n i : Nat) (x : VRow) : (c.setVrow n i x).imem = c.imem := rfl
@[simp] theorem Core.setVrow_img (c : Core) (n i : Nat) (x : VRow) : (c.setVrow n i x).img = c.img := rfl
@[simp] theorem Core.setVrow_ctx (c : Core) (n i : Nat) (x : VRow) : (c.setVrow n i x).ctx = c.ctx := rfl
@[simp] theorem Core.setVrow_pc (c : Core) (n i : Nat) (x : VRow) : (c.setVrow n i x).pc = c.pc := rfl
@[simp] theorem Core.setVrow_po (c : Core) (n i : Nat) (x : VRow) : (c.setVrow n i x).po = c.po := rfl
@[simp] theorem Core.setVrow_seq (c : Core) (n i : Nat) (x : VRow) : (c.setVrow n i x).seq = c.seq := rfl
@[simp] theorem Core.setVrow_qL (c : Core) (n i : Nat) (x : VRow) : (c.setVrow n i x).qL = c.qL := rfl
@[simp] theorem Core.setVrow_qX (c : Core) (n i : Nat) (x : VRow) : (c.setVrow n i x).qX = c.qX := rfl
@[simp] theorem Core.setVrow_qS (c : Core) (n i : Nat) (x : VRow) : (c.setVrow n i x).qS = c.qS := rfl
@[simp] theorem Core.setVrow_heldC (c : Core) (n i : Nat) (x : VRow) : (c.setVrow n i x).heldC = c.heldC := rfl
@[simp] theorem Core.setVrow_waits (c : Core) (n i : Nat) (x : VRow) : (c.setVrow n i x).waits = c.waits := rfl
@[simp] theorem Core.setVrow_push (c : Core) (n i : Nat) (x : VRow) : (c.setVrow n i x).push = c.push := rfl
@[simp] theorem Core.setVrow_pop (c : Core) (n i : Nat) (x : VRow) : (c.setVrow n i x).pop = c.pop := rfl
@[simp] theorem Core.setVrow_sys (c : Core) (n i : Nat) (x : VRow) : (c.setVrow n i x).sys = c.sys := rfl
@[simp] theorem Core.setVrow_mat (c : Core) (n i : Nat) (x : VRow) : (c.setVrow n i x).mat = c.mat := rfl
@[simp] theorem Core.setVrow_eng (c : Core) (n i : Nat) (x : VRow) : (c.setVrow n i x).eng = c.eng := rfl
@[simp] theorem Core.setVrow_hnd (c : Core) (n i : Nat) (x : VRow) : (c.setVrow n i x).hnd = c.hnd := rfl
@[simp] theorem Core.setVrow_arrivals (c : Core) (n i : Nat) (x : VRow) : (c.setVrow n i x).arrivals = c.arrivals := rfl
@[simp] theorem Core.setVrow_enqOffer (c : Core) (n i : Nat) (x : VRow) : (c.setVrow n i x).enqOffer = c.enqOffer := rfl
@[simp] theorem Core.setVrow_enqAnswer (c : Core) (n i : Nat) (x : VRow) : (c.setVrow n i x).enqAnswer = c.enqAnswer := rfl
@[simp] theorem Core.setVrow_mem (c : Core) (n i : Nat) (x : VRow) : (c.setVrow n i x).mem = c.mem := rfl
@[simp] theorem Core.setVrow_tile (c : Core) (n i : Nat) (x : VRow) : (c.setVrow n i x).tile = c.tile := rfl
@[simp] theorem Core.setVrow_trap (c : Core) (n i : Nat) (x : VRow) : (c.setVrow n i x).trap = c.trap := rfl
@[simp] theorem Core.setVrow_arrdrop (c : Core) (n i : Nat) (x : VRow) : (c.setVrow n i x).arrdrop = c.arrdrop := rfl
@[simp] theorem Core.setVrow_loreplay (c : Core) (n i : Nat) (x : VRow) : (c.setVrow n i x).loreplay = c.loreplay := rfl
@[simp] theorem Core.setVrow_parity (c : Core) (n i : Nat) (x : VRow) : (c.setVrow n i x).parity = c.parity := rfl
@[simp] theorem Core.setVrow_poison (c : Core) (n i : Nat) (x : VRow) : (c.setVrow n i x).poison = c.poison := rfl
@[simp] theorem Core.setVrow_replay (c : Core) (n i : Nat) (x : VRow) : (c.setVrow n i x).replay = c.replay := rfl
@[simp] theorem Core.setVrow_sig (c : Core) (n i : Nat) (x : VRow) : (c.setVrow n i x).sig = c.sig := rfl
@[simp] theorem Core.setVrow_replayable (c : Core) (n i : Nat) (x : VRow) : (c.setVrow n i x).replayable = c.replayable := rfl
@[simp] theorem Core.setVrow_widths (c : Core) (n i : Nat) (x : VRow) : (c.setVrow n i x).widths = c.widths := rfl
@[simp] theorem Core.setVrow_clean (c : Core) (n i : Nat) (x : VRow) : (c.setVrow n i x).clean = c.clean := rfl
@[simp] theorem Core.setVrow_lastRegion (c : Core) (n i : Nat) (x : VRow) : (c.setVrow n i x).lastRegion = c.lastRegion := rfl
@[simp] theorem Core.setVrow_lastOp (c : Core) (n i : Nat) (x : VRow) : (c.setVrow n i x).lastOp = c.lastOp := rfl
@[simp] theorem Core.setVrow_carryOk (c : Core) (n i : Nat) (x : VRow) : (c.setVrow n i x).carryOk = c.carryOk := rfl
@[simp] theorem Core.setVrow_loading (c : Core) (n i : Nat) (x : VRow) : (c.setVrow n i x).loading = c.loading := rfl
@[simp] theorem Core.setVrow_idleSince (c : Core) (n i : Nat) (x : VRow) : (c.setVrow n i x).idleSince = c.idleSince := rfl
@[simp] theorem Core.setVrow_saving (c : Core) (n i : Nat) (x : VRow) : (c.setVrow n i x).saving = c.saving := rfl
@[simp] theorem Core.setVrow_uePa (c : Core) (n i : Nat) (x : VRow) : (c.setVrow n i x).uePa = c.uePa := rfl
@[simp] theorem Core.setVrow_origins (c : Core) (n i : Nat) (x : VRow) : (c.setVrow n i x).origins = c.origins := rfl
@[simp] theorem Core.setVrow_resumePhase (c : Core) (n i : Nat) (x : VRow) : (c.setVrow n i x).resumePhase = c.resumePhase := rfl
@[simp] theorem Core.setVrow_saveAt (c : Core) (n i : Nat) (x : VRow) : (c.setVrow n i x).saveAt = c.saveAt := rfl
@[simp] theorem Core.setVrow_shown (c : Core) (n i : Nat) (x : VRow) : (c.setVrow n i x).shown = c.shown := rfl
@[simp] theorem Core.setVrow_ueStrand (c : Core) (n i : Nat) (x : VRow) : (c.setVrow n i x).ueStrand = c.ueStrand := rfl
@[simp] theorem Core.setVrow_popped (c : Core) (n i : Nat) (x : VRow) : (c.setVrow n i x).popped = c.popped := rfl
@[simp] theorem Core.setAcc_phase (c : Core) (n i j : Nat) (x : W32) : (c.setAcc n i j x).phase = c.phase := rfl
@[simp] theorem Core.setAcc_mbx (c : Core) (n i j : Nat) (x : W32) : (c.setAcc n i j x).mbx = c.mbx := rfl
@[simp] theorem Core.setAcc_stepRec (c : Core) (n i j : Nat) (x : W32) : (c.setAcc n i j x).stepRec = c.stepRec := rfl
@[simp] theorem Core.setAcc_imem (c : Core) (n i j : Nat) (x : W32) : (c.setAcc n i j x).imem = c.imem := rfl
@[simp] theorem Core.setAcc_img (c : Core) (n i j : Nat) (x : W32) : (c.setAcc n i j x).img = c.img := rfl
@[simp] theorem Core.setAcc_ctx (c : Core) (n i j : Nat) (x : W32) : (c.setAcc n i j x).ctx = c.ctx := rfl
@[simp] theorem Core.setAcc_pc (c : Core) (n i j : Nat) (x : W32) : (c.setAcc n i j x).pc = c.pc := rfl
@[simp] theorem Core.setAcc_po (c : Core) (n i j : Nat) (x : W32) : (c.setAcc n i j x).po = c.po := rfl
@[simp] theorem Core.setAcc_seq (c : Core) (n i j : Nat) (x : W32) : (c.setAcc n i j x).seq = c.seq := rfl
@[simp] theorem Core.setAcc_qL (c : Core) (n i j : Nat) (x : W32) : (c.setAcc n i j x).qL = c.qL := rfl
@[simp] theorem Core.setAcc_qX (c : Core) (n i j : Nat) (x : W32) : (c.setAcc n i j x).qX = c.qX := rfl
@[simp] theorem Core.setAcc_qS (c : Core) (n i j : Nat) (x : W32) : (c.setAcc n i j x).qS = c.qS := rfl
@[simp] theorem Core.setAcc_heldC (c : Core) (n i j : Nat) (x : W32) : (c.setAcc n i j x).heldC = c.heldC := rfl
@[simp] theorem Core.setAcc_waits (c : Core) (n i j : Nat) (x : W32) : (c.setAcc n i j x).waits = c.waits := rfl
@[simp] theorem Core.setAcc_push (c : Core) (n i j : Nat) (x : W32) : (c.setAcc n i j x).push = c.push := rfl
@[simp] theorem Core.setAcc_pop (c : Core) (n i j : Nat) (x : W32) : (c.setAcc n i j x).pop = c.pop := rfl
@[simp] theorem Core.setAcc_sys (c : Core) (n i j : Nat) (x : W32) : (c.setAcc n i j x).sys = c.sys := rfl
@[simp] theorem Core.setAcc_mat (c : Core) (n i j : Nat) (x : W32) : (c.setAcc n i j x).mat = c.mat := rfl
@[simp] theorem Core.setAcc_eng (c : Core) (n i j : Nat) (x : W32) : (c.setAcc n i j x).eng = c.eng := rfl
@[simp] theorem Core.setAcc_hnd (c : Core) (n i j : Nat) (x : W32) : (c.setAcc n i j x).hnd = c.hnd := rfl
@[simp] theorem Core.setAcc_arrivals (c : Core) (n i j : Nat) (x : W32) : (c.setAcc n i j x).arrivals = c.arrivals := rfl
@[simp] theorem Core.setAcc_enqOffer (c : Core) (n i j : Nat) (x : W32) : (c.setAcc n i j x).enqOffer = c.enqOffer := rfl
@[simp] theorem Core.setAcc_enqAnswer (c : Core) (n i j : Nat) (x : W32) : (c.setAcc n i j x).enqAnswer = c.enqAnswer := rfl
@[simp] theorem Core.setAcc_mem (c : Core) (n i j : Nat) (x : W32) : (c.setAcc n i j x).mem = c.mem := rfl
@[simp] theorem Core.setAcc_tile (c : Core) (n i j : Nat) (x : W32) : (c.setAcc n i j x).tile = c.tile := rfl
@[simp] theorem Core.setAcc_trap (c : Core) (n i j : Nat) (x : W32) : (c.setAcc n i j x).trap = c.trap := rfl
@[simp] theorem Core.setAcc_arrdrop (c : Core) (n i j : Nat) (x : W32) : (c.setAcc n i j x).arrdrop = c.arrdrop := rfl
@[simp] theorem Core.setAcc_loreplay (c : Core) (n i j : Nat) (x : W32) : (c.setAcc n i j x).loreplay = c.loreplay := rfl
@[simp] theorem Core.setAcc_parity (c : Core) (n i j : Nat) (x : W32) : (c.setAcc n i j x).parity = c.parity := rfl
@[simp] theorem Core.setAcc_poison (c : Core) (n i j : Nat) (x : W32) : (c.setAcc n i j x).poison = c.poison := rfl
@[simp] theorem Core.setAcc_replay (c : Core) (n i j : Nat) (x : W32) : (c.setAcc n i j x).replay = c.replay := rfl
@[simp] theorem Core.setAcc_sig (c : Core) (n i j : Nat) (x : W32) : (c.setAcc n i j x).sig = c.sig := rfl
@[simp] theorem Core.setAcc_replayable (c : Core) (n i j : Nat) (x : W32) : (c.setAcc n i j x).replayable = c.replayable := rfl
@[simp] theorem Core.setAcc_widths (c : Core) (n i j : Nat) (x : W32) : (c.setAcc n i j x).widths = c.widths := rfl
@[simp] theorem Core.setAcc_clean (c : Core) (n i j : Nat) (x : W32) : (c.setAcc n i j x).clean = c.clean := rfl
@[simp] theorem Core.setAcc_lastRegion (c : Core) (n i j : Nat) (x : W32) : (c.setAcc n i j x).lastRegion = c.lastRegion := rfl
@[simp] theorem Core.setAcc_lastOp (c : Core) (n i j : Nat) (x : W32) : (c.setAcc n i j x).lastOp = c.lastOp := rfl
@[simp] theorem Core.setAcc_carryOk (c : Core) (n i j : Nat) (x : W32) : (c.setAcc n i j x).carryOk = c.carryOk := rfl
@[simp] theorem Core.setAcc_loading (c : Core) (n i j : Nat) (x : W32) : (c.setAcc n i j x).loading = c.loading := rfl
@[simp] theorem Core.setAcc_idleSince (c : Core) (n i j : Nat) (x : W32) : (c.setAcc n i j x).idleSince = c.idleSince := rfl
@[simp] theorem Core.setAcc_saving (c : Core) (n i j : Nat) (x : W32) : (c.setAcc n i j x).saving = c.saving := rfl
@[simp] theorem Core.setAcc_uePa (c : Core) (n i j : Nat) (x : W32) : (c.setAcc n i j x).uePa = c.uePa := rfl
@[simp] theorem Core.setAcc_origins (c : Core) (n i j : Nat) (x : W32) : (c.setAcc n i j x).origins = c.origins := rfl
@[simp] theorem Core.setAcc_resumePhase (c : Core) (n i j : Nat) (x : W32) : (c.setAcc n i j x).resumePhase = c.resumePhase := rfl
@[simp] theorem Core.setAcc_saveAt (c : Core) (n i j : Nat) (x : W32) : (c.setAcc n i j x).saveAt = c.saveAt := rfl
@[simp] theorem Core.setAcc_shown (c : Core) (n i j : Nat) (x : W32) : (c.setAcc n i j x).shown = c.shown := rfl
@[simp] theorem Core.setAcc_ueStrand (c : Core) (n i j : Nat) (x : W32) : (c.setAcc n i j x).ueStrand = c.ueStrand := rfl
@[simp] theorem Core.setAcc_popped (c : Core) (n i j : Nat) (x : W32) : (c.setAcc n i j x).popped = c.popped := rfl
@[simp] theorem Core.setLc_phase (c : Core) (n : Fin 4) (v : W64) : (c.setLc n v).phase = c.phase := rfl
@[simp] theorem Core.setLc_mbx (c : Core) (n : Fin 4) (v : W64) : (c.setLc n v).mbx = c.mbx := rfl
@[simp] theorem Core.setLc_stepRec (c : Core) (n : Fin 4) (v : W64) : (c.setLc n v).stepRec = c.stepRec := rfl
@[simp] theorem Core.setLc_imem (c : Core) (n : Fin 4) (v : W64) : (c.setLc n v).imem = c.imem := rfl
@[simp] theorem Core.setLc_img (c : Core) (n : Fin 4) (v : W64) : (c.setLc n v).img = c.img := rfl
@[simp] theorem Core.setLc_ctx (c : Core) (n : Fin 4) (v : W64) : (c.setLc n v).ctx = c.ctx := rfl
@[simp] theorem Core.setLc_pc (c : Core) (n : Fin 4) (v : W64) : (c.setLc n v).pc = c.pc := rfl
@[simp] theorem Core.setLc_po (c : Core) (n : Fin 4) (v : W64) : (c.setLc n v).po = c.po := rfl
@[simp] theorem Core.setLc_seq (c : Core) (n : Fin 4) (v : W64) : (c.setLc n v).seq = c.seq := rfl
@[simp] theorem Core.setLc_qL (c : Core) (n : Fin 4) (v : W64) : (c.setLc n v).qL = c.qL := rfl
@[simp] theorem Core.setLc_qX (c : Core) (n : Fin 4) (v : W64) : (c.setLc n v).qX = c.qX := rfl
@[simp] theorem Core.setLc_qS (c : Core) (n : Fin 4) (v : W64) : (c.setLc n v).qS = c.qS := rfl
@[simp] theorem Core.setLc_heldC (c : Core) (n : Fin 4) (v : W64) : (c.setLc n v).heldC = c.heldC := rfl
@[simp] theorem Core.setLc_waits (c : Core) (n : Fin 4) (v : W64) : (c.setLc n v).waits = c.waits := rfl
@[simp] theorem Core.setLc_push (c : Core) (n : Fin 4) (v : W64) : (c.setLc n v).push = c.push := rfl
@[simp] theorem Core.setLc_pop (c : Core) (n : Fin 4) (v : W64) : (c.setLc n v).pop = c.pop := rfl
@[simp] theorem Core.setLc_sys (c : Core) (n : Fin 4) (v : W64) : (c.setLc n v).sys = c.sys := rfl
@[simp] theorem Core.setLc_mat (c : Core) (n : Fin 4) (v : W64) : (c.setLc n v).mat = c.mat := rfl
@[simp] theorem Core.setLc_eng (c : Core) (n : Fin 4) (v : W64) : (c.setLc n v).eng = c.eng := rfl
@[simp] theorem Core.setLc_hnd (c : Core) (n : Fin 4) (v : W64) : (c.setLc n v).hnd = c.hnd := rfl
@[simp] theorem Core.setLc_arrivals (c : Core) (n : Fin 4) (v : W64) : (c.setLc n v).arrivals = c.arrivals := rfl
@[simp] theorem Core.setLc_enqOffer (c : Core) (n : Fin 4) (v : W64) : (c.setLc n v).enqOffer = c.enqOffer := rfl
@[simp] theorem Core.setLc_enqAnswer (c : Core) (n : Fin 4) (v : W64) : (c.setLc n v).enqAnswer = c.enqAnswer := rfl
@[simp] theorem Core.setLc_mem (c : Core) (n : Fin 4) (v : W64) : (c.setLc n v).mem = c.mem := rfl
@[simp] theorem Core.setLc_tile (c : Core) (n : Fin 4) (v : W64) : (c.setLc n v).tile = c.tile := rfl
@[simp] theorem Core.setLc_trap (c : Core) (n : Fin 4) (v : W64) : (c.setLc n v).trap = c.trap := rfl
@[simp] theorem Core.setLc_arrdrop (c : Core) (n : Fin 4) (v : W64) : (c.setLc n v).arrdrop = c.arrdrop := rfl
@[simp] theorem Core.setLc_loreplay (c : Core) (n : Fin 4) (v : W64) : (c.setLc n v).loreplay = c.loreplay := rfl
@[simp] theorem Core.setLc_parity (c : Core) (n : Fin 4) (v : W64) : (c.setLc n v).parity = c.parity := rfl
@[simp] theorem Core.setLc_poison (c : Core) (n : Fin 4) (v : W64) : (c.setLc n v).poison = c.poison := rfl
@[simp] theorem Core.setLc_replay (c : Core) (n : Fin 4) (v : W64) : (c.setLc n v).replay = c.replay := rfl
@[simp] theorem Core.setLc_sig (c : Core) (n : Fin 4) (v : W64) : (c.setLc n v).sig = c.sig := rfl
@[simp] theorem Core.setLc_replayable (c : Core) (n : Fin 4) (v : W64) : (c.setLc n v).replayable = c.replayable := rfl
@[simp] theorem Core.setLc_widths (c : Core) (n : Fin 4) (v : W64) : (c.setLc n v).widths = c.widths := rfl
@[simp] theorem Core.setLc_clean (c : Core) (n : Fin 4) (v : W64) : (c.setLc n v).clean = c.clean := rfl
@[simp] theorem Core.setLc_lastRegion (c : Core) (n : Fin 4) (v : W64) : (c.setLc n v).lastRegion = c.lastRegion := rfl
@[simp] theorem Core.setLc_lastOp (c : Core) (n : Fin 4) (v : W64) : (c.setLc n v).lastOp = c.lastOp := rfl
@[simp] theorem Core.setLc_carryOk (c : Core) (n : Fin 4) (v : W64) : (c.setLc n v).carryOk = c.carryOk := rfl
@[simp] theorem Core.setLc_loading (c : Core) (n : Fin 4) (v : W64) : (c.setLc n v).loading = c.loading := rfl
@[simp] theorem Core.setLc_idleSince (c : Core) (n : Fin 4) (v : W64) : (c.setLc n v).idleSince = c.idleSince := rfl
@[simp] theorem Core.setLc_saving (c : Core) (n : Fin 4) (v : W64) : (c.setLc n v).saving = c.saving := rfl
@[simp] theorem Core.setLc_uePa (c : Core) (n : Fin 4) (v : W64) : (c.setLc n v).uePa = c.uePa := rfl
@[simp] theorem Core.setLc_origins (c : Core) (n : Fin 4) (v : W64) : (c.setLc n v).origins = c.origins := rfl
@[simp] theorem Core.setLc_resumePhase (c : Core) (n : Fin 4) (v : W64) : (c.setLc n v).resumePhase = c.resumePhase := rfl
@[simp] theorem Core.setLc_saveAt (c : Core) (n : Fin 4) (v : W64) : (c.setLc n v).saveAt = c.saveAt := rfl
@[simp] theorem Core.setLc_shown (c : Core) (n : Fin 4) (v : W64) : (c.setLc n v).shown = c.shown := rfl
@[simp] theorem Core.setLc_ueStrand (c : Core) (n : Fin 4) (v : W64) : (c.setLc n v).ueStrand = c.ueStrand := rfl
@[simp] theorem Core.setLc_popped (c : Core) (n : Fin 4) (v : W64) : (c.setLc n v).popped = c.popped := rfl
@[simp] theorem Core.rotate_phase (c : Core) : (c.rotate).phase = c.phase := rfl
@[simp] theorem Core.rotate_mbx (c : Core) : (c.rotate).mbx = c.mbx := rfl
@[simp] theorem Core.rotate_stepRec (c : Core) : (c.rotate).stepRec = c.stepRec := rfl
@[simp] theorem Core.rotate_imem (c : Core) : (c.rotate).imem = c.imem := rfl
@[simp] theorem Core.rotate_img (c : Core) : (c.rotate).img = c.img := rfl
@[simp] theorem Core.rotate_ctx (c : Core) : (c.rotate).ctx = c.ctx := rfl
@[simp] theorem Core.rotate_pc (c : Core) : (c.rotate).pc = c.pc := rfl
@[simp] theorem Core.rotate_po (c : Core) : (c.rotate).po = c.po := rfl
@[simp] theorem Core.rotate_seq (c : Core) : (c.rotate).seq = c.seq := rfl
@[simp] theorem Core.rotate_qL (c : Core) : (c.rotate).qL = c.qL := rfl
@[simp] theorem Core.rotate_qX (c : Core) : (c.rotate).qX = c.qX := rfl
@[simp] theorem Core.rotate_qS (c : Core) : (c.rotate).qS = c.qS := rfl
@[simp] theorem Core.rotate_heldC (c : Core) : (c.rotate).heldC = c.heldC := rfl
@[simp] theorem Core.rotate_waits (c : Core) : (c.rotate).waits = c.waits := rfl
@[simp] theorem Core.rotate_push (c : Core) : (c.rotate).push = c.push := rfl
@[simp] theorem Core.rotate_pop (c : Core) : (c.rotate).pop = c.pop := rfl
@[simp] theorem Core.rotate_regs (c : Core) : (c.rotate).regs = c.regs := rfl
@[simp] theorem Core.rotate_mat (c : Core) : (c.rotate).mat = c.mat := rfl
@[simp] theorem Core.rotate_eng (c : Core) : (c.rotate).eng = c.eng := rfl
@[simp] theorem Core.rotate_hnd (c : Core) : (c.rotate).hnd = c.hnd := rfl
@[simp] theorem Core.rotate_arrivals (c : Core) : (c.rotate).arrivals = c.arrivals := rfl
@[simp] theorem Core.rotate_enqOffer (c : Core) : (c.rotate).enqOffer = c.enqOffer := rfl
@[simp] theorem Core.rotate_enqAnswer (c : Core) : (c.rotate).enqAnswer = c.enqAnswer := rfl
@[simp] theorem Core.rotate_mem (c : Core) : (c.rotate).mem = c.mem := rfl
@[simp] theorem Core.rotate_tile (c : Core) : (c.rotate).tile = c.tile := rfl
@[simp] theorem Core.rotate_trap (c : Core) : (c.rotate).trap = c.trap := rfl
@[simp] theorem Core.rotate_arrdrop (c : Core) : (c.rotate).arrdrop = c.arrdrop := rfl
@[simp] theorem Core.rotate_loreplay (c : Core) : (c.rotate).loreplay = c.loreplay := rfl
@[simp] theorem Core.rotate_parity (c : Core) : (c.rotate).parity = c.parity := rfl
@[simp] theorem Core.rotate_poison (c : Core) : (c.rotate).poison = c.poison := rfl
@[simp] theorem Core.rotate_replay (c : Core) : (c.rotate).replay = c.replay := rfl
@[simp] theorem Core.rotate_sig (c : Core) : (c.rotate).sig = c.sig := rfl
@[simp] theorem Core.rotate_replayable (c : Core) : (c.rotate).replayable = c.replayable := rfl
@[simp] theorem Core.rotate_widths (c : Core) : (c.rotate).widths = c.widths := rfl
@[simp] theorem Core.rotate_clean (c : Core) : (c.rotate).clean = c.clean := rfl
@[simp] theorem Core.rotate_lastRegion (c : Core) : (c.rotate).lastRegion = c.lastRegion := rfl
@[simp] theorem Core.rotate_lastOp (c : Core) : (c.rotate).lastOp = c.lastOp := rfl
@[simp] theorem Core.rotate_carryOk (c : Core) : (c.rotate).carryOk = c.carryOk := rfl
@[simp] theorem Core.rotate_loading (c : Core) : (c.rotate).loading = c.loading := rfl
@[simp] theorem Core.rotate_idleSince (c : Core) : (c.rotate).idleSince = c.idleSince := rfl
@[simp] theorem Core.rotate_saving (c : Core) : (c.rotate).saving = c.saving := rfl
@[simp] theorem Core.rotate_uePa (c : Core) : (c.rotate).uePa = c.uePa := rfl
@[simp] theorem Core.rotate_origins (c : Core) : (c.rotate).origins = c.origins := rfl
@[simp] theorem Core.rotate_resumePhase (c : Core) : (c.rotate).resumePhase = c.resumePhase := rfl
@[simp] theorem Core.rotate_saveAt (c : Core) : (c.rotate).saveAt = c.saveAt := rfl
@[simp] theorem Core.rotate_shown (c : Core) : (c.rotate).shown = c.shown := rfl
@[simp] theorem Core.rotate_ueStrand (c : Core) : (c.rotate).ueStrand = c.ueStrand := rfl
@[simp] theorem Core.rotate_popped (c : Core) : (c.rotate).popped = c.popped := rfl
@[simp] theorem Core.accept_phase (c : Core) (k : Fin 8) : (c.accept k).phase = c.phase := rfl
@[simp] theorem Core.accept_mbx (c : Core) (k : Fin 8) : (c.accept k).mbx = c.mbx := rfl
@[simp] theorem Core.accept_stepRec (c : Core) (k : Fin 8) : (c.accept k).stepRec = c.stepRec := rfl
@[simp] theorem Core.accept_imem (c : Core) (k : Fin 8) : (c.accept k).imem = c.imem := rfl
@[simp] theorem Core.accept_img (c : Core) (k : Fin 8) : (c.accept k).img = c.img := rfl
@[simp] theorem Core.accept_ctx (c : Core) (k : Fin 8) : (c.accept k).ctx = c.ctx := rfl
@[simp] theorem Core.accept_pc (c : Core) (k : Fin 8) : (c.accept k).pc = c.pc := rfl
@[simp] theorem Core.accept_po (c : Core) (k : Fin 8) : (c.accept k).po = c.po := rfl
@[simp] theorem Core.accept_seq (c : Core) (k : Fin 8) : (c.accept k).seq = c.seq := rfl
@[simp] theorem Core.accept_qL (c : Core) (k : Fin 8) : (c.accept k).qL = c.qL := rfl
@[simp] theorem Core.accept_qX (c : Core) (k : Fin 8) : (c.accept k).qX = c.qX := rfl
@[simp] theorem Core.accept_qS (c : Core) (k : Fin 8) : (c.accept k).qS = c.qS := rfl
@[simp] theorem Core.accept_heldC (c : Core) (k : Fin 8) : (c.accept k).heldC = c.heldC := rfl
@[simp] theorem Core.accept_waits (c : Core) (k : Fin 8) : (c.accept k).waits = c.waits := rfl
@[simp] theorem Core.accept_push (c : Core) (k : Fin 8) : (c.accept k).push = c.push := rfl
@[simp] theorem Core.accept_pop (c : Core) (k : Fin 8) : (c.accept k).pop = c.pop := rfl
@[simp] theorem Core.accept_regs (c : Core) (k : Fin 8) : (c.accept k).regs = c.regs := rfl
@[simp] theorem Core.accept_sys (c : Core) (k : Fin 8) : (c.accept k).sys = c.sys := rfl
@[simp] theorem Core.accept_mat (c : Core) (k : Fin 8) : (c.accept k).mat = c.mat := rfl
@[simp] theorem Core.accept_hnd (c : Core) (k : Fin 8) : (c.accept k).hnd = c.hnd := rfl
@[simp] theorem Core.accept_arrivals (c : Core) (k : Fin 8) : (c.accept k).arrivals = c.arrivals := rfl
@[simp] theorem Core.accept_enqOffer (c : Core) (k : Fin 8) : (c.accept k).enqOffer = c.enqOffer := rfl
@[simp] theorem Core.accept_enqAnswer (c : Core) (k : Fin 8) : (c.accept k).enqAnswer = c.enqAnswer := rfl
@[simp] theorem Core.accept_mem (c : Core) (k : Fin 8) : (c.accept k).mem = c.mem := rfl
@[simp] theorem Core.accept_tile (c : Core) (k : Fin 8) : (c.accept k).tile = c.tile := rfl
@[simp] theorem Core.accept_trap (c : Core) (k : Fin 8) : (c.accept k).trap = c.trap := rfl
@[simp] theorem Core.accept_arrdrop (c : Core) (k : Fin 8) : (c.accept k).arrdrop = c.arrdrop := rfl
@[simp] theorem Core.accept_loreplay (c : Core) (k : Fin 8) : (c.accept k).loreplay = c.loreplay := rfl
@[simp] theorem Core.accept_parity (c : Core) (k : Fin 8) : (c.accept k).parity = c.parity := rfl
@[simp] theorem Core.accept_poison (c : Core) (k : Fin 8) : (c.accept k).poison = c.poison := rfl
@[simp] theorem Core.accept_replay (c : Core) (k : Fin 8) : (c.accept k).replay = c.replay := rfl
@[simp] theorem Core.accept_sig (c : Core) (k : Fin 8) : (c.accept k).sig = c.sig := rfl
@[simp] theorem Core.accept_replayable (c : Core) (k : Fin 8) : (c.accept k).replayable = c.replayable := rfl
@[simp] theorem Core.accept_widths (c : Core) (k : Fin 8) : (c.accept k).widths = c.widths := rfl
@[simp] theorem Core.accept_clean (c : Core) (k : Fin 8) : (c.accept k).clean = c.clean := rfl
@[simp] theorem Core.accept_lastRegion (c : Core) (k : Fin 8) : (c.accept k).lastRegion = c.lastRegion := rfl
@[simp] theorem Core.accept_lastOp (c : Core) (k : Fin 8) : (c.accept k).lastOp = c.lastOp := rfl
@[simp] theorem Core.accept_carryOk (c : Core) (k : Fin 8) : (c.accept k).carryOk = c.carryOk := rfl
@[simp] theorem Core.accept_loading (c : Core) (k : Fin 8) : (c.accept k).loading = c.loading := rfl
@[simp] theorem Core.accept_idleSince (c : Core) (k : Fin 8) : (c.accept k).idleSince = c.idleSince := rfl
@[simp] theorem Core.accept_saving (c : Core) (k : Fin 8) : (c.accept k).saving = c.saving := rfl
@[simp] theorem Core.accept_uePa (c : Core) (k : Fin 8) : (c.accept k).uePa = c.uePa := rfl
@[simp] theorem Core.accept_origins (c : Core) (k : Fin 8) : (c.accept k).origins = c.origins := rfl
@[simp] theorem Core.accept_resumePhase (c : Core) (k : Fin 8) : (c.accept k).resumePhase = c.resumePhase := rfl
@[simp] theorem Core.accept_saveAt (c : Core) (k : Fin 8) : (c.accept k).saveAt = c.saveAt := rfl
@[simp] theorem Core.accept_shown (c : Core) (k : Fin 8) : (c.accept k).shown = c.shown := rfl
@[simp] theorem Core.accept_ueStrand (c : Core) (k : Fin 8) : (c.accept k).ueStrand = c.ueStrand := rfl
@[simp] theorem Core.accept_popped (c : Core) (k : Fin 8) : (c.accept k).popped = c.popped := rfl
@[simp] theorem Core.finish_phase (c : Core) (k : Fin 8) (n m : Nat) : (c.finish k n m).phase = c.phase := rfl
@[simp] theorem Core.finish_mbx (c : Core) (k : Fin 8) (n m : Nat) : (c.finish k n m).mbx = c.mbx := rfl
@[simp] theorem Core.finish_stepRec (c : Core) (k : Fin 8) (n m : Nat) : (c.finish k n m).stepRec = c.stepRec := rfl
@[simp] theorem Core.finish_imem (c : Core) (k : Fin 8) (n m : Nat) : (c.finish k n m).imem = c.imem := rfl
@[simp] theorem Core.finish_img (c : Core) (k : Fin 8) (n m : Nat) : (c.finish k n m).img = c.img := rfl
@[simp] theorem Core.finish_ctx (c : Core) (k : Fin 8) (n m : Nat) : (c.finish k n m).ctx = c.ctx := rfl
@[simp] theorem Core.finish_pc (c : Core) (k : Fin 8) (n m : Nat) : (c.finish k n m).pc = c.pc := rfl
@[simp] theorem Core.finish_po (c : Core) (k : Fin 8) (n m : Nat) : (c.finish k n m).po = c.po := rfl
@[simp] theorem Core.finish_seq (c : Core) (k : Fin 8) (n m : Nat) : (c.finish k n m).seq = c.seq := rfl
@[simp] theorem Core.finish_qL (c : Core) (k : Fin 8) (n m : Nat) : (c.finish k n m).qL = c.qL := rfl
@[simp] theorem Core.finish_qX (c : Core) (k : Fin 8) (n m : Nat) : (c.finish k n m).qX = c.qX := rfl
@[simp] theorem Core.finish_qS (c : Core) (k : Fin 8) (n m : Nat) : (c.finish k n m).qS = c.qS := rfl
@[simp] theorem Core.finish_heldC (c : Core) (k : Fin 8) (n m : Nat) : (c.finish k n m).heldC = c.heldC := rfl
@[simp] theorem Core.finish_waits (c : Core) (k : Fin 8) (n m : Nat) : (c.finish k n m).waits = c.waits := rfl
@[simp] theorem Core.finish_push (c : Core) (k : Fin 8) (n m : Nat) : (c.finish k n m).push = c.push := rfl
@[simp] theorem Core.finish_pop (c : Core) (k : Fin 8) (n m : Nat) : (c.finish k n m).pop = c.pop := rfl
@[simp] theorem Core.finish_regs (c : Core) (k : Fin 8) (n m : Nat) : (c.finish k n m).regs = c.regs := rfl
@[simp] theorem Core.finish_sys (c : Core) (k : Fin 8) (n m : Nat) : (c.finish k n m).sys = c.sys := rfl
@[simp] theorem Core.finish_mat (c : Core) (k : Fin 8) (n m : Nat) : (c.finish k n m).mat = c.mat := rfl
@[simp] theorem Core.finish_hnd (c : Core) (k : Fin 8) (n m : Nat) : (c.finish k n m).hnd = c.hnd := rfl
@[simp] theorem Core.finish_arrivals (c : Core) (k : Fin 8) (n m : Nat) : (c.finish k n m).arrivals = c.arrivals := rfl
@[simp] theorem Core.finish_enqOffer (c : Core) (k : Fin 8) (n m : Nat) : (c.finish k n m).enqOffer = c.enqOffer := rfl
@[simp] theorem Core.finish_enqAnswer (c : Core) (k : Fin 8) (n m : Nat) : (c.finish k n m).enqAnswer = c.enqAnswer := rfl
@[simp] theorem Core.finish_tile (c : Core) (k : Fin 8) (n m : Nat) : (c.finish k n m).tile = c.tile := rfl
@[simp] theorem Core.finish_trap (c : Core) (k : Fin 8) (n m : Nat) : (c.finish k n m).trap = c.trap := rfl
@[simp] theorem Core.finish_arrdrop (c : Core) (k : Fin 8) (n m : Nat) : (c.finish k n m).arrdrop = c.arrdrop := rfl
@[simp] theorem Core.finish_loreplay (c : Core) (k : Fin 8) (n m : Nat) : (c.finish k n m).loreplay = c.loreplay := rfl
@[simp] theorem Core.finish_parity (c : Core) (k : Fin 8) (n m : Nat) : (c.finish k n m).parity = c.parity := rfl
@[simp] theorem Core.finish_poison (c : Core) (k : Fin 8) (n m : Nat) : (c.finish k n m).poison = c.poison := rfl
@[simp] theorem Core.finish_replay (c : Core) (k : Fin 8) (n m : Nat) : (c.finish k n m).replay = c.replay := rfl
@[simp] theorem Core.finish_sig (c : Core) (k : Fin 8) (n m : Nat) : (c.finish k n m).sig = c.sig := rfl
@[simp] theorem Core.finish_replayable (c : Core) (k : Fin 8) (n m : Nat) : (c.finish k n m).replayable = c.replayable := rfl
@[simp] theorem Core.finish_widths (c : Core) (k : Fin 8) (n m : Nat) : (c.finish k n m).widths = c.widths := rfl
@[simp] theorem Core.finish_clean (c : Core) (k : Fin 8) (n m : Nat) : (c.finish k n m).clean = c.clean := rfl
@[simp] theorem Core.finish_lastRegion (c : Core) (k : Fin 8) (n m : Nat) : (c.finish k n m).lastRegion = c.lastRegion := rfl
@[simp] theorem Core.finish_lastOp (c : Core) (k : Fin 8) (n m : Nat) : (c.finish k n m).lastOp = c.lastOp := rfl
@[simp] theorem Core.finish_carryOk (c : Core) (k : Fin 8) (n m : Nat) : (c.finish k n m).carryOk = c.carryOk := rfl
@[simp] theorem Core.finish_loading (c : Core) (k : Fin 8) (n m : Nat) : (c.finish k n m).loading = c.loading := rfl
@[simp] theorem Core.finish_idleSince (c : Core) (k : Fin 8) (n m : Nat) : (c.finish k n m).idleSince = c.idleSince := rfl
@[simp] theorem Core.finish_saving (c : Core) (k : Fin 8) (n m : Nat) : (c.finish k n m).saving = c.saving := rfl
@[simp] theorem Core.finish_uePa (c : Core) (k : Fin 8) (n m : Nat) : (c.finish k n m).uePa = c.uePa := rfl
@[simp] theorem Core.finish_origins (c : Core) (k : Fin 8) (n m : Nat) : (c.finish k n m).origins = c.origins := rfl
@[simp] theorem Core.finish_resumePhase (c : Core) (k : Fin 8) (n m : Nat) : (c.finish k n m).resumePhase = c.resumePhase := rfl
@[simp] theorem Core.finish_saveAt (c : Core) (k : Fin 8) (n m : Nat) : (c.finish k n m).saveAt = c.saveAt := rfl
@[simp] theorem Core.finish_shown (c : Core) (k : Fin 8) (n m : Nat) : (c.finish k n m).shown = c.shown := rfl
@[simp] theorem Core.finish_ueStrand (c : Core) (k : Fin 8) (n m : Nat) : (c.finish k n m).ueStrand = c.ueStrand := rfl
@[simp] theorem Core.finish_popped (c : Core) (k : Fin 8) (n m : Nat) : (c.finish k n m).popped = c.popped := rfl
@[simp] theorem Core.raiseClock_phase (c : Core) (t : Nat) : (c.raiseClock t).phase = c.phase := rfl
@[simp] theorem Core.raiseClock_mbx (c : Core) (t : Nat) : (c.raiseClock t).mbx = c.mbx := rfl
@[simp] theorem Core.raiseClock_stepRec (c : Core) (t : Nat) : (c.raiseClock t).stepRec = c.stepRec := rfl
@[simp] theorem Core.raiseClock_imem (c : Core) (t : Nat) : (c.raiseClock t).imem = c.imem := rfl
@[simp] theorem Core.raiseClock_img (c : Core) (t : Nat) : (c.raiseClock t).img = c.img := rfl
@[simp] theorem Core.raiseClock_ctx (c : Core) (t : Nat) : (c.raiseClock t).ctx = c.ctx := rfl
@[simp] theorem Core.raiseClock_pc (c : Core) (t : Nat) : (c.raiseClock t).pc = c.pc := rfl
@[simp] theorem Core.raiseClock_po (c : Core) (t : Nat) : (c.raiseClock t).po = c.po := rfl
@[simp] theorem Core.raiseClock_seq (c : Core) (t : Nat) : (c.raiseClock t).seq = c.seq := rfl
@[simp] theorem Core.raiseClock_qL (c : Core) (t : Nat) : (c.raiseClock t).qL = c.qL := rfl
@[simp] theorem Core.raiseClock_qX (c : Core) (t : Nat) : (c.raiseClock t).qX = c.qX := rfl
@[simp] theorem Core.raiseClock_qS (c : Core) (t : Nat) : (c.raiseClock t).qS = c.qS := rfl
@[simp] theorem Core.raiseClock_heldC (c : Core) (t : Nat) : (c.raiseClock t).heldC = c.heldC := rfl
@[simp] theorem Core.raiseClock_waits (c : Core) (t : Nat) : (c.raiseClock t).waits = c.waits := rfl
@[simp] theorem Core.raiseClock_push (c : Core) (t : Nat) : (c.raiseClock t).push = c.push := rfl
@[simp] theorem Core.raiseClock_pop (c : Core) (t : Nat) : (c.raiseClock t).pop = c.pop := rfl
@[simp] theorem Core.raiseClock_regs (c : Core) (t : Nat) : (c.raiseClock t).regs = c.regs := rfl
@[simp] theorem Core.raiseClock_sys (c : Core) (t : Nat) : (c.raiseClock t).sys = c.sys := rfl
@[simp] theorem Core.raiseClock_mat (c : Core) (t : Nat) : (c.raiseClock t).mat = c.mat := rfl
@[simp] theorem Core.raiseClock_eng (c : Core) (t : Nat) : (c.raiseClock t).eng = c.eng := rfl
@[simp] theorem Core.raiseClock_hnd (c : Core) (t : Nat) : (c.raiseClock t).hnd = c.hnd := rfl
@[simp] theorem Core.raiseClock_arrivals (c : Core) (t : Nat) : (c.raiseClock t).arrivals = c.arrivals := rfl
@[simp] theorem Core.raiseClock_enqOffer (c : Core) (t : Nat) : (c.raiseClock t).enqOffer = c.enqOffer := rfl
@[simp] theorem Core.raiseClock_enqAnswer (c : Core) (t : Nat) : (c.raiseClock t).enqAnswer = c.enqAnswer := rfl
@[simp] theorem Core.raiseClock_tile (c : Core) (t : Nat) : (c.raiseClock t).tile = c.tile := rfl
@[simp] theorem Core.raiseClock_trap (c : Core) (t : Nat) : (c.raiseClock t).trap = c.trap := rfl
@[simp] theorem Core.raiseClock_arrdrop (c : Core) (t : Nat) : (c.raiseClock t).arrdrop = c.arrdrop := rfl
@[simp] theorem Core.raiseClock_loreplay (c : Core) (t : Nat) : (c.raiseClock t).loreplay = c.loreplay := rfl
@[simp] theorem Core.raiseClock_parity (c : Core) (t : Nat) : (c.raiseClock t).parity = c.parity := rfl
@[simp] theorem Core.raiseClock_poison (c : Core) (t : Nat) : (c.raiseClock t).poison = c.poison := rfl
@[simp] theorem Core.raiseClock_replay (c : Core) (t : Nat) : (c.raiseClock t).replay = c.replay := rfl
@[simp] theorem Core.raiseClock_sig (c : Core) (t : Nat) : (c.raiseClock t).sig = c.sig := rfl
@[simp] theorem Core.raiseClock_replayable (c : Core) (t : Nat) : (c.raiseClock t).replayable = c.replayable := rfl
@[simp] theorem Core.raiseClock_widths (c : Core) (t : Nat) : (c.raiseClock t).widths = c.widths := rfl
@[simp] theorem Core.raiseClock_clean (c : Core) (t : Nat) : (c.raiseClock t).clean = c.clean := rfl
@[simp] theorem Core.raiseClock_lastRegion (c : Core) (t : Nat) : (c.raiseClock t).lastRegion = c.lastRegion := rfl
@[simp] theorem Core.raiseClock_lastOp (c : Core) (t : Nat) : (c.raiseClock t).lastOp = c.lastOp := rfl
@[simp] theorem Core.raiseClock_carryOk (c : Core) (t : Nat) : (c.raiseClock t).carryOk = c.carryOk := rfl
@[simp] theorem Core.raiseClock_loading (c : Core) (t : Nat) : (c.raiseClock t).loading = c.loading := rfl
@[simp] theorem Core.raiseClock_idleSince (c : Core) (t : Nat) : (c.raiseClock t).idleSince = c.idleSince := rfl
@[simp] theorem Core.raiseClock_saving (c : Core) (t : Nat) : (c.raiseClock t).saving = c.saving := rfl
@[simp] theorem Core.raiseClock_uePa (c : Core) (t : Nat) : (c.raiseClock t).uePa = c.uePa := rfl
@[simp] theorem Core.raiseClock_origins (c : Core) (t : Nat) : (c.raiseClock t).origins = c.origins := rfl
@[simp] theorem Core.raiseClock_resumePhase (c : Core) (t : Nat) : (c.raiseClock t).resumePhase = c.resumePhase := rfl
@[simp] theorem Core.raiseClock_saveAt (c : Core) (t : Nat) : (c.raiseClock t).saveAt = c.saveAt := rfl
@[simp] theorem Core.raiseClock_shown (c : Core) (t : Nat) : (c.raiseClock t).shown = c.shown := rfl
@[simp] theorem Core.raiseClock_ueStrand (c : Core) (t : Nat) : (c.raiseClock t).ueStrand = c.ueStrand := rfl
@[simp] theorem Core.raiseClock_popped (c : Core) (t : Nat) : (c.raiseClock t).popped = c.popped := rfl
/-- The cut gives back the pops of a word that waits, and changes nothing else of the core. -/
theorem Core.unpop_eq (c : Core) : ∃ p b, c.unpop = { c with pop := p, popped := b } := by
  unfold Core.unpop
  split
  · rcases h1 : (c.wordAt c.pc).2.1.wb <;> rcases h2 : (c.wordAt c.pc).2.1.wa <;> simp only [h1, h2, if_true, if_false, Bool.false_eq_true] <;>
      exact ⟨_, _, rfl⟩
  · exact ⟨_, _, rfl⟩

/-- What the drain changes of a core: those pops, its load-order buffer, a translation handed to it. -/
theorem Core.drained_eq (c : Core) : ∃ p b, c.drained = { c with pop := p, popped := b, mem := { c.mem with lob := [], handed := none } } := by
  obtain ⟨p, b, h⟩ := c.unpop_eq
  exact ⟨p, b, by rw [Core.drained, h]⟩

@[simp] theorem Core.untag_phase (c : Core) (l : List RegTag) : (c.untag l).phase = c.phase := rfl
@[simp] theorem Core.untag_mbx (c : Core) (l : List RegTag) : (c.untag l).mbx = c.mbx := rfl
@[simp] theorem Core.untag_stepRec (c : Core) (l : List RegTag) : (c.untag l).stepRec = c.stepRec := rfl
@[simp] theorem Core.untag_imem (c : Core) (l : List RegTag) : (c.untag l).imem = c.imem := rfl
@[simp] theorem Core.untag_img (c : Core) (l : List RegTag) : (c.untag l).img = c.img := rfl
@[simp] theorem Core.untag_ctx (c : Core) (l : List RegTag) : (c.untag l).ctx = c.ctx := rfl
@[simp] theorem Core.untag_pc (c : Core) (l : List RegTag) : (c.untag l).pc = c.pc := rfl
@[simp] theorem Core.untag_po (c : Core) (l : List RegTag) : (c.untag l).po = c.po := rfl
@[simp] theorem Core.untag_seq (c : Core) (l : List RegTag) : (c.untag l).seq = c.seq := rfl
@[simp] theorem Core.untag_qL (c : Core) (l : List RegTag) : (c.untag l).qL = c.qL := rfl
@[simp] theorem Core.untag_qX (c : Core) (l : List RegTag) : (c.untag l).qX = c.qX := rfl
@[simp] theorem Core.untag_qS (c : Core) (l : List RegTag) : (c.untag l).qS = c.qS := rfl
@[simp] theorem Core.untag_heldC (c : Core) (l : List RegTag) : (c.untag l).heldC = c.heldC := rfl
@[simp] theorem Core.untag_waits (c : Core) (l : List RegTag) : (c.untag l).waits = c.waits := rfl
@[simp] theorem Core.untag_push (c : Core) (l : List RegTag) : (c.untag l).push = c.push := rfl
@[simp] theorem Core.untag_pop (c : Core) (l : List RegTag) : (c.untag l).pop = c.pop := rfl
@[simp] theorem Core.untag_regs (c : Core) (l : List RegTag) : (c.untag l).regs = c.regs := rfl
@[simp] theorem Core.untag_sys (c : Core) (l : List RegTag) : (c.untag l).sys = c.sys := rfl
@[simp] theorem Core.untag_mat (c : Core) (l : List RegTag) : (c.untag l).mat = c.mat := rfl
@[simp] theorem Core.untag_eng (c : Core) (l : List RegTag) : (c.untag l).eng = c.eng := rfl
@[simp] theorem Core.untag_hnd (c : Core) (l : List RegTag) : (c.untag l).hnd = c.hnd := rfl
@[simp] theorem Core.untag_arrivals (c : Core) (l : List RegTag) : (c.untag l).arrivals = c.arrivals := rfl
@[simp] theorem Core.untag_enqOffer (c : Core) (l : List RegTag) : (c.untag l).enqOffer = c.enqOffer := rfl
@[simp] theorem Core.untag_enqAnswer (c : Core) (l : List RegTag) : (c.untag l).enqAnswer = c.enqAnswer := rfl
@[simp] theorem Core.untag_mem (c : Core) (l : List RegTag) : (c.untag l).mem = c.mem := rfl
@[simp] theorem Core.untag_tile (c : Core) (l : List RegTag) : (c.untag l).tile = c.tile := rfl
@[simp] theorem Core.untag_trap (c : Core) (l : List RegTag) : (c.untag l).trap = c.trap := rfl
@[simp] theorem Core.untag_arrdrop (c : Core) (l : List RegTag) : (c.untag l).arrdrop = c.arrdrop := rfl
@[simp] theorem Core.untag_loreplay (c : Core) (l : List RegTag) : (c.untag l).loreplay = c.loreplay := rfl
@[simp] theorem Core.untag_replay (c : Core) (l : List RegTag) : (c.untag l).replay = c.replay := rfl
@[simp] theorem Core.untag_sig (c : Core) (l : List RegTag) : (c.untag l).sig = c.sig := rfl
@[simp] theorem Core.untag_replayable (c : Core) (l : List RegTag) : (c.untag l).replayable = c.replayable := rfl
@[simp] theorem Core.untag_widths (c : Core) (l : List RegTag) : (c.untag l).widths = c.widths := rfl
@[simp] theorem Core.untag_clean (c : Core) (l : List RegTag) : (c.untag l).clean = c.clean := rfl
@[simp] theorem Core.untag_lastRegion (c : Core) (l : List RegTag) : (c.untag l).lastRegion = c.lastRegion := rfl
@[simp] theorem Core.untag_lastOp (c : Core) (l : List RegTag) : (c.untag l).lastOp = c.lastOp := rfl
@[simp] theorem Core.untag_carryOk (c : Core) (l : List RegTag) : (c.untag l).carryOk = c.carryOk := rfl
@[simp] theorem Core.untag_loading (c : Core) (l : List RegTag) : (c.untag l).loading = c.loading := rfl
@[simp] theorem Core.untag_idleSince (c : Core) (l : List RegTag) : (c.untag l).idleSince = c.idleSince := rfl
@[simp] theorem Core.untag_saving (c : Core) (l : List RegTag) : (c.untag l).saving = c.saving := rfl
@[simp] theorem Core.untag_uePa (c : Core) (l : List RegTag) : (c.untag l).uePa = c.uePa := rfl
@[simp] theorem Core.untag_resumePhase (c : Core) (l : List RegTag) : (c.untag l).resumePhase = c.resumePhase := rfl
@[simp] theorem Core.untag_saveAt (c : Core) (l : List RegTag) : (c.untag l).saveAt = c.saveAt := rfl
@[simp] theorem Core.untag_shown (c : Core) (l : List RegTag) : (c.untag l).shown = c.shown := rfl
@[simp] theorem Core.untag_ueStrand (c : Core) (l : List RegTag) : (c.untag l).ueStrand = c.ueStrand := rfl
@[simp] theorem Core.untag_popped (c : Core) (l : List RegTag) : (c.untag l).popped = c.popped := rfl
@[simp] theorem Core.notePoint_phase (c : Core) (p : Nat) (f : TilePoint → TilePoint) : (c.notePoint p f).phase = c.phase := rfl
@[simp] theorem Core.notePoint_mbx (c : Core) (p : Nat) (f : TilePoint → TilePoint) : (c.notePoint p f).mbx = c.mbx := rfl
@[simp] theorem Core.notePoint_stepRec (c : Core) (p : Nat) (f : TilePoint → TilePoint) : (c.notePoint p f).stepRec = c.stepRec := rfl
@[simp] theorem Core.notePoint_imem (c : Core) (p : Nat) (f : TilePoint → TilePoint) : (c.notePoint p f).imem = c.imem := rfl
@[simp] theorem Core.notePoint_img (c : Core) (p : Nat) (f : TilePoint → TilePoint) : (c.notePoint p f).img = c.img := rfl
@[simp] theorem Core.notePoint_ctx (c : Core) (p : Nat) (f : TilePoint → TilePoint) : (c.notePoint p f).ctx = c.ctx := rfl
@[simp] theorem Core.notePoint_pc (c : Core) (p : Nat) (f : TilePoint → TilePoint) : (c.notePoint p f).pc = c.pc := rfl
@[simp] theorem Core.notePoint_po (c : Core) (p : Nat) (f : TilePoint → TilePoint) : (c.notePoint p f).po = c.po := rfl
@[simp] theorem Core.notePoint_seq (c : Core) (p : Nat) (f : TilePoint → TilePoint) : (c.notePoint p f).seq = c.seq := rfl
@[simp] theorem Core.notePoint_qL (c : Core) (p : Nat) (f : TilePoint → TilePoint) : (c.notePoint p f).qL = c.qL := rfl
@[simp] theorem Core.notePoint_qX (c : Core) (p : Nat) (f : TilePoint → TilePoint) : (c.notePoint p f).qX = c.qX := rfl
@[simp] theorem Core.notePoint_qS (c : Core) (p : Nat) (f : TilePoint → TilePoint) : (c.notePoint p f).qS = c.qS := rfl
@[simp] theorem Core.notePoint_heldC (c : Core) (p : Nat) (f : TilePoint → TilePoint) : (c.notePoint p f).heldC = c.heldC := rfl
@[simp] theorem Core.notePoint_waits (c : Core) (p : Nat) (f : TilePoint → TilePoint) : (c.notePoint p f).waits = c.waits := rfl
@[simp] theorem Core.notePoint_push (c : Core) (p : Nat) (f : TilePoint → TilePoint) : (c.notePoint p f).push = c.push := rfl
@[simp] theorem Core.notePoint_pop (c : Core) (p : Nat) (f : TilePoint → TilePoint) : (c.notePoint p f).pop = c.pop := rfl
@[simp] theorem Core.notePoint_regs (c : Core) (p : Nat) (f : TilePoint → TilePoint) : (c.notePoint p f).regs = c.regs := rfl
@[simp] theorem Core.notePoint_sys (c : Core) (p : Nat) (f : TilePoint → TilePoint) : (c.notePoint p f).sys = c.sys := rfl
@[simp] theorem Core.notePoint_mat (c : Core) (p : Nat) (f : TilePoint → TilePoint) : (c.notePoint p f).mat = c.mat := rfl
@[simp] theorem Core.notePoint_eng (c : Core) (p : Nat) (f : TilePoint → TilePoint) : (c.notePoint p f).eng = c.eng := rfl
@[simp] theorem Core.notePoint_hnd (c : Core) (p : Nat) (f : TilePoint → TilePoint) : (c.notePoint p f).hnd = c.hnd := rfl
@[simp] theorem Core.notePoint_arrivals (c : Core) (p : Nat) (f : TilePoint → TilePoint) : (c.notePoint p f).arrivals = c.arrivals := rfl
@[simp] theorem Core.notePoint_enqOffer (c : Core) (p : Nat) (f : TilePoint → TilePoint) : (c.notePoint p f).enqOffer = c.enqOffer := rfl
@[simp] theorem Core.notePoint_enqAnswer (c : Core) (p : Nat) (f : TilePoint → TilePoint) : (c.notePoint p f).enqAnswer = c.enqAnswer := rfl
@[simp] theorem Core.notePoint_mem (c : Core) (p : Nat) (f : TilePoint → TilePoint) : (c.notePoint p f).mem = c.mem := rfl
@[simp] theorem Core.notePoint_trap (c : Core) (p : Nat) (f : TilePoint → TilePoint) : (c.notePoint p f).trap = c.trap := rfl
@[simp] theorem Core.notePoint_arrdrop (c : Core) (p : Nat) (f : TilePoint → TilePoint) : (c.notePoint p f).arrdrop = c.arrdrop := rfl
@[simp] theorem Core.notePoint_loreplay (c : Core) (p : Nat) (f : TilePoint → TilePoint) : (c.notePoint p f).loreplay = c.loreplay := rfl
@[simp] theorem Core.notePoint_parity (c : Core) (p : Nat) (f : TilePoint → TilePoint) : (c.notePoint p f).parity = c.parity := rfl
@[simp] theorem Core.notePoint_poison (c : Core) (p : Nat) (f : TilePoint → TilePoint) : (c.notePoint p f).poison = c.poison := rfl
@[simp] theorem Core.notePoint_replay (c : Core) (p : Nat) (f : TilePoint → TilePoint) : (c.notePoint p f).replay = c.replay := rfl
@[simp] theorem Core.notePoint_sig (c : Core) (p : Nat) (f : TilePoint → TilePoint) : (c.notePoint p f).sig = c.sig := rfl
@[simp] theorem Core.notePoint_replayable (c : Core) (p : Nat) (f : TilePoint → TilePoint) : (c.notePoint p f).replayable = c.replayable := rfl
@[simp] theorem Core.notePoint_widths (c : Core) (p : Nat) (f : TilePoint → TilePoint) : (c.notePoint p f).widths = c.widths := rfl
@[simp] theorem Core.notePoint_clean (c : Core) (p : Nat) (f : TilePoint → TilePoint) : (c.notePoint p f).clean = c.clean := rfl
@[simp] theorem Core.notePoint_lastRegion (c : Core) (p : Nat) (f : TilePoint → TilePoint) : (c.notePoint p f).lastRegion = c.lastRegion := rfl
@[simp] theorem Core.notePoint_lastOp (c : Core) (p : Nat) (f : TilePoint → TilePoint) : (c.notePoint p f).lastOp = c.lastOp := rfl
@[simp] theorem Core.notePoint_carryOk (c : Core) (p : Nat) (f : TilePoint → TilePoint) : (c.notePoint p f).carryOk = c.carryOk := rfl
@[simp] theorem Core.notePoint_loading (c : Core) (p : Nat) (f : TilePoint → TilePoint) : (c.notePoint p f).loading = c.loading := rfl
@[simp] theorem Core.notePoint_idleSince (c : Core) (p : Nat) (f : TilePoint → TilePoint) : (c.notePoint p f).idleSince = c.idleSince := rfl
@[simp] theorem Core.notePoint_saving (c : Core) (p : Nat) (f : TilePoint → TilePoint) : (c.notePoint p f).saving = c.saving := rfl
@[simp] theorem Core.notePoint_uePa (c : Core) (p : Nat) (f : TilePoint → TilePoint) : (c.notePoint p f).uePa = c.uePa := rfl
@[simp] theorem Core.notePoint_origins (c : Core) (p : Nat) (f : TilePoint → TilePoint) : (c.notePoint p f).origins = c.origins := rfl
@[simp] theorem Core.notePoint_resumePhase (c : Core) (p : Nat) (f : TilePoint → TilePoint) : (c.notePoint p f).resumePhase = c.resumePhase := rfl
@[simp] theorem Core.notePoint_saveAt (c : Core) (p : Nat) (f : TilePoint → TilePoint) : (c.notePoint p f).saveAt = c.saveAt := rfl
@[simp] theorem Core.notePoint_shown (c : Core) (p : Nat) (f : TilePoint → TilePoint) : (c.notePoint p f).shown = c.shown := rfl
@[simp] theorem Core.notePoint_ueStrand (c : Core) (p : Nat) (f : TilePoint → TilePoint) : (c.notePoint p f).ueStrand = c.ueStrand := rfl
@[simp] theorem Core.notePoint_popped (c : Core) (p : Nat) (f : TilePoint → TilePoint) : (c.notePoint p f).popped = c.popped := rfl

end Sys2Proof.Machine
end

