-- ==== Sys2Proof/Laws/Memory.lean ====
section
/-! SUPPORT. Sparse arrays and memory: the canonical form is kept by every operation, a read after a write gives what was written, and
every other key stands (log 4). -/

namespace Sys2Proof.Machine

/-! ### The canonical form -/

/-- The canonical form, as rising keys and entries that differ from the default. -/
theorem swf_iff {β : Type} [DecidableEq β] (d : β) (m : Sparse β) :
    swf d m = true ↔ m.Pairwise (fun x y => x.1 < y.1) ∧ ∀ e ∈ m, e.2 ≠ d := by
  induction m with
  | nil => simp [swf]
  | cons e t ih =>
    obtain ⟨k, v⟩ := e
    cases t with
    | nil => simp [swf]
    | cons e' t' =>
      obtain ⟨k', v'⟩ := e'
      simp only [swf, Bool.and_eq_true, bne_iff_ne, decide_eq_true_eq, ih]
      constructor
      · rintro ⟨⟨hv, hk⟩, hp, hd⟩
        refine ⟨List.pairwise_cons.mpr ⟨?_, hp⟩, ?_⟩
        · intro y hy
          rcases List.mem_cons.mp hy with rfl | hy
          · exact hk
          · exact Nat.lt_trans hk ((List.pairwise_cons.mp hp).1 y hy)
        · intro x hx
          rcases List.mem_cons.mp hx with rfl | hx
          · exact hv
          · exact hd x hx
      · rintro ⟨hp, hd⟩
        have ⟨h1, h2⟩ := List.pairwise_cons.mp hp
        exact ⟨⟨hd _ (List.mem_cons_self ..), h1 _ (List.mem_cons_self ..)⟩, h2, fun x hx => hd x (List.mem_cons_of_mem _ hx)⟩

theorem mem_sdel {β : Type} (m : Sparse β) (a : Nat) (e : Nat × β) : e ∈ sdel m a ↔ e ∈ m ∧ e.1 ≠ a := by
  induction m with
  | nil => simp [sdel]
  | cons x t ih =>
    obtain ⟨k, v⟩ := x
    unfold sdel
    split
    · next h => rw [ih]; constructor
                · rintro ⟨h1, h2⟩; exact ⟨List.mem_cons_of_mem _ h1, h2⟩
                · rintro ⟨h1, h2⟩
                  rcases List.mem_cons.mp h1 with rfl | h1
                  · exact absurd h h2
                  · exact ⟨h1, h2⟩
    · next h => simp only [List.mem_cons, ih]; constructor
                · rintro (rfl | ⟨h1, h2⟩)
                  · exact ⟨.inl rfl, h⟩
                  · exact ⟨.inr h1, h2⟩
                · rintro ⟨rfl | h1, h2⟩
                  · exact .inl rfl
                  · exact .inr ⟨h1, h2⟩

theorem mem_sins {β : Type} (m : Sparse β) (a : Nat) (x : β) (e : Nat × β) : e ∈ sins m a x ↔ e = (a, x) ∨ e ∈ m := by
  induction m with
  | nil => simp [sins]
  | cons y t ih =>
    obtain ⟨k, v⟩ := y
    unfold sins
    split
    · simp
    · simp only [List.mem_cons, ih]; tauto

/-- Deleting a key keeps the canonical form. -/
theorem swf_sdel {β : Type} [DecidableEq β] (d : β) (m : Sparse β) (a : Nat) (h : swf d m = true) : swf d (sdel m a) = true := by
  rw [swf_iff] at *
  obtain ⟨hp, hd⟩ := h
  refine ⟨?_, fun e he => hd e ((mem_sdel m a e).mp he).1⟩
  clear hd
  induction m with
  | nil => exact hp
  | cons x t ih =>
    obtain ⟨k, v⟩ := x
    have ⟨h1, h2⟩ := List.pairwise_cons.mp hp
    unfold sdel
    split
    · exact ih h2
    · exact List.pairwise_cons.mpr ⟨fun y hy => h1 y ((mem_sdel t a y).mp hy).1, ih h2⟩

/-- Putting a value other than the default at a key that is not listed keeps the canonical form. -/
theorem swf_sins {β : Type} [DecidableEq β] (d : β) (m : Sparse β) (a : Nat) (x : β) (h : swf d m = true) (hx : x ≠ d) (ha : ∀ e ∈ m, e.1 ≠ a) :
    swf d (sins m a x) = true := by
  rw [swf_iff] at *
  obtain ⟨hp, hd⟩ := h
  refine ⟨?_, fun e he => ?_⟩
  · clear hd
    induction m with
    | nil => simp [sins]
    | cons y t ih =>
      obtain ⟨k, v⟩ := y
      have ⟨h1, h2⟩ := List.pairwise_cons.mp hp
      unfold sins
      split
      · next hk =>
        refine List.pairwise_cons.mpr ⟨fun z hz => ?_, hp⟩
        rcases List.mem_cons.mp hz with rfl | hz
        · exact hk
        · exact Nat.lt_trans hk (h1 z hz)
      · next hk =>
        refine List.pairwise_cons.mpr ⟨fun z hz => ?_, ih (fun e he => ha e (List.mem_cons_of_mem _ he)) h2⟩
        rcases (mem_sins t a x z).mp hz with rfl | hz
        · exact Nat.lt_of_le_of_ne (Nat.not_lt.mp hk) (ha _ (List.mem_cons_self ..))
        · exact h1 z hz
  · rcases (mem_sins m a x e).mp he with rfl | he
    · exact hx
    · exact hd e he

/-- A write keeps the canonical form. -/
theorem swf_sset {β : Type} [DecidableEq β] (d : β) (m : Sparse β) (a : Nat) (x : β) (h : swf d m = true) : swf d (sset d m a x) = true := by
  unfold sset
  split
  · exact swf_sdel d m a h
  · next hx => exact swf_sins d _ a x (swf_sdel d m a h) hx (fun e he => ((mem_sdel m a e).mp he).2)

/-- Dropping entries keeps the canonical form. -/
theorem swf_filter {β : Type} [DecidableEq β] (d : β) (m : Sparse β) (p : Nat × β → Bool) (h : swf d m = true) : swf d (m.filter p) = true := by
  rw [swf_iff] at *
  exact ⟨h.1.filter p, fun e he => h.2 e (List.mem_of_mem_filter he)⟩

/-! ### Reads after writes -/

theorem sget_sdel {β : Type} (d : β) (m : Sparse β) (a b : Nat) : sget d (sdel m a) b = if b = a then d else sget d m b := by
  induction m with
  | nil => simp [sdel, sget]
  | cons x t ih =>
    obtain ⟨k, v⟩ := x
    by_cases hk : k = a
    · subst hk; simp only [sdel, if_true, ih, sget]; split
      · rfl
      · next h => simp [Ne.symm h]
    · simp only [sdel, hk, if_false, sget, ih]; split
      · next h => subst h; simp [hk]
      · rfl

theorem sget_sins {β : Type} (d : β) (m : Sparse β) (a b : Nat) (x : β) (ha : ∀ e ∈ m, e.1 ≠ a) :
    sget d (sins m a x) b = if b = a then x else sget d m b := by
  induction m with
  | nil =>
    by_cases h : b = a
    · subst h; simp [sins, sget]
    · simp only [sins, sget]; rw [if_neg (Ne.symm h), if_neg h]
  | cons y t ih =>
    obtain ⟨k, v⟩ := y
    have hk : k ≠ a := ha _ (List.mem_cons_self ..)
    have ih := ih (fun e he => ha e (List.mem_cons_of_mem _ he))
    unfold sins
    split
    · by_cases h : b = a
      · subst h; simp [sget]
      · rw [sget, if_neg (Ne.symm h), if_neg h]
    · simp only [sget, ih]; split
      · next h => subst h; simp [hk]
      · rfl

/-- Reading after a write: the value at the key written, every other key as before. -/
theorem sget_sset {β : Type} [DecidableEq β] (d : β) (m : Sparse β) (a b : Nat) (x : β) : sget d (sset d m a x) b = if b = a then x else sget d m b := by
  unfold sset
  split
  · next h => rw [sget_sdel, h]
  · rw [sget_sins d _ a b x (fun e he => ((mem_sdel m a e).mp he).2), sget_sdel]; split <;> rfl

@[simp] theorem sget_sset_same {β : Type} [DecidableEq β] (d : β) (m : Sparse β) (a : Nat) (x : β) : sget d (sset d m a x) a = x := by simp [sget_sset]

theorem sget_sset_ne {β : Type} [DecidableEq β] (d : β) (m : Sparse β) {a b : Nat} (x : β) (h : b ≠ a) : sget d (sset d m a x) b = sget d m b := by
  simp [sget_sset, h]

/-- A byte after a write of several: the byte written inside the range, the old one outside it. -/
theorem sget_memWrite (l : List Byte) (m : Memory) (pa a : Nat) :
    sget Memory.dflt (memWrite m pa l) a = if pa ≤ a ∧ a < pa + l.length then l.getD (a - pa) 0 else sget Memory.dflt m a := by
  induction l generalizing m pa with
  | nil => have : ¬(pa ≤ a ∧ a < pa) := by omega
           simp [memWrite, this]
  | cons b t ih =>
    simp only [memWrite, ih, sget_sset, List.length_cons]
    by_cases h : a = pa
    · subst h
      simp
    · by_cases h3 : pa + 1 ≤ a ∧ a < pa + 1 + t.length
      · have h2 : pa ≤ a ∧ a < pa + (t.length + 1) := by omega
        rw [if_pos h3, if_pos h2]
        obtain ⟨j, hj⟩ : ∃ j, a - pa = j + 1 := ⟨a - pa - 1, by omega⟩
        rw [hj, show a - (pa + 1) = j by omega]; simp
      · have h2 : ¬(pa ≤ a ∧ a < pa + (t.length + 1)) := by omega
        rw [if_neg h3, if_neg h2, if_neg h]

/-- A byte outside the range written stands. -/
theorem sget_memWrite_ne (l : List Byte) (m : Memory) (pa a : Nat) (h : a < pa ∨ pa + l.length ≤ a) :
    sget Memory.dflt (memWrite m pa l) a = sget Memory.dflt m a := by
  rw [sget_memWrite, if_neg (by omega)]

theorem memRead_congr (m m' : Memory) (pa n : Nat) (h : ∀ a, pa ≤ a → a < pa + n → sget Memory.dflt m a = sget Memory.dflt m' a) :
    memRead m pa n = memRead m' pa n := by
  induction n generalizing pa with
  | zero => rfl
  | succ n ih =>
    simp only [memRead]
    rw [h pa (Nat.le_refl _) (by omega), ih (pa + 1) (fun a h1 h2 => h a (by omega) (by omega))]

/-- What was written is read back. -/
theorem memRead_memWrite (l : List Byte) (m : Memory) (pa : Nat) : memRead (memWrite m pa l) pa l.length = l := by
  induction l generalizing m pa with
  | nil => rfl
  | cons b t ih =>
    simp only [memWrite, List.length_cons, memRead]
    rw [ih, sget_memWrite_ne t _ _ _ (by omega), sget_sset_same]

/-- A range apart from the bytes written reads as before. -/
theorem memRead_memWrite_ne (l : List Byte) (m : Memory) (pa a n : Nat) (h : a + n ≤ pa ∨ pa + l.length ≤ a) :
    memRead (memWrite m pa l) a n = memRead m a n :=
  memRead_congr _ _ _ _ (fun x h1 h2 => sget_memWrite_ne l m pa x (by omega))

/-! ### Operations on memory keep the form -/

/-- Writing bytes keeps memory canonical. -/
theorem memWrite_wf (l : List Byte) (m : Memory) (pa : Nat) (h : Memory.wf m = true) : Memory.wf (memWrite m pa l) = true := by
  induction l generalizing m pa with
  | nil => exact h
  | cons b t ih => exact ih _ _ (swf_sset _ _ _ _ h)

/-- Memory after reset is canonical. -/
theorem reset_mem_wf : Memory.wf State.reset.mem = true := rfl

theorem State.writeBytes_wf (s : State) (pa : Nat) (b : List Byte) (h : Memory.wf s.mem = true) : Memory.wf (s.writeBytes pa b).mem = true := memWrite_wf b _ pa h

theorem writePieces_wf (ps : List Piece) (s : State) (b : List Byte) (h : Memory.wf s.mem = true) : Memory.wf (writePieces s ps b).mem = true := by
  induction ps generalizing s b with
  | nil => exact h
  | cons p t ih => exact ih _ _ (State.writeBytes_wf s _ _ h)

/-- Whatever each step of a fold keeps, the fold keeps. -/
theorem foldl_keeps {α β : Type} (P : β → Prop) (f : β → α → β) (l : List α) (s : β) (h : P s) (hf : ∀ s x, P s → P (f s x)) : P (l.foldl f s) := by
  induction l generalizing s with
  | nil => exact h
  | cons x t ih => exact ih _ (hf s x h)

theorem State.log_mem (s : State) (r : LogRec) :
    (s.log r).mem = memWrite s.mem (s.ras.elogBase + s.ras.elogSeq.toNat % 2 ^ s.ras.elogLog2 * 64) (natLe 64 (logBits s.tb.now.toNat s.ras.elogSeq.toNat r)) := by
  unfold State.log; rfl

theorem State.log_wf (s : State) (r : LogRec) (h : Memory.wf s.mem = true) : Memory.wf (s.log r).mem = true := by
  rw [State.log_mem]; exact memWrite_wf _ _ _ h

theorem State.logRead_wf (s : State) (m pa id r how : Nat) (h : Memory.wf s.mem = true) : Memory.wf (s.logRead m pa id r how).mem = true := by
  unfold State.logRead; exact State.log_wf _ _ h

/-- A crew cache's write-back, its line taken, a recall: memory stays canonical. -/
theorem State.writeBack_wf (s : State) (c l m : Nat) (h : Memory.wf s.mem = true) : Memory.wf (s.writeBack c l m).mem = true := by
  unfold State.writeBack
  split
  · exact h
  · dsimp only
    split
    · exact State.log_wf _ _ h
    · exact foldl_keeps (fun s : State => Memory.wf s.mem = true) _ _ _ h (fun s x h => State.logRead_wf _ _ _ _ _ _ h)

theorem State.recallLine_wf (s : State) (l m : Nat) (h : Memory.wf s.mem = true) : Memory.wf (s.recallLine l m).mem = true := by
  unfold State.recallLine
  split
  · exact State.writeBack_wf _ _ _ _ h
  · exact h

theorem State.own_wf (s : State) (c l pa n m : Nat) (h : Memory.wf s.mem = true) : Memory.wf (s.own c l pa n m).mem = true := by
  unfold State.own
  split
  · split
    · exact h
    · exact State.writeBack_wf _ _ _ _ h
  · dsimp only
    split
    · split
      · exact State.writeBack_wf _ _ _ _ h
      · exact h
    · exact h

/-- Whatever a line's owner must write back, a write's coming to its place keeps memory canonical. -/
theorem State.arriveAt_wf (s : State) (n : Fin 128) (w : WriteAt) (line : Nat) (runs : List (Nat × List Byte)) (h : Memory.wf s.mem = true) :
    Memory.wf (s.arriveAt n w line runs).mem = true := by
  unfold State.arriveAt
  split
  · exact h
  · split
    · exact State.recallLine_wf _ _ _ h
    · exact foldl_keeps (fun s : State => Memory.wf s.mem = true) _ _ _ h (fun s x h => State.own_wf _ _ _ _ _ _ h)

theorem State.performRuns_wf (s : State) (n : Fin 128) (w : WriteAt) (line : Nat) (runs : List (Nat × List Byte)) (h : Memory.wf s.mem = true) :
    Memory.wf (s.performRuns n w line runs).mem = true := by
  unfold State.performRuns
  dsimp only
  rw [State.modCore_mem]
  exact foldl_keeps (fun s : State => Memory.wf s.mem = true) _ _ _ (State.arriveAt_wf s n w line runs h) (fun s x h => State.writeBytes_wf _ _ _ h)

theorem State.performOrdinary_wf (s : State) (n : Fin 128) (w : WriteAt) (p : Piece) (b : List Byte) (h : Memory.wf s.mem = true) :
    Memory.wf (s.performOrdinary n w p b).mem = true := State.performRuns_wf s n _ _ _ h

/-- What leaves through a port changes no byte of memory. -/
@[simp] theorem State.askAts_mem (s : State) (f a pa : Nat) : (s.askAts f a pa).mem = s.mem := by
  unfold State.askAts; split <;> rfl

@[simp] theorem State.sendOut_mem (s : State) (f a pa n : Nat) (w : Bool) : (s.sendOut f a pa n w).mem = s.mem := by
  unfold State.sendOut
  split
  · rfl
  · split
    · rfl
    · dsimp only; split <;> simp

@[simp] theorem State.coreOut_mem (s : State) (n : Fin 128) (pa k : Nat) (w : Bool) : (s.coreOut n pa k w).mem = s.mem := State.sendOut_mem ..

theorem State.performScoped_wf (s : State) (k pa : Nat) (b : List Byte) (h : Memory.wf s.mem = true) : Memory.wf (s.performScoped k pa b).1.mem = true := by
  have h0 : Memory.wf ((linesOf pa b.length).foldl (fun s x => s.recallLine x (agentMaster k)) s).mem = true :=
    foldl_keeps (fun s : State => Memory.wf s.mem = true) _ _ _ h (fun s x h => State.recallLine_wf _ _ _ h)
  unfold State.performScoped
  dsimp only
  split
  · rw [State.coreOut_mem]; exact memWrite_wf _ _ _ h0
  · exact memWrite_wf _ _ _ h0

theorem State.performBytes_wf (s : State) (x : InFlight) (h : Memory.wf s.mem = true) : Memory.wf (s.performBytes x).1.mem = true := by
  unfold State.performBytes
  dsimp only
  refine foldl_keeps (fun s : State => Memory.wf s.mem = true) _ _ _ ?_ (fun s x h => h)
  exact foldl_keeps (fun a : State × Nat => Memory.wf a.1.mem = true) _ _ _ (State.performScoped_wf _ _ _ _ h) (fun s x h => State.performScoped_wf _ _ _ _ h)

theorem State.blockedAt_wf (s : State) (x : InFlight) (h : Memory.wf s.mem = true) : Memory.wf (s.blockedAt x).mem = true := by
  unfold State.blockedAt State.logDemand
  rw [State.modCore_mem]
  exact State.logRead_wf _ _ _ _ _ _ h

theorem State.performInFlight_wf (s : State) (i : Nat) (h : Memory.wf s.mem = true) : Memory.wf (s.performInFlight i).mem = true := by
  unfold State.performInFlight
  split
  · exact h
  · next x _ =>
    by_cases hp : x.performed = true
    · rw [if_pos hp]; exact h
    · rw [if_neg hp]
      by_cases hb : x.blocked s = true
      · simp only [if_pos hb]
        exact foldl_keeps (fun s : State => Memory.wf s.mem = true) _ _ _ h (fun s x h => State.blockedAt_wf _ _ h)
      · simp only [if_neg hb]
        have hc : Memory.wf (x.joined.foldl (fun s k => s.carryRels x.pa x.data.length s.cores[k.core].mem.fences[k.strand.slot]) (s.performBytes x).1).mem = true :=
          foldl_keeps (fun s : State => Memory.wf s.mem = true) _ _ _ (State.performBytes_wf s x h) (fun s x h => h)
        split
        · exact hc
        · exact foldl_keeps (fun s : State => Memory.wf s.mem = true) _ _ _ hc (fun s x h => h)

theorem State.performAll_wf (s : State) (n : Fin 128) (h : Memory.wf s.mem = true) : Memory.wf (s.performAll n).mem = true := by
  unfold State.performAll
  refine foldl_keeps (fun s : State => Memory.wf s.mem = true) _ _ _ h (fun s i h => ?_)
  split
  · split
    · exact State.performInFlight_wf s i h
    · exact h
  · exact h

/-- The drain performs the core's writes in flight, and keeps memory canonical. -/
theorem State.drain_wf (s : State) (n : Fin 128) (h : Memory.wf s.mem = true) : Memory.wf (s.drain n).mem = true := by
  unfold State.drain
  rw [State.modCore_mem]
  exact State.performAll_wf _ n h

/-- A walk that begins changes no byte of memory. -/
@[simp] theorem State.walkBegins_mem (s : State) (n : Fin 128) (va : Nat) : (s.walkBegins n va).mem = s.mem := by
  unfold State.walkBegins
  dsimp only
  split
  · rfl
  · split
    · rfl
    · split <;> rfl

theorem State.modQd_wf (s : State) (q : Nat) (f : BitVec 2048 → BitVec 2048) (h : Memory.wf s.mem = true) : Memory.wf (s.modQd q f).mem = true := by
  unfold State.modQd; exact State.writeBytes_wf s _ _ h

theorem State.zeroScratch_wf (s : State) (n : Fin 128) (h : Memory.wf s.mem = true) : Memory.wf (s.zeroScratch n).mem = true := swf_filter _ _ _ h

/-- Taking a trap performs the core's writes in flight and may log a record, and keeps memory canonical. -/
theorem takeTrap_wf (n : Fin 128) (t : Trap) (s : State) (h : Memory.wf s.mem = true) : Memory.wf (takeTrap n t s).mem = true := by
  have h1 := State.drain_wf s n h
  unfold takeTrap State.freezeEnd State.logRefusal
  split
  · rw [State.walkBegins_mem]; exact h
  · rw [State.modCore_mem]
    split
    · exact h1
    · exact State.log_wf _ _ h1

end Sys2Proof.Machine
end

