-- ==== Sys2Proof/Laws/Ops.lean ====
section
/-! SUPPORT. What the shared operations can do, said once: a property that core updates, traps and a word's own effect keep is kept by the
word as a whole, whether it runs, waits, is judged ILLEGAL or traps (R278 to R300, R262). -/

namespace Sys2Proof.Machine

/-- The state that the effect of a word leaves, where it leaves one. -/
def Res.left : Res → Option State
  | .ok s => some s
  | .goto s _ => some s
  | .stall s => some s
  | .after s _ => some s
  | .wait _ => none
  | .trap _ => none

/-- A C-class word keeps what the updates of its core, its traps and its effect keep. -/
theorem cWord_keeps (P : State → Prop) (s : State) (t g j len eff) (hm : ∀ u f, P u → P (u.modCore s.focusCore f)) (ht : ∀ x u, P u → P (takeTrap s.focusCore x u))
    (he : ∀ u, (eff s).left = some u → P u) (hs : P s) : P (cWord t g j len eff s) := by
  unfold cWord
  dsimp only
  cases j.sub s.focusStrand t with
  | some sub => exact ht _ _ hs
  | none =>
    dsimp only
    split
    · exact hm _ _ hs
    · split
      · exact hm _ _ hs
      · split
        · exact hm _ _ hs
        · split
          · exact hm _ _ hs
          · split
            · exact hm _ _ hs
            · cases h : eff s with
              | ok u => exact hm _ _ (he u (by rw [h]; rfl))
              | goto u pc => exact hm _ _ (he u (by rw [h]; rfl))
              | wait w => exact hm _ _ hs
              | stall u => exact hm _ _ (he u (by rw [h]; rfl))
              | trap x => exact ht _ _ hs
              | after u x => exact ht _ _ (hm _ _ (he u (by rw [h]; rfl)))

/-- The head of a queue, as it tries to issue, keeps the same. -/
theorem issueHead_keeps (P : State → Prop) (s : State) (n q) (hm : ∀ u f, P u → P (u.modCore n f)) (ht : ∀ x u, P u → P (takeTrap n x u))
    (he : ∀ u, (s.issueRes n q).left = some u → P u) (hs : P s) : P (s.issueHead n q) := by
  unfold State.issueHead
  split
  · exact hs
  · cases h : s.issueRes n q with
    | ok u => exact he u (by rw [h]; rfl)
    | goto u pc => exact he u (by rw [h]; rfl)
    | wait w => exact hm _ _ hs
    | stall u => exact he u (by rw [h]; rfl)
    | trap x => exact ht _ _ hs
    | after u x => exact ht _ _ (he u (by rw [h]; rfl))

/-- A word of a handler strand keeps the same. -/
theorem handlerWord_keeps (P : State → Prop) (s : State) (n h len u) (hm : ∀ u f, P u → P (u.modCore n f)) (ht : ∀ x u, P u → P (takeTrap n x u))
    (he : ∀ r v, (execUop s n r).left = some v → P v) (hs : P s) : P (s.handlerWord n h len u) := by
  unfold State.handlerWord
  dsimp only
  split
  · next v hv => exact hm _ _ (he _ v (by rw [hv]; rfl))
  · next v _ hv => exact he _ v (by rw [hv]; rfl)
  · next v _ hv => exact ht _ _ (he _ v (by rw [hv]; rfl))
  · exact hm _ _ hs
  · next v hv => exact he _ v (by rw [hv]; rfl)
  · exact ht _ _ hs

/-- A word given to a queue keeps the same. -/
theorem put_keeps (P : State → Prop) (s : State) (n q len r) (hm : ∀ u f, P u → P (u.modCore n f)) (ht : ∀ x u, P u → P (takeTrap n x u))
    (he : ∀ u, ((s.modCore n (fun c => c.append q len r)).issueRes n q).left = some u → P u) (hs : P s) : P (s.put n q len r) := by
  unfold State.put
  dsimp only
  split
  · exact issueHead_keeps P _ n q hm ht he (hm _ _ hs)
  · exact hm _ _ hs

/-- A routed word keeps what its capture, its queue and a handler strand that runs it at once keep. -/
theorem routeWord_keeps (P : State → Prop) (s : State) (q t g j len rv) (cap : Bool → State → Except Trap (State × Uop))
    (hm : ∀ u f, P u → P (u.modCore s.focusCore f)) (ht : ∀ x u, P u → P (takeTrap s.focusCore x u))
    (hc : ∀ on u x, cap on s = .ok (u, x) → (∀ h, P (u.handlerWord s.focusCore h len x)) ∧ ∀ r, P (u.put s.focusCore q len r)) (hs : P s) :
    P (routeWord q t g j len rv cap s) := by
  unfold routeWord
  dsimp only
  cases j.sub s.focusStrand t with
  | some sub => exact ht _ _ hs
  | none =>
    dsimp only
    cases s.focusStrand with
    | ctx h =>
      cases g <;> dsimp only <;> split
      all_goals first | exact hm _ _ hs | skip
      all_goals split
      all_goals first | exact hm _ _ hs | skip
      all_goals split
      all_goals first | exact ht _ _ hs | (next u x e => exact (hc _ u x e).1 h)
    | main =>
      cases g <;> dsimp only <;> split
      all_goals first | exact hm _ _ hs | skip
      all_goals split
      all_goals first | exact hm _ _ hs | skip
      all_goals split
      all_goals first | exact ht _ _ hs | (next u x e => exact (hc _ u x e).2 _)

end Sys2Proof.Machine
end

