-- ==== Sys2Proof/Laws/Words.lean ====
section
/-! SUPPORT. How a word runs: a C-class word with its guard, tokens and registers there comes to its effect (R278, R279, R300), and a
word routed into an empty queue issues at once (R173 to R180). -/

namespace Sys2Proof.Machine

/-- Nothing is tainted in a core without marks. -/
theorem Core.tainted_unmarked (c : Core) (l) (h : c.unmarked) : c.tainted l = false := by
  simp [Core.tainted, h.1, h.2]

/-- A C-class word whose effect succeeds goes on at the next word. -/
theorem cWord_ok (s s' : State) (t g j len eff) (h : s.cRuns t g j) (he : eff s = .ok s') :
    cWord t g j len eff s = s'.modCore s.focusCore (fun c => c.cDone s.focusStrand t (s.cur.pcOf s.focusStrand + len)) := by
  obtain ⟨h1, h2, h3, h4, h5⟩ := h
  simp [cWord, h1, h2, h4, h5, Core.tainted_unmarked _ _ h3, he]

/-- A C-class word whose effect is on its core alone. -/
theorem cWord_onCore (s : State) (t g j len) (f : Core → Core) (h : s.cRuns t g j) (eff) (he : eff s = onCore f s) :
    cWord t g j len eff s = s.ranC t len f := by
  rw [cWord_ok s (s.modCur f) t g j len eff h (by rw [he]; rfl), State.modCur_eq, State.modCore_eq, State.setCore_core, State.setCore_setCore]; rfl

theorem Core.queue_append (c : Core) (q len r) : (c.append q len r).queue q = c.queue q ++ [r] := by cases q <;> rfl
theorem Core.live_append (c : Core) (q len r) : (c.append q len r).live = c.live := by cases q <;> rfl
theorem Core.unmarked_append (c : Core) (q len r) (h : c.unmarked) : (c.append q len r).unmarked := by cases q <;> exact h
theorem Core.canPop_append (c : Core) (q len r k t) : (c.append q len r).canPop k t = c.canPop k t := by cases q <;> rfl
theorem Core.vload_append (c : Core) (q len r) (h : c.noVload q) : (c.append q len r).noVload q := by
  cases q <;> exact h

/-- Where no vector load may be replayed, an X word waits for none. -/
theorem Core.vloadPending_none (c : Core) (q r) (h : c.noVload q) : c.vloadPending q r = none := by
  unfold Core.vloadPending
  split
  · next hq =>
    rw [List.find?_eq_none]
    intro e he
    have := h hq e he
    cases hu : e.word.uop <;> simp [hu, Uop.isVload] at this ⊢
  · rfl

theorem State.repair_unmarked (s : State) (n l) (h : s.cores[n].unmarked) : s.repair n l = s := by
  have h2 := h.2
  unfold State.repair
  generalize s.cores[n] = c at h2
  simp [h2]

/-- The head of a queue, unmarked, with its tokens there: it issues, and leaves. -/
theorem State.issueRes_head (s s' : State) (n q) (r : Routed) (rest) (hq : s.cores[n].queue q = r :: rest) (hd : r.done = false) (hp : s.cores[n].canPop q.num r.tok = true)
    (hon : r.on = true) (hu : s.cores[n].unmarked) (hv : s.cores[n].noVload q) (he : execUop s n r = .ok s') :
    s.issueRes n q = .ok (s'.modCore n (s.kept n q r)) := by
  have hv' := Core.vloadPending_none s.cores[n] q r hv
  have ht := Core.tainted_unmarked s.cores[n] (r.uop.srcTags r.vtype) hu
  have hr := State.repair_unmarked s n (r.uop.srcTags r.vtype) hu
  unfold State.issueRes
  rw [hq]
  simp only [hr, hon, if_true, ht, hd, hp, hv', he]
  simp
  rfl

theorem State.issueHead_runs (s s' : State) (n q) (hl : s.cores[n].live = true) (h : s.issueRes n q = .ok s') : s.issueHead n q = s' := by
  unfold State.issueHead
  simp only [hl, h]
  simp

/-- A word put into an empty queue that is not held issues at once. -/
theorem State.put_runs (s s2 : State) (q t len) (r : Routed) (hq : s.cur.queue q = []) (hh : s.held[s.focusCore] = false) (hl : s.cur.live = true)
    (hu : s.cur.unmarked) (hv : s.cur.noVload q) (hp : s.cur.canPop q.num t = true) (ht : r.tok = t) (hd : r.done = false) (hon : r.on = true)
    (he : execUop (s.modCur (fun c => c.append q len r)) s.focusCore r = .ok s2) :
    s.put s.focusCore q len r = s2.modCore s.focusCore ((s.modCur (fun c => c.append q len r)).kept s.focusCore q r) := by
  have hf : (s.cores[s.focusCore].queue q).isEmpty = true := by
    change (s.cur.queue q).isEmpty = true; rw [hq]; rfl
  have hc : (s.modCore s.focusCore (fun c => c.append q len r)).cores[s.focusCore] = s.cur.append q len r := by
    rw [State.modCore_eq, State.setCore_core]; rfl
  have hh' : (s.modCore s.focusCore (fun c => c.append q len r)).held[s.focusCore] = false := hh
  unfold State.put
  simp only [hf, hh', Bool.not_false, Bool.and_self, if_true]
  apply State.issueHead_runs
  · rw [hc, Core.live_append]; exact hl
  · have := State.issueRes_head (s.modCore s.focusCore (fun c => c.append q len r)) s2 s.focusCore q r []
      (by rw [hc, Core.queue_append, hq]; rfl) hd (by rw [hc, Core.canPop_append, ht]; exact hp) hon (by rw [hc]; exact Core.unmarked_append _ _ _ _ hu)
      (by rw [hc]; exact Core.vload_append _ _ _ _ hv) he
    rw [this]; rfl


/-- A routed word that runs at once leaves what its effect leaves. -/
theorem routeWord_runs (s : State) (q t g j len rv) (cap) (u : Uop) (s1 s2 : State) (h : s.qRuns q t j) (h' : s1.qRuns q t j)
    (hg : ∀ x, g = some x → s.cur.rdP s.focusStrand x = true) (hcap : cap true s = .ok (s1, u))
    (hn : s1.focusCore = s.focusCore) (hst : s1.focusStrand = s.focusStrand) (hw : s1.word t u = s.word t u)
    (he : execUop (s1.atHead q t len u) s.focusCore (s1.word t u) = .ok s2) :
    routeWord q t g j len rv cap s = s1.leftHead s2 q t len u := by
  obtain ⟨h1, h2, h3⟩ := h
  obtain ⟨-, h2', h3'⟩ := h'
  cases hs : s.focusStrand with
  | ctx k =>
    rw [hs] at h1 hst hg
    simp only [State.atHead, hst] at he
    have hw' : s1.word t u = { s.cur.routed noTok true u with strand := .ctx k, idx := s.cur.hnd[k].pc, po := 0 } := by
      rw [hw]; simp only [State.word, hs]
    have hw1 : s1.word t u = { s1.cur.routed noTok true u with strand := .ctx k, idx := s1.cur.hnd[k].pc, po := 0 } := by
      simp only [State.word, hst]
    rw [hw1] at he
    have key : s1.handlerWord s.focusCore k len u = s1.leftHead s2 q t len u := by
      unfold State.handlerWord
      rw [← hn] at he ⊢
      have e : execUop s1 s1.focusCore { (s1.cores[s1.focusCore]).routed ⟨false, false, false, false⟩ true u with strand := .ctx k, idx := (s1.cores[s1.focusCore]).hnd[k].pc, po := 0 } = .ok s2 := he
      simp only [e, State.leftHead, hst]
    rw [← key]
    unfold routeWord
    rcases g with _ | x
    · simp only [hs, h1, Core.tainted_unmarked _ _ h2, hcap]; simp
    · simp only [hs, h1, Core.tainted_unmarked _ _ h2, hg x rfl, hcap]; simp
  | main =>
    obtain ⟨q1, q2, q3, q4, q5, q6, q7, q8⟩ := h3 hs
    rw [hs] at h1 hst hg
    obtain ⟨r1, r2, r3, r4, r5, r6, r7, r8⟩ := h3' hst
    have hq : ¬ (s.cur.img.slip ≤ ((s.cur.queue q).filter (fun r => !r.done)).length ∨ s.cur.hazard .main j = true ∨ (rv = true ∧ s.cur.ffPending = true)) := by
      simp [q3, q5, q6]; omega
    simp only [State.atHead, hst, ← hn] at he
    have hw' : s1.word t u = s.cur.routed t true u := by rw [hw]; simp only [State.word, hs]
    have := State.put_runs s1 s2 q t len (s1.word t u) r3 r2 r1 h2' r7 r8 (by rw [hw']; rfl) (by rw [hw']; rfl) (by rw [hw']; rfl) he
    have key : s1.put s.focusCore q len (s.cur.routed t true u) = s1.leftHead s2 q t len u := by
      rw [← hw', ← hn, this]
      simp only [State.leftHead, hst, State.atHead, State.modCur_eq]
    rw [← key]
    unfold routeWord
    rcases g with _ | x
    · simp only [hs, h1, Core.tainted_unmarked _ _ h2, hcap, hq]; simp
    · simp only [hs, h1, Core.tainted_unmarked _ _ h2, hg x rfl, hcap, hq]; simp
end Sys2Proof.Machine
end

