-- ==== Sys2Proof/Tests/Slice0.lean ====
section
/-! SUPPORT. Tests of one word or one event each: words written out from the spec's encodings (spec/11 R277 to R299, spec/23 to 26), the encoder's
refusals, small effects with results that the spec prints or that follow by hand, and a witness for every obligation that has hypotheses. -/

namespace Sys2Proof.Tests

set_option Elab.async false

open Sys2Proof Sys2Proof.Machine

/-! ### Words written out from the spec's encodings, with the token bits 0101 -/

abbrev tk : Tok := ⟨false, true, false, true⟩

theorem test_decode_major_00 :
    decodeWord 0x50114C30 = .ok (.add tk 2 5 6 3)
    ∧ decodeWord 0x50114C31 = .ok (.sub tk 2 5 6 3)
    ∧ decodeWord 0x50114C32 = .ok (.and tk 2 5 6 3)
    ∧ decodeWord 0x50114C33 = .ok (.or tk 2 5 6 3)
    ∧ decodeWord 0x50114C34 = .ok (.xor tk 2 5 6 3)
    ∧ decodeWord 0x50114C35 = .ok (.sll tk 2 5 6 3)
    ∧ decodeWord 0x50114C36 = .ok (.srl tk 2 5 6 3)
    ∧ decodeWord 0x50114C37 = .ok (.sra tk 2 5 6 3)
    ∧ decodeWord 0x50114C38 = .ok (.min tk 2 5 6 3)
    ∧ decodeWord 0x50114C39 = .ok (.max tk 2 5 6 3)
    ∧ decodeWord 0x50114C3A = .ok (.minN tk 2 5 6 3)
    ∧ decodeWord 0x50114C3B = .ok (.maxN tk 2 5 6 3)
    ∧ decodeWord 0x50114C3C = .ok (.addSat tk 2 5 6 3)
    ∧ decodeWord 0x50114C3D = .ok (.subSat tk 2 5 6 3)
    ∧ decodeWord 0x50114C3E = .ok (.andn tk 2 5 6 3)
    ∧ decodeWord 0x50114C3F = .ok (.ror tk 2 5 6 3) := by
  exact ⟨rfl, rfl, rfl, rfl, rfl, rfl, rfl, rfl, rfl, rfl, rfl, rfl, rfl, rfl, rfl, rfl⟩

theorem test_decode_major_01 :
    decodeWord 0x50414C4D = .ok (.addi tk 5 6 77)
    ∧ decodeWord 0x50494C4D = .ok (.andi tk 5 6 77)
    ∧ decodeWord 0x50514C4D = .ok (.ori tk 5 6 77)
    ∧ decodeWord 0x50594C4D = .ok (.xori tk 5 6 77)
    ∧ decodeWord 0x50614C4D = .ok (.slli tk 5 6 77)
    ∧ decodeWord 0x50694C4D = .ok (.srli tk 5 6 77)
    ∧ decodeWord 0x50714C4D = .ok (.srai tk 5 6 77)
    ∧ decodeWord 0x50794C4D = .ok (.rori tk 5 6 77) := by
  exact ⟨rfl, rfl, rfl, rfl, rfl, rfl, rfl, rfl⟩

theorem test_decode_major_02 :
    decodeWord 0x50914C30 = .ok (.mul tk 2 5 6 3)
    ∧ decodeWord 0x50914C31 = .ok (.mulh tk 2 5 6 3)
    ∧ decodeWord 0x50914C32 = .ok (.mulhN tk 2 5 6 3)
    ∧ decodeWord 0x50914C33 = .ok (.div tk 2 5 6 3)
    ∧ decodeWord 0x50914C34 = .ok (.divN tk 2 5 6 3)
    ∧ decodeWord 0x50914C35 = .ok (.rem tk 2 5 6 3)
    ∧ decodeWord 0x50914C36 = .ok (.remN tk 2 5 6 3)
    ∧ decodeWord 0x50914C07 = .ok (.clz tk 2 5 6)
    ∧ decodeWord 0x50914C08 = .ok (.ctz tk 2 5 6)
    ∧ decodeWord 0x50914C09 = .ok (.cpop tk 2 5 6)
    ∧ decodeWord 0x50914C0A = .ok (.sextB tk 2 5 6)
    ∧ decodeWord 0x50914C0B = .ok (.sextH tk 2 5 6)
    ∧ decodeWord 0x50914C0C = .ok (.sextW tk 2 5 6)
    ∧ decodeWord 0x50914C0D = .ok (.zextB tk 2 5 6)
    ∧ decodeWord 0x50914C0E = .ok (.zextH tk 2 5 6)
    ∧ decodeWord 0x50914C0F = .ok (.zextW tk 2 5 6) := by
  exact ⟨rfl, rfl, rfl, rfl, rfl, rfl, rfl, rfl, rfl, rfl, rfl, rfl, rfl, rfl, rfl, rfl⟩

theorem test_decode_major_03 :
    decodeWord 0x50D1404D = .ok (.lim tk 2 5 77) := by
  rfl

theorem test_decode_major_04 :
    decodeWord 0x012F00F1 = .ok (.ext 3080433) := by
  rfl

theorem test_decode_major_05 :
    decodeWord 0x51514C30 = .ok (.cmpEq tk 2 5 6 3)
    ∧ decodeWord 0x51514C31 = .ok (.cmpNe tk 2 5 6 3)
    ∧ decodeWord 0x51514C32 = .ok (.cmpLt tk 2 5 6 3)
    ∧ decodeWord 0x51514C33 = .ok (.cmpGe tk 2 5 6 3)
    ∧ decodeWord 0x51514C34 = .ok (.cmpLtN tk 2 5 6 3)
    ∧ decodeWord 0x51514C35 = .ok (.cmpGeN tk 2 5 6 3)
    ∧ decodeWord 0x51514C36 = .ok (.tbit tk 2 5 6 3) := by
  exact ⟨rfl, rfl, rfl, rfl, rfl, rfl, rfl⟩

theorem test_decode_major_06 :
    decodeWord 0x51914C30 = .ok (.pand tk 2 5 6 3)
    ∧ decodeWord 0x51914C31 = .ok (.por tk 2 5 6 3)
    ∧ decodeWord 0x51914C32 = .ok (.pxor tk 2 5 6 3)
    ∧ decodeWord 0x51914C33 = .ok (.pandn tk 2 5 6 3)
    ∧ decodeWord 0x51914C04 = .ok (.pnot tk 2 5 6)
    ∧ decodeWord 0x51914005 = .ok (.pset tk 2 5)
    ∧ decodeWord 0x51914006 = .ok (.pclr tk 2 5) := by
  exact ⟨rfl, rfl, rfl, rfl, rfl, rfl, rfl⟩

theorem test_decode_major_07 :
    decodeWord 0x51D00133 = .ok (.br tk 2 307) := by
  rfl

theorem test_decode_major_08 :
    decodeWord 0x52100133 = .ok (.call tk 2 307) := by
  rfl

theorem test_decode_major_09 :
    decodeWord 0x52500C00 = .ok (.jmp tk 2 6)
    ∧ decodeWord 0x52500001 = .ok (.ret tk 2)
    ∧ decodeWord 0x52500C02 = .ok (.callr tk 2 6) := by
  exact ⟨rfl, rfl, rfl⟩

theorem test_decode_major_0A :
    decodeWord 0x5290804D = .ok (.loop tk 2 2 77)
    ∧ decodeWord 0x5291A133 = .ok (.brl tk 2 2 2 307)
    ∧ decodeWord 0x52920000 = .ok (.rot tk 2)
    ∧ decodeWord 0x52938006 = .ok (.lcset tk 2 2 6)
    ∧ decodeWord 0x52948005 = .ok (.lcrd tk 2 2 5) := by
  exact ⟨rfl, rfl, rfl, rfl, rfl⟩

theorem test_decode_major_0B :
    decodeWord 0x52D14001 = .ok (.mfs tk 2 5 1)
    ∧ decodeWord 0x52D18401 = .ok (.mts tk 2 6 1)
    ∧ decodeWord 0x52D0084D = .ok (.trap tk 2 77)
    ∧ decodeWord 0x52D00C02 = .ok (.eret tk 2 2)
    ∧ decodeWord 0x52D01000 = .ok (.yield tk 2)
    ∧ decodeWord 0x52D01400 = .ok (.tail tk 2)
    ∧ decodeWord 0x52D01800 = .ok (.tsm tk 2) := by
  exact ⟨rfl, rfl, rfl, rfl, rfl, rfl, rfl⟩

theorem test_decode_major_0C :
    decodeWord 0x53240000 = .ok (.fenceRel tk 9)
    ∧ decodeWord 0x53240001 = .ok (.fenceAcq tk 9)
    ∧ decodeWord 0x53240002 = .ok (.fenceAr tk 9)
    ∧ decodeWord 0x5324A61B = .ok (.barWait tk 9 5 6 3)
    ∧ decodeWord 0x5300A61C = .ok (.blaze tk 5 6 3)
    ∧ decodeWord 0x53000005 = .ok (.join tk)
    ∧ decodeWord 0x5301261E = .ok (.tlwait tk 9 6 3)
    ∧ decodeWord 0x5300A907 = .ok (.tlrd tk 5 9) := by
  exact ⟨rfl, rfl, rfl, rfl, rfl, rfl, rfl, rfl⟩

theorem test_decode_major_0D :
    decodeWord 0x53514C30 = .ok (.enq tk 2 5 6 3)
    ∧ decodeWord 0x53514C01 = .ok (.scopeLd tk 2 5 6)
    ∧ decodeWord 0x53500002 = .ok (.cinv tk 2) := by
  exact ⟨rfl, rfl, rfl⟩

theorem test_decode_major_0E :
    decodeWord 0x53814C4D = .ok (.vset tk 5 6 77)
    ∧ decodeWord 0x5389404D = .ok (.vsetMax tk 5 77) := by
  exact ⟨rfl, rfl⟩

theorem test_decode_major_10 :
    decodeWord 0x54014D33 = .ok (.ldBG tk 5 6 307)
    ∧ decodeWord 0x54094D33 = .ok (.ldHG tk 5 6 307)
    ∧ decodeWord 0x54114D33 = .ok (.ldWG tk 5 6 307)
    ∧ decodeWord 0x54194D33 = .ok (.ldDG tk 5 6 307)
    ∧ decodeWord 0x54214D33 = .ok (.ldBNG tk 5 6 307)
    ∧ decodeWord 0x54294D33 = .ok (.ldHNG tk 5 6 307)
    ∧ decodeWord 0x54314D33 = .ok (.ldWNG tk 5 6 307) := by
  exact ⟨rfl, rfl, rfl, rfl, rfl, rfl, rfl⟩

theorem test_decode_major_11 :
    decodeWord 0x54414D33 = .ok (.ldBX tk 5 6 307)
    ∧ decodeWord 0x54494D33 = .ok (.ldHX tk 5 6 307)
    ∧ decodeWord 0x54514D33 = .ok (.ldWX tk 5 6 307)
    ∧ decodeWord 0x54594D33 = .ok (.ldDX tk 5 6 307)
    ∧ decodeWord 0x54614D33 = .ok (.ldBNX tk 5 6 307)
    ∧ decodeWord 0x54694D33 = .ok (.ldHNX tk 5 6 307)
    ∧ decodeWord 0x54714D33 = .ok (.ldWNX tk 5 6 307) := by
  exact ⟨rfl, rfl, rfl, rfl, rfl, rfl, rfl⟩

theorem test_decode_major_12 :
    decodeWord 0x54814D33 = .ok (.ldBL tk 5 6 307)
    ∧ decodeWord 0x54894D33 = .ok (.ldHL tk 5 6 307)
    ∧ decodeWord 0x54914D33 = .ok (.ldWL tk 5 6 307)
    ∧ decodeWord 0x54994D33 = .ok (.ldDL tk 5 6 307)
    ∧ decodeWord 0x54A14D33 = .ok (.ldBNL tk 5 6 307)
    ∧ decodeWord 0x54A94D33 = .ok (.ldHNL tk 5 6 307)
    ∧ decodeWord 0x54B14D33 = .ok (.ldWNL tk 5 6 307) := by
  exact ⟨rfl, rfl, rfl, rfl, rfl, rfl, rfl⟩

theorem test_decode_major_13 :
    decodeWord 0x54D14C30 = .ok (.ldBGRr tk 2 5 6 3)
    ∧ decodeWord 0x54D14C31 = .ok (.ldHGRr tk 2 5 6 3)
    ∧ decodeWord 0x54D14C32 = .ok (.ldWGRr tk 2 5 6 3)
    ∧ decodeWord 0x54D14C33 = .ok (.ldDGRr tk 2 5 6 3)
    ∧ decodeWord 0x54D14C34 = .ok (.ldBXRr tk 2 5 6 3)
    ∧ decodeWord 0x54D14C35 = .ok (.ldHXRr tk 2 5 6 3)
    ∧ decodeWord 0x54D14C36 = .ok (.ldWXRr tk 2 5 6 3)
    ∧ decodeWord 0x54D14C37 = .ok (.ldDXRr tk 2 5 6 3)
    ∧ decodeWord 0x54D14C38 = .ok (.ldBLRr tk 2 5 6 3)
    ∧ decodeWord 0x54D14C39 = .ok (.ldHLRr tk 2 5 6 3)
    ∧ decodeWord 0x54D14C3A = .ok (.ldWLRr tk 2 5 6 3)
    ∧ decodeWord 0x54D14C3B = .ok (.ldDLRr tk 2 5 6 3) := by
  exact ⟨rfl, rfl, rfl, rfl, rfl, rfl, rfl, rfl, rfl, rfl, rfl, rfl⟩

theorem test_decode_major_14 :
    decodeWord 0x55114C30 = .ok (.vldG tk 2 5 6 3)
    ∧ decodeWord 0x55114C31 = .ok (.vldsG tk 2 5 6 3)
    ∧ decodeWord 0x55114C32 = .ok (.vldxG tk 2 5 6 3)
    ∧ decodeWord 0x55114C33 = .ok (.vldFfG tk 2 5 6 3)
    ∧ decodeWord 0x55114C34 = .ok (.vldX tk 2 5 6 3)
    ∧ decodeWord 0x55114C35 = .ok (.vldsX tk 2 5 6 3)
    ∧ decodeWord 0x55114C36 = .ok (.vldxX tk 2 5 6 3)
    ∧ decodeWord 0x55114C37 = .ok (.vldFfX tk 2 5 6 3)
    ∧ decodeWord 0x55114C38 = .ok (.vldL tk 2 5 6 3)
    ∧ decodeWord 0x55114C39 = .ok (.vldsL tk 2 5 6 3)
    ∧ decodeWord 0x55114C3A = .ok (.vldxL tk 2 5 6 3)
    ∧ decodeWord 0x55114C3B = .ok (.vldFfL tk 2 5 6 3) := by
  exact ⟨rfl, rfl, rfl, rfl, rfl, rfl, rfl, rfl, rfl, rfl, rfl, rfl⟩

theorem test_decode_major_15 :
    decodeWord 0x55414D33 = .ok (.ldcB tk 5 6 307)
    ∧ decodeWord 0x55494D33 = .ok (.ldcH tk 5 6 307)
    ∧ decodeWord 0x55514D33 = .ok (.ldcW tk 5 6 307)
    ∧ decodeWord 0x55594D33 = .ok (.ldcD tk 5 6 307)
    ∧ decodeWord 0x55614D33 = .ok (.ldcBN tk 5 6 307)
    ∧ decodeWord 0x55694D33 = .ok (.ldcHN tk 5 6 307)
    ∧ decodeWord 0x55714D33 = .ok (.ldcWN tk 5 6 307) := by
  exact ⟨rfl, rfl, rfl, rfl, rfl, rfl, rfl⟩

theorem test_decode_major_16 :
    decodeWord 0x55914C31 = .ok (.cpy tk 2 5 6 3 1)
    ∧ decodeWord 0x55914C33 = .ok (.cpyA tk 2 5 6 3 1)
    ∧ decodeWord 0x55914C35 = .ok (.cpyB tk 2 5 6 3 1) := by
  exact ⟨rfl, rfl, rfl⟩

theorem test_decode_major_17 :
    decodeWord 0x55E4A618 = .ok (.flgetX tk 9 5 6 3)
    ∧ decodeWord 0x55E4A601 = .ok (.flgetV tk 9 5 6) := by
  exact ⟨rfl, rfl⟩

theorem test_decode_major_18 :
    decodeWord 0x56114C30 = .ok (.ring tk 2 5 6 3) := by
  rfl

theorem test_decode_major_19 :
    decodeWord 0x56400D33 = .ok (.pfL1 tk 6 307)
    ∧ decodeWord 0x56480D33 = .ok (.pfCrew tk 6 307)
    ∧ decodeWord 0x56500D33 = .ok (.lrenew tk 6 307) := by
  exact ⟨rfl, rfl, rfl⟩

theorem test_decode_major_20 :
    decodeWord 0x58114C30 = .ok (.vadd tk 2 5 6 3)
    ∧ decodeWord 0x58114C31 = .ok (.vsub tk 2 5 6 3)
    ∧ decodeWord 0x58114C32 = .ok (.vmul tk 2 5 6 3)
    ∧ decodeWord 0x58114C33 = .ok (.vmulh tk 2 5 6 3)
    ∧ decodeWord 0x58114C34 = .ok (.vand tk 2 5 6 3)
    ∧ decodeWord 0x58114C35 = .ok (.vor tk 2 5 6 3)
    ∧ decodeWord 0x58114C36 = .ok (.vxor tk 2 5 6 3)
    ∧ decodeWord 0x58114C37 = .ok (.vsll tk 2 5 6 3)
    ∧ decodeWord 0x58114C38 = .ok (.vsrl tk 2 5 6 3)
    ∧ decodeWord 0x58114C39 = .ok (.vsra tk 2 5 6 3)
    ∧ decodeWord 0x58114C3A = .ok (.vmin tk 2 5 6 3)
    ∧ decodeWord 0x58114C3B = .ok (.vmax tk 2 5 6 3)
    ∧ decodeWord 0x58114C3C = .ok (.vminN tk 2 5 6 3)
    ∧ decodeWord 0x58114C3D = .ok (.vmaxN tk 2 5 6 3)
    ∧ decodeWord 0x58114C3E = .ok (.vaddSat tk 2 5 6 3)
    ∧ decodeWord 0x58114C3F = .ok (.vsubSat tk 2 5 6 3) := by
  exact ⟨rfl, rfl, rfl, rfl, rfl, rfl, rfl, rfl, rfl, rfl, rfl, rfl, rfl, rfl, rfl, rfl⟩

theorem test_decode_major_21 :
    decodeWord 0x58514C30 = .ok (.vaddS tk 2 5 6 3)
    ∧ decodeWord 0x58514C31 = .ok (.vsubS tk 2 5 6 3)
    ∧ decodeWord 0x58514C32 = .ok (.vrsubS tk 2 5 6 3)
    ∧ decodeWord 0x58514C33 = .ok (.vmulS tk 2 5 6 3)
    ∧ decodeWord 0x58514C34 = .ok (.vandS tk 2 5 6 3)
    ∧ decodeWord 0x58514C35 = .ok (.vorS tk 2 5 6 3)
    ∧ decodeWord 0x58514C36 = .ok (.vxorS tk 2 5 6 3)
    ∧ decodeWord 0x58514C37 = .ok (.vsllS tk 2 5 6 3)
    ∧ decodeWord 0x58514C38 = .ok (.vsrlS tk 2 5 6 3)
    ∧ decodeWord 0x58514C39 = .ok (.vsraS tk 2 5 6 3)
    ∧ decodeWord 0x58514C3A = .ok (.vminS tk 2 5 6 3)
    ∧ decodeWord 0x58514C3B = .ok (.vmaxS tk 2 5 6 3)
    ∧ decodeWord 0x58514C3C = .ok (.vminNS tk 2 5 6 3)
    ∧ decodeWord 0x58514C3D = .ok (.vmaxNS tk 2 5 6 3)
    ∧ decodeWord 0x58514C3E = .ok (.vaddSatS tk 2 5 6 3)
    ∧ decodeWord 0x58514C3F = .ok (.vaddSatNS tk 2 5 6 3) := by
  exact ⟨rfl, rfl, rfl, rfl, rfl, rfl, rfl, rfl, rfl, rfl, rfl, rfl, rfl, rfl, rfl, rfl⟩

theorem test_decode_major_22 :
    decodeWord 0x58914C30 = .ok (.vfadd tk 2 5 6 3)
    ∧ decodeWord 0x58914C31 = .ok (.vfsub tk 2 5 6 3)
    ∧ decodeWord 0x58914C32 = .ok (.vfmul tk 2 5 6 3)
    ∧ decodeWord 0x58914C33 = .ok (.vfmin tk 2 5 6 3)
    ∧ decodeWord 0x58914C34 = .ok (.vfmax tk 2 5 6 3)
    ∧ decodeWord 0x58914C05 = .ok (.vfabs tk 2 5 6)
    ∧ decodeWord 0x58914C06 = .ok (.vfneg tk 2 5 6)
    ∧ decodeWord 0x58914C37 = .ok (.vfaddS tk 2 5 6 3)
    ∧ decodeWord 0x58914C38 = .ok (.vfmulS tk 2 5 6 3)
    ∧ decodeWord 0x58914C39 = .ok (.vfminS tk 2 5 6 3)
    ∧ decodeWord 0x58914C3A = .ok (.vfmaxS tk 2 5 6 3) := by
  exact ⟨rfl, rfl, rfl, rfl, rfl, rfl, rfl, rfl, rfl, rfl, rfl⟩

theorem test_decode_major_23 :
    decodeWord 0x58D14C30 = .ok (.vfma tk 2 5 6 3)
    ∧ decodeWord 0x58D14C31 = .ok (.vfms tk 2 5 6 3)
    ∧ decodeWord 0x58D14C32 = .ok (.vfnms tk 2 5 6 3)
    ∧ decodeWord 0x58D14C33 = .ok (.vfnma tk 2 5 6 3)
    ∧ decodeWord 0x58D14C34 = .ok (.vfmaS tk 2 5 6 3)
    ∧ decodeWord 0x58D14C35 = .ok (.vmacc tk 2 5 6 3)
    ∧ decodeWord 0x58D14C36 = .ok (.vmaccS tk 2 5 6 3) := by
  exact ⟨rfl, rfl, rfl, rfl, rfl, rfl, rfl⟩

theorem test_decode_major_24 :
    decodeWord 0x59114C30 = .ok (.vcmpEq tk 2 5 6 3)
    ∧ decodeWord 0x59114C31 = .ok (.vcmpNe tk 2 5 6 3)
    ∧ decodeWord 0x59114C32 = .ok (.vcmpLt tk 2 5 6 3)
    ∧ decodeWord 0x59114C33 = .ok (.vcmpLe tk 2 5 6 3)
    ∧ decodeWord 0x59114C34 = .ok (.vcmpLtN tk 2 5 6 3)
    ∧ decodeWord 0x59114C35 = .ok (.vcmpLeN tk 2 5 6 3)
    ∧ decodeWord 0x59114C36 = .ok (.vfcmpEq tk 2 5 6 3)
    ∧ decodeWord 0x59114C37 = .ok (.vfcmpLt tk 2 5 6 3)
    ∧ decodeWord 0x59114C38 = .ok (.vfcmpLe tk 2 5 6 3)
    ∧ decodeWord 0x59114C39 = .ok (.vfcmpUn tk 2 5 6 3)
    ∧ decodeWord 0x59114C3A = .ok (.vcmpEqS tk 2 5 6 3)
    ∧ decodeWord 0x59114C3B = .ok (.vcmpLtS tk 2 5 6 3)
    ∧ decodeWord 0x59114C3C = .ok (.vcmpGtS tk 2 5 6 3)
    ∧ decodeWord 0x59114C3D = .ok (.vfcmpLtS tk 2 5 6 3)
    ∧ decodeWord 0x59114C3E = .ok (.vfcmpGtS tk 2 5 6 3) := by
  exact ⟨rfl, rfl, rfl, rfl, rfl, rfl, rfl, rfl, rfl, rfl, rfl, rfl, rfl, rfl, rfl⟩

theorem test_decode_major_25 :
    decodeWord 0x59414C30 = .ok (.kand tk 5 6 3)
    ∧ decodeWord 0x59414C31 = .ok (.kor tk 5 6 3)
    ∧ decodeWord 0x59414C32 = .ok (.kxor tk 5 6 3)
    ∧ decodeWord 0x59414C33 = .ok (.kandn tk 5 6 3)
    ∧ decodeWord 0x59414C04 = .ok (.knot tk 5 6)
    ∧ decodeWord 0x59414005 = .ok (.kset tk 5)
    ∧ decodeWord 0x59414006 = .ok (.kclr tk 5) := by
  exact ⟨rfl, rfl, rfl, rfl, rfl, rfl, rfl⟩

theorem test_decode_major_26 :
    decodeWord 0x59914D80 = .ok (.vcvtF32 tk 2 5 6 1 2)
    ∧ decodeWord 0x59914D81 = .ok (.vcvtBf16 tk 2 5 6 1 2)
    ∧ decodeWord 0x59914D82 = .ok (.vcvtF16 tk 2 5 6 1 2)
    ∧ decodeWord 0x59914D83 = .ok (.vcvtE4m3 tk 2 5 6 1 2)
    ∧ decodeWord 0x59914D84 = .ok (.vcvtE5m2 tk 2 5 6 1 2)
    ∧ decodeWord 0x59914D85 = .ok (.vcvtE2m1 tk 2 5 6 1 2)
    ∧ decodeWord 0x59914D86 = .ok (.vcvtEfE4m3 tk 2 5 6 1 2)
    ∧ decodeWord 0x59914D87 = .ok (.vcvtEfE2m1 tk 2 5 6 1 2)
    ∧ decodeWord 0x59914D88 = .ok (.vcvtEfBf16 tk 2 5 6 1 2)
    ∧ decodeWord 0x59914D89 = .ok (.vwidE4m3 tk 2 5 6 1 2)
    ∧ decodeWord 0x59914D8A = .ok (.vwidE5m2 tk 2 5 6 1 2)
    ∧ decodeWord 0x59914D8B = .ok (.vwidE2m1 tk 2 5 6 1 2)
    ∧ decodeWord 0x59914D8C = .ok (.vcvtFI tk 2 5 6 1 2)
    ∧ decodeWord 0x59914D8D = .ok (.vcvtFN tk 2 5 6 1 2)
    ∧ decodeWord 0x59914D8E = .ok (.vcvtIF tk 2 5 6 1 2)
    ∧ decodeWord 0x59914D8F = .ok (.vcvtNF tk 2 5 6 1 2) := by
  exact ⟨rfl, rfl, rfl, rfl, rfl, rfl, rfl, rfl, rfl, rfl, rfl, rfl, rfl, rfl, rfl, rfl⟩

theorem test_decode_major_27 :
    decodeWord 0x59D14C30 = .ok (.vslideup tk 2 5 6 3)
    ∧ decodeWord 0x59D14C31 = .ok (.vslidedn tk 2 5 6 3)
    ∧ decodeWord 0x59D14C32 = .ok (.vgatherC tk 2 5 6 3)
    ∧ decodeWord 0x59D14C33 = .ok (.vbcastC tk 2 5 6 3)
    ∧ decodeWord 0x59D14C34 = .ok (.vgatherR tk 2 5 6 3)
    ∧ decodeWord 0x59D14C35 = .ok (.vrotR tk 2 5 6 3)
    ∧ decodeWord 0x59D14C36 = .ok (.vbcastR tk 2 5 6 3)
    ∧ decodeWord 0x59D14C07 = .ok (.vtr16 tk 2 5 6) := by
  exact ⟨rfl, rfl, rfl, rfl, rfl, rfl, rfl, rfl⟩

theorem test_decode_major_28 :
    decodeWord 0x5A114C00 = .ok (.vredsumC tk 2 5 6)
    ∧ decodeWord 0x5A114C01 = .ok (.vredmaxC tk 2 5 6)
    ∧ decodeWord 0x5A114C02 = .ok (.vredminC tk 2 5 6)
    ∧ decodeWord 0x5A114C03 = .ok (.vredmaxNC tk 2 5 6)
    ∧ decodeWord 0x5A114C04 = .ok (.vfredsumC tk 2 5 6)
    ∧ decodeWord 0x5A114C05 = .ok (.vfredmaxC tk 2 5 6)
    ∧ decodeWord 0x5A114C06 = .ok (.vfredminC tk 2 5 6)
    ∧ decodeWord 0x5A114C07 = .ok (.vredsumR tk 2 5 6)
    ∧ decodeWord 0x5A114C08 = .ok (.vredmaxR tk 2 5 6)
    ∧ decodeWord 0x5A114C09 = .ok (.vredminR tk 2 5 6)
    ∧ decodeWord 0x5A114C0A = .ok (.vredmaxNR tk 2 5 6)
    ∧ decodeWord 0x5A114C0B = .ok (.vfredsumR tk 2 5 6)
    ∧ decodeWord 0x5A114C0C = .ok (.vfredmaxR tk 2 5 6)
    ∧ decodeWord 0x5A114C0D = .ok (.vfredminR tk 2 5 6)
    ∧ decodeWord 0x5A114C0E = .ok (.vredminNC tk 2 5 6)
    ∧ decodeWord 0x5A114C0F = .ok (.vredminNR tk 2 5 6) := by
  exact ⟨rfl, rfl, rfl, rfl, rfl, rfl, rfl, rfl, rfl, rfl, rfl, rfl, rfl, rfl, rfl, rfl⟩

theorem test_decode_major_29 :
    decodeWord 0x5A514C00 = .ok (.vexp2 tk 2 5 6)
    ∧ decodeWord 0x5A514C01 = .ok (.vlog2 tk 2 5 6)
    ∧ decodeWord 0x5A514C02 = .ok (.vrcp tk 2 5 6)
    ∧ decodeWord 0x5A514C03 = .ok (.vrsqrt tk 2 5 6)
    ∧ decodeWord 0x5A514C04 = .ok (.vtanh tk 2 5 6) := by
  exact ⟨rfl, rfl, rfl, rfl, rfl⟩

theorem test_decode_major_2A :
    decodeWord 0x5A914C00 = .ok (.vmov tk 2 5 6)
    ∧ decodeWord 0x5A914031 = .ok (.vmovS tk 2 5 3)
    ∧ decodeWord 0x5A914C32 = .ok (.vsel tk 2 5 6 3)
    ∧ decodeWord 0x5A914C03 = .ok (.vmovk tk 2 5 6)
    ∧ decodeWord 0x5A914C04 = .ok (.vmovv tk 2 5 6)
    ∧ decodeWord 0x5A914005 = .ok (.vid tk 2 5)
    ∧ decodeWord 0x5A914006 = .ok (.vrid tk 2 5)
    ∧ decodeWord 0x5A915A07 = .ok (.vmovi tk 2 5 13) := by
  exact ⟨rfl, rfl, rfl, rfl, rfl, rfl, rfl, rfl⟩

theorem test_decode_major_2B :
    decodeWord 0x5AD14C00 = .ok (.mcfg tk 2 5 6)
    ∧ decodeWord 0x5AD00001 = .ok (.mcfgz tk 2) := by
  exact ⟨rfl, rfl⟩

theorem test_decode_major_2C :
    decodeWord 0x5B114000 = .ok (.mgo tk 2 5)
    ∧ decodeWord 0x5B114001 = .ok (.mstat tk 2 5)
    ∧ decodeWord 0x5B114C32 = .ok (.accrd tk 2 5 6 3)
    ∧ decodeWord 0x5B114003 = .ok (.acczero tk 2 5)
    ∧ decodeWord 0x5B114C34 = .ok (.accwr tk 2 5 6 3) := by
  exact ⟨rfl, rfl, rfl, rfl, rfl⟩

theorem test_decode_major_2D :
    decodeWord 0x5B514C00 = .ok (.wcfg tk 2 5 6)
    ∧ decodeWord 0x5B500C01 = .ok (.wgo tk 2 6) := by
  exact ⟨rfl, rfl⟩

theorem test_decode_major_2E :
    decodeWord 0x5B914C00 = .ok (.ftld tk 2 5 6)
    ∧ decodeWord 0x5B914001 = .ok (.ftclr tk 2 5)
    ∧ decodeWord 0x5B914C02 = .ok (.ftrd tk 2 5 6)
    ∧ decodeWord 0x5B914003 = .ok (.ftmon tk 2 5) := by
  exact ⟨rfl, rfl, rfl, rfl⟩

theorem test_decode_major_30 :
    decodeWord 0x5C014D33 = .ok (.stBG tk 5 6 307)
    ∧ decodeWord 0x5C094D33 = .ok (.stHG tk 5 6 307)
    ∧ decodeWord 0x5C114D33 = .ok (.stWG tk 5 6 307)
    ∧ decodeWord 0x5C194D33 = .ok (.stDG tk 5 6 307) := by
  exact ⟨rfl, rfl, rfl, rfl⟩

theorem test_decode_major_31 :
    decodeWord 0x5C414D33 = .ok (.stBX tk 5 6 307)
    ∧ decodeWord 0x5C494D33 = .ok (.stHX tk 5 6 307)
    ∧ decodeWord 0x5C514D33 = .ok (.stWX tk 5 6 307)
    ∧ decodeWord 0x5C594D33 = .ok (.stDX tk 5 6 307) := by
  exact ⟨rfl, rfl, rfl, rfl⟩

theorem test_decode_major_32 :
    decodeWord 0x5C814D33 = .ok (.stBL tk 5 6 307)
    ∧ decodeWord 0x5C894D33 = .ok (.stHL tk 5 6 307)
    ∧ decodeWord 0x5C914D33 = .ok (.stWL tk 5 6 307)
    ∧ decodeWord 0x5C994D33 = .ok (.stDL tk 5 6 307) := by
  exact ⟨rfl, rfl, rfl, rfl⟩

theorem test_decode_major_33 :
    decodeWord 0x5CD14C30 = .ok (.stBGRr tk 2 5 6 3)
    ∧ decodeWord 0x5CD14C31 = .ok (.stHGRr tk 2 5 6 3)
    ∧ decodeWord 0x5CD14C32 = .ok (.stWGRr tk 2 5 6 3)
    ∧ decodeWord 0x5CD14C33 = .ok (.stDGRr tk 2 5 6 3)
    ∧ decodeWord 0x5CD14C34 = .ok (.stBXRr tk 2 5 6 3)
    ∧ decodeWord 0x5CD14C35 = .ok (.stHXRr tk 2 5 6 3)
    ∧ decodeWord 0x5CD14C36 = .ok (.stWXRr tk 2 5 6 3)
    ∧ decodeWord 0x5CD14C37 = .ok (.stDXRr tk 2 5 6 3)
    ∧ decodeWord 0x5CD14C38 = .ok (.stBLRr tk 2 5 6 3)
    ∧ decodeWord 0x5CD14C39 = .ok (.stHLRr tk 2 5 6 3)
    ∧ decodeWord 0x5CD14C3A = .ok (.stWLRr tk 2 5 6 3)
    ∧ decodeWord 0x5CD14C3B = .ok (.stDLRr tk 2 5 6 3) := by
  exact ⟨rfl, rfl, rfl, rfl, rfl, rfl, rfl, rfl, rfl, rfl, rfl, rfl⟩

theorem test_decode_major_34 :
    decodeWord 0x5D114C30 = .ok (.vstG tk 2 5 6 3)
    ∧ decodeWord 0x5D114C31 = .ok (.vstsG tk 2 5 6 3)
    ∧ decodeWord 0x5D114C32 = .ok (.vstxG tk 2 5 6 3)
    ∧ decodeWord 0x5D114C33 = .ok (.vstNtG tk 2 5 6 3)
    ∧ decodeWord 0x5D114C34 = .ok (.vstX tk 2 5 6 3)
    ∧ decodeWord 0x5D114C35 = .ok (.vstsX tk 2 5 6 3)
    ∧ decodeWord 0x5D114C36 = .ok (.vstxX tk 2 5 6 3)
    ∧ decodeWord 0x5D114C38 = .ok (.vstL tk 2 5 6 3)
    ∧ decodeWord 0x5D114C39 = .ok (.vstsL tk 2 5 6 3)
    ∧ decodeWord 0x5D114C3A = .ok (.vstxL tk 2 5 6 3) := by
  exact ⟨rfl, rfl, rfl, rfl, rfl, rfl, rfl, rfl, rfl, rfl⟩

theorem test_decode_major_35 :
    decodeWord 0x5D64A600 = .ok (.amoLdW tk 9 5 6)
    ∧ decodeWord 0x5D640619 = .ok (.amoStW tk 9 6 3)
    ∧ decodeWord 0x5D64A61A = .ok (.amoSwapW tk 9 5 6 3)
    ∧ decodeWord 0x5D64A61B = .ok (.amoCasW tk 9 5 6 3)
    ∧ decodeWord 0x5D64A61C = .ok (.amoAddW tk 9 5 6 3)
    ∧ decodeWord 0x5D64A61D = .ok (.amoOrW tk 9 5 6 3)
    ∧ decodeWord 0x5D64A61E = .ok (.amoMinW tk 9 5 6 3)
    ∧ decodeWord 0x5D64A61F = .ok (.amoMaxW tk 9 5 6 3) := by
  exact ⟨rfl, rfl, rfl, rfl, rfl, rfl, rfl, rfl⟩

theorem test_decode_major_36 :
    decodeWord 0x5DA4A600 = .ok (.amoLdD tk 9 5 6)
    ∧ decodeWord 0x5DA40619 = .ok (.amoStD tk 9 6 3)
    ∧ decodeWord 0x5DA4A61A = .ok (.amoSwapD tk 9 5 6 3)
    ∧ decodeWord 0x5DA4A61B = .ok (.amoCasD tk 9 5 6 3)
    ∧ decodeWord 0x5DA4A61C = .ok (.amoAddD tk 9 5 6 3)
    ∧ decodeWord 0x5DA4A61D = .ok (.amoOrD tk 9 5 6 3)
    ∧ decodeWord 0x5DA4A61E = .ok (.amoMinD tk 9 5 6 3)
    ∧ decodeWord 0x5DA4A61F = .ok (.amoMaxD tk 9 5 6 3) := by
  exact ⟨rfl, rfl, rfl, rfl, rfl, rfl, rfl, rfl⟩

theorem test_decode_major_37 :
    decodeWord 0x5DE40618 = .ok (.redAddW tk 9 6 3)
    ∧ decodeWord 0x5DE40619 = .ok (.redAddD tk 9 6 3)
    ∧ decodeWord 0x5DE4061A = .ok (.redAddF32 tk 9 6 3)
    ∧ decodeWord 0x5DE4061B = .ok (.redMinW tk 9 6 3)
    ∧ decodeWord 0x5DE4061C = .ok (.redMaxW tk 9 6 3)
    ∧ decodeWord 0x5DE4061D = .ok (.redOrD tk 9 6 3)
    ∧ decodeWord 0x5DE4A61E = .ok (.lupd tk 9 5 6 3) := by
  exact ⟨rfl, rfl, rfl, rfl, rfl, rfl, rfl⟩

theorem test_decode_major_38 :
    decodeWord 0x5E240618 = .ok (.flput tk 9 6 3)
    ∧ decodeWord 0x5E24A619 = .ok (.push tk 9 5 6 3) := by
  exact ⟨rfl, rfl⟩

theorem test_decode_major_39 :
    decodeWord 0x5E64A600 = .ok (.barArrive tk 9 5 6) := by
  rfl

theorem test_decode_major_3A :
    decodeWord 0x5E900C00 = .ok (.cwb tk 2 6)
    ∧ decodeWord 0x5E900C01 = .ok (.cev tk 2 6)
    ∧ decodeWord 0x5E900002 = .ok (.l1inv tk 2) := by
  exact ⟨rfl, rfl, rfl⟩

/-! ### An ill-formed term for every check of `Instr.wf` -/

theorem test_wf_refuses_00 :
    ([.slli tk 1 1 64, .srli tk 1 1 64, .srai tk 1 1 64, .rori tk 1 1 64, .cmpEq tk 0 0 1 1, .cmpEq tk 0 8 1 1, .cmpNe tk 0 0 1 1, .cmpNe tk 0 8
      1 1, .cmpLt tk 0 0 1 1, .cmpLt tk 0 8 1 1, .cmpGe tk 0 0 1 1, .cmpGe tk 0 8 1 1, .cmpLtN tk 0 0 1 1, .cmpLtN tk 0 8 1 1, .cmpGeN tk 0 0 1
      1, .cmpGeN tk 0 8 1 1] : List Instr).all (fun i => !i.wf) = true := by decide

theorem test_wf_refuses_01 :
    ([.tbit tk 0 0 1 1, .tbit tk 0 8 1 1, .pand tk 0 0 1 1, .pand tk 0 8 1 1, .pand tk 0 1 8 1, .pand tk 0 1 1 8, .por tk 0 0 1 1, .por tk 0 8 1
      1, .por tk 0 1 8 1, .por tk 0 1 1 8, .pxor tk 0 0 1 1, .pxor tk 0 8 1 1, .pxor tk 0 1 8 1, .pxor tk 0 1 1 8, .pandn tk 0 0 1 1, .pandn tk 0
      8 1 1] : List Instr).all (fun i => !i.wf) = true := by decide

theorem test_wf_refuses_02 :
    ([.pandn tk 0 1 8 1, .pandn tk 0 1 1 8, .pnot tk 0 0 1, .pnot tk 0 8 1, .pnot tk 0 1 8, .pset tk 0 0, .pset tk 0 8, .pclr tk 0 0, .pclr tk 0
      8, .loop tk 0 1 0, .brl tk 0 1 0 0, .mfs tk 0 1 2, .mts tk 0 1 0, .eret tk 0 3, .blaze tk 0 0 0, .tlwait tk 8 1 1] : List Instr).all (fun i
      => !i.wf) = true := by decide

theorem test_wf_refuses_03 :
    ([.tlrd tk 1 8, .enq tk 0 0 8 1, .enq tk 0 8 8 1, .enq tk 0 1 9 1, .scopeLd tk 0 16 1, .vset tk 1 1 3, .vsetMax tk 1 3, .vcmpEq tk 0 0 1 1,
      .vcmpEq tk 0 8 1 1, .vcmpNe tk 0 0 1 1, .vcmpNe tk 0 8 1 1, .vcmpLt tk 0 0 1 1, .vcmpLt tk 0 8 1 1, .vcmpLe tk 0 0 1 1, .vcmpLe tk 0 8 1 1,
      .vcmpLtN tk 0 0 1 1] : List Instr).all (fun i => !i.wf) = true := by decide

theorem test_wf_refuses_04 :
    ([.vcmpLtN tk 0 8 1 1, .vcmpLeN tk 0 0 1 1, .vcmpLeN tk 0 8 1 1, .vfcmpEq tk 0 0 1 1, .vfcmpEq tk 0 8 1 1, .vfcmpLt tk 0 0 1 1, .vfcmpLt tk 0
      8 1 1, .vfcmpLe tk 0 0 1 1, .vfcmpLe tk 0 8 1 1, .vfcmpUn tk 0 0 1 1, .vfcmpUn tk 0 8 1 1, .vcmpEqS tk 0 0 1 1, .vcmpEqS tk 0 8 1 1,
      .vcmpLtS tk 0 0 1 1, .vcmpLtS tk 0 8 1 1, .vcmpGtS tk 0 0 1 1] : List Instr).all (fun i => !i.wf) = true := by decide

theorem test_wf_refuses_05 :
    ([.vcmpGtS tk 0 8 1 1, .vfcmpLtS tk 0 0 1 1, .vfcmpLtS tk 0 8 1 1, .vfcmpGtS tk 0 0 1 1, .vfcmpGtS tk 0 8 1 1, .kand tk 0 1 1, .kand tk 8 1
      1, .kand tk 1 8 1, .kand tk 1 1 8, .kor tk 0 1 1, .kor tk 8 1 1, .kor tk 1 8 1, .kor tk 1 1 8, .kxor tk 0 1 1, .kxor tk 8 1 1, .kxor tk 1 8
      1] : List Instr).all (fun i => !i.wf) = true := by decide

theorem test_wf_refuses_06 :
    ([.kxor tk 1 1 8, .kandn tk 0 1 1, .kandn tk 8 1 1, .kandn tk 1 8 1, .kandn tk 1 1 8, .knot tk 0 1, .knot tk 8 1, .knot tk 1 8, .kset tk 0,
      .kset tk 8, .kclr tk 0, .kclr tk 8, .vcvtF32 tk 0 1 1 0 1, .vcvtBf16 tk 0 1 1 0 1, .vcvtF16 tk 0 1 1 0 1, .vcvtE4m3 tk 0 1 1 0 1] : List
      Instr).all (fun i => !i.wf) = true := by decide

theorem test_wf_refuses_07 :
    ([.vcvtE5m2 tk 0 1 1 0 1, .vcvtE2m1 tk 0 1 1 0 1, .vcvtEfE4m3 tk 0 1 1 0 1, .vcvtEfE2m1 tk 0 1 1 0 1, .vcvtEfBf16 tk 0 1 1 0 1, .vwidE4m3 tk
      0 1 1 0 1, .vwidE5m2 tk 0 1 1 0 1, .vwidE2m1 tk 0 1 1 0 1, .vcvtFI tk 0 1 1 0 1, .vcvtFN tk 0 1 1 0 1, .vcvtIF tk 0 1 1 0 1, .vcvtNF tk 0 1
      1 0 1, .vmovk tk 0 0 1, .vmovk tk 0 8 1, .vmovv tk 0 1 8, .mcfg tk 0 7 1] : List Instr).all (fun i => !i.wf) = true := by decide

theorem test_wf_refuses_08 :
    ([.mgo tk 0 4, .accrd tk 0 1 4 1, .acczero tk 0 4, .accwr tk 0 4 1 1, .wcfg tk 0 7 1, .ftld tk 0 16 1, .ftclr tk 0 16, .ftrd tk 0 1 16, .lupd
      tk 0 4 1 1] : List Instr).all (fun i => !i.wf) = true := by decide


/-! ### Words that the spec prints -/

/-- No token bit. -/
abbrev t0 : Tok := ⟨false, false, false, false⟩

theorem test_printed_scalar :
    decodeWord 0x40114C70 = .ok (.add ⟨false, true, false, false⟩ 2 5 6 7)
    ∧ decodeWord 0x00C27FFF = .ok (.lim t0 0 9 16383)
    ∧ decodeWord 0x00C24000 = .ok (.lim t0 0 9 0)
    ∧ decodeWord 0x00C14000 = .ok (.lim t0 0 5 0)
    ∧ decodeWord 0x01CFFFF4 = .ok (.br t0 1 524276)
    ∧ decodeWord 0x00418C08 = .ok (.addi t0 6 6 8)
    ∧ decodeWord 0x002A5310 = .ok (.add t0 5 9 9 17)
    ∧ decodeWord 0x02C01400 = .ok (.tail t0 0)
    ∧ decodeWord 0x02C0C031 = .ok (.mfs t0 0 3 0x31)
    ∧ decodeWord 0x02830007 = .ok (.lcset t0 0 0 7)
    ∧ decodeWord 0x02800005 = .ok (.loop t0 0 0 5)
    ∧ decodeWord 0x02811FFD = .ok (.brl t0 0 0 1 4093) := by decide

theorem test_printed_memory :
    decodeWord 0x0419C200 = .ok (.ldDG t0 7 1 0)
    ∧ decodeWord 0x0C194201 = .ok (.stDG t0 5 1 1)
    ∧ decodeWord 0x04E40C03 = .ok (.ldDGRr t0 4 16 6 0)
    ∧ decodeWord 0x0D54642C = .ok (.amoAddW t0 5 3 4 5)
    ∧ decodeWord 0x0DFC0432 = .ok (.redAddF32 t0 15 4 6)
    ∧ decodeWord 0x033C0000 = .ok (.fenceRel t0 15)
    ∧ decodeWord 0x03004806 = .ok (.tlwait t0 2 8 0)
    ∧ decodeWord 0x0581D002 = .ok (.cpyA t0 0 7 8 0 0)
    ∧ decodeWord 0x050214B3 = .ok (.vldFfG t0 0 8 10 11) := by decide

theorem test_printed_vector_and_engines :
    decodeWord 0x08C91090 = .ok (.vfma t0 1 4 8 9)
    ∧ decodeWord 0x09828705 = .ok (.vcvtE2m1 t0 0 10 3 1 0)
    ∧ decodeWord 0x09808D06 = .ok (.vcvtEfE4m3 t0 0 2 6 1 0)
    ∧ decodeWord 0x0A08C404 = .ok (.vfredsumC t0 1 3 2)
    ∧ decodeWord 0x0AC04C00 = .ok (.mcfg t0 0 1 6)
    ∧ decodeWord 0x0B000000 = .ok (.mgo t0 0 0)
    ∧ decodeWord 0x0B010432 = .ok (.accrd t0 0 4 2 3)
    ∧ decodeWord 0x0B80C400 = .ok (.ftld t0 0 3 2) := by decide

/-! ### States for the witnesses -/

/-- The machine after reset with core 0 as given. -/
def withCore (c : Core) : State := { State.reset with cores := State.reset.cores.set 0 c }

/-- A core that runs an image of 64 words with a trap entry, at word 3. -/
def running : Core := { Core.reset with phase := .running, pc := 3, img := { Core.reset.img with ncode := 64, hastrap := true, slip := 64 } }

/-- Core 0 runs, and its main strand is at the focus. -/
def main0 : State := withCore running

/-- Core 0 runs an arrival handler in context 0, which is at the focus. -/
def hand0 : State := { withCore { running with hnd := running.hnd.set 0 { Handler.reset with running := true, pc := 3 } } with focusStrand := .ctx 0 }

/-- Scalar registers of core 0 set. -/
def setS (s : State) (l : List (Reg × W64)) : State :=
  s.modCur (fun c => l.foldl (fun c x => { c with regs := { c.regs with s := c.regs.s.set x.1 x.2 } }) c)

theorem cRuns_of {s : State} {t : Tok} {g : Guard} {j : Judge} (h1 : j.sub s.focusStrand t = none := by rfl) (h2 : s.cur.cReady s.focusStrand t = true := by rfl)
    (h3 : s.cur.poison = [] := by rfl) (h4 : s.cur.parity = [] := by rfl) (h5 : s.cur.rdP s.focusStrand g = true := by rfl)
    (h6 : s.cur.hazard s.focusStrand j = false := by rfl) : s.cRuns t g j := ⟨h1, h2, ⟨h3, h4⟩, h5, h6⟩

theorem qRuns_of {s : State} {q : Qid} {t : Tok} {j : Judge} (h1 : j.sub s.focusStrand t = none := by rfl) (h2 : s.cur.poison = [] := by rfl)
    (h3 : s.cur.parity = [] := by rfl) (h4 : s.cur.live = true := by rfl) (h5 : s.held[s.focusCore] = false := by rfl) (h6 : s.cur.queue q = [] := by rfl)
    (h7 : 1 ≤ s.cur.img.slip := by decide) (h8 : s.cur.hazard .main j = false := by rfl) (h9 : s.cur.ffPending = false := by rfl) (h10 : s.cur.mem.lob = [] := by rfl)
    (h11 : s.cur.canPop q.num t = true := by rfl) : s.qRuns q t j :=
  ⟨h1, ⟨h2, h3⟩, fun _ => ⟨h4, h5, h6, h7, h8, h9, fun _ e he => (by rw [h10] at he; cases he), h11⟩⟩

theorem memRuns_of {s : State} {q : Qid} {t : Tok} {j : Judge} (h : s.qRuns q t j := by exact qRuns_of) (h1 : s.cur.qL = [] := by rfl) (h2 : s.cur.qX = [] := by rfl)
    (h3 : s.cur.qS = [] := by rfl) (h4 : s.cur.mem.lob = [] := by rfl) (h5 : s.cur.eng.ranges = [] := by rfl) : s.memRuns q t j :=
  ⟨h, fun _ => ⟨h1, h2, h3, h4, h5⟩⟩

theorem noWrites_of {s : State} (h : s.fab.inflight = [] := by rfl) : s.noWrites := fun x hx => by rw [h] at hx; cases hx

theorem noReds_of {s : State} (h : s.fab.inflight = [] := by rfl) : s.noReds := fun x hx => by rw [h] at hx; cases hx

/-! ### Witnesses: words of the control slot -/

theorem witness_divisionNeverTraps_zero : main0.cRuns t0 0 (jGS 0 [1] [2, 3]) ∧ main0.cur.rdS .main 3 = 0 := ⟨cRuns_of, rfl⟩

theorem witness_divisionNeverTraps_overflow : let s := setS main0 [(2, 0x8000000000000000), (3, -1)]
    s.cRuns t0 0 (jGS 0 [1] [2, 3]) ∧ (s.cur.rdS .main 2).toInt = -2 ^ 63 ∧ (s.cur.rdS .main 3).toInt = -1 := ⟨cRuns_of, by decide, by decide⟩

theorem witness_divisionNeverTraps_examples : let s := setS main0 [(2, 0xFFFFFFFFFFFFFFF9), (3, 2)]
    s.cRuns t0 0 (jGS 0 [1] [2, 3]) ∧ (s.cur.rdS .main 2).toInt = -7 ∧ s.cur.rdS .main 2 = 0xFFFFFFFFFFFFFFF9 ∧ s.cur.rdS .main 3 = 2 :=
  ⟨cRuns_of, by decide, by decide, by decide⟩

theorem witness_rotationAndFalseGuards : main0.cRuns t0 0 (jMainG 0 [] [] true)
    ∧ (jMainG 1 [] [] true).sub main0.focusStrand t0 = none ∧ main0.cur.unmarked ∧ main0.cur.cReady main0.focusStrand t0 = true
    ∧ main0.cur.rdP main0.focusStrand 1 = false := ⟨cRuns_of, rfl, ⟨rfl, rfl⟩, rfl, rfl⟩

theorem witness_scalarWordsWriteTheirResult_main : main0.cRuns t0 0 (jGS 0 [1] [2, 3]) ∧ main0.cRuns t0 0 (jGS 0 [1] [2]) ∧ main0.cRuns t0 0 (jS [1] [2])
    ∧ main0.cRuns t0 0 (jGS 0 [1] []) := ⟨cRuns_of, cRuns_of, cRuns_of, cRuns_of⟩

theorem witness_scalarWordsWriteTheirResult_handler : hand0.cRuns t0 0 (jGS 0 [1] [2, 3]) ∧ hand0.cRuns t0 0 (jGS 0 [1] [2]) ∧ hand0.cRuns t0 0 (jS [1] [2])
    ∧ hand0.cRuns t0 0 (jGS 0 [1] []) := ⟨cRuns_of, cRuns_of, cRuns_of, cRuns_of⟩

theorem witness_scalarWordsWriteTheirResult_prefix_addi : let s := withCore { running with imem := [(4, BitVec.ofNat 32 (encI t0 1 0 1 2 511))] }
    s.cur.pcOf s.focusStrand + 1 < s.cur.img.ncode ∧ s.cur.word 4 = BitVec.ofNat 32 (encI t0 1 0 1 2 511) ∧ s.cRuns t0 0 (jS [1] [2]) := ⟨by decide, rfl, cRuns_of⟩

theorem witness_scalarWordsWriteTheirResult_prefix_lim : let s := withCore { running with imem := [(4, BitVec.ofNat 32 (encK t0 3 0 1 0x3456))] }
    s.cur.pcOf s.focusStrand + 1 < s.cur.img.ncode ∧ s.cur.word 4 = BitVec.ofNat 32 (encK t0 3 0 1 0x3456) ∧ s.cRuns t0 0 (jGS 0 [1] []) := ⟨by decide, rfl, cRuns_of⟩

theorem witness_scalarWordsWriteTheirResult_prefix_load : let s := withCore { running with imem := [(4, BitVec.ofNat 32 (encI t0 0x10 3 1 2 0))] }
    s.cur.pcOf s.focusStrand + 1 < s.cur.img.ncode ∧ s.cur.word 4 = BitVec.ofNat 32 (encI t0 0x10 3 1 2 0) := ⟨by decide, rfl⟩

theorem witness_compareAndPredicateWords_main : okPd 1 = true ∧ okP 7 = true ∧ main0.cRuns t0 0 { jGS 0 [] [2, 3] with pd := [1] }
    ∧ main0.cRuns t0 0 { jGS 0 [] [] with ps := [guardReg 0, 7, 2], pd := [1] } ∧ main0.cRuns t0 0 { jGS 0 [] [] with ps := [guardReg 0, 7, 0], pd := [1] }
    ∧ main0.cRuns t0 0 { jGS 0 [] [] with ps := [guardReg 0, 0, 0], pd := [7] } := ⟨rfl, rfl, cRuns_of, cRuns_of, cRuns_of, cRuns_of⟩

theorem witness_compareAndPredicateWords_handler : okPd 3 = true ∧ hand0.cRuns t0 0 { jGS 0 [] [2, 15] with pd := [3] }
    ∧ hand0.cRuns t0 0 { jGS 0 [] [] with ps := [guardReg 0, 3, 2], pd := [3] } := ⟨rfl, cRuns_of, cRuns_of⟩

theorem witness_scalarWriteFrame : main0.cur.unmarked ∧ (15 : Reg).val < 16 ∧ (1 : Fin 3) ≠ 0 ∧ (127 : Fin 128) ≠ main0.focusCore := ⟨⟨rfl, rfl⟩, by decide, by decide, by decide⟩

theorem witness_guardsAndTokens_falseGuard : main0.cur.unmarked ∧ main0.cur.cReady main0.focusStrand t0 = true ∧ main0.cur.rdP main0.focusStrand 1 = false
    ∧ (jGS 1 [1] [2, 3]).sub main0.focusStrand t0 = none ∧ (jGS 1 [] []).sub main0.focusStrand t0 = none := ⟨⟨rfl, rfl⟩, rfl, rfl, rfl, rfl⟩

theorem witness_guardsAndTokens_emptyFifo : main0.focusStrand = .main ∧ (jGS 0 [1] [2, 3]).sub .main ⟨true, false, false, false⟩ = none
    ∧ main0.cur.cReady .main ⟨true, false, false, false⟩ = false := ⟨rfl, rfl, rfl⟩

theorem witness_transfersAndLoops_transfers : main0.cur.pcOf main0.focusStrand < 2 ^ 63 ∧ main0.cRuns t0 0 (jGS 0 [] []) ∧ main0.cRuns t0 0 (jGS 0 [15] [])
    ∧ main0.cRuns t0 0 (jGS 0 [] [2]) ∧ main0.cRuns t0 0 (jGS 0 [] [15]) ∧ main0.cRuns t0 0 (jGS 0 [15] [2]) ∧ hand0.cRuns t0 0 (jGS 0 [15] [15]) :=
  ⟨by decide, cRuns_of, cRuns_of, cRuns_of, cRuns_of, cRuns_of, cRuns_of⟩

/-- Core 0 runs with trip count `n` in the pair (0, 1). -/
def trips (n : W64) : State := withCore { running with regs := { running.regs with lc := #v[n, 0, 0, 0] } }

theorem witness_transfersAndLoops_loops : (2 : Fin 4).val % 2 = 0 ∧ main0.cur.pc < 2 ^ 63 ∧ main0.cRuns t0 0 (jMainG 0 [] [] true) ∧ (trips 5).cRuns t0 0 (jMainG 0 [] [] true)
    ∧ (main0.cur.regs.lc)[(0 : Fin 4)] = 0 ∧ ((trips 5).cur.regs.lc)[(0 : Fin 4)] ≠ 0 ∧ ((trips 5).cur.regs.lc[(1 : Fin 4)]).toNat + 1 < ((trips 5).cur.regs.lc)[(0 : Fin 4)].toNat + 0
    ∧ ((trips 1).cur.regs.lc)[(0 : Fin 4)].toNat + 0 ≤ ((trips 1).cur.regs.lc[(1 : Fin 4)]).toNat + 1 ∧ main0.cRuns t0 0 (jMainG 0 [] [2] true) ∧ main0.cRuns t0 0 (jMainG 0 [1] [] true) :=
  ⟨by decide, by decide, cRuns_of, cRuns_of, rfl, by decide, by decide, by decide, cRuns_of, cRuns_of⟩

/-- The trap strand of core 0, in context 2, after a trap of the word at 3. -/
def trapped : State :=
  { withCore { running with phase := .trapStrand, hnd := running.hnd.set 2 { Handler.reset with running := true, pc := 9 },
                            trap := { running.trap with active := some (mkTrap 0x24 0 .main 0 0 0), back := true } } with focusStrand := .ctx 2 }

theorem witness_systemRegisterWords : (∀ h : Bool, main0.cRuns t0 0 { jGS 0 [1] [] with handler := h }) ∧ main0.cur.xWords = 0 ∧ main0.cur.ffPending = false
    ∧ hand0.cRuns t0 0 { jGS 0 [1] [] with handler := true } ∧ trapped.cRuns t0 0 { jGS 0 [1] [] with handler := trapped.cur.isTrapStrand trapped.focusStrand || false }
    ∧ (∀ h : Bool, main0.cRuns t0 0 { jGS 0 [] [2] with handler := h })
    ∧ trapped.cRuns t0 0 { jGS 0 [] [2] with handler := trapped.cur.isTrapStrand trapped.focusStrand && trapWritable 0x012 } :=
  ⟨fun _ => cRuns_of, rfl, rfl, cRuns_of, cRuns_of, fun _ => cRuns_of, cRuns_of⟩

theorem witness_vectorTypeWords : (2 : Fin 128).val % 4 ≠ 3 ∧ main0.cur.ffPending = false ∧ main0.cRuns t0 0 (jMain [1] [2] true) ∧ main0.cRuns t0 0 (jMain [1] [] true) :=
  ⟨by decide, rfl, cRuns_of, cRuns_of⟩

theorem witness_trapsAreTakenAndLeft_trap : main0.focusStrand = .main ∧ main0.cRuns t0 0 (jGS 0 [] []) ∧ main0.cur.phase = .running ∧ main0.cur.img.hastrap = true
    ∧ main0.cur.trap.later = none ∧ main0.cur.trap.multi = false ∧ main0.noReds := ⟨rfl, cRuns_of, rfl, rfl, rfl, rfl, noReds_of⟩

theorem witness_trapsAreTakenAndLeft_noEntry : let s := withCore { running with img := { running.img with hastrap := false } }
    s.cRuns t0 0 (jGS 0 [] []) ∧ s.cur.phase = .running ∧ s.cur.img.hastrap = false := ⟨cRuns_of, rfl, rfl⟩

theorem witness_trapsAreTakenAndLeft_eret : let s := trapped
    let tr := mkTrap 0x24 0 .main 0 0 0
    s.focusStrand = .ctx 2 ∧ s.cur.phase = .trapStrand ∧ s.cRuns t0 0 (jGS 0 [] []) ∧ s.cur.trap.active = some tr ∧ tr.strand = .main ∧ tr.queue = 0 ∧ tr.engine = 0xFF
    ∧ tr.rkind = 0 ∧ tr.after = false ∧ s.cur.loading = false ∧ s.cur.trap.back = true ∧ bits (s.cur.word s.cur.pc).toNat 26 2 = 0
    ∧ bits (s.cur.word (s.cur.pc + 1)).toNat 26 2 = 0 := ⟨rfl, rfl, cRuns_of, rfl, rfl, rfl, rfl, rfl, rfl, rfl, rfl, rfl, rfl⟩

theorem witness_strandAndQueueWords_strands : main0.cRuns t0 0 (jGS 0 [] []) ∧ main0.focusStrand = .main
    ∧ hand0.cRuns t0 0 (jGS 0 [] []) ∧ hand0.focusStrand = .ctx 0 ∧ ¬ (hand0.cur.phase = .trapStrand ∧ (0 : Fin 3) = 2)
    ∧ trapped.cRuns t0 0 (jGS 0 [] []) ∧ trapped.focusStrand = .ctx 2 ∧ trapped.cur.phase = .trapStrand :=
  ⟨cRuns_of, rfl, cRuns_of, rfl, by decide, cRuns_of, rfl, rfl⟩

theorem scopeReady_of {s : State} {i : Fin 16} (h1 : scopeV (s.scopeEntry s.focusCore i) = true := by rfl) (h2 : s.focusStrand = .main := by rfl)
    (h3 : s.cur.waits[(0 : Fin 4)] = none := by rfl) : s.scopeReady i := ⟨h1, by rw [h2]; exact h3⟩

theorem nothingPending_of {s : State} (h1 : s.cur.qL = [] := by rfl) (h2 : s.cur.qS = [] := by rfl) (h3 : s.fab.inflight = [] := by rfl) : s.nothingPending :=
  ⟨fun _ => ⟨h1, h2⟩, noWrites_of h3⟩

theorem witness_strandAndQueueWords_enq : let c := main0.cur
    let pkt : BitVec 512 := BitVec.ofNat 512 ((List.range 8).foldr (fun k acc => (c.rdS .main (Fin.ofNat 32 (8 + k))).toNat + 2 ^ 64 * acc) 0)
    okPd 1 = true ∧ main0.cRuns t0 0 { jGS 0 [] (2 :: (List.range 8).map (fun k => Fin.ofNat 32 (8 + k))) with pd := [1] } ∧ c.enqOffer = none
    ∧ (c.rdS .main 2).toNat = 0 ∧ main0.scopeReady (Fin.ofNat 16 (fld pkt 20 4)) ∧ main0.nothingPending ∧ c.roomIn 5 = true :=
  ⟨rfl, cRuns_of, rfl, by decide, scopeReady_of (by decide +kernel), nothingPending_of, rfl⟩

theorem witness_strandAndQueueWords_answer : let s := withCore { running with enqOffer := some (.main, 7, 0), enqAnswer := some true }
    okPd 1 = true ∧ s.cRuns t0 0 { jGS 0 [] (2 :: (List.range 8).map (fun k => Fin.ofNat 32 (8 + k))) with pd := [1] } ∧ s.cur.enqOffer = some (s.focusStrand, 7, 0)
    ∧ s.cur.enqAnswer = some true := ⟨rfl, cRuns_of, rfl, rfl⟩

/-! ### Witnesses: synchronisation and memory words -/

/-- A core whose first page is mapped, with quotas in scratch and in the Landing. -/
def mapped (c : Core) : Core :=
  { c with mem := { c.mem with tlb := [{ asid := 0, va := 0, shift := 12, leaf := 0x3F }] },
           ctx := { c.ctx with scratchQuota := 0x100000, landingQuota := 0x10000, coreMask := 3 } }

/-- Core 0 as given, with a window over everything. -/
def open0 (c : Core) : State := let s := withCore (mapped c); { s with trans := { s.trans with windows := s.trans.windows.set 0 fullWindows } }

/-- Core 0 runs with its memory open. -/
def mem0 : State := open0 running

/-- The same with an arrival handler at the focus. -/
def memH : State := { open0 { running with hnd := running.hnd.set 0 { Handler.reset with running := true, pc := 3 } } with focusStrand := .ctx 0 }

theorem qHand_of {s : State} {q : Qid} {t : Tok} {j : Judge} (h1 : j.sub s.focusStrand t = none := by rfl) (h2 : s.cur.poison = [] := by rfl)
    (h3 : s.cur.parity = [] := by rfl) (h : s.focusStrand = .ctx 0 := by rfl) : s.memRuns q t j :=
  ⟨⟨h1, ⟨h2, h3⟩, fun e => by rw [h] at e; cases e⟩, fun e => by rw [h] at e; cases e⟩

theorem witness_fencesScopesAndConstants_fences : main0.cRuns t0 0 (jS [] []) ∧ main0.scopeReady 0 ∧ main0.scopeReady 15 ∧ main0.nothingPending
    ∧ main0.cRuns t0 0 (jGS 0 [] []) := ⟨cRuns_of, scopeReady_of, scopeReady_of, nothingPending_of, cRuns_of⟩

/-- A scoped write of 4 bytes of core 0 at address 64. -/
def write64 : InFlight :=
  { core := 0, strand := .main, hnum := 0, op := .data, pa := 64, va := 64, data := [1, 2, 3, 4], more := [], seq := 0, po := 0, cmd := 0, performed := false,
    stamp := 0, space := .g, joined := [] }

/-- Core 0 runs with that write in flight. -/
def flying : State := { mem0 with fab := { mem0.fab with inflight := [write64] } }

theorem witness_fencesScopesAndConstants_wait : flying.cRuns t0 0 (jS [] []) ∧ flying.scopeReady 15 ∧ flying.focusStrand = .main
    ∧ (∃ x ∈ flying.fab.inflight, x.core = flying.focusCore ∧ x.strand = .main ∧ x.performed = false ∧ x.op = .data) :=
  ⟨cRuns_of, scopeReady_of, rfl, write64, List.mem_singleton.2 rfl, rfl, rfl, rfl, rfl⟩

theorem witness_fencesScopesAndConstants_scopeLd : (1 : Fin 16).val ≠ 0 ∧ (1 : Fin 16).val ≠ 15 ∧ mem0.cRuns t0 0 (jGS 0 [] [2])
    ∧ mem0.cur.loadWords mem0.focusStrand + mem0.cur.storeWords mem0.focusStrand = 0 ∧ mem0.checkAccess mem0.focusCore 0 mem0.focusStrand 0 .g kRead 0 32 = .ok [⟨0, 32, true⟩] ∧ mem0.badPa [⟨0, 32, true⟩] = none
    ∧ scopeBad mem0.cur.ctx.coreMask (BitVec.ofNat 256 (leNat (loadPieces mem0.mem (mem0.bindPieces mem0.focusCore none [⟨0, 32, true⟩]).2 [⟨0, 32, true⟩]))) = false
    ∧ mem0.updateHeld mem0.focusCore 1 = 0 :=
  ⟨by decide, by decide, cRuns_of, by decide, rfl, rfl, by decide +kernel, by decide +kernel⟩

theorem witness_timelinesAndBarriers_timelines : (0 : Fin 8).val + (1 : Reg).val * 8 + (0 : Fin 8).val * 256 ≠ 0 ∧ main0.cRuns t0 0 (jMain [] [] true)
    ∧ main0.marksLeft main0.focusCore = 0 ∧ main0.cRuns t0 0 (jMain [] [2, 3] true) ∧ (main0.cur.rdS .main 2).toNat ≤ (main0.cur.eng.tl[7]).toNat
    ∧ main0.cRuns t0 0 (jMain [1] [] true) := ⟨by decide, cRuns_of, by decide +kernel, cRuns_of, by decide, cRuns_of⟩

theorem witness_timelinesAndBarriers_wait : let s := setS main0 [(2, 5)]
    s.cRuns t0 0 (jMain [] [2, 3] true) ∧ s.cur.waits[(0 : Fin 4)] = none ∧ (s.cur.eng.tl[7]).toNat < (s.cur.rdS .main 2).toNat := ⟨cRuns_of, rfl, by decide⟩

theorem witness_timelinesAndBarriers_barWait : let s := setS mem0 [(1, 1)]
    s.cRuns t0 0 (jS [] [1, 2, 3]) ∧ s.scopeReady 0
    ∧ s.tagged s.focusCore 0 { s.cur.routed noTok true .nop with strand := s.focusStrand } kAtomic (s.cur.rdS s.focusStrand 2) 32 = .ok ⟨0, 32, true⟩
    ∧ s.clean ∧ memNat s.mem 0 8 ≠ (s.cur.rdS s.focusStrand 1).toNat := ⟨cRuns_of, scopeReady_of, rfl, ⟨rfl, rfl⟩, by decide⟩

/-- Memory that holds a barrier object at 0 that expects `n` arrivals. -/
def barrier (n : Nat) : State := { mem0 with mem := memWrite [] 12 (natLe 4 n) }

theorem witness_timelinesAndBarriers_barArrive : ∀ n ∈ [1, 2], let s := barrier n
    scopeV (s.scopeEntry s.focusCore 0) = true ∧ s.noWrites ∧ s.clean ∧ s.memRuns .s t0 (jS [1] [2])
    ∧ s.tagged s.focusCore 3 (s.word t0 .nop) kAtomic (s.cur.rdS s.focusStrand 2) 32 = .ok ⟨0, 32, true⟩
    ∧ memNat s.mem 16 16 = 0 ∧ memNat s.mem 8 4 < memNat s.mem 12 4 := by
  intro n hn
  simp only [List.mem_cons, List.not_mem_nil, or_false] at hn
  rcases hn with rfl | rfl <;> exact ⟨rfl, noWrites_of, ⟨rfl, rfl⟩, memRuns_of, rfl, by decide, by decide⟩

theorem witness_scalarLoadsAndHints_loads : ∀ s ∈ [mem0, memH], s.cur.rdP s.focusStrand 0 = true ∧ s.memRuns .l t0 (jS [1] [2]) ∧ s.memRuns .l t0 (jGS 0 [1] [2, 3])
    ∧ s.checkAccess s.focusCore 1 s.focusStrand 0 .g kRead 8 8 = .ok [⟨8, 8, true⟩] ∧ s.badPa [⟨8, 8, true⟩] = none
    ∧ s.checkAccess s.focusCore 1 s.focusStrand 0 .x kRead 8 8 = .ok [⟨scratchPa 0 8, 8, false⟩] ∧ s.badPa [⟨scratchPa 0 8, 8, false⟩] = none
    ∧ s.checkAccess s.focusCore 1 s.focusStrand 0 .l kRead 8 8 = .ok [⟨Config.landingBase + 8, 8, true⟩] ∧ s.badPa [⟨Config.landingBase + 8, 8, true⟩] = none := by
  intro s hs
  simp only [List.mem_cons, List.not_mem_nil, or_false] at hs
  rcases hs with rfl | rfl
  · exact ⟨rfl, memRuns_of, memRuns_of, rfl, rfl, rfl, by decide +kernel, rfl, by decide +kernel⟩
  · exact ⟨rfl, qHand_of, qHand_of, rfl, rfl, rfl, by decide +kernel, rfl, by decide +kernel⟩

theorem witness_scalarLoadsAndHints_misaligned : mem0.checkAccess 0 1 .main 0 .g kRead 0xFFC 4 = .ok [⟨0xFFC, 4, true⟩]
    ∧ mem0.checkAccess 0 1 .main 0 .g kRead 0x7D 2 = .ok [⟨0x7D, 1, true⟩, ⟨0x7E, 1, true⟩] := ⟨rfl, rfl⟩

theorem witness_scalarLoadsAndHints_ldc : mem0.memRuns .l t0 (jS [1] [2]) ∧ mem0.badPa [⟨0, 4, true⟩] = none
    ∧ mem0.checkAccess mem0.focusCore 1 mem0.focusStrand 0 .g kRead 0 4 = .ok [⟨0, 4, true⟩] ∧ mem0.cur.mem.cc = []
    ∧ (let s := open0 { running with mem := { running.mem with cc := [(0, some 7), (1, some 0), (2, some 0), (3, some 0)] } }
       s.memRuns .l t0 (jS [1] [2]) ∧ s.checkAccess s.focusCore 1 s.focusStrand 0 .g kRead 0 4 = .ok [⟨0, 4, true⟩]
       ∧ ∀ k < 4, sget none s.cur.mem.cc (0 + k) = some (([7, 0, 0, 0] : List Byte).getD k 0)) :=
  ⟨memRuns_of, rfl, rfl, rfl, memRuns_of, rfl, by decide⟩

theorem witness_scalarLoadsAndHints_hints : mem0.cur.rdP mem0.focusStrand 0 = true ∧ mem0.clean ∧ mem0.memRuns .l t0 (jS [] [2]) ∧ mem0.memRuns .s t0 (jGS 0 [] [2])
    ∧ mem0.memRuns .s t0 (jGS 0 [] []) ∧ mem0.coreTranslate mem0.focusCore (mem0.cur.rdS mem0.focusStrand 2).toNat kPrefetch = .ok (0, 0x3F) ∧ fld (0x3F : W64) 56 2 = 0
    ∧ l1Holds 0 = true ∧ mem0.refusal (coreMaster mem0.focusCore) 1 0 128 = none :=
  ⟨rfl, ⟨rfl, rfl⟩, memRuns_of, memRuns_of, memRuns_of, rfl, rfl, rfl, by decide +kernel⟩

theorem witness_scalarStoresAndReadBack : ∀ s ∈ [mem0, memH], s.cur.rdP s.focusStrand 0 = true ∧ s.clean ∧ s.memRuns .s t0 (jS [] [1, 2]) ∧ s.memRuns .s t0 (jGS 0 [] [1, 2, 3])
    ∧ s.checkAccess s.focusCore 3 s.focusStrand 0 .g kWrite 8 8 = .ok [⟨8, 8, true⟩]
    ∧ s.checkAccess s.focusCore 3 s.focusStrand 0 .x kWrite 8 8 = .ok [⟨scratchPa 0 8, 8, false⟩]
    ∧ s.checkAccess s.focusCore 3 s.focusStrand 0 .l kWrite 8 8 = .ok [⟨Config.landingBase + 8, 8, true⟩] := by
  intro s hs
  simp only [List.mem_cons, List.not_mem_nil, or_false] at hs
  rcases hs with rfl | rfl
  · exact ⟨rfl, ⟨rfl, rfl⟩, memRuns_of, memRuns_of, rfl, rfl, rfl⟩
  · exact ⟨rfl, ⟨rfl, rfl⟩, qHand_of, qHand_of, rfl, rfl, rfl⟩

theorem witness_atomicAndReductionWords : ∀ s ∈ [mem0, memH], scopeV (s.scopeEntry s.focusCore 0) = true ∧ s.noWrites ∧ s.clean
    ∧ s.memRuns .s t0 (jS [1] [2]) ∧ s.memRuns .s t0 (jS [] [2, 3]) ∧ s.memRuns .s t0 (jS [1] [2, 3]) ∧ s.memRuns .s t0 (jS [1] [1, 2, 3])
    ∧ s.tagged s.focusCore 3 (s.word t0 .nop) kAtomic (s.cur.rdS s.focusStrand 2) (32 / 8) = .ok ⟨0, 4, true⟩
    ∧ s.tagged s.focusCore 3 (s.word t0 .nop) kAtomic (s.cur.rdS s.focusStrand 2) (64 / 8) = .ok ⟨0, 8, true⟩ ∧ s.cur.roomIn 6 = true := by
  intro s hs
  simp only [List.mem_cons, List.not_mem_nil, or_false] at hs
  rcases hs with rfl | rfl
  · exact ⟨rfl, noWrites_of, ⟨rfl, rfl⟩, memRuns_of, memRuns_of, memRuns_of, memRuns_of, rfl, rfl, rfl⟩
  · exact ⟨rfl, noWrites_of, ⟨rfl, rfl⟩, qHand_of, qHand_of, qHand_of, qHand_of, rfl, rfl, rfl⟩

theorem witness_atomicAndReductionWords_lupd : let s := setS mem0 [(2, 0x4000000000000000), (3, 128)]
    scopeV (s.scopeEntry s.focusCore 0) = true ∧ s.cur.roomIn 6 = true ∧ s.memRuns .s t0 (jMain [] [2, 3] true) ∧ fld (s.cur.rdS s.focusStrand 2) 62 2 = 1
    ∧ s.tagged s.focusCore 3 (s.word t0 .nop) kAtomic (s.cur.rdS s.focusStrand 2) 128 = .ok ⟨Config.landingBase, 128, true⟩
    ∧ (s.cur.rdS s.focusStrand 3).toNat % 128 = 0 ∧ (s.cur.rdS s.focusStrand 3).toNat + 128 ≤ s.cur.ctx.scratchQuota
    ∧ s.poisoned (scratchPa s.focusCore (s.cur.rdS s.focusStrand 3).toNat) 128 = false := ⟨rfl, rfl, memRuns_of, rfl, rfl, by decide, by decide, by decide +kernel⟩

/-- Flume 5 of the core's region, of 64-byte elements, with one element that can be taken. -/
def flumed : State :=
  { mem0 with fab := { mem0.fab with flumes := mem0.fab.flumes.set 5 { Flume.reset with region := some 0, base := 0, esize := 64, slog2 := 2, inn := 1 } } }

theorem witness_flumeAndPushWords_flumes : let s := setS flumed [(2, 5), (3, 64)]
    let fl := s.fab.flumes[(5 : Fin 256)]
    scopeV (s.scopeEntry s.focusCore 0) = true ∧ s.noWrites ∧ fl.region = some s.cur.ctx.region ∧ fl.stream = none ∧ (s.cur.rdS s.focusStrand 2).toNat = (5 : Fin 256).val
    ∧ s.memRuns .s t0 (jS [] [2, 3]) ∧ (s.cur.rdS s.focusStrand 3).toNat % 64 = 0 ∧ (s.cur.rdS s.focusStrand 3).toNat + fl.esize ≤ s.cur.ctx.scratchQuota
    ∧ s.cur.roomIn 5 = true ∧ (fl.inn - fl.out).toNat ≠ 2 ^ fl.slog2 ∧ s.poisoned (scratchPa s.focusCore 64) fl.esize = false ∧ fl.inn ≠ fl.out
    ∧ fl.pending.contains fl.out.toNat = false ∧ s.poisoned (fl.slotPa fl.out.toNat) fl.esize = false
    ∧ s.refusal (coreMaster s.focusCore) 1 (fl.slotPa fl.out.toNat) fl.esize = none ∧ s.memRuns .l t0 (jS [1] [2, 3])
    ∧ s.memRuns .l t0 (jMain [] [2] ((4 : Reg).val % vgrp s.vtype == 0)) :=
  ⟨rfl, noWrites_of, rfl, rfl, by decide, memRuns_of, by decide, by decide, rfl, by decide, by decide +kernel, by decide, rfl, by decide +kernel, by decide +kernel, memRuns_of, memRuns_of⟩

theorem witness_flumeAndPushWords_push : let s := setS mem0 [(2, 1)]
    let tgt := s.cur.rdS s.focusStrand 2
    let ar := arrivalRec (s.cur.rdS s.focusStrand 3) (s.cur.rdS s.focusStrand 1) 0 (fld tgt 16 14) s.cur.ctx.opseq s.focusCore.val 0 1
    scopeV (s.scopeEntry s.focusCore 0) = true ∧ s.noWrites ∧ s.memRuns .s t0 (jS [] [1, 2, 3]) ∧ (1 : Fin 128) ≠ s.focusCore ∧ fld tgt 0 7 = (1 : Fin 128).val ∧ fld tgt 7 9 = 0
    ∧ fld tgt 30 34 = 0 ∧ fld s.cur.ctx.coreMask 1 1 = 1 ∧ s.cur.roomIn 5 = true ∧ s.cores[(1 : Fin 128)].discards ar = true
    ∧ (let u := s.modCore 1 (fun _ => running)
       u.cores[(1 : Fin 128)].discards ar = false ∧ u.cores[(1 : Fin 128)].arrivals.length < 16 ∧ u.memRuns .s t0 (jS [] [1, 2, 3])) :=
  ⟨rfl, noWrites_of, memRuns_of, by decide, by decide, by decide, by decide, by decide, rfl, by decide +kernel, by decide +kernel, by decide, memRuns_of⟩

/-! ### Witnesses: vector words -/

/-- System registers for vectors of `vl` columns of the vector type `vt`. -/
def vectors (vt vl : W64) (c : Core) : Core := { c with sys := { c.sys with vtype := vt, vl := vl } }

/-- Core 0 runs with SEW 32, one register a group, and 64 columns. -/
def vec0 : State := withCore (vectors 2 64 running)

theorem witness_vectorIntegerWords : vec0.qRuns .x t0 (jMain [] [] (limVVV vec0.vtype 1 2 3 0)) ∧ vec0.qRuns .x t0 (jMain [] [4] (limVV vec0.vtype 1 2 7)) := ⟨qRuns_of, qRuns_of⟩

theorem witness_vectorFloatWords : vec0.noFpTraps ∧ vec0.qRuns .x t0 (jMain [] [] (floatOk vec0.vtype && limVVV vec0.vtype 1 2 3 0))
    ∧ vec0.qRuns .x t0 (jMain [] [] (floatOk vec0.vtype && limVV vec0.vtype 1 2 0)) ∧ vec0.qRuns .x t0 (jMain [] [4] (floatOk vec0.vtype && limVV vec0.vtype 1 2 0)) :=
  ⟨rfl, qRuns_of, qRuns_of, qRuns_of⟩

/-- One column whose row 0 holds an infinity in `v2` and the other in `v3`, with every trap enabled. -/
def infinities : State :=
  withCore { vectors 2 1 running with regs := { running.regs with v := [(32, 0x7F800000), (48, 0xFF800000)] },
                                      sys := { (vectors 2 1 running).sys with fpcr := 0x1F00 } }

theorem witness_vectorFloatWords_traps : let s := infinities
    let f := vfmtD s.vtype
    s.qRuns .x t0 (jMain [] [] (floatOk s.vtype && limVVV s.vtype 1 2 3 0))
    ∧ (s.cur.activeFlags 0 (fun i j => (f.addV (Fin.ofNat 4 (fld s.cur.sys.fpcr 0 2)) (f.decode (s.cur.elem 2 (vsew s.vtype) i j)) (f.decode (s.cur.elem 3 (vsew s.vtype) i j))).flags)
        &&& fld s.cur.sys.fpcr 8 5) ≠ 0 ∧ s.cur.img.hastrap = true ∧ s.cur.trap.later = none ∧ s.noReds := ⟨qRuns_of, by decide +kernel, rfl, rfl, noReds_of⟩

theorem witness_compareAndMaskWords : vec0.noFpTraps ∧ vec0.qRuns .x t0 (jMain [] [] (kDst vec0.vtype 1 && limVV vec0.vtype 2 3 0))
    ∧ vec0.qRuns .x t0 (jMain [] [] (floatOk vec0.vtype && kDst vec0.vtype 1 && limVV vec0.vtype 2 3 0)) ∧ vec0.qRuns .x t0 (jMain [] [4] (kDst vec0.vtype 7 && limV vec0.vtype 2 0))
    ∧ vec0.qRuns .x t0 (jMain [] [4] (floatOk vec0.vtype && kDst vec0.vtype 7 && limV vec0.vtype 2 0))
    ∧ vec0.qRuns .x t0 (jMain [] [] (kDst vec0.vtype 1 && kSrc vec0.vtype 0 && kSrc vec0.vtype 7)) ∧ vec0.qRuns .x t0 (jMain [] [] (kDst vec0.vtype 1 && kSrc vec0.vtype 0))
    ∧ vec0.qRuns .x t0 (jMain [] [] (kDst vec0.vtype 1)) := ⟨rfl, qRuns_of, qRuns_of, qRuns_of, qRuns_of, qRuns_of, qRuns_of, qRuns_of⟩

theorem witness_conversionWords : vec0.noFpTraps ∧ fld vec0.vtype 0 2 = 2
    ∧ (∀ op ∈ [CvtOp.bf16, .f16, .e4m3, .e5m2, .e2m1, .widE4m3, .widE5m2, .widE2m1, .fI, .fN, .iF, .nF, .efE4m3, .efE2m1, .efBf16],
        ∀ rs : Fin 2, vec0.qRuns .x t0 { jMain [] [] (limCvt op vec0.vtype 4 8 0) with res := rs.val == 1 || (0 : Fin 4).val == 0 })
    ∧ (let s := withCore (vectors 1 64 running)
       s.noFpTraps ∧ fld s.vtype 0 2 = 1 ∧ s.qRuns .x t0 { jMain [] [] (limCvt .f32 s.vtype 4 8 0) with res := (1 : Fin 2).val == 1 || (3 : Fin 4).val == 0 }) := by
  refine ⟨rfl, by decide, ?_, rfl, by decide, qRuns_of⟩
  intro op h rs
  simp only [List.mem_cons, List.not_mem_nil, or_false] at h
  rcases h with rfl | rfl | rfl | rfl | rfl | rfl | rfl | rfl | rfl | rfl | rfl | rfl | rfl | rfl | rfl <;> match rs with | 0 => exact qRuns_of | 1 => exact qRuns_of

theorem witness_permuteAndMoveWords : vec0.qRuns .x t0 (jMain [] [4] (limVV vec0.vtype 1 2 0 && permApart vec0.vtype 1 2))
    ∧ vec0.qRuns .x t0 (jMain [] [] (limVVV vec0.vtype 1 2 3 0 && permApart vec0.vtype 1 2 && permApart vec0.vtype 1 3))
    ∧ vec0.qRuns .x t0 (jMain [] [] (limVV vec0.vtype 1 2 0 && permApart vec0.vtype 1 2)) ∧ vec0.qRuns .x t0 (jMain [] [] (limVV vec0.vtype 1 1 0))
    ∧ vec0.qRuns .x t0 (jMain [] [4] (limV vec0.vtype 1 0)) ∧ vec0.qRuns .x t0 (jMain [] [] (limVVV vec0.vtype 1 1 1 0))
    ∧ vec0.qRuns .x t0 (jMain [] [] (kDst vec0.vtype 1 && limV vec0.vtype 2 0)) ∧ vec0.qRuns .x t0 (jMain [] [] (limV vec0.vtype 1 0 && kSrc vec0.vtype 7))
    ∧ vec0.qRuns .x t0 (jMain [] [] (limV vec0.vtype 31 0)) := ⟨qRuns_of, qRuns_of, qRuns_of, qRuns_of, qRuns_of, qRuns_of, qRuns_of, qRuns_of, qRuns_of⟩

theorem witness_reductionAndSpecialWords : vec0.noFpTraps ∧ vec0.qRuns .x t0 (jMain [] [] (limVV vec0.vtype 1 2 0))
    ∧ vec0.qRuns .x t0 (jMain [] [] (floatOk vec0.vtype && limVV vec0.vtype 1 2 0)) ∧ (3 ≤ 3 ∧ 2 ^ 1 < 3 ∧ 3 ≤ 2 ^ (1 + 1)) := ⟨rfl, qRuns_of, qRuns_of, by decide⟩

theorem witness_activeElementsAloneAreWritten : (32 ∈ [4, 8, 16, 32]) ∧ 15 < 16 ∧ 63 < vlmax vec0.cur.sys.vtype ∧ (31 < (32 : Nat) ∨ (1 : Reg).val + (vlmax vec0.cur.sys.vtype + 2048 / 32 - 1) / (2048 / 32) ≤ 2)
    ∧ (7 : Reg) ≠ 0 := ⟨by decide, by decide, by decide, by decide, by decide⟩

/-- A check that grants the parts `p`. -/
def grants (e : Except Trap (List Piece)) (p : List Piece) : Bool := match e with | .ok q => decide (q = p) | .error _ => false

theorem grants_ok {e : Except Trap (List Piece)} {p : List Piece} (h : grants e p = true) : e = .ok p := by
  cases e with
  | error x => simp [grants] at h
  | ok q => simp [grants] at h; rw [h]

/-- One column of 32-bit elements whose rows lie 64 bytes apart from address 0 on, in open memory. -/
def rows0 : State := setS (open0 (vectors 2 1 running)) [(3, 64)]

theorem witness_vectorLoads : rows0.memRuns .l t0 (jMain [] [2, 3] (limVmem rows0.vtype true 0 1 3 0))
    ∧ ∀ i < 16, ∀ j < 1, rows0.cur.mbit 0 i j = true →
      rows0.checkAccess rows0.focusCore 1 .main 0 .g kRead (rows0.cur.vaddr (rows0.cur.routed t0 true (.vload .g 0 1 0 (rows0.cur.rdS .main 2) (rows0.cur.rdS .main 3) 3)) 0 (rows0.cur.rdS .main 2) (rows0.cur.rdS .main 3) 3 i j) (32 / 8)
        = .ok [⟨64 * i, 4, true⟩] ∧ rows0.badPa [⟨64 * i, 4, true⟩] = none := by
  refine ⟨memRuns_of, fun i hi j hj _ => ?_⟩
  interval_cases j
  interval_cases i <;> exact ⟨grants_ok (by decide +kernel), by decide +kernel⟩

/-- Two columns of 32-bit elements, the second of which lies past the page that is mapped. -/
def edge : State := setS (open0 (vectors 2 2 running)) [(2, 0xFFC)]

theorem witness_vectorLoads_faultFirst : edge.memRuns .l t0 (jMain [] [2, 3] (limVmem edge.vtype true 3 1 3 0)) ∧ 0 < 1 ∧ 1 < 2 ∧ edge.cur.mbit 0 0 1 = true
    ∧ (∀ i < 16, edge.checkAccess edge.focusCore 1 .main 0 .g kRead (edge.cur.vaddr (edge.cur.routed t0 true (.vload .g 3 1 0 (edge.cur.rdS .main 2) (edge.cur.rdS .main 3) 3)) 3 (edge.cur.rdS .main 2) (edge.cur.rdS .main 3) 3 i 0) 4
        = .ok [⟨0xFFC, 4, true⟩])
    ∧ (∃ tr, edge.checkAccess edge.focusCore 1 .main 0 .g kRead (edge.cur.vaddr (edge.cur.routed t0 true (.vload .g 3 1 0 (edge.cur.rdS .main 2) (edge.cur.rdS .main 3) 3)) 3 (edge.cur.rdS .main 2) (edge.cur.rdS .main 3) 3 0 1) 4
        = .error tr ∧ tr.cause ≠ 0x22 ∧ tr.cause ≠ 0) := by
  refine ⟨memRuns_of, by decide, by decide, rfl, fun i hi => ?_, _, rfl, by decide +kernel, by decide +kernel⟩
  interval_cases i <;> exact grants_ok (by decide +kernel)

theorem witness_vectorStores : ∀ kind ∈ [(0 : Fin 4), 1, 3], let s := rows0
    let r := s.cur.routed t0 true (.vstore .g kind 1 0 (s.cur.rdS .main 2) (s.cur.rdS .main 3) 3)
    s.clean ∧ s.memRuns .s t0 (jMain [] [2, 3] (limVmem s.vtype false kind 1 3 0)) ∧ s.cur.roomIn 6 = true
    ∧ ∀ x ∈ s.cur.vaccess r kind 0 (s.cur.rdS .main 2) (s.cur.rdS .main 3) 3 s.cur.sys.vl.toNat,
        s.checkAccess s.focusCore 3 .main 0 .g kWrite x.2.2 (32 / 8) = .ok [⟨64 * x.1, 4, true⟩] := by
  intro kind hk
  simp only [List.mem_cons, List.not_mem_nil, or_false] at hk
  rcases hk with rfl | rfl | rfl <;>
    exact ⟨⟨rfl, rfl⟩, memRuns_of, rfl, fun x hx => grants_ok (by revert x; decide +kernel)⟩

/-! ### Witnesses: engine words -/

/-- Core 0 with a descriptor `h` and its dimensions at scratch offset 0, and flume 0 bound to its region. -/
def described (h : Nat) (dims : List Nat) : State :=
  let s := mem0
  { s with mem := memWrite [] (scratchPa 0 0) (natLe 64 h ++ dims.flatMap (natLe 16)), fab := { s.fab with flumes := s.fab.flumes.set 0 { Flume.reset with region := some 0, esize := 64 } } }

theorem witness_engineWordsAreAccepted_cpy : let s := described (2 ^ 23) [4]
    let h := readHdr s.mem s.focusCore 0
    let fl := s.fab.flumes[Fin.ofNat 256 (fld h 448 8)]
    s.focusStrand = .main ∧ s.cur.rdP .main 0 = true ∧ s.memRuns .l t0 (jMainG 0 [] [1, 2, 3] true) ∧ (s.cur.rdS .main 2).toNat / 64 * 64 = 0
    ∧ s.cur.roomIn (Fin.ofNat 8 (0 : Fin 2).val) = true ∧ (dTo h = 5 → fl.region = some s.cur.ctx.region) ∧ 0 + 64 + 16 * dNdim h ≤ s.cur.ctx.scratchQuota
    ∧ (dTo h = 4 → fld s.cur.ctx.coreMask (fld h 42 7) 1 = 1) ∧ s.clean
    ∧ cpyRefused 0 0 ⟨1, s.cur.po, h, readDims s.mem s.focusCore 0 (dNdim h), s.cur.rdS .main 3, s.cur.rdS .main 1, 0, 0, 0, false, false⟩ fl.esize = false :=
  ⟨rfl, rfl, memRuns_of, by decide, rfl, by decide +kernel, by decide +kernel, by decide +kernel, ⟨rfl, rfl⟩, by decide +kernel⟩

theorem witness_engineWordsAreAccepted_cpyA : let s := setS (described (3 * 2 ^ 20 + 2 * 2 ^ 23 + 2 ^ 31) [128, 128]) [(1, 1)]
    let h := readHdr s.mem s.focusCore 0
    let fl := s.fab.flumes[Fin.ofNat 256 (fld h 448 8)]
    s.memRuns .l t0 (jMainG 0 [] [1, 2, 3] true) ∧ (dTo h = 5 → fl.region = some s.cur.ctx.region) ∧ 0 + 64 + 16 * dNdim h ≤ s.cur.ctx.scratchQuota
    ∧ (dTo h = 4 → fld s.cur.ctx.coreMask (fld h 42 7) 1 = 1)
    ∧ (∀ cls ∈ [(1 : Fin 3), 2], cpyRefused cls (fld (s.cur.rdS .main 1) 0 16) ⟨1, s.cur.po, h, readDims s.mem s.focusCore 0 (dNdim h), s.cur.rdS .main 3, 0, cls, 0, 0, false, false⟩ fl.esize = false) :=
  ⟨memRuns_of, by decide +kernel, by decide +kernel, by decide +kernel, by decide +kernel⟩

theorem witness_engineWordsAreAccepted_ringAndWindow : let s := setS mem0 [(1, 0x2000000001), (3, 32)]
    s.focusStrand = .main ∧ s.cur.rdP .main 0 = true ∧ s.memRuns .l t0 (jMainG 0 [] [1, 2, 3] true)
    ∧ ringBad s.focusCore (s.cur.rdS .main 1) (s.cur.rdS .main 2) (s.cur.rdS .main 3) = false ∧ s.cur.roomIn 4 = true
    ∧ s.memRuns .x t0 (jMainG 0 [] [2] true) ∧ s.cur.roomIn 3 = true := ⟨rfl, rfl, memRuns_of, by decide +kernel, rfl, memRuns_of, rfl⟩

/-- A go that has ended. -/
def go0 : Go :=
  { num := 1, po := 0, tile := 0, ft := 0, abase := 0, bbase := 0, na := 1, nb := 1, ent := 1, todo := [], width := 0, coarse := none,
    satTotal := 2, uflTotal := 3, cncTotal := 4, chunksDone := 5, skipped := 6 }

theorem witness_configurationAndAccumulatorWords : let s := withCore { running with eng := { running.eng with lastGo := some go0 } }
    s.focusStrand = .main ∧ s.cur.rdP .main 0 = true ∧ s.cur.eng.gos = [] ∧ s.memRuns .x t0 (jMainG 0 [] [2] true) ∧ s.memRuns .x t0 (jMainG 0 [] [] true)
    ∧ ftRefused (BitVec.ofNat 256 (s.cur.vrow 1 0).toNat) = false ∧ s.cur.eng.lastGo.isSome = true := ⟨rfl, rfl, rfl, memRuns_of, memRuns_of, by decide +kernel, rfl⟩

theorem witness_matrixGoIsAccepted : let s := withCore { running with mat := { running.mat with ft := running.mat.ft.set 0 1 } }
    let c := s.cur
    s.focusStrand = .main ∧ c.rdP .main 0 = true ∧ s.memRuns .x t0 (jMainG 0 [] [] true) ∧ c.roomIn 2 = true ∧ s.clean ∧ fld c.mat.ft[c.ftIndex] 0 1 = 1
    ∧ c.mat.cfg.grouped = false ∧ c.mat.cfg.chunks 0 ≠ [] ∧ inadmissible (if fld c.mat.ft[c.ftIndex] 16 1 = 1 then 2 else 4) (c.mat.cfg.chunks 0) = none :=
  ⟨rfl, rfl, memRuns_of, rfl, ⟨rfl, rfl⟩, by decide +kernel, by decide +kernel, by decide +kernel, by decide +kernel⟩

/-! ### Witnesses: events of the board, of translation, and registers -/

/-- The machine after reset with a board as given. -/
def withBoard (b : Board) : State := { State.reset with board := b }

theorem witness_resetsClearWhatTheySay : let s := withBoard { Board.reset with bootStep := 5 }
    (2 : BitVec 32) ≠ 0x00000C01 ∧ 5 ≤ s.board.bootStep ∧ s.board.lifeBank = false ∧ s.board.lifeSlot < 256 ∧ State.reset.board.bootStep < 6 := by decide

/-- A device that is ready: firmware runs, the ports are up, virtual function 1 is enabled, and region 0 exists, whose page table at 0x1000 maps the first GiB. -/
def device : State :=
  { State.reset with
    board := { Board.reset with bootStep := 7, retry := false, trained := Vector.replicate 2 true, vfEnable := (Vector.replicate 8 false).set 0 true },
    mem := memWrite (memWrite [] 0x1000 (natLe 8 0x2001)) 0x2000 (natLe 8 0x3F),
    trans := { State.reset.trans with windows := Vector.replicate 256 fullWindows },
    sched := { State.reset.sched with regions := [(0, { Region.none with exist := true, state := 0, rcb := setFld 0 320 64 0x1000 })] } }

theorem witness_resetsClearWhatTheySay_functions : device.board.vfEnable[(0 : Fin 8)] = true ∧ 6 ≤ device.board.bootStep ∧ device.regionIds = [0] ∧ device.streams = []
    ∧ (let s := { device with board := { device.board with vfEnable := Vector.replicate 8 false } }
       6 ≤ s.board.bootStep ∧ s.regionIds = [0] ∧ s.streams = [] ∧ s.board.vfEnable = Vector.replicate 8 false) := ⟨rfl, by decide, rfl, rfl, by decide, rfl, rfl, rfl⟩

theorem witness_bootSteps : let b := Board.reset
    b.bootErr = 0 ∧ b.flash.helperOk = true ∧ ({ b.flash with helperOk := false } : Flash).helperOk = false ∧ b.bootStep ≠ 1
    ∧ (2 ≤ ({ b with bootStep := 2 } : Board).bootStep ∧ b.bootErr ≠ 4 ∧ b.trained[(1 : Fin 2)] = false)
    ∧ (b.flash.slotA.chainOk = true ∧ b.flash.slotA.sigOk = true ∧ (if b.flash.secMacOk then b.flash.secVersion else 0) ≤ b.flash.slotA.version)
    ∧ (({ b.flash.slotA with sigOk := false } : SlotImage).sigOk ≠ true ∧ b.flash.slotB.sigOk = true)
    ∧ (b.bootErr ≠ 5 ∧ b.warm = false ∧ b.flash.blob.roots = []) := by decide

theorem witness_powerThermalAndVoltage_power : let b := { Board.reset with bootStep := 5 }
    5 ≤ b.bootStep ∧ b.throttle = false ∧ b.limit * ((6004 :: b.samples).take 10).length < sumPower ((6004 :: b.samples).take 10)
    ∧ 100 * sumPower ((1000 :: b.samples).take 10) < 95 * (b.limit * ((1000 :: b.samples).take 10).length) ∧ 99 ≤ ({ b with belowRun := 99 } : Board).belowRun ∧ b.belowRun < 99
    ∧ ¬ 100 * sumPower ((1450 :: b.samples).take 10) < 95 * (b.limit * ((1450 :: b.samples).take 10).length)
    ∧ sumPower ((1450 :: b.samples).take 10) ≤ b.limit * ((1450 :: b.samples).take 10).length := by decide

theorem witness_powerThermalAndVoltage_clock : ({ Board.reset with clockMhz := 1650 } : Board).clockMhz < Board.reset.clockTarget
    ∧ ({ Board.reset with clockTarget := 1650 } : Board).clockTarget < Board.reset.clockMhz ∧ (840 : Int) ≤ 840 ∧ (840 : Int) < 920 ∧ Board.reset.throttle = false
    ∧ (799 : Int) < 800 ∧ ({ Board.reset with throttle := true } : Board).throttle = true := by decide

/-- Board with `n` errors counted in domain 0 and offset, run and quiet windows as given. -/
def voltage (n v r q : Nat) : Board :=
  { Board.reset with bootStep := 5, domCount := Board.reset.domCount.set 0 n, voff := Board.reset.voff.set 0 v, vrun := Board.reset.vrun.set 0 r, vquiet := Board.reset.vquiet.set 0 q }

theorem witness_powerThermalAndVoltage_voltage :
    (let b := voltage 100000 5 0 0; 5 ≤ b.bootStep ∧ b.blob.pft[(0 : Fin 18)] < b.domCount[(0 : Fin 18)] ∧ b.voff[(0 : Fin 18)] ≠ 0)
    ∧ (let b := voltage 0 5 0 359; 8 * b.domCount[(0 : Fin 18)] ≤ b.blob.pft[(0 : Fin 18)] ∧ b.voff[(0 : Fin 18)] + 5 ≤ 60 ∧ b.voff[(0 : Fin 18)] + 5 ≤ b.blob.deepest[(0 : Fin 18)]
      ∧ 359 ≤ b.vquiet[(0 : Fin 18)] ∧ b.vlock[(0 : Fin 18)] ≤ 1)
    ∧ (let b := voltage 100000 0 3 0; b.blob.pft[(0 : Fin 18)] < b.domCount[(0 : Fin 18)] ∧ b.voff[(0 : Fin 18)] = 0 ∧ b.vrun[(0 : Fin 18)] = 3) := by decide

/-- The device with PTM enabled, and an HDM decoder on port 0. -/
def timed : State :=
  { device with tb := { device.tb with ctl := 1 },
                board := { device.board with ptmEnable := Vector.replicate 2 true, hdm := [{ base := Config.cxlBase, size := 0x10000000, port := 0, enabled := true, interleave := false, cap0 := 0, cap1 := 0 }] } }

theorem witness_sidebandAndTimeEvents : let s := timed
    5 ≤ s.board.bootStep ∧ s.board.lifeSlot < 256 ∧ s.board.lifeBank = false ∧ ({ s.board with lifeBank := true } : Board).lifeBank = true ∧ s.tb.ctl = 1
    ∧ s.board.trained[(0 : Fin 2)] = true ∧ s.board.ptmEnable[(0 : Fin 2)] = true ∧ (1000000 : Int) < 1000001 ∧ (-1000001 : Int) < -1000000 ∧ (-1000000 : Int) ≤ 1000000
    ∧ ∃ h ∈ s.board.hdm, h.enabled = true ∧ (h.interleave = true ∨ h.port = 0) := by decide

/-- A generic test that a result is a given value. -/
def isOk {ε α : Type} [DecidableEq α] (e : Except ε α) (a : α) : Bool := match e with | .ok b => decide (b = a) | .error _ => false

theorem isOk_eq {ε α : Type} [DecidableEq α] {e : Except ε α} {a : α} (h : isOk e a = true) : e = .ok a := by
  cases e with
  | error x => simp [isOk] at h
  | ok q => simp [isOk] at h; rw [h]

/-- The device with core 0 running under the page table. -/
def walking : State := { device with cores := device.cores.set 0 { running with ctx := { running.ctx with root := 0x1000 } } }

theorem witness_walksAndInvalidations_walk : let s := walking
    s.cores[(0 : Fin 128)].phase ≠ .idle ∧ (0x5000 : W64).toNat < 2 ^ 48 ∧ s.walk 0x1000 0 (0x5000 : W64).toNat = .ok ⟨0x3F, 30, 0x2000⟩
    ∧ cacheable (s.marked 0x3F 30 0x5000) = true ∧ s.trans.walks = [] ∧ (s.walk 0x1000 0 (0x80000000 : W64).toNat).toOption = none
    ∧ (let u := { s with trans := { s.trans with walks := [{ asid := 0, root := 0x1000, va := 0x5000, cores := [0], stale := true }] } }
       ∃ w, u.trans.walks = [w] ∧ w.asid = 0 ∧ w.va = (0x5000 : W64).toNat ∧ w.stale = true ∧ w.cores = [0]) :=
  ⟨by decide, by decide, isOk_eq (by decide +kernel), by decide +kernel, rfl, by decide +kernel, _, rfl, rfl, by decide, rfl, rfl⟩

theorem witness_walksAndInvalidations_invalidation : let s := { device with trans := { device.trans with invq := 0x100000000000000000000000000000000, atsEnable := Vector.replicate 10 true } }
    let d : InvDesc := ⟨0, 0, 0, 1, 0, none⟩
    s.trans.queue.length < 64 ∧ s.invBad (setFld s.trans.invq 192 64 (1 : W64).toNat) = false ∧ s.funcOn 0 = true ∧ s.trans.atsEnable[(0 : Fin 10)] = true
    ∧ ({ s.trans with queue := [d] } : Trans).queue = d :: [] ∧ d.mbx = none ∧ (∀ x ∈ s.fab.inflight, s.drains d x = false) ∧ d.kind = 0 ∧ 0 < d.pages :=
  ⟨by decide, by decide +kernel, rfl, rfl, rfl, rfl, fun _ h => (by cases h), rfl, by decide⟩

/-- A page-in of a 4 KiB page whose leaf at 0x3000 names CXL memory. -/
def missing (f : Option Nat) : PageIn := { pib := 0x4000, asid := 0, va := 0x7000, shift := 12, leafAddr := 0x3000, old := BitVec.ofNat 64 (0x500000000000103F + Config.cxlBase), frame := f, emptied := false, waiters := [] }

/-- The device with that page-in, and a page-in block at 0x4000 whose ring of 16 frames lies at 0x6000, with TAIL as given. -/
def pagingIn (f : Option Nat) (tail : Nat) : State :=
  { device with mem := memWrite (memWrite (memWrite device.mem 0x3000 (natLe 8 (missing f).old.toNat)) 0x4000 (natLe 32 (4 + 4 * 2 ^ 128 + tail * 2 ^ 32 + 0x6000 * 2 ^ 64))) 0x6000 (natLe 8 0x9000),
                trans := { device.trans with pageIns := [missing f] },
                board := { device.board with hdm := [{ base := Config.cxlBase, size := 0x10000000, port := 0, enabled := true, interleave := false, cap0 := 0, cap1 := 0 }] } }

theorem witness_pageInsAndAccessTables_pop : ∀ tail ∈ [0, 1], let s := pagingIn none tail
    let x := missing none
    let b := s.pageInBlock x
    s.trans.pageIns[0]? = some x ∧ s.clean ∧ x.frame = none ∧ x.pools = true ∧ s.popBehind 0 x = false ∧ s.popRefusal x b = none ∧ pibOk b = true ∧ x.emptied = false
    ∧ (fld b (x.ring + 48) 16 = fld b (x.ring + 32) 16 ↔ tail = 0) := by
  intro tail h
  simp only [List.mem_cons, List.not_mem_nil, or_false] at h
  rcases h with rfl | rfl <;> exact ⟨rfl, ⟨rfl, rfl⟩, rfl, rfl, rfl, by decide +kernel, by decide +kernel, rfl, by decide +kernel⟩

theorem witness_pageInsAndAccessTables_copy : let s := pagingIn (some 0x9000) 1
    let x := missing (some 0x9000)
    s.trans.pageIns[0]? = some x ∧ x.frame = some 0x9000 ∧ x.waiters = [] ∧ s.copyOk x 0x9000 = true ∧ memNat s.mem x.leafAddr 8 = x.old.toNat
    ∧ (∀ y ∈ s.fab.inflight, s.drains x.inval y = false) ∧ (x.leafAddr + 8 ≤ 0x9000 ∨ 0x9000 + x.size ≤ x.leafAddr) :=
  ⟨rfl, rfl, rfl, by decide +kernel, by decide +kernel, fun _ h => (by cases h), by decide⟩

theorem witness_pageInsAndAccessTables_tables : let u : AtUpd := ⟨3, 0x8000, 7, [], Vector.replicate 8 0⟩
    let s := { flying with trans := { flying.trans with atQueue := [u], windows := flying.trans.windows.set 0x8C fullWindows } }
    s.trans.atQueue.length < 16 ∧ s.trans.atQueue = u :: [] ∧ u.loaded = [] ∧ s.refusal 0x8C 1 u.addr 128 = none ∧ (∀ i : Fin 8, windowBad (s.windowRec u)[i] = false)
    ∧ (∀ x ∈ s.fab.inflight, x.performed = true ∨ x.core.val ≠ u.master.val) ∧ (∃ x ∈ s.fab.inflight, x.performed = false ∧ x.core.val = (0 : Fin 256).val) :=
  ⟨by decide, rfl, rfl, by decide +kernel, by decide +kernel, by decide, write64, List.mem_singleton.2 rfl, rfl, rfl⟩

/-- The device with peer 2 of port 0 and its exported range at 0x10000. -/
def peered : State :=
  { device with trans := { device.trans with peers := device.trans.peers.set 2 (BitVec.ofNat 128 1), exports := device.trans.exports } }

theorem witness_requestsAndRegisters_host : device.clean ∧ device.funcOn 0 = true ∧ device.board.d3hot[funcPort 0] = false ∧ (0x8000 < 0x3000000000) ∧ 0x8000 < device.usableTop
    ∧ device.refusal (funcMaster 0) 1 0x8000 4 = none ∧ device.refusal (funcMaster 0) 2 0x8000 ([1, 2] : List Byte).length = none
    ∧ (let s := { device with trans := State.reset.trans }; s.funcOn 0 = true ∧ ∃ k, s.refusal (funcMaster 0) 1 0x8000 4 = some k) :=
  ⟨⟨rfl, rfl⟩, rfl, rfl, by decide, by decide, by decide +kernel, by decide +kernel, rfl, ⟨1 + 0x8000 / 1024 % 24, by decide +kernel⟩⟩

theorem windows_all (m : Fin 256) : device.trans.windows[m] = fullWindows := by
  have h : device.trans.windows = Vector.replicate 256 fullWindows := rfl
  rw [h]; simp

theorem witness_requestsAndRegisters_registers : State.reset.funcOn 0 = false ∧ device.funcOn 0 = true ∧ device.fe.registered[(0 : Fin 10)] = false
    ∧ ({ device.fe with registered := Vector.replicate 10 true } : FrontEnd).registered[(0 : Fin 10)] = true
    ∧ (∃ k, State.reset.refusal 0x88 2 (0x4100000000 + 0x58) 4 = some k) ∧ fld (3 : W64) 0 1 = 1 ∧ fld (2 : W64) 0 1 = 0 ∧ fld (0x114 : W64) 0 5 ≤ 20 :=
  ⟨rfl, rfl, rfl, rfl, ⟨0x40, by decide +kernel⟩, by decide, by decide, by decide⟩

/-! ### Witnesses: mailbox, mapping and packets -/

/-- The device with pages for the mailbox of function 0, a root region 1 of function 0, and every feature acknowledged. -/
def host0 : State :=
  { device with
    fe := { device.fe with features := publishedFeatures, featack := Vector.replicate 10 0x1FF },
    sched := { device.sched with regions := device.sched.regions ++ [(1, { Region.none with exist := true, state := 0 })] } }

/-- Slot 0 of function 0's mailbox asks for command `op` with the argument bytes given. -/
def asking (op : Nat) (args : List Byte) (s : State) : State :=
  { s with fe := { s.fe with mbxRung := s.fe.mbxRung.set 0 1 }, mem := memWrite s.mem (mbxAddr 0 0) (natLe 8 op ++ args) }

/-- A descriptor of queue 0 of function 0 in region 1, with a ring of 16 packets at 0x10000: its state and its slot. -/
def descriptor (state slot wptr : Nat) : BitVec 2048 :=
  setFld (setFld (setFld (newQd 0 0x10000 0 0 1 0) 152 3 state) 168 8 slot) 64 32 wptr

/-- Queue 0 with that descriptor. -/
def queued (d : BitVec 2048) : State := { host0 with mem := memWrite host0.mem 0x2000000000 (natLe 256 d.toNat) }

theorem clean_of {s : State} (h1 : s.ras.poison = [] := by rfl) (h2 : s.fab.badDirty = [] := by rfl) : s.clean := ⟨h1, h2⟩

theorem witness_mailboxAndMapping_queueReg : let s := asking 1 (natLe 8 0x10000 ++ [0, 0] ++ natLe 2 1) host0
    s.fe.qdbase + 0x100000 ≤ Config.landingBase ∧ s.ras.poison = [] ∧ s.fab.badDirty = [] ∧ s.asked 0 0 1 = true ∧ memNat s.mem (mbxAddr 0 0 + 8) 8 % 1024 = 0 ∧ memNat s.mem (mbxAddr 0 0 + 16) 1 = 0
    ∧ memNat s.mem (mbxAddr 0 0 + 17) 1 = 0 ∧ s.owns 0 (memNat s.mem (mbxAddr 0 0 + 18) 2) = true ∧ memNat s.mem (mbxAddr 0 0 + 18) 2 < 4096 ∧ memNat s.mem (mbxAddr 0 0 + 20) 1 < 8
    ∧ memNat s.mem (mbxAddr 0 0 + 21) 107 = 0 ∧ qdState (s.qd 0) = 0 := by decide +kernel

theorem witness_mailboxAndMapping_queueUnregReset : let s := asking 2 (natLe 8 0) (queued (descriptor 1 0xFF 0))
    let u := asking 3 (natLe 8 0) (queued (descriptor 4 0xFF 0))
    s.asked 0 0 2 = true ∧ memNat s.mem (mbxAddr 0 0 + 8) 2 = 0 ∧ qdState (s.qd 0) ≠ 0 ∧ qdFunc (s.qd 0) = 0 ∧ memNat s.mem (mbxAddr 0 0 + 10) 118 = 0
    ∧ u.asked 0 0 3 = true ∧ qdState (u.qd 0) = 4 ∧ qdFunc (u.qd 0) = 0 ∧ memNat u.mem (mbxAddr 0 0 + 10) 2 = 0 ∧ memNat u.mem (mbxAddr 0 0 + 16) 112 = 0 := by decide +kernel

theorem witness_mailboxAndMapping_others : let s := asking 4 (natLe 32 (2 ^ 128 + 2 ^ 192)) host0
    let u := asking 5 (natLe 32 0 ++ natLe 8 0x20000) host0
    let w := asking 6 (natLe 8 0x20000) host0
    s.asked 0 0 4 = true ∧ memNat s.mem (mbxAddr 0 0 + 40) 88 = 0 ∧ s.invBad (BitVec.ofNat 256 (memNat s.mem (mbxAddr 0 0 + 8) 32)) = false ∧ s.trans.queue.length < 64
    ∧ (∀ x ∈ s.trans.queue, x.mbx ≠ some 0)
    ∧ u.asked 0 0 5 = true ∧ memNat u.mem (mbxAddr 0 0 + 48) 80 = 0 ∧ fld (u.fe.featack[(0 : Fin 10)] &&& u.fe.features) 8 1 = 1
    ∧ w.asked 0 0 6 = true ∧ memNat w.mem (mbxAddr 0 0 + 16) 112 = 0 ∧ memNat w.mem (mbxAddr 0 0 + 8) 8 % 4096 = 0 ∧ w.refusal 0x8C 2 (memNat w.mem (mbxAddr 0 0 + 8) 8) 4096 = none := by
  decide +kernel

/-- A level at index 0 with the packets given. -/
def level0 (buf : List (BitVec 512)) : Level := { freshLevel 0 none with buf := buf }

/-- Slot 0 holds queue 0, mapped, with the levels given. -/
def parsing (wptr : Nat) (x : Parser) : State :=
  let s := queued (descriptor 2 0 wptr)
  { s with fe := { s.fe with parsers := s.fe.parsers.set 0 { x with queue := some 0, wptr := wptr } } }

theorem witness_mailboxAndMapping_map : let s := { queued (descriptor 1 0xFF 1) with fe := { (queued (descriptor 1 0xFF 1)).fe with runnableSince := [0] } }
    let d := s.qd 0
    s.fe.parsers[(0 : Fin 128)].queue = none ∧ qdState d = 1 ∧ qdWaiting d = false ∧ fld d 1024 832 = 0 ∧ (qdWptr d + 2 ^ 32 - qdRptr d) % 2 ^ 32 ≤ qdSize d
    ∧ sget Kept.none s.fe.kept 0 = Kept.none ∧ s.nextQueue = some 0 := by decide +kernel

theorem witness_mailboxAndMapping_unmap : let s := parsing 1 { Parser.reset with levels := [level0 []] }
    let u := parsing 1 { Parser.reset with levels := [level0 []], unmapping := true }
    s.fe.parsers[(0 : Fin 128)].queue = some 0 ∧ s.fe.parsers[(0 : Fin 128)].unmapping = false ∧ u.fe.parsers[(0 : Fin 128)].unmapping = true
    ∧ u.fe.parsers[(0 : Fin 128)].tlwait = none ∧ u.fe.parsers[(0 : Fin 128)].levels = level0 [] :: [] ∧ (level0 []).loopNew = false ∧ (level0 []).next < 2 ^ 32 := by decide +kernel

theorem witness_wakesAndDeviceQueues_wakes : let s := parsing 1 { Parser.reset with levels := [level0 []] }
    let u := queued (descriptor 1 0xFF 1)
    s.fe.gated = false ∧ qdState (s.qd 0) = 2 ∧ s.fe.parsers[Fin.ofNat 128 (qdSlot (s.qd 0))].queue = some 0 ∧ s.fe.parsers[Fin.ofNat 128 (qdSlot (s.qd 0))].levels = [level0 []]
    ∧ (qdWptr (s.qd 0) + 2 ^ 32 - (level0 []).next) % 2 ^ 32 ≤ qdSize (s.qd 0) ∧ (level0 []).left = none ∧ (level0 []).active = false ∧ (level0 []).loopNew = false ∧ (level0 []).skip = 0
    ∧ (level0 []).next < 2 ^ 32 ∧ u.fe.gated = false ∧ qdState (u.qd 0) = 1 ∧ (∀ j : Fin 128, u.fe.parsers[j].queue = none)
    ∧ ({ u.fe with gated := true } : FrontEnd).gated = true ∧ sget none u.fe.latchMap 0 = none ∧ u.fe.latchBits = 0 ∧ u.fe.latchFifo = [] ∧ u.fe.latchOverflow = false := by decide +kernel

theorem witness_wakesAndDeviceQueues_waitRecord : let d := setFld (descriptor 1 0xFF 1) 2016 1 1
    let s := queued (setFld d 1856 64 0x7000)
    qdState (s.qd 0) = 1 ∧ qdWaiting (s.qd 0) = true ∧ s.readTimeline (qdRegion (s.qd 0)) (fld (s.qd 0) 1856 64) = .value 0 0x7000 ∧ fld (s.qd 0) 1920 64 ≤ 0 := by decide +kernel

/-- The device queue 0 of region 1, with `n` packets in its ring, and core 0 of that region, which offers a NOP. -/
def offering (n : Nat) : State :=
  { queued (setFld (setFld (descriptor 1 0xFF n) 151 1 1) 150 1 0) with
    cores := host0.cores.set 0 { running with ctx := { running.ctx with region := 1 }, enqOffer := some (.main, 0, 0xF00000) } }

theorem witness_wakesAndDeviceQueues_dispatch : ∀ n ∈ [0, 16], let s := offering n
    s.cores[(0 : Fin 128)].enqOffer = some (.main, 0, 0xF00000) ∧ s.cores[(0 : Fin 128)].enqAnswer = none ∧ s.devqCause 0 0 0xF00000 = none ∧ s.ras.poison = [] ∧ s.fab.badDirty = [] ∧ s.fe.gated = false ∧ qdState (s.qd 0) = 1
    ∧ ((qdWptr (s.qd 0) + 2 ^ 32 - qdRptr (s.qd 0)) % 2 ^ 32 = qdSize (s.qd 0) ↔ n = 16) ∧ qdPacket (s.qd 0) (qdWptr (s.qd 0)) + 64 ≤ s.qdAddr 0 := by decide +kernel

/-- A packet of a type with scope 15 and the bits above its header given. -/
def pkt (ty rest : Nat) : BitVec 512 := BitVec.ofNat 512 (ty + 15 * 2 ^ 20 + rest)

/-- Slot 0 with packet `k` at its parse point. -/
def at0 (k : BitVec 512) : State := parsing 1 { Parser.reset with levels := [level0 [k]] }

/-- What `atRing` asks, as a test. -/
def ringOk (s : State) (k : BitVec 512) (l : Level) : Bool :=
  decide (s.fe.parsers[(0 : Fin 128)].queue = some 0) && decide (s.fe.parsers[(0 : Fin 128)].levels = [l]) && !l.active && !l.loopNew && decide (l.skip = 0) && l.left.isNone
  && decide (l.buf.head? = some k) && s.fe.parsers[(0 : Fin 128)].free && s.fe.parsers[(0 : Fin 128)].ordered k && (s.packetCause 0 0 none k).isNone

theorem atRing_of {s : State} {k : BitVec 512} {l : Level} (h : ringOk s k l = true) : s.atRing 0 0 l k := by
  simp only [ringOk, Bool.and_eq_true, decide_eq_true_eq, Bool.not_eq_true', Option.isNone_iff_eq_none] at h
  obtain ⟨⟨⟨⟨⟨⟨⟨⟨⟨a, b⟩, c⟩, d⟩, e⟩, f⟩, g⟩, h⟩, i⟩, j⟩ := h
  exact ⟨a, b, c, d, e, f, g, h, i, j⟩

theorem witness_packetsAtParse_ring : (at0 (pkt 0 0)).atRing 0 0 (level0 [pkt 0 0]) (pkt 0 0) ∧ pkType (pkt 0 0) = 0
    ∧ (let k := pkt 3 (0x9000 * 2 ^ 64 + 4 * 2 ^ 128); (at0 k).atRing 0 0 (level0 [k]) k ∧ pkType k = 3)
    ∧ (let k := pkt 4 (0x7000 * 2 ^ 64 + 2 ^ 264); (at0 k).atRing 0 0 (level0 [k]) k ∧ pkType k = 4)
    ∧ (let k := pkt 5 (2 * 2 ^ 64 + 3 * 2 ^ 80); (at0 k).atRing 0 0 (level0 [k]) k ∧ pkType k = 5)
    ∧ (let k := pkt 6 0; (at0 k).atRing 0 0 (level0 [k]) k ∧ pkType k = 6) :=
  ⟨atRing_of (by decide +kernel), by decide +kernel, ⟨atRing_of (by decide +kernel), by decide +kernel⟩, ⟨atRing_of (by decide +kernel), by decide +kernel⟩,
    ⟨atRing_of (by decide +kernel), by decide +kernel⟩, ⟨atRing_of (by decide +kernel), by decide +kernel⟩⟩

theorem witness_packetsAtParse_pred : let k := pkt 4 (0x7000 * 2 ^ 64 + 2 ^ 264)
    pkType k = 4 ∧ isOk ((at0 k).readBlock 0 (fld k 64 64) 8) 0 = true ∧ predTest (fld k 256 4) (0 &&& BitVec.ofNat 64 (fld k 192 64)) (BitVec.ofNat 64 (fld k 128 64)) = true
    ∧ (let j := pkt 4 (0x7000 * 2 ^ 64 + 2 ^ 128 + 2 ^ 264); predTest (fld j 256 4) (0 &&& BitVec.ofNat 64 (fld j 192 64)) (BitVec.ofNat 64 (fld j 128 64)) = false) := by decide +kernel

theorem witness_packetsAtParse_fetch : let s := parsing 2 { Parser.reset with levels := [level0 []] }
    let k := pkt 5 (2 * 2 ^ 64 + 1 * 2 ^ 80)
    let l1 := (level0 [k]).enterLoop 1 k
    let u := parsing 3 { Parser.reset with levels := [l1] }
    s.fe.parsers[(0 : Fin 128)].queue = some 0 ∧ s.fe.parsers[(0 : Fin 128)].levels = [level0 []] ∧ s.fe.parsers[(0 : Fin 128)].unmapping = false ∧ (level0 []).early = []
    ∧ 0 < (s.fe.parsers[(0 : Fin 128)].wptr + 2 ^ 32 - (level0 []).next) % 2 ^ 32 ∧ s.refusal 0x88 1 (qdPacket (s.qd 0) 0) 64 = none ∧ s.badGranule [(qdPacket (s.qd 0) 0, 64)] = none
    ∧ (level0 []).buf.length < 16 ∧ u.fe.parsers[(0 : Fin 128)].levels = [l1] ∧ l1.active = true ∧ l1.loopNew = true ∧ l1.left = none ∧ l1.skip = 0 ∧ l1.early = [] ∧ l1.bodyPos < l1.bodyLen
    ∧ l1.body.length + 1 = l1.bodyLen - l1.bodyFrom ∧ bodyCause l1.bodyFrom l1.bodyLen (l1.body ++ [0]) = none
    ∧ u.fe.parsers[(0 : Fin 128)].unmapping = false ∧ l1.bodyFrom + l1.body.length < (u.fe.parsers[(0 : Fin 128)].wptr + 2 ^ 32 - l1.next) % 2 ^ 32
    ∧ u.refusal 0x88 1 (qdPacket (u.qd 0) (l1.next % 2 ^ 32)) 64 = none ∧ u.badGranule [(qdPacket (u.qd 0) (l1.next % 2 ^ 32), 64)] = none
    ∧ memNat u.mem (qdPacket (u.qd 0) (l1.next % 2 ^ 32)) 64 = 0 := by
  decide +kernel

theorem witness_packetsAtParse_tlwait : let k := pkt 8 (0x7000 * 2 ^ 64)
    let j := pkt 8 (0x7000 * 2 ^ 64 + 5 * 2 ^ 128)
    (at0 k).atRing 0 0 (level0 [k]) k ∧ pkType k = 8 ∧ (at0 k).readTimeline ((at0 k).parserRegion 0) (fld k 64 64) = .value 0 0x7000 ∧ fld k 128 64 ≤ 0
    ∧ (at0 j).atRing 0 0 (level0 [j]) j ∧ pkType j = 8 ∧ 0 < fld j 128 64 ∧ (at0 j).fe.parsers[(0 : Fin 128)].waitLeft = none :=
  ⟨atRing_of (by decide +kernel), by decide +kernel, by decide +kernel, by decide +kernel, atRing_of (by decide +kernel), by decide +kernel, by decide +kernel, rfl⟩

theorem witness_packetsAtParse_holds : let j := pkt 8 (0x7000 * 2 ^ 64 + 5 * 2 ^ 128)
    ∀ v ∈ [0, 5], let s := parsing 1 { Parser.reset with levels := [level0 [j]], tlwait := some (0x7000, v, some 0) }
    s.fe.parsers[(0 : Fin 128)].queue = some 0 ∧ s.fe.parsers[(0 : Fin 128)].tlwait = some (0x7000, v, some 0) ∧ s.readTimeline (s.parserRegion 0) 0x7000 = .value 0 0x7000
    ∧ (v ≤ 0 ∨ 0 < v) ∧ (0 : Nat) ≤ s.tb.now.toNat ∧ qdState (s.qd 0) = 2 ∧ qdSlot (s.qd 0) = 0 := by decide +kernel

theorem witness_workPackets_leaveParse : let w := pkt 9 (0x7000 * 2 ^ 64 + 8 * 2 ^ 24)
    let m := pkt 12 (0x7000 * 2 ^ 64)
    let t := pkt 7 (0x7000 * 2 ^ 64 + 5 * 2 ^ 128)
    (at0 m).atRing 0 0 (level0 [m]) m ∧ pkType m = 12 ∧ isOk ((at0 m).devRange 0x88 ((at0 m).parserRegion 0) kWrite (fld m 64 64) 16) [(0x7000, 16, 0x3F)] = true
    ∧ (0x7000 + 16 ≤ (at0 m).qdAddr 0) ∧ (at0 t).atRing 0 0 (level0 [t]) t ∧ pkType t = 7
    ∧ isOk ((at0 t).devPiece 0x88 ((at0 t).parserRegion 0) kWrite (fld t 64 64, 8)) (0x7000, 8, 0x3F) = true ∧ fld (0x3F : W64) 4 1 = 1 ∧ fld (0x3F : W64) 62 2 ≤ 1
    ∧ (at0 t).refusal 0x88 3 0x7000 8 = none ∧ pkType w = 9 :=
  ⟨atRing_of (by decide +kernel), by decide +kernel, by decide +kernel, by decide +kernel, atRing_of (by decide +kernel), by decide +kernel, by decide +kernel, by decide, by decide,
    by decide +kernel, by decide +kernel⟩

/-! ### Witnesses: work packets, streams and encoders -/

theorem fullWindow_bits : fld fullWindows[(0 : Fin 8)] 0 1 = 1 ∧ fld fullWindows[(0 : Fin 8)] 30 34 = 0 ∧ fld fullWindows[(0 : Fin 8)] 94 34 = 2 ^ 34 - 1
    ∧ fld fullWindows[(0 : Fin 8)] 2 1 = 1 := by decide

theorem firmware_reaches (o : Nat) (h1 : o + 4 ≤ 0x4000000) : device.refusal 0x8C 2 (0x4100000000 + o) 4 = none := by
  have hw : winGrant fullWindows 2 (0x4100000000 + o) 4 = true := by
    obtain ⟨e1, e2, e3, e4⟩ := fullWindow_bits
    simp only [winGrant, List.any_eq_true]
    exact ⟨0, List.mem_finRange 0, by simp only [winContains, e1, e2, e3, e4]; simp; omega⟩
  have i1 : inShadow (0x4100000000 + o) 4 = false := by
    have : Config.shadowBase = 0x4200000000 := rfl
    simp [inShadow, this]; omega
  have t (a : Nat) (ha : 0x4100000000 ≤ a) (hb : a < 0x4104000000) : device.targetOf a = some 0x40 := by
    have c1 : Config.landingBase + Config.landingSize = 0x4008000000 := by decide
    have c2 : Config.regBase = 0x4100000000 := rfl
    have c3 : Config.regSize = 0x4000000 := rfl
    rw [State.targetOf, if_neg (by omega), if_neg (by omega), if_pos (by omega)]
  have e : 0x4100000000 + o + 4 - 1 = 0x4100000000 + (o + 3) := by omega
  simp only [State.refusal, i1, e, t (0x4100000000 + o) (by omega) (by omega), t (0x4100000000 + (o + 3)) (by omega) (by omega)]
  refine List.find?_eq_none.2 fun x _ => ?_
  have q : device.windowsAt 0x8C x = fullWindows := windows_all _
  rw [q, hw]
  decide

theorem witness_requestsAndRegisters_firmware : ∀ o, o % 4 = 0 → o < 0x4000000 → device.refusal 0x8C 2 (0x4100000000 + o) 4 = none := fun o _ h => firmware_reaches o (by omega)

/-- The device with peer 2 of port 0, requester 0x0100, and export 0: 64 KiB at 0x10000, for reads and writes of peer 2. -/
def exporting : State :=
  { device with trans := { device.trans with peers := device.trans.peers.set 2 (BitVec.ofNat 128 (1 + 0x100 * 2 ^ 112)),
                                             exports := device.trans.exports.set 0 (BitVec.ofNat 128 (7 + 1 * 2 ^ 78 + 4 * 2 ^ 112)) } }

theorem witness_requestsAndRegisters_peer : let s := exporting
    s.clean ∧ s.board.bootStep = 7 ∧ s.board.trained[(0 : Fin 2)] = true ∧ s.peerOf 0 0x100 = some 2 ∧ s.exported 2 false 0x40 8 = some 0x10040
    ∧ s.refusal 0xA2 1 0x10040 8 = none ∧ s.exported 2 true 0x40 2 = some 0x10040 ∧ s.refusal 0xA2 2 0x10040 2 = none :=
  ⟨clean_of, rfl, rfl, by decide +kernel, by decide +kernel, by decide +kernel, by decide +kernel, by decide +kernel⟩

theorem witness_workPackets_write : let k := pkt 9 (0x7000 * 2 ^ 64 + 8 * 2 ^ 24)
    (at0 k).atRing 0 0 (level0 [k]) k ∧ pkType k = 9 ∧ isOk ((at0 k).devRange 0x88 ((at0 k).parserRegion 0) kWrite (fld k 64 64) (pkArg k)) [(0x7000, pkArg k, 0x3F)] = true
    ∧ 0x7000 + pkArg k ≤ (at0 k).qdAddr 0 := ⟨atRing_of (by decide +kernel), by decide +kernel, by decide +kernel, by decide +kernel⟩

theorem witness_workPackets_signalWithoutAtomics : let k := pkt 7 (0x40000000 * 2 ^ 64 + 5 * 2 ^ 128)
    let s : State := { at0 k with mem := memWrite (at0 k).mem 0x2008 (natLe 8 0x2F) }
    s.atRing 0 0 (level0 [k]) k ∧ pkType k = 7 ∧ isOk (s.devPiece 0x88 (s.parserRegion 0) kWrite (fld k 64 64, 8)) (0, 8, 0x2F) = true ∧ fld (0x2F : W64) 4 1 = 0 ∧ 0 + 8 ≤ s.qdAddr 0 :=
  ⟨atRing_of (by decide +kernel), by decide +kernel, by decide +kernel, by decide, by decide +kernel⟩

theorem witness_workPackets_copyAndLaunch : let c := pkt 13 (0x9000 * 2 ^ 64 + 0x7000 * 2 ^ 128 + 64 * 2 ^ 192)
    let l := pkt 1 (1 * 2 ^ 64 + 0x8000 * 2 ^ 128)
    let b := pkt 2 (1 * 2 ^ 24 + 1 * 2 ^ 64 + 0x8000 * 2 ^ 128 + 0x8100 * 2 ^ 192)
    (at0 c).atRing 0 0 (level0 [c]) c ∧ pkType c = 13 ∧ (at0 l).atRing 0 0 (level0 [l]) l ∧ pkType l = 1 ∧ (at0 b).atRing 0 0 (level0 [b]) b ∧ pkType b = 2 :=
  ⟨atRing_of (by decide +kernel), by decide +kernel, atRing_of (by decide +kernel), by decide +kernel, atRing_of (by decide +kernel), by decide +kernel⟩

/-! ### Witnesses: completion of work packets, streams, frame jobs, encoders -/

theorem ok_of {ε α : Type} {e : Except ε α} (h : e.toOption.isSome = true) : ∃ a, e = .ok a := by
  cases e with
  | error x => simp [Except.toOption] at h
  | ok a => exact ⟨a, rfl⟩

/-- A work packet with number 7 of slot 0, in region 1: packet, executor, faulted member. -/
def workPkt (k : BitVec 512) (ex : Nat) (f : Option Nat) : Work :=
  { id := 7, pkt := k, exec := ex, latest := true, frame := none, ops := [], faulted := f, cancelled := false, copied := 0, region := 1, func := 0, level := 0, addr := 0x10000,
    index0 := 0, gen := 0, rels := [], final := none }

/-- Slot 0 with that work packet in flight. -/
def atWork (w : Work) : State := parsing 1 { Parser.reset with levels := [level0 []], work := [w] }

theorem witness_workPackets_completes : let w := workPkt (pkt 9 (8 * 2 ^ 24)) 0 none
    let v := workPkt (pkt 1 (1 * 2 ^ 64 + 0x7000 * 2 ^ 384 + 5 * 2 ^ 448)) 1 none
    (atWork w).workOf 0 7 = some (w, none) ∧ w.id = 7 ∧ (atWork w).clean ∧ w.exec = 0 ∧ ¬ (hasTail (pkType w.pkt) = true ∧ fld w.pkt 384 64 ≠ 0)
    ∧ (atWork v).workOf 0 7 = some (v, none) ∧ (atWork v).sched.waiting.any (fun x => x.2 == 7) = false ∧ (atWork v).sched.ops.any (fun o => o.work == 7) = false
    ∧ v.exec = 1 ∧ v.cancelled = false ∧ v.faulted = none ∧ hasTail (pkType v.pkt) = true ∧ fld v.pkt 384 64 ≠ 0
    ∧ ∃ u, (atWork v).signal v.region (pkScope v.pkt) (fld v.pkt 384 64) (BitVec.ofNat 64 (fld v.pkt 448 64)) v.rels = .ok u :=
  ⟨by decide +kernel, rfl, clean_of, rfl, by decide +kernel, by decide +kernel, by decide +kernel, by decide +kernel, rfl, rfl, rfl, by decide +kernel, by decide +kernel, ok_of (by decide +kernel)⟩

theorem witness_workPackets_copyAndFault : let w := workPkt (pkt 13 (0x9000 * 2 ^ 64 + 0x7000 * 2 ^ 128 + 64 * 2 ^ 192)) 2 none
    let v := workPkt (pkt 1 (1 * 2 ^ 64)) 1 (some 0)
    (atWork w).workOf 0 7 = some (w, none) ∧ w.exec = 2 ∧ w.copied = 0 ∧ ¬ (hasTail (pkType w.pkt) = true ∧ fld w.pkt 384 64 ≠ 0) ∧ 0 < fld w.pkt 192 32 ∧ fld w.pkt 192 32 ≤ 4096
    ∧ isOk ((atWork w).devRange 0x88 w.region kRead (fld w.pkt 128 64) (fld w.pkt 192 32)) [(0x7000, 64, 0x3F)] = true
    ∧ isOk ((atWork w).devRange 0x88 w.region kWrite (fld w.pkt 64 64) (fld w.pkt 192 32)) [(0x9000, 64, 0x3F)] = true
    ∧ (atWork v).workOf 0 7 = some (v, none) ∧ v.exec = 1 ∧ (atWork v).sched.waiting.any (fun x => x.2 == 7) = false ∧ (atWork v).sched.ops.any (fun o => o.work == 7) = false
    ∧ v.cancelled = false ∧ v.faulted = some 0 ∧ (atWork v).fe.parsers[(0 : Fin 128)].queue = some 0 ∧ qdState ((atWork v).qd 0) = 2 ∧ qdSlot ((atWork v).qd 0) = 0 := by decide +kernel

/-- A stream control block: one rung, a period of 16 ms, a deadline 1 ms after the release, flume 5, 2 slots of 64 KiB. -/
def scb0 : BitVec 4096 :=
  BitVec.ofNat 4096 (16000000 * 2 ^ 128 + 1 * 2 ^ 160 + 15 * 2 ^ 200 + 5 * 2 ^ 208 + 1000000 * 2 ^ 224 + 0x100000 * 2 ^ 320 + 4096 * 2 ^ 384 + 1 * 2 ^ 416 + 0x120000 * 2 ^ 576
    + 0x121000 * 2 ^ 640 + 0x122000 * 2 ^ 704 + 0x130000 * 2 ^ 768 + 65536 * 2 ^ 832 + 1 * 2 ^ 864 + 0x5400 * 2 ^ 896 + 0x126000 * 2 ^ 2048 + 1 * 2 ^ 2112 + 100 * 2 ^ 2144
    + 4 * 2 ^ 2176)

/-- An encoder control block: AV1, 8 bits, 128 by 128 pixels, one reference. -/
def ecb0 : BitVec 512 := BitVec.ofNat 512 (128 * 2 ^ 16 + 128 * 2 ^ 32 + 30 * 2 ^ 56 + 1 * 2 ^ 192)

/-- A state with the two blocks in memory. -/
def withBlocks (s : State) : State := { s with mem := memWrite (memWrite s.mem 0x5000 (natLe 512 scb0.toNat)) 0x5400 (natLe 64 ecb0.toNat) }

/-- A state with stream 3. -/
def withStream (x : Stream) (s : State) : State := { s with streams := sset none s.streams 3 (some x) }

/-- Stream 3 as CREATE makes it, and RUNNING with encoder 0. -/
def stopped : Stream := newStream 1 0 0x5000 1 scb0 ecb0
def runningStream : Stream := { stopped with state := 1, encoder := some 0 }

/-- A STREAM packet of stream 3 in region 1. -/
def streamPkt (op more : Nat) : BitVec 512 := pkt 10 (op * 2 ^ 24 + 1 * 2 ^ 64 + 3 * 2 ^ 80 + more)

/-- The job of frame 0 of stream 3. -/
def job0 : FrameJob :=
  { frame := 0, release := 0, releasedAt := 0, deadline := 1000000, rung := 0, est := 100, steps := 4, retired := 0, minSlack := 0, neg := false, cancelled := false, slot := some 0,
    left := false, owes := none, faulted := false }

theorem witness_streams_create : let k := streamPkt 0 (0x5000 * 2 ^ 128)
    let s := withBlocks (at0 k)
    s.atRing 0 0 (level0 [k]) k ∧ pkType k = 10 ∧ pkArg k = 0 ∧ pkStream k = 3 ∧ s.stream 3 = none ∧ isOk (s.readScb 0 k (pkRegion k)) (scb0, ecb0) = true
    ∧ ∃ u, (s.scbAsked 0 k scb0).devWrite 0x88 feKey (s.parserRegion 0) (fld k 128 64 + 128) (List.replicate 64 0) = .ok u :=
  ⟨atRing_of (by decide +kernel), by decide +kernel, by decide +kernel, by decide +kernel, by decide +kernel, by decide +kernel, ok_of (by decide +kernel)⟩

theorem witness_streams_start : let k := streamPkt 1 (0x5000 * 2 ^ 128)
    let s := withStream stopped (withBlocks (at0 k))
    s.atRing 0 0 (level0 [k]) k ∧ pkType k = 10 ∧ s.stream (pkStream k) = some stopped ∧ s.under (pkRegion k) stopped.region = true ∧ pkArg k = 1 ∧ stopped.state = 0
    ∧ isOk (s.readScb 0 k stopped.region) (scb0, ecb0) = true ∧ s.pickEncoder (fld scb0 200 4) (loadOf ecb0 (fld scb0 128 32) (fld scb0 160 16)) = some 0
    ∧ s.fab.flumes[(5 : Fin 256)].region = none ∧ s.fab.flumes[(5 : Fin 256)].stream = none ∧ Fin.ofNat 256 (fld scb0 208 8) = 5 :=
  ⟨atRing_of (by decide +kernel), by decide +kernel, by decide +kernel, by decide +kernel, by decide +kernel, rfl, by decide +kernel, by decide +kernel, rfl, rfl, by decide +kernel⟩

theorem witness_streams_stopSetrungDestroy : let k := streamPkt 2 0
    let r := streamPkt 3 0
    let d := streamPkt 4 0
    (∀ x ∈ [runningStream, { runningStream with jobs := [job0] }], (withStream x (at0 k)).atRing 0 0 (level0 [k]) k ∧ (withStream x (at0 k)).stream (pkStream k) = some x
      ∧ x.state = 1 ∧ x.owedFin = 0 ∧ x.destroying = false)
    ∧ pkArg k = 2 ∧ (withStream runningStream (at0 r)).atRing 0 0 (level0 [r]) r ∧ pkArg r = 3 ∧ runningStream.state ≠ 2 ∧ fld r 192 8 < runningStream.nrungs
    ∧ (withStream stopped (at0 d)).atRing 0 0 (level0 [d]) d ∧ pkArg d = 4 ∧ stopped.state = 0 := by
  refine ⟨fun x h => ?_, by decide +kernel, atRing_of (by decide +kernel), by decide +kernel, by decide +kernel, by decide +kernel, atRing_of (by decide +kernel), by decide +kernel, rfl⟩
  simp only [List.mem_cons, List.not_mem_nil, or_false] at h
  rcases h with rfl | rfl <;> exact ⟨atRing_of (by decide +kernel), by decide +kernel, rfl, rfl, rfl⟩

theorem witness_streams_release : let s := withStream runningStream host0
    let x := { runningStream with jobs := [job0] }
    s.stream 3 = some runningStream ∧ runningStream.state = 1 ∧ runningStream.releaseOf runningStream.frame ≤ s.tb.now.toNat ∧ s.regionActive runningStream.region = true
    ∧ runningStream.jobs.length ≤ runningStream.overlap ∧ (s.releaseFrame 3 runningStream).2 = none
    ∧ x.overlap < x.jobs.length ∧ x.deferredNow = false ∧ x.releaseOf x.frame ≤ s.tb.now.toNat := by decide +kernel

/-- The machine at a moment with stream 3 given. -/
def jobAt (now : W64) (x : Stream) : State := let s := withStream x host0; { s with tb := { s.tb with now := now } }

theorem witness_streams_evaluations : let x := { runningStream with jobs := [job0] }
    let y := { runningStream with img := setFld runningStream.img 187 1 1, jobs := [{ job0 with left := true }] }
    (∀ now, (jobAt now x).stream 3 = some x) ∧ ((5000 : W64).toNat - job0.releasedAt) % 1000 = 0 ∧ ((2000000 : W64).toNat - job0.releasedAt) % 1000 = 0
    ∧ x.job 0 = some job0 ∧ 0 < job0.steps ∧ 0 < (jobAt 0 x).board.clockMhz ∧ job0.retired ≤ job0.steps
    ∧ (jobAt 1000000 y).stream 3 = some y ∧ y.job 0 = some { job0 with left := true } ∧ y.cancels = true ∧ job0.deadline ≤ 1000000 ∧ y.state = 1 ∧ y.packetsOver 0 = true
    ∧ (∀ i ∈ y.jobs, i = { job0 with left := true }) :=
  ⟨fun _ => rfl, by decide, by decide, rfl, by decide, by decide, by decide, rfl, rfl, by decide +kernel, by decide, rfl, by decide +kernel, fun _ h => List.mem_singleton.1 h⟩

theorem witness_streams_finish : let y := { runningStream with jobs := [{ job0 with left := true }] }
    let s := jobAt 5000 y
    s.clean ∧ y.packetsOver 0 = true ∧ y.owedFin = 0 ∧ isOk (s.devPiece 0x88 y.scbCtx kWrite (y.scb + 8, 184)) (0x5008, 184, 0x3F) = true ∧ 0x5008 + 184 ≤ Config.peerBase :=
  ⟨clean_of, by decide +kernel, rfl, by decide +kernel, by decide⟩

/-- Encoder 0 assembles frame 0 of stream 3 with the tiles given, and the stream's flume holds `n` records of tile (0, 0). -/
def encoding (tiles : List Tile) (n : BitVec 32) (x : Stream) : State :=
  let s := withStream x host0
  { s with
    encoders := s.encoders.set 0 { s.encoders[(0 : Fin 8)] with current := some (3, 0), tiles := tiles },
    fab := { s.fab with flumes := s.fab.flumes.set 5 { streamFlume 3 5 ecb0 with inn := n } } }

def theTiles : List Tile := [⟨0, 0, []⟩, ⟨1, 0, []⟩, ⟨0, 1, []⟩, ⟨1, 1, []⟩]

theorem witness_encoderEvents_pop : let s := encoding [] 1 runningStream
    s.encoders[(0 : Fin 8)].current = some (3, 0) ∧ s.stream 3 = some runningStream ∧ s.headRecord runningStream = some (0, false) ∧ recFrame 0 = 0 % 2 ^ 32
    ∧ tileBad runningStream s.encoders[(0 : Fin 8)].tiles 0 = false := by decide +kernel

theorem witness_encoderEvents_fill : let s := encoding [] 0 { runningStream with jobs := [job0] }
    let x := { runningStream with jobs := [job0] }
    s.encoders[(0 : Fin 8)].current = some (3, 0) ∧ s.stream 3 = some x ∧ x.packetsOver 0 = true ∧ s.comesYet x 0 = false ∧ s.encoders[(0 : Fin 8)].full x = false := by decide +kernel

theorem witness_encoderEvents_truncated : let x := { runningStream with img := setFld runningStream.img 832 32 0, jobs := [job0] }
    let s := encoding theTiles 0 x
    let body := x.bitstream (x.isKey 0) ((List.range (Config.bitstreamLength s.fresh)).map (Config.bitstreamByte s.fresh))
    s.encoders[(0 : Fin 8)].current = some (3, 0) ∧ s.stream 3 = some x ∧ x.job 0 = some job0 ∧ s.encoders[(0 : Fin 8)].full x = true ∧ x.slotBytes < 64 + body.length
    ∧ ∃ u, State.devWrite { s with fresh := s.fresh + 1 } (encMaster 0) (encKey 0) x.region (x.payBase + 0 * x.slotBytes + 64) (body.take (x.slotBytes - 64)) = .ok u := by
  intro x s body
  have z : x.slotBytes = 0 := by decide +kernel
  rw [z, Nat.zero_sub, List.take_zero]
  exact ⟨by decide +kernel, by decide +kernel, by decide +kernel, by decide +kernel, by omega, ok_of (by decide +kernel)⟩

theorem witness_encoderEvents_ready : let x := { runningStream with jobs := [job0] }
    let s := encoding theTiles 0 x
    s.stream 3 = some x ∧ x.job 0 = some job0 ∧ s.encoders[(0 : Fin 8)].full x = true
    ∧ isOk (s.devRange (encMaster 0) x.region kWrite (x.ringBase + 16 * 0) 16) [(0x122000, 16, 0x3F)] = true
    ∧ isOk (s.devRange (encMaster 0) x.region kWrite (x.payBase + 0 * x.slotBytes) 128) [(0x130000, 128, 0x3F)] = true ∧ 128 ≤ x.slotBytes := by decide +kernel

/-! ### Witnesses: regions, operators, tile steps -/

/-- A state with region 5, a child of region 1, whose control block is at 0x5000. -/
def withChild (s : State) : State :=
  { s with sched := { s.sched with regions := s.sched.regions ++ [(5, { Region.none with exist := true, state := 0, parent := 1, rcbAddr := 0x5000, rcbCtx := 1 })] } }

/-- Slot 0, of a queue that may send REGION packets, with packet `k` at its parse point. -/
def atPriv (k : BitVec 512) : State :=
  let s := queued (setFld (descriptor 2 0 1) 150 1 1)
  { s with fe := { s.fe with parsers := s.fe.parsers.set 0 { Parser.reset with queue := some 0, wptr := 1, levels := [level0 [k]] } } }

/-- A REGION packet of region 5, with parent 1, and a control block of zeros at 0x5000. -/
def regionPkt (op : Nat) : BitVec 512 := pkt 11 (op * 2 ^ 24 + 5 * 2 ^ 64 + (if op = 0 then 1 else 0) * 2 ^ 80 + (if op < 2 then 0x5000 else 0) * 2 ^ 128)

theorem witness_regionPackets_create : let k := regionPkt 0
    let s := atPriv k
    s.atRing 0 0 (level0 [k]) k ∧ pkType k = 11 ∧ s.regionBusy (pkRegion k) = false ∧ pkArg k = 0 ∧ pkRegion k = 5
    ∧ (∃ u, (s.devAsked 0x88 (s.parserRegion 0) (fld k 128 64) 256).devWrite 0x88 feKey (s.parserRegion 0) (fld k 128 64 + 128) (List.replicate 32 0) = .ok u) ∧ isOk (s.readRcb 0 k) 0 = true
    ∧ (s.region 5).exist = false ∧ s.owns (s.parserFunc 0) (fld k 80 12) = true ∧ (s.region (fld k 80 12)).destroying = false ∧ rcbStray 0 = false ∧ s.scopeInitStop 0 = none ∧ rcbRange 0 = true
    ∧ s.rcbWithin 0 (fld k 80 12) 5 (s.parserFunc 0) = true ∧ s.scopeInitOk 0 (s.maskOf 0 (fld k 80 12)) = true :=
  ⟨atRing_of (by decide +kernel), by decide +kernel, by decide +kernel, by decide +kernel, by decide +kernel, ok_of (by decide +kernel), by decide +kernel⟩

theorem witness_regionPackets_modify : let k := regionPkt 1
    let s := withChild (atPriv k)
    let u := s.modRegion 5 (fun x => { x with rcb := setFld 0 1024 256 0, rcbAddr := fld k 128 64, rcbCtx := s.parserRegion 0, state := if (s.region 5).lost then x.state else 0 })
    s.atRing 0 0 (level0 [k]) k ∧ pkType k = 11 ∧ s.regionBusy (pkRegion k) = false ∧ pkArg k = 1 ∧ pkRegion k = 5 ∧ isOk (s.readRcb 0 k) 0 = true ∧ (s.region 5).destroying = false
    ∧ (s.region 5).lost = false ∧ rcbStray 0 = false ∧ s.scopeInitStop 0 = none ∧ rcbRange 0 = true ∧ s.rcbWithin 0 (s.region 5).parent 5 (s.parserFunc 0) = true
    ∧ s.scopeInitOk 0 (s.maskOf 0 (s.region 5).parent) = true ∧ (∀ y ∈ s.subtree 5, y ≠ 5 → u.rcbWithin (u.region y).rcb (u.region y).parent y (s.parserFunc 0) = true)
    ∧ s.sched.ops = [] ∧ u.maskChanged 5 = [] :=
  ⟨atRing_of (by decide +kernel), by decide +kernel⟩

theorem witness_regionPackets_quiesceDestroy : let k := regionPkt 2
    let d := regionPkt 3
    (withChild (atPriv k)).atRing 0 0 (level0 [k]) k ∧ pkArg k = 2 ∧ ((withChild (atPriv k)).region 5).exist = true ∧ ((withChild (atPriv k)).region 5).destroying = false
    ∧ (withChild (atPriv d)).atRing 0 0 (level0 [d]) d ∧ pkArg d = 3 ∧ pkRegion d = 5 ∧ (withChild (atPriv d)).destroyOk 0 5 = true ∧ (withChild (atPriv d)).runningUnder 5 = false
    ∧ (∀ y ∈ (withChild (atPriv d)).regionIds, ((withChild (atPriv d)).region y).destroying = false) ∧ (withChild (atPriv d)).board.flr = Vector.replicate 10 false :=
  ⟨atRing_of (by decide +kernel), by decide +kernel, by decide +kernel, by decide +kernel, atRing_of (by decide +kernel), by decide +kernel, by decide +kernel, by decide +kernel,
    by decide +kernel, by decide +kernel, rfl⟩

theorem witness_regionPackets_writeback : let s := withChild host0
    (s.region 5).exist = true ∧ (s.region 5).rcbAddr ≠ 0 ∧ isOk (s.devRange 0x88 (s.region 5).rcbCtx kWrite ((s.region 5).rcbAddr + 128) 32) [(0x5080, 32, 0x3F)] = true := by
  decide +kernel

/-- The machine with all cores and 64 KiB of scratch in the region tree, whose page table is that of the device. -/
def crewed : State :=
  { host0 with sched := { host0.sched with regions :=
      [(0, { Region.none with exist := true, state := 0, rcb := BitVec.ofNat 2048 (2 ^ 128 - 1 + 16 * 2 ^ 128 + 0x1000 * 2 ^ 320) }), (1, { Region.none with exist := true, state := 0 })] } }

/-- A header of an image with 16 words of code that starts at word 2, and an operator parameter block of one step whose image is at 0xA000. -/
def hdr0 : BitVec 512 := BitVec.ofNat 512 (0x4D4E4A46 + 1 * 2 ^ 32 + 1 * 2 ^ 48 + 2 * 2 ^ 64 + 16 * 2 ^ 96 + 128 * 2 ^ 384)
def opb0 : BitVec 512 := BitVec.ofNat 512 (0xA000 + 0x1234 * 2 ^ 128 + (1 + 2 ^ 16 + 2 ^ 32 + 2 ^ 48) * 2 ^ 192)

/-- The first operator, in region 1, and its one step. -/
def op0 : Operator :=
  { opseq := 0, region := 1, parser := 0, work := 7, member := 0, peers := [], opbAddr := 0x8000, opb := opb0, lpb := 0, hdr := hdr0, patches := [], fmts := [], image := 0xA000,
    total := 1, scope := 15, fjpb := 0, rung := 0, stream := none, walk := 1, done := [], stopped := false, acq := [], acqEntry := 0, acqIdx := 15, hand := [] }

def step0 (state : Nat) : Step :=
  { stepid := 0, op := 0, region := 1, coord := 0, state := state, core := 0, attempt := 0, eclass := 0, readyAt := 0, placedAt := 0, saveSlot := none, pos := 0, since := 0, avoid := none,
    trapPending := false, promos := 0, ctx := none, claim := none }

/-- The crewed machine with that operator and its step in a state. -/
def scheduled (state : Nat) : State :=
  { crewed with sched := { crewed.sched with ops := [op0], steps := [step0 state], opseq := 1 },
                mem := memWrite (memWrite crewed.mem 0x8000 (natLe 64 opb0.toNat)) 0xA000 (natLe 64 hdr0.toNat) }

theorem witness_operators_accept : let w := workPkt (pkt 1 (1 * 2 ^ 64 + 0x8000 * 2 ^ 128)) 1 none
    let s : State := { scheduled 0 with sched := { crewed.sched with waiting := [(0, 7)] },
                                        fe := { host0.fe with parsers := host0.fe.parsers.set 0 { Parser.reset with queue := some 0, work := [w] } } }
    s.sched.waiting[0]? = some ((0 : Fin 128).val, w.id) ∧ s.fe.parsers[(0 : Fin 128)].work.find? (fun x => x.id == w.id) = some w ∧ pkRegion w.pkt = 1 ∧ (s.region 1).exist = true
    ∧ (s.region 1).destroying = false ∧ s.sched.ops.length + (pkMembers w.pkt).length ≤ 256 ∧ ∃ ms, (pkMembers w.pkt).mapM (fun m => s.readMember w.region 1 m.1 m.2) = .ok ms :=
  ⟨rfl, by decide +kernel, by decide +kernel, by decide +kernel, by decide +kernel, by decide +kernel, ok_of (by decide +kernel)⟩

theorem witness_operators_place : step0 0 ∈ (scheduled 0).sched.steps ∧ (scheduled 0).placeable (step0 0) = true ∧ (scheduled 0).eligible (step0 0) 0 = true := by decide +kernel

theorem witness_stepsBegin_start : (scheduled 1).placedOn 0 = some (step0 1, op0) ∧ (scheduled 1).recordOf (step0 1).stepid = none := by decide +kernel

/-- Core 0 waits for the loader. -/
def loadingCore : State :=
  let s := scheduled 2
  { s with cores := s.cores.set 0 { Core.reset with phase := .starting, loading := true, ctx := { Core.reset.ctx with region := 1, root := 0x1000 } } }

theorem witness_stepsBegin_load : let s := loadingCore
    s.cores[(0 : Fin 128)].phase = .starting ∧ s.cores[(0 : Fin 128)].loading = true ∧ s.cores[(0 : Fin 128)].trap.detected = none ∧ s.stepOn 0 = some (step0 2) ∧ s.opAt (step0 2).op = some op0
    ∧ s.sched.images.find? (fun e => decide (e.asid = s.cores[(0 : Fin 128)].ctx.asid) && decide (e.addr = op0.image)) = none
    ∧ (match s.loadBytes 0 (op0.image + 64) (4 * hdrNcode op0.hdr) with | .ok (_, ps) => decide (s.badWords op0.image ps = []) && decide (s.badPa ps = none) | .error _ => false) = true := by
  decide +kernel

theorem witness_stepsBegin_cached : let s : State := { loadingCore with sched := { loadingCore.sched with images := [⟨0, 0xA000, 0, 64⟩] } }
    s.sched.images.find? (fun e => decide (e.asid = s.cores[(0 : Fin 128)].ctx.asid) && decide (e.addr = op0.image)) = some ⟨0, 0xA000, 0, 64⟩
    ∧ s.refusal (coreMaster 0) 1 (s.cachePa ⟨0, 0xA000, 0, 64⟩) 64 = none ∧ s.badPa [{ pa := s.cachePa ⟨0, 0xA000, 0, 64⟩, len := 64, ordinary := false }] = none := by
  decide +kernel

theorem witness_stepsBegin_patch : [1, 2, 3][1]? = some 2 ∧ (3, 0, 14) ∈ [(1, 0, 9), (2, 0, 9), (3, 0, 14), (7, 18, 4)] := by decide

/-- Core 0 has ended its step. -/
def drained : State := let s := scheduled 2; { s with cores := s.cores.set 0 { Core.reset with phase := .draining } }

theorem calm (s : State) (h : ∀ x ∈ s.sched.regions, x.2.destroying = false) (r : Nat) : (s.region r).destroying = false := by
  have go : ∀ l : List (Nat × Region), (∀ x ∈ l, x.2.destroying = false) → (sget Region.none l r).destroying = false := by
    intro l
    induction l with
    | nil => intro _; rfl
    | cons a l ih =>
      intro h
      rw [sget]
      split
      · exact h a (List.mem_cons_self ..)
      · exact ih (fun x hx => h x (List.mem_cons_of_mem _ hx))
  exact go _ h

theorem witness_stepsRetire_retire : let s := drained
    s.cores[(0 : Fin 128)].finished = true ∧ s.stepOn 0 = some (step0 2) ∧ s.opAt (step0 2).op = some op0 ∧ (s.region op0.region).exist = true
    ∧ (∀ r, (s.region r).destroying = false) ∧ s.board.flr = Vector.replicate 10 false
    ∧ (∀ x ∈ s.fab.inflight, x.ofCore 0 = true → x.core = 0 ∧ ∀ k ∈ x.joined, k.core = 0) :=
  ⟨by decide +kernel, by decide +kernel, by decide +kernel, by decide +kernel, calm _ (by decide +kernel), rfl, fun _ h => (by cases h)⟩

theorem witness_stepsRetire_sample : let x : Sample := ⟨0, 0, 1, 5, []⟩
    let s : State := { crewed with ras := { crewed.ras with samples := [x] } }
    s.ras.samples = x :: [] ∧ s.regionActive x.region = true ∧ s.stepsWait = false ∧ s.replayCore x = some 8 ∧ (5 : W64) = x.sig ∧ (6 : W64) ≠ x.sig ∧ (some (6 : W64)).isSome = true := by
  decide +kernel

theorem witness_stepsRetire_idle : let s := { host0 with tb := { host0.tb with now := 5000 }, cores := host0.cores.set 0 { Core.reset with clean := false } }
    s.cores[(0 : Fin 128)].phase = .idle ∧ s.stepOn 0 = none ∧ s.cores[(0 : Fin 128)].clean = false ∧ s.cores[(0 : Fin 128)].idleSince + 3000 ≤ s.tb.now.toNat := by decide +kernel

/-- The crewed machine with region 1 of class BATCH. -/
def batch : State :=
  let s := scheduled 0
  { s with sched := { s.sched with regions := s.sched.regions.map (fun x => if x.1 = 1 then (1, { x.2 with rcb := BitVec.ofNat 2048 (2 * 2 ^ 192 + 2 ^ 291) }) else x) },
           tb := { s.tb with now := 10000001 } }

theorem witness_stepsRetire_promotion : let t := step0 0
    let s := batch
    s.sched.steps[0]? = some t ∧ t.state = 0 ∧ 2 ≤ s.rankOf t ∧ t.since + s.effStarve t.region < s.tb.now.toNat := by decide +kernel

/-! ### Witnesses: pre-emption, records, errors, traps, arrivals, engines -/

/-- A moment of a state; core 0 of a state. -/
def atTime (now : W64) (s : State) : State := { s with tb := { s.tb with now := now } }
def core0 (c : Core) (s : State) : State := { s with cores := s.cores.set 0 c }

/-- A machine whose region tree has core 0 alone, with PLAT 1 µs in region 1: core 0 runs step 0 in class 3, and step 1 waits. -/
def waiter : Step := { step0 0 with stepid := 1 }
def victim0 : Step := { step0 2 with eclass := 3 }
def oneCore : List (Nat × Region) :=
  [(0, { Region.none with exist := true, state := 0, rcb := BitVec.ofNat 2048 (1 + 16 * 2 ^ 128 + 0x1000 * 2 ^ 320) }),
   (1, { Region.none with exist := true, state := 0, rcb := BitVec.ofNat 2048 (1 * 2 ^ 224 + 2 ^ 295) })]

def contended (resumable : Bool) : State :=
  let s := core0 { running with img := { running.img with resumable := resumable } } (atTime 5000 (scheduled 0))
  { s with sched := { s.sched with steps := [waiter, victim0], regions := oneCore } }

theorem witness_preemption_forced : ∀ b ∈ [true, false], let s := contended b
    s.sched.steps[0]? = some waiter ∧ s.firstOverdue = some waiter ∧ firstBy s.victimKey (s.sched.steps.filter (s.victim waiter)) = some victim0 ∧ Fin.ofNat 128 victim0.core = (0 : Fin 128)
    ∧ s.cores[(0 : Fin 128)].img.resumable = b ∧ s.cores[(0 : Fin 128)].trap.active = none ∧ s.cores[(0 : Fin 128)].trap.detected = none ∧ s.stepOn 0 = some victim0 ∧ (∀ r, (s.region r).destroying = false)
    ∧ s.board.flr = Vector.replicate 10 false := by
  intro b h
  simp only [List.mem_cons, List.not_mem_nil, or_false] at h
  rcases h with rfl | rfl <;>
    exact ⟨rfl, by decide +kernel, by decide +kernel, by decide +kernel, rfl, rfl, rfl, by decide +kernel, calm _ (by decide +kernel), rfl⟩

theorem witness_preemption_save : let s := core0 { running with phase := .frozen, saving := true } (scheduled 2)
    s.cores[(0 : Fin 128)].phase = .frozen ∧ s.cores[(0 : Fin 128)].saving = true ∧ s.stepOn 0 = some (step0 2) ∧ (step0 2).trapPending = false
    ∧ s.cores[(0 : Fin 128)].saveAt < shadowKib ∧ s.saveLost 0 = false ∧ (∀ y ∈ s.fab.inflight, y.ofCore 0 = false) ∧ (∀ r, (s.region r).destroying = false)
    ∧ s.board.flr = Vector.replicate 10 false :=
  ⟨rfl, rfl, by decide +kernel, rfl, by decide +kernel, by decide +kernel, fun _ h => (by cases h), calm _ (by decide +kernel), rfl⟩

/-- A record of step 0. -/
def saved (drained : Bool) : CtxRecord := { stepid := 0, region := 1, core := running, drained := drained, size := 32, at' := 0 }

/-- The machine with that record, and a save area of 100 KiB at 0x800000 in region 1. -/
def recorded (state : Nat) (drained : Bool) : State :=
  let s := scheduled state
  let areas := s.sched.regions.map (fun x => if x.1 = 1 then (1, { x.2 with rcb := BitVec.ofNat 2048 (0x800000 * 2 ^ 576 + 100 * 2 ^ 640) }) else x)
  { s with sched := { s.sched with records := [saved drained], regions := areas } }

theorem witness_preemption_records : (recorded 4 false).sched.records[0]? = some (saved false) ∧ (recorded 4 false).recordBad (saved false) = false
    ∧ (recorded 4 false).savePlace 1 32 = some 0
    ∧ (recorded 4 false).refusal fwMaster 1 ((recorded 4 false).recordPa (saved false)) (32 * 1024) = none
    ∧ (recorded 4 false).refusal fwMaster 2 ((recorded 4 false).recordPa { saved false with drained := true, at' := 0 }) (32 * 1024) = none ∧ (recorded 4 true).sched.records[0]? = some (saved true) ∧ (recorded 4 true).recordBad (saved true) = false
    ∧ (recorded 4 true).shadowPlace 32 < shadowKib
    ∧ (recorded 4 true).refusal fwMaster 1 ((recorded 4 true).recordPa (saved true)) (32 * 1024) = none
    ∧ (recorded 4 true).refusal fwMaster 2 ((recorded 4 true).recordPa { saved true with drained := false, at' := (recorded 4 true).shadowPlace 32 }) (32 * 1024) = none := by decide +kernel

theorem witness_preemption_resume : (recorded 1 false).placedOn 0 = some (step0 1, op0) ∧ (recorded 1 false).recordOf (step0 1).stepid = some (saved false)
    ∧ (recorded 1 false).recordBad (saved false) = false
    ∧ ((recorded 1 false).recordPa (saved false) + recordHead + min (saved false).core.ctx.scratchQuota ((recorded 1 false).ctxFor op0 (step0 1)).scratchQuota ≤ scratchPa 0 0 ∨ scratchPa 0 0 + 0x100000 ≤ (recorded 1 false).recordPa (saved false)) := by
  decide +kernel

/-- The crewed machine with region 1 swapped out. -/
def swapped : State :=
  { crewed with sched := { crewed.sched with regions := crewed.sched.regions.map (fun x => if x.1 = 1 then (1, { x.2 with swapped := true, state := 2 }) else x) } }

theorem witness_preemption_swaps : (crewed.region (1 : Fin 4096).val).exist = true ∧ (crewed.region 1).swapped = false ∧ crewed.stepsUnder 1 = [] ∧ (∀ x, (crewed.region x).destroying = false)
    ∧ crewed.board.flr = Vector.replicate 10 false ∧ crewed.sched.steps = [] ∧ crewed.sched.ops = []
    ∧ (swapped.region 1).exist = true ∧ (swapped.region 1).swapped = true ∧ (swapped.region 1).lost = false :=
  ⟨by decide +kernel, by decide +kernel, by decide +kernel, calm _ (by decide +kernel), rfl, rfl, rfl, by decide +kernel, by decide +kernel, by decide +kernel⟩

theorem witness_reliability_scrub : device.scrubs (0 / 128 * 128) = true ∧ fld device.ras.scrubCtl 16 1 = 1 ∧ 6 ≤ device.board.bootStep ∧ device.ras.scrubbing = none ∧ device.fab.badDirty = []
    ∧ device.scrubRefusal 1 (0 / 128 * 128) = none := by decide +kernel

/-- A dirty line that is uncorrectable; a reduction on a poisoned granule. -/
def dirtied : State := { device with fab := { device.fab with dirty := [{ crew := 0, line := 5, sectors := 1, below := [] }], badDirty := [5] } }
def reducing : State :=
  { flying with fab := { flying.fab with inflight := [{ write64 with op := .red .addD }] }, ras := { flying.ras with poison := [2] } }

theorem witness_reliability_writes : flying.fab.inflight[0]? = some write64 ∧ flying.mayPerform 0 = true ∧ write64.blocked flying = false ∧ flying.fab.badDirty = [] ∧ flying.ras.poison = [] := by
  decide +kernel

/-- A trap of the main strand: cause `n`. -/
def trapOf (n : Nat) : Trap :=
  { cause := n, faddr := 0x40, d0 := 1, d1 := 2, queue := 0, engine := 0xFF, strand := .main, after := false, rkind := 0, rindex := 0 }

theorem witness_trapsAndRollbacks_engine : let k := { running with trap := { running.trap with engineFault := some (trapOf 0x42) } }
    k.live = true ∧ k.trap.engineFault = some (trapOf 0x42) := by decide +kernel

theorem witness_trapsAndRollbacks_freeze : ∀ n ∈ [0x20, 0x02], let k := { running with trap := { running.trap with detected := some (trapOf n) } }
    k.trap.detected = some (trapOf n) ∧ k.phase = .running ∧ k.trap.later = none ∧ k.img.hastrap = true
    ∧ ((trapOf n).system = true ↔ n = 0x20) ∧ (∀ y ∈ (withCore k).fab.inflight, y.ofCore 0 = true → y.op = .data) := by decide +kernel

theorem witness_trapsAndRollbacks_frozen : let k := { running with phase := .frozen, img := { running.img with resumable := true }, trap := { running.trap with active := some (trapOf 0x20) } }
    let s := core0 k (atTime 60000 (scheduled 2))
    k.phase = .frozen ∧ k.saving = false ∧ k.trap.active = some (trapOf 0x20) ∧ k.trap.later = none ∧ k.trap.outer = none ∧ k.loading = false
    ∧ s.stepOn 0 = some (step0 2) ∧ k.img.resumable = true ∧ k.trap.since + 50000 ≤ s.tb.now.toNat := by decide +kernel

theorem witness_trapsAndRollbacks_wait : let w0 : Wait := { rkind := 8, rindex := 0, d0 := 1, d1 := 1, faddr := 0, limit := some 100 }
    let w : Wait := { w0 with d0 := 0, d1 := 0 }
    let k := { running with hnd := running.hnd.set 0 { Handler.reset with running := true, pc := 3, wait := some w0 } }
    k.live = true ∧ k.hnd[(0 : Fin 3)].running = true ∧ k.hnd[(0 : Fin 3)].wait = some w0 ∧ (withCore k).retest 0 (.ctx 0) w0 = some w ∧ w.limit = some 100
    ∧ k.img.hastrap = true ∧ k.trap.later = none ∧ (∀ y ∈ (withCore k).fab.inflight, y.ofCore 0 = true → y.op = .data) := by decide +kernel

theorem witness_trapsAndRollbacks_rollback : let c := { running with poison := [{ file := tagUe, num := 0 }] }
    let s := core0 c (scheduled 2)
    s.cores[(0 : Fin 128)].metUe = some 0 ∧ s.cores[(0 : Fin 128)].live = true ∧ (∀ x ∈ s.fab.inflight, x.ofCore 0 = false) ∧ c.drained.passMarkers.escalation 0 0 = none
    ∧ c.drained.passMarkers.tile.stores = [] := ⟨rfl, rfl, fun _ h => (by cases h), by decide +kernel, rfl⟩

theorem witness_trapsAndRollbacks_escalation : let c := { running with poison := [{ file := tagUe, num := 0 }], tile := { running.tile with firstUe := some 0 } }
    let s := core0 c (scheduled 2)
    (c.drained.passMarkers.escalation 0 0).isSome = true ∧ s.stepOn 0 = some (step0 2) ∧ c.drained.passMarkers.img.resumable = false ∧ (step0 2).attempt < 3
    ∧ (∀ x, (s.region x).destroying = false) ∧ s.board.flr = Vector.replicate 10 false := ⟨by decide +kernel, by decide +kernel, rfl, by decide, calm _ (by decide +kernel), rfl⟩

/-- An arrival for word 5. -/
def arrival5 : BitVec 256 := BitVec.ofNat 256 (1 + 5 * 2 ^ 64)

theorem witness_arrivals : fld arrival5 0 8 ≠ 0 ∧ fld arrival5 0 8 ≤ 3 ∧ fld arrival5 24 8 = 0 ∧ fld arrival5 78 18 = 0 ∧ Core.reset.discards arrival5 = true ∧ running.discards arrival5 = false
    ∧ running.arrivals.length < Config.arrivalDepth ∧ Config.arrivalDepth ≤ (List.replicate Config.arrivalDepth (⟨arrival5, none⟩ : Arrival)).length
    ∧ running.freeContext = some 0 ∧ running.live = true := by decide +kernel

/-- A copy of 4 bytes within scratch. -/
def copy4 : CopyCmd := ⟨1, 0, BitVec.ofNat 512 (2 ^ 23), [4], 0, 0, 0, 0, 0, false, false⟩

theorem witness_copies_finish : let s := open0 { running with eng := { running.eng with cpy := running.eng.cpy.set 0 [copy4] } }
    s.cores[(0 : Fin 128)].engineRuns (copyCtx 0) = true ∧ s.cores[(0 : Fin 128)].eng.cpy[(0 : Fin 2)] = copy4 :: [] ∧ s.engineHeld 0 copy4.po copy4.spans = false ∧ dTo copy4.hdr < 3
    ∧ (match s.copyMemory 0 0 copy4 (s, copy4.progress) (copy4.total - copy4.progress) copy4.progress with
        | (u, _, .done) => u.cores[(0 : Fin 128)].eng.deferred.isEmpty && decide (s.cores[(0 : Fin 128)].eng.cpy[(0 : Fin 2)] = u.cores[(0 : Fin 128)].eng.cpy[(0 : Fin 2)])
        | _ => false) = true := by decide +kernel

theorem witness_copies_deferred : let d : Deferred := ⟨0, { copy4 with hdr := BitVec.ofNat 512 (2 ^ 23 + 2 ^ 49) }, 0x7000, 4096, some false⟩
    let k := { running with eng := { running.eng with deferred := [d] } }
    k.eng.deferred[0]? = some d ∧ k.engineRuns (copyCtx d.ctx) = true ∧ d.ended = some false ∧ fld d.cmd.hdr 49 1 = 1 ∧ k.discards (d.arrival k.ctx.opseq 1) = false
    ∧ k.arrivals.length < Config.arrivalDepth := by decide +kernel

theorem witness_copies_sendsAndAcks : running.engineRuns 5 = true ∧ ({ running.eng with sends := [.accepted] } : Engines).sends = .accepted :: []
    ∧ ({ running.eng with sends := [.flume (5 : Fin 256).val 0 [1]] } : Engines).sends = .flume (5 : Fin 256).val 0 [1] :: [] ∧ ([] : List Send).head? ≠ some .accepted
    ∧ flumed.landingAsk 0 4 .main (5 : Fin 256).val 2 (flumed.fab.flumes[(5 : Fin 256)].slotPa 0) ([1] : List Byte).length 0 = none
    ∧ (let s : State := { mem0 with fab := { mem0.fab with inflight := [{ write64 with cmd := 1, performed := true }] } }
       s.ackNext 0 = some 1 ∧ ∀ y ∈ s.fab.inflight, (y.cmds 0).contains 1 = true → y.performed = true) := by
  decide +kernel

/-- The matrix engine with a go of two chunks on blocks of zeros at position 0. -/
def chunks : List Chunk := [⟨0, 0, 0, 0, 0, 1⟩, ⟨0, 1, 1, 0, 0, 1⟩]
def zeroBlock (null : Bool) : Block := ⟨0, null, 0, 0, [], false, 0⟩
def going (null : Bool) : State :=
  withCore { running with eng := { running.eng with gos := [{ go0 with todo := chunks, skipped := 0 }], fifoA := [zeroBlock null], fifoB := [zeroBlock false] } }

theorem witness_enginesRun_pass : ∀ b ∈ [true, false], let s := going b
    let g : Go := { go0 with todo := chunks, skipped := 0 }
    s.cores[(0 : Fin 128)].engineRuns 2 = true ∧ s.cores[(0 : Fin 128)].eng.gos = g :: [] ∧ g.todo = ⟨0, 0, 0, 0, 0, 1⟩ :: [⟨0, 1, 1, 0, 0, 1⟩] ∧ [(⟨0, 1, 1, 0, 0, 1⟩ : Chunk)] ≠ []
    ∧ s.cores[(0 : Fin 128)].eng.fifoA.find? (fun k => k.pos == g.abase + 0) = some (zeroBlock b) ∧ s.cores[(0 : Fin 128)].eng.fifoB.find? (fun k => k.pos == g.bbase + 0) = some (zeroBlock false)
    ∧ (zeroBlock b).poison = false ∧ fld g.ent 68 1 = 0 ∧ tagsDiffer g.ent (zeroBlock b) (zeroBlock false) = false ∧ fld g.ent 4 2 ≤ g.width ∧ g.skipped < 2 ^ 32 := by decide +kernel

theorem witness_enginesRun_window : let w : WinCmd := ⟨1, 0, Vector.replicate 7 0, 0, 2, 0⟩
    let s := withCore { running with eng := { running.eng with wins := [w] } }
    s.cores[(0 : Fin 128)].engineRuns 3 = true ∧ s.cores[(0 : Fin 128)].eng.wins = w :: [] ∧ s.engineHeld 0 w.po (winSpans w.cfg) = false
    ∧ (match s.winBlock 0 w w.pushed with | .ok b => b.null && (s.cores[(0 : Fin 128)].pushA b).isSome | .error _ => false) = true := by decide +kernel

/-- Cores 0 and 1 have issued a shift of 32 bytes from offset 0 to offset 64. -/
def ringing : State :=
  let k := { mapped running with eng := { running.eng with rings := [⟨1, 0, 0x2000000003, 0, 64⟩] } }
  { State.reset with cores := (State.reset.cores.set 0 k).set 1 k }

theorem witness_enginesRun_ring : let s := ringing
    ((List.range 8).map (· + 8 * (0 : Fin 16).val)).find? s.ringReady = some 0 ∧ s.ringAt 0 = some ⟨1, 0, 0x2000000003, 0, 64⟩ ∧ s.ringOf 0 = [0, 1]
    ∧ s.ringAgree (s.ringOf 0) 0x2000000003 = true ∧ s.clean
    ∧ (∀ m ∈ s.ringOf 0, (match s.ringAt m with
        | some x => decide (x.a.toNat + fld (0x2000000003 : W64) 32 21 ≤ s.cores[(Fin.ofNat 128 m : Fin 128)].ctx.scratchQuota)
            && decide (x.b.toNat + fld (0x2000000003 : W64) 32 21 ≤ s.cores[(Fin.ofNat 128 m : Fin 128)].ctx.scratchQuota)
            && decide (s.cores[(Fin.ofNat 128 m : Fin 128)].ctx.scratchQuota ≤ Config.scratchSize) && !s.poisoned (scratchPa (Fin.ofNat 128 m) x.a.toNat) (fld (0x2000000003 : W64) 32 21)
        | none => false) = true) :=
  ⟨by decide +kernel, by decide +kernel, by decide +kernel, by decide +kernel, clean_of, by decide +kernel⟩

theorem witness_reliability_errors : (∃ d ∈ dirtied.fab.dirty, d.crew = (0 : Fin 16).val ∧ d.line = 5 ∧ 5 ∈ dirtied.fab.badDirty)
    ∧ (let x : InFlight := { write64 with op := .red .addD }
       reducing.fab.inflight[0]? = some x ∧ x.performed = false ∧ x.blocked reducing = true) := by decide +kernel

/-- Core 0 with an `mgo` at the head of X. -/
def offeringGo : State :=
  let k : Core := { running with mat := { running.mat with ft := running.mat.ft.set 0 1 } }
  withCore { k with qX := [k.routed t0 true (.mgo 0 0 k.mat.cfg 0 0 1 1)] }

theorem witness_enginesRun_accept : let s := offeringGo
    ∃ r, s.cores[(0 : Fin 128)].qX = r :: [] ∧ r.uop = .mgo 0 0 running.mat.cfg 0 0 1 1 ∧ r.on = true ∧ r.done = false ∧ s.cores[(0 : Fin 128)].live = true
    ∧ (match s.issueRes 0 .x with | .ok _ => true | _ => false) = true := ⟨_, rfl, rfl, rfl, rfl, rfl, by decide +kernel⟩

theorem witness_stepRuns_words : let s := withCore { running with imem := [(3, 0x50114C30)] }
    s.board.fatal = false ∧ s.agenda = [] ∧ s.cur.heldC = none ∧ s.readyHead s.focusCore = none ∧ s.cur.mayFetch s.focusStrand = true ∧ s.cur.pcOf s.focusStrand = 3
    ∧ 3 < s.cur.img.ncode ∧ s.cur.poison.contains { file := tagI, num := 3 } = false ∧ decodeWord (s.cur.word 3).toNat = .ok (.add ⟨false, true, false, true⟩ 2 5 6 3) := by
  decide +kernel

theorem witness_stepRuns_illegal : decodeWord 0x02850000 = .error .unassigned ∧ decodeWord 0x02400011 = .error .reserved
    ∧ (let s := withCore { running with imem := [(3, 0x02850000)] }; (s.cur.word (s.cur.pcOf s.focusStrand)).toNat = 0x02850000)
    ∧ (let s := withCore { running with pc := 64 }; s.cur.mayFetch s.focusStrand = true ∧ s.cur.img.ncode ≤ s.cur.pcOf s.focusStrand) := by decide +kernel

theorem witness_stepRuns_placed : (0x50114C30 : Nat) < 2 ^ 32 ∧ decodeWord 0x50114C30 = .ok (.add ⟨false, true, false, true⟩ 2 5 6 3)
    ∧ State.reset.cur.poison.contains { file := tagI, num := State.reset.cur.pc } = false ∧ ({ State.reset with agenda := [.event .coldReset] } : State).agenda = .event .coldReset :: [] := by
  decide +kernel

/-- A machine that a fatal error has stopped. -/
def dead (l : List Input) : State := { State.reset with board := { Board.reset with fatal := true }, agenda := l }

theorem witness_runningStepsComplete : State.reset.board.fatal = false ∧ (dead []).board.fatal = true ∧ (dead []).agenda = [] ∧ (dead [.event .coldReset]).agenda = .event .coldReset :: []
    ∧ Instr.coldReset ∈ [Instr.coldReset, .coldrst 0x00000C01] ∧ (dead [.event (.thermalTrip 1010)]).agenda = .event (.thermalTrip 1010) :: [] ∧ (Input.event (.thermalTrip 1010)).sideband = false := by decide

theorem witness_decodeOfEncode : encode (.add ⟨false, true, false, true⟩ 2 5 6 3) = some 0x50114C30 := by decide +kernel

theorem witness_everyStepKeepsMemoryCanonical : Memory.wf State.reset.mem = true ∧ ∃ t, step State.reset = .next t := ⟨rfl, _, rfl⟩

theorem witness_wordsKeepOtherCores : (encode (.add t0 1 2 3 0)).isSome = true ∧ (∃ t, exec (.add t0 1 2 3 0) main0 = .next t) ∧ (1 : Fin 128) ≠ main0.focusCore :=
  ⟨by decide +kernel, ⟨_, rfl⟩, by decide⟩

/-- A block whose first row holds 20 and 0.75 under one scale of 1.0 for the row. -/
def narrowing : Block := ⟨0, false, 0, 3, [0x5A, 0x34] ++ List.replicate 16382 0 ++ [0xF0, 0x07], false, 0⟩

/-- A go that may go on to width 1 and whose budgets are 0. -/
def goNarrow : Go := { go0 with ent := 0x300011, todo := chunks, skipped := 0 }

theorem witness_enginesRun_promotes : let g := goNarrow
    let s := withCore { running with eng := { running.eng with gos := [g], fifoA := [narrowing], fifoB := [zeroBlock false] } }
    (∀ co : Nat → Nat, overBudget g.ent (chunkPass g.width (fld g.ent 27 5) narrowing (zeroBlock false) 0 1 co) = true) ∧ g.width < fld g.ent 4 2
    ∧ s.cores[(0 : Fin 128)].eng.fifoA.find? (fun k => k.pos == g.abase + 0) = some narrowing ∧ tagsDiffer g.ent narrowing (zeroBlock false) = false := by
  have h : ((List.range 1).map (fun i => narrowRow 0 narrowing (0 + i))).flatten.map (·.ufl) = [1] := by decide +kernel
  refine ⟨fun co => ?_, by decide, rfl, by decide⟩
  have e : fld goNarrow.ent 52 16 = 0 := by decide
  have w : goNarrow.width = 0 := rfl
  simp only [overBudget, chunkPass, e, w, h]
  simp

/-! ### Effects with results that the spec prints -/

/-- A word answers a next state that passes a test. -/
def gives (o : Host.Outcome State Fault Refusal) (p : State → Bool) : Bool := match o with | .next t => p t | _ => false

/-- spec/12: `div` of −7 by 2 gives −3, `rem` −1, and `div.n` 0x7FFF_FFFF_FFFF_FFFC. -/
theorem test_div : let s := setS main0 [(2, 0xFFFFFFFFFFFFFFF9), (3, 2)]
    gives (exec (.div t0 0 1 2 3) s) (fun t => t.cur.rdS .main 1 == 0xFFFFFFFFFFFFFFFD) = true
    ∧ gives (exec (.rem t0 0 1 2 3) s) (fun t => t.cur.rdS .main 1 == 0xFFFFFFFFFFFFFFFF) = true
    ∧ gives (exec (.divN t0 0 1 2 3) s) (fun t => t.cur.rdS .main 1 == 0x7FFFFFFFFFFFFFFC) = true := by decide +kernel

/-- spec/12: at SEW 32 and grouping 4, `vset` of 300 gives 256 and of 100 gives 100; `vset.max` with grouping bits of 0 and SEW bits of 3 traps. -/
theorem test_vset : gives (exec (.vset t0 5 6 0b0001010) (setS main0 [(6, 300)])) (fun t => t.cur.sys.vl == 256 && t.cur.rdS .main 5 == 256) = true
    ∧ gives (exec (.vset t0 5 6 0b0001010) (setS main0 [(6, 100)])) (fun t => t.cur.sys.vl == 100 && t.cur.rdS .main 5 == 100) = true
    ∧ gives (exec (.vsetMax t0 5 3) main0) (fun t => t.cur.sys.vl == 0 && t.cur.sys.vtype == main0.cur.sys.vtype && t.cur.trap.active.isSome) = true := by decide +kernel

/-- spec/11: with SBASE 3, `s16` is physical `s19` and `s30` is `s17`; with SBASE 2, `s17` is `s19`. -/
theorem test_rotation : physS 3 16 = 19 ∧ physS 3 30 = 17 ∧ physS 2 17 = 19 := by decide

/-- spec/03: the packet of the example of R83, and its test of 0x103 under the mask. -/
theorem test_pred : let k : BitVec 512 := BitVec.ofNat 512 (0x5100F20004 + 0x7F0000001000 * 2 ^ 64 + 3 * 2 ^ 128 + 0xFF * 2 ^ 192 + 0x200 * 2 ^ 256)
    pkType k = 4 ∧ pkOrder k = 2 ∧ pkScope k = 15 ∧ pkTag k = 0x51 ∧ fld k 64 64 = 0x7F0000001000 ∧ fld k 264 8 = 2
    ∧ predTest (fld k 256 4) (0x103 &&& BitVec.ofNat 64 (fld k 192 64)) (BitVec.ofNat 64 (fld k 128 64)) = true := by decide +kernel

/-- spec/09: 2.5, 5, 0.25, 0.75 and 1.75 narrow to 2, 4, 0, 1 and 2 in E2M1; 0x3E99_999A narrows to 0x2A in E4M3. -/
theorem test_narrow : (fmtE2M1.round 0 false 5 (-1)).bits = 0b0100 ∧ (fmtE2M1.round 0 false 5 0).bits = 0b0110 ∧ (fmtE2M1.round 0 false 1 (-2)).bits = 0
    ∧ (fmtE2M1.round 0 false 3 (-2)).bits = 0b0010 ∧ (fmtE2M1.round 0 false 7 (-2)).bits = 0b0100 ∧ (fmtE4M3.round 0 false 10066330 (-25)).bits = 0x2A := by decide +kernel

/-- spec/09: the block of 20, −3, 7, 0.75 and 1.0 under scale 0x07F0, narrowed at width 0, has scale 0x0810, two flushed elements and none saturated. -/
theorem test_narrow_block : let l : List FVal := [.num false 20 0, .num true 3 0, .num false 7 0, .num false 3 (-2), .num false 1 0] ++ List.replicate 11 (.num false 0 0)
    let r := narrowBlock 0 0 l (s12 0x07F0)
    r.scale = s12 0x0810 ∧ r.ufl = 2 ∧ r.sat = 0 := by decide +kernel

/-- spec/15: an E4M3 block with scales for 16 elements occupies 18,432 bytes. -/
theorem test_block_bytes : blockBytes 0 0 = 18432 := by decide

/-- Row 0 of `v2` holds 1.0 and four times 2^−24, `v3` holds 2.0 in columns 0 to 15, and `k1` is true for columns 0 to 3; SEW is 32 and VL is 5. -/
def summing : State :=
  let sixteen (x : Nat) : Nat := (List.range 16).foldl (fun n _ => n * 2 ^ 32 + x) 0
  let row2 := 0x3F800000 + 0x33800000 * (2 ^ 32 + 2 ^ 64 + 2 ^ 96 + 2 ^ 128)
  withCore { vectors 2 5 running with regs := { running.regs with v := [(32, BitVec.ofNat _ row2), (48, BitVec.ofNat _ (sixteen 0x40000000))], k := [(16, 15)] } }

/-- spec/13: the tree of `vfredsum.c` gives 0x3F80_0001 in the active columns, and column 4 keeps 2.0; without the mask it gives 0x3F80_0002. -/
theorem test_vfredsum :
    gives (exec (.vfredsumC t0 1 3 2) summing) (fun t => fld (t.cur.vrow 3 0) 0 32 == 0x3F800001 && fld (t.cur.vrow 3 0) 96 32 == 0x3F800001 && fld (t.cur.vrow 3 0) 128 32 == 0x40000000) = true
    ∧ gives (exec (.vfredsumC t0 0 3 2) summing) (fun t => fld (t.cur.vrow 3 0) 0 32 == 0x3F800002 && fld (t.cur.vrow 3 0) 128 32 == 0x3F800002) = true := by decide +kernel

/-- spec/06: 80 errors against 64 at −20 mV go back to 0 mV; at 0 mV the fourth window above 64 in a row is a predictive failure. -/
theorem test_governor : gives (exec (.governorWindow 0 80) { State.reset with board := voltage 80 20 0 0 }) (fun t => t.board.voff[(0 : Fin 18)] == 0 && t.board.vrun[(0 : Fin 18)] == 0 && !t.board.predfail) = true
    ∧ gives (exec (.governorWindow 0 70) { State.reset with board := voltage 70 0 0 0 }) (fun t => t.board.vrun[(0 : Fin 18)] == 1 && !t.board.predfail) = true
    ∧ gives (exec (.governorWindow 0 50) { State.reset with board := voltage 50 0 2 0 }) (fun t => t.board.vrun[(0 : Fin 18)] == 0 && !t.board.predfail) = true
    ∧ gives (exec (.governorWindow 0 100) { State.reset with board := voltage 100 0 3 0 }) (fun t => t.board.predfail) = true := by decide +kernel

/-- spec/01: bank 1 with records 1,150 to 1,204 and a damaged one in slot 55, bank 0 full with 894 to 1,149: the next record is 1,205 in slot 56 of bank 1,
and UNCLEAN_STOPS rises. -/
theorem test_lifetime_scan :
    let good (n : Nat) : LifeRec := ⟨n, true, LifeCounts.zero⟩
    let b := ({ Board.reset with flash := { Board.reset.flash with bank0 := (List.range 256).map (fun i => good (894 + i)),
                                                                   bank1 := (List.range 55).map (fun i => good (1150 + i)) ++ [⟨1205, false, LifeCounts.zero⟩] } } : Board).readLife
    b.lifeSeq = 1205 ∧ b.lifeBank = true ∧ b.lifeSlot = 56 ∧ b.life.unclean = 1 := by decide +kernel

/-- spec/02: the indices and the page offset of VA 0x7F12_3456_7ABC. -/
theorem test_walk_indices : bits 0x7F1234567ABC 39 9 = 254 ∧ bits 0x7F1234567ABC 30 9 = 72 ∧ bits 0x7F1234567ABC 21 9 = 418 ∧ bits 0x7F1234567ABC 12 9 = 359
    ∧ bits 0x7F1234567ABC 0 12 = 0xABC := by decide

/-- Core 0 holds a load of ones into row 0, columns 0 and 16, of v4, and an add of v4 and v4 there, with no token between them. -/
def unordered : State :=
  let s := setS (open0 (vectors 2 17 { running with regs := { running.regs with k := [(16, 0x10001)] } })) [(3, 68)]
  let s : State := { s with held := s.held.set 0 true, mem := [(scratchPa 0 0, 1), (scratchPa 0 64, 1)] }
  match exec (.vldX t0 1 4 2 3) s with
  | .next t => (match exec (.vadd t0 1 5 4 4) t with | .next u => u | _ => s)
  | _ => s

/-- spec/13: where no token orders a load of v4 and a word that adds v4 to itself, each 64-byte part of the sum shows the old v4 or the new one. -/
theorem test_overlap :
    let s := unordered.input (.overlap 0 .l .x [[(64, 0)]])
    fld (s.cur.vrow 5 0) 0 32 = 2 ∧ fld (s.cur.vrow 5 0) 512 32 = 0 ∧ fld (s.cur.vrow 4 0) 0 32 = 1 ∧ fld (s.cur.vrow 4 0) 512 32 = 1 := by decide +kernel

end Sys2Proof.Tests
end

section
/-! SUPPORT for O58. Memory in its canonical form, said of a state, of what an effect leaves, of the next state and of a turn; the shape of the
proof: a function of the model leaves memory as it was (`_mem`) or keeps it canonical (`_wf`), one lemma for each, in the order of the model's files -/

namespace Sys2Proof.Machine

/-- Memory is in its canonical form (R3, log 4). -/
abbrev State.MemWf (s : State) : Prop := Memory.wf s.mem = true

@[simp] theorem State.memWf_iff {s : State} : s.MemWf ↔ Memory.wf s.mem = true := Iff.rfl

theorem State.MemWf.of_mem {s t : State} (h : s.MemWf) (e : t.mem = s.mem) : t.MemWf := by rw [State.MemWf, e]; exact h

theorem State.MemWf.ite {c : Prop} [Decidable c] {s t : State} (hs : s.MemWf) (ht : t.MemWf) : (if c then s else t).MemWf := by
  split
  · exact hs
  · exact ht

/-- Memory is canonical in whatever state an effect leaves. -/
def Res.MemWf : Res → Prop
  | .ok s | .goto s _ | .stall s | .after s _ => s.MemWf
  | .wait _ | .trap _ => True

/-- Memory is canonical in the next state, where an instruction answers one. -/
def Out.MemWf : Out → Prop
  | .next t => t.MemWf
  | _ => True

/-- Memory is canonical in the state that a turn leaves. -/
def Turn.MemWf : Turn → Prop
  | .done s => s.MemWf
  | .run _ => True

theorem Res.MemWf.left {r : Res} (h : r.MemWf) {u : State} (hu : r.left = some u) : u.MemWf := by
  cases r with
  | wait | trap => cases hu
  | ok | goto | stall | after => cases hu; exact h

theorem Res.memWf_of_left {r : Res} (h : r.left = none) : r.MemWf := by
  cases r with
  | wait | trap => trivial
  | ok | goto | stall | after => cases h

/-- A fold whose steps leave memory leaves memory. -/
theorem foldl_mem {α : Type} (f : State → α → State) (hf : ∀ s x, (f s x).mem = s.mem) (l : List α) (s : State) : (l.foldl f s).mem = s.mem :=
  foldl_keeps (fun t : State => t.mem = s.mem) f l s rfl (fun t x ht => (hf t x).trans ht)

/-- A fold whose steps keep memory canonical keeps it. -/
theorem foldl_wf {α : Type} (f : State → α → State) (hf : ∀ s x, s.MemWf → (f s x).MemWf) (l : List α) (s : State) (h : s.MemWf) : (l.foldl f s).MemWf :=
  foldl_keeps State.MemWf f l s h hf

end Sys2Proof.Machine
end

section
/-! SUPPORT for O58. What the functions of Machine/Memory.lean do to memory. -/

namespace Sys2Proof.Machine

@[simp] theorem State.carryPoison_mem (s : State) (dst runs) : (s.carryPoison dst runs).mem = s.mem := by
  unfold State.carryPoison
  exact foldl_mem _ (fun s r => by simp) _ _

theorem State.logDemand_wf (s : State) (master pa stepid region) (hm : s.MemWf) : (s.logDemand master pa stepid region).MemWf := by
  unfold State.logDemand
  grind [State.logRead_wf]

@[simp] theorem State.carryRels_mem (s : State) (pa len l) : (s.carryRels pa len l).mem = s.mem := rfl

@[simp] theorem State.observe_mem (s : State) (n st ps) : (s.observe n st ps).mem = s.mem := rfl

@[simp] theorem State.clearCovered_mem (s : State) (runs) : (s.clearCovered runs).mem = s.mem := rfl

@[simp] theorem State.loadGrant_mem (s : State) (n line cache) : (s.loadGrant n line cache).1.mem = s.mem := rfl

@[simp] theorem State.crewGrant_mem (s : State) (n line cache) : (s.crewGrant n line cache).1.mem = s.mem := by
  unfold State.crewGrant
  grind [State.modCore_mem, State.loadGrant_mem]

@[simp] theorem State.loadBind_mem (s : State) (n line) : (s.loadBind n line).1.mem = s.mem := by
  unfold State.loadBind
  grind [State.loadGrant_mem, State.crewGrant_mem]

@[simp] theorem State.dropLine_mem (s : State) (n line) : (s.dropLine n line).mem = s.mem := rfl

@[simp] theorem State.bindPart_mem (s : State) (n last p) : (s.bindPart n last p).1.mem = s.mem := by
  unfold State.bindPart
  grind [State.dropLine_mem, State.loadGrant_mem, State.loadBind_mem]

@[simp] theorem State.bindPieces_mem (s : State) (n last ps) : (s.bindPieces n last ps).1.mem = s.mem := by
  induction ps generalizing s last with
  | nil => rfl
  | cons p t ih => simp [State.bindPieces, ih]

@[simp] theorem State.signRuns_mem (s : State) (n space runs) : (s.signRuns n space runs).mem = s.mem := rfl

@[simp] theorem State.addDirty_mem (s : State) (crew line pa len) : (s.addDirty crew line pa len).mem = s.mem := rfl

@[simp] theorem State.combine_mem (s : State) (i j) : (s.combine i j).mem = s.mem := by
  unfold State.combine
  grind

@[simp] theorem State.requestPageIn_mem (s : State) (root asid pib va w) : (s.requestPageIn root asid pib va w).mem = s.mem := by
  unfold State.requestPageIn
  grind

end Sys2Proof.Machine
end

section
/-! SUPPORT for O58. What the functions of Machine/Ops.lean do to memory. -/

namespace Sys2Proof.Machine

theorem State.logRefusal_wf (s : State) (n t) (hm : s.MemWf) : (s.logRefusal n t).MemWf := by
  unfold State.logRefusal
  grind [State.log_wf]

theorem State.freezeEnd_wf (s : State) (n t) (hm : s.MemWf) : (s.freezeEnd n t).MemWf := by
  unfold State.freezeEnd
  grind [State.modCore_mem, State.logRefusal_wf, State.drain_wf]

@[simp] theorem State.recapture_mem (s : State) (n t) : (s.recapture n t).mem = s.mem := by
  unfold State.recapture
  grind [State.modCore_mem]

theorem cWord_wf (t g j len) (eff : State → Res) (s : State) (h : s.MemWf) (he : (eff s).MemWf) : (cWord t g j len eff s).MemWf :=
  cWord_keeps State.MemWf s t g j len eff (fun _ _ hu => hu) (fun _ _ hu => takeTrap_wf _ _ _ hu) (fun _ hu => he.left hu) h

theorem onCore_wf (f) (s : State) (hm : s.MemWf) : (onCore f s).MemWf := by
  unfold onCore
  grind [State.modCur_mem, Res.MemWf, Res.memWf_of_left]

end Sys2Proof.Machine
end

section
/-! SUPPORT for O58. What the functions of Machine/Boot.lean do to memory. -/

namespace Sys2Proof.Machine

theorem onlyIf_wf (b) (s t : State) (hs : s.MemWf) (ht : t.MemWf) : (onlyIf b s t).MemWf := by
  cases b
  · exact hs
  · exact ht

theorem State.restart_wf (s : State) (hm : s.MemWf) : s.restart.MemWf := swf_filter _ _ _ hm

theorem State.coldReset_wf (s : State) (hm : s.MemWf) : s.coldReset.MemWf := by
  unfold State.coldReset
  grind [State.modBoard_mem, State.restart_wf]

theorem State.warmReset_wf (s : State) (watchdog) (hm : s.MemWf) : (s.warmReset watchdog).MemWf := swf_filter _ _ _ hm

theorem execColdReset_wf (s : State) (hm : s.MemWf) : (execColdReset s).MemWf := by
  unfold execColdReset
  grind [State.coldReset_wf, Out.MemWf]

theorem execColdrst_wf (v) (s : State) (hm : s.MemWf) : (execColdrst v s).MemWf := by
  unfold execColdrst
  grind [onlyIf_wf, State.coldReset_wf, Out.MemWf]

theorem execWarmReset_wf (s : State) (hm : s.MemWf) : (execWarmReset s).MemWf := by
  unfold execWarmReset
  grind [State.warmReset_wf, Out.MemWf]

theorem execFirmwareWatchdogExpiry_wf (s : State) (hm : s.MemWf) : (execFirmwareWatchdogExpiry s).MemWf := by
  unfold execFirmwareWatchdogExpiry
  grind [onlyIf_wf, State.warmReset_wf, Out.MemWf]

theorem execPufReconstruction_wf (s : State) (hm : s.MemWf) : (execPufReconstruction s).MemWf := by
  unfold execPufReconstruction
  grind [onlyIf_wf, State.modBoard_mem, Out.MemWf]

theorem execLinkTraining_wf (port) (s : State) (hm : s.MemWf) : (execLinkTraining port s).MemWf := by
  unfold execLinkTraining
  grind [onlyIf_wf, State.modBoard_mem, Out.MemWf]

theorem execSlotVerification_wf (s : State) (hm : s.MemWf) : (execSlotVerification s).MemWf := by
  unfold execSlotVerification
  grind [onlyIf_wf, State.modBoard_mem, Out.MemWf]

theorem execPowerSample_wf (watts) (s : State) (hm : s.MemWf) : (execPowerSample watts s).MemWf := by
  unfold execPowerSample
  grind [onlyIf_wf, State.modBoard_mem, Out.MemWf]

theorem execArithClockStepDone_wf (s : State) (hm : s.MemWf) : (execArithClockStepDone s).MemWf := by
  unfold execArithClockStepDone
  grind [onlyIf_wf, State.modBoard_mem, Out.MemWf]

theorem execJunctionThrottle_wf (temp) (s : State) (hm : s.MemWf) : (execJunctionThrottle temp s).MemWf := by
  unfold execJunctionThrottle
  grind [onlyIf_wf, State.modBoard_mem, Out.MemWf]

theorem execThrottleRelease_wf (temp) (s : State) (hm : s.MemWf) : (execThrottleRelease temp s).MemWf := by
  unfold execThrottleRelease
  grind [onlyIf_wf, State.modBoard_mem, Out.MemWf]

theorem execThermalTrip_wf (temp) (s : State) (hm : s.MemWf) : (execThermalTrip temp s).MemWf := by
  unfold execThermalTrip
  grind [onlyIf_wf, State.modBoard_mem, Out.MemWf]

theorem execEntdaa_wf (addr) (s : State) (hm : s.MemWf) : (execEntdaa addr s).MemWf := by
  unfold execEntdaa
  grind [State.modBoard_mem, Out.MemWf]

theorem execSbLimitWrite_wf (v) (s : State) (hm : s.MemWf) : (execSbLimitWrite v s).MemWf := by
  unfold execSbLimitWrite
  grind [State.modBoard_mem, Out.MemWf]

theorem execSbMeasRead_wf (s : State) (hm : s.MemWf) : (execSbMeasRead s).MemWf := by
  unfold execSbMeasRead
  grind [State.modBoard_mem, Out.MemWf]

theorem State.sbWrite_wf (s : State) (off v) (hm : s.MemWf) : (s.sbWrite off v).MemWf := by
  unfold State.sbWrite
  grind [State.modBoard_mem, State.coldReset_wf]

theorem execLifetimeRecordTimer_wf (s : State) (hm : s.MemWf) : (execLifetimeRecordTimer s).MemWf := by
  unfold execLifetimeRecordTimer
  grind [onlyIf_wf, State.modBoard_mem, Out.MemWf]

theorem execOrderlyShutdown_wf (s : State) (hm : s.MemWf) : (execOrderlyShutdown s).MemWf := by
  unfold execOrderlyShutdown
  grind [onlyIf_wf, State.modBoard_mem, Out.MemWf]

theorem execPowerLoss_wf (mid) (s : State) (hm : s.MemWf) : (execPowerLoss mid s).MemWf := by
  unfold execPowerLoss
  grind [State.restart_wf, State.modBoard_mem, Out.MemWf]

theorem execCxlLinkLoss_wf (port) (s : State) (hm : s.MemWf) : (execCxlLinkLoss port s).MemWf :=
  foldl_wf _ (fun _ _ hs => State.log_wf _ _ hs) _ _ hm

theorem execPtmDialog_wf (off) (s : State) (hm : s.MemWf) : (execPtmDialog off s).MemWf := by
  unfold execPtmDialog
  grind [onlyIf_wf, Out.MemWf]

theorem execTbStepsRead_wf (s : State) (hm : s.MemWf) : (execTbStepsRead s).MemWf := by
  unfold execTbStepsRead
  grind [State.note_mem, Out.MemWf]

theorem execConfigurationRequest_wf (f) (s : State) (hm : s.MemWf) : (execConfigurationRequest f s).MemWf := by
  unfold execConfigurationRequest
  grind [State.note_mem, Out.MemWf]

end Sys2Proof.Machine
end

section
/-! SUPPORT for O58. What the functions of Machine/Engines.lean do to memory. -/

namespace Sys2Proof.Machine

theorem State.bindFlume_mem (s : State) (n q st f seq) {u} (hu : s.bindFlume n q st f seq = .ok u) : u.1.mem = s.mem := by
  unfold State.bindFlume at hu
  grind

@[simp] theorem State.markRuns_mem (runs o ps) (s : State) : (State.markRuns runs o ps s).mem = s.mem := by
  induction ps generalizing o s with
  | nil => rfl
  | cons p t ih =>
    rw [State.markRuns, ih]
    exact foldl_mem _ (fun s r => by grind [State.setPoison_mem]) _ _

theorem State.copyWrite_wf (s : State) (n ctx c dst b bad) (hm : s.MemWf) {u : State} (hu : s.copyWrite n ctx c dst b bad = .ok u) : u.MemWf := by
  unfold State.copyWrite at hu
  extract_lets mark t at hu
  have hk (t : State) (ht : t.MemWf) (ps) : (mark t ps).MemWf := ht.of_mem (State.markRuns_mem _ _ _ _)
  split at hu
  · split at hu
    · cases hu
    · cases hu; exact hk _ (writePieces_wf _ _ _ hm) _
  · split at hu
    · cases hu
    split at hu
    · split at hu
      · cases hu
      · cases hu; exact hk _ (State.performScoped_wf _ _ _ _ hm) _
    · cases hu; exact hm
  · extract_lets sp at hu
    clear_value sp
    split at hu
    · cases hu
    · cases hu
      refine hk _ (State.MemWf.of_mem ?_ (State.sign_mem _ _ _ _ _)) _
      exact foldl_keeps (fun a : State × List Byte => a.1.MemWf) _ _ _ hm (fun a p ha => State.performScoped_wf _ _ _ _ ha)

theorem State.logCopyPoison_wf (s : State) (n c i) (hm : s.MemWf) : (s.logCopyPoison n c i).MemWf := by
  unfold State.logCopyPoison
  grind [State.logDemand_wf]

@[simp] theorem State.copyClear_mem (s : State) (n c) : (s.copyClear n c).mem = s.mem := by
  unfold State.copyClear
  grind [State.clearCovered_mem]

theorem State.copyMemory_wf (s : State) (n ctx c base k i) (hm : s.MemWf) (hb : base.1.MemWf) : (s.copyMemory n ctx c base k i).1.MemWf := by
  induction k generalizing s base i with
  | zero => exact hm
  | succ k ih =>
    unfold State.copyMemory
    grind [State.modCore_mem, State.copyWrite_wf, State.logCopyPoison_wf]

theorem State.logCopyPoisons_wf (n c) (g : Nat → Nat) (l : List Nat) (s : State) (hm : s.MemWf) : (l.foldl (fun s j => s.logCopyPoison n c (g j)) s).MemWf :=
  foldl_wf _ (fun _ _ hs => State.logCopyPoison_wf _ _ _ _ hs) _ _ hm
theorem State.copyBlocks_wf (s : State) (n c k b) (hm : s.MemWf) : (s.copyBlocks n c k b).1.MemWf := by
  induction k generalizing s b with
  | zero => exact hm
  | succ k ih =>
    unfold State.copyBlocks
    extract_lets per
    split
    · exact hm
    extract_lets blk
    split
    · exact hm
    · refine ih _ _ (State.MemWf.of_mem ?_ (State.setCore_mem _ _ _))
      split
      · exact State.logCopyPoisons_wf _ _ _ _ _ hm
      · exact hm

theorem State.copyFlume_wf (s : State) (n x f bytes bad rel k b) (hm : s.MemWf) : (s.copyFlume n x f bytes bad rel k b).1.MemWf := by
  induction k generalizing s b with
  | zero => exact hm
  | succ k ih =>
    unfold State.copyFlume
    grind [State.performScoped_wf, State.markRuns_mem, State.sign_mem]

end Sys2Proof.Machine
end

section
/-! SUPPORT for O58. What the functions of Machine/Issue.lean do to memory. -/

namespace Sys2Proof.Machine

theorem State.scratchWait_left (s : State) (n r l) {w : Res} (h : (s.scratchWait n r l) = some w) : w.left = none := by
  unfold State.scratchWait at h
  grind [Res.left]

theorem Core.checkerFull_left (c : Core) {w : Res} (h : c.checkerFull = some w) : w.left = none := by
  unfold Core.checkerFull at h
  grind [Res.left, Option.map_eq_some_iff]

theorem State.loadsFirst_left (s : State) (n r) {w : Res} (h : (s.loadsFirst n r) = some w) : w.left = none := by
  unfold State.loadsFirst at h
  grind [Res.left]

theorem Core.acquireFirst_left (c : Core) (r) {w : Res} (h : c.acquireFirst r = some w) : w.left = none := by
  unfold Core.acquireFirst at h
  grind [Res.left, Option.map_eq_some_iff]

theorem Core.lobFull_left (c : Core) (r) {w : Res} (h : (Core.lobFull c r) = some w) : w.left = none := by
  unfold Core.lobFull at h
  grind [Res.left]

theorem State.meetAt_wf (s : State) (n po pa st) (hm : s.MemWf) : (s.meetAt n po pa st).MemWf := by
  unfold State.meetAt
  grind [State.modCore_mem, State.logDemand_wf]

theorem State.readDone_wf (s : State) (n ps) (hm : s.MemWf) : (s.readDone n ps).MemWf := by
  unfold State.readDone
  refine foldl_wf _ (fun s p hs => ?_) _ _ ?_
  · simpa using hs
  · grind [State.logDemand_wf]

theorem State.finishLoad_wf (s : State) (n r d sz signed ps) (hm : s.MemWf) : (s.finishLoad n r d sz signed ps).MemWf := by
  unfold State.finishLoad
  grind [State.bindPieces_mem, State.observe_mem, State.modCore_mem, State.readDone_wf]

theorem Core.scopedFirst_left (c : Core) (r sp ps) {w : Res} (h : (Core.scopedFirst c r sp ps) = some w) : w.left = none := by
  unfold Core.scopedFirst at h
  grind [Core.acquireFirst_left, Res.left]

theorem State.doLoad_wf (s : State) (n r sp sz signed d a) (hm : s.MemWf) : (s.doLoad n r sp sz signed d a).MemWf := by
  unfold State.doLoad
  grind [State.scratchWait_left, Core.lobFull_left, Core.scopedFirst_left, State.finishLoad_wf, Res.MemWf, Res.memWf_of_left]

theorem State.doLdc_wf (s : State) (n r sz signed d a) (hm : s.MemWf) : (s.doLdc n r sz signed d a).MemWf := by
  unfold State.doLdc
  dsimp only
  split
  · trivial
  · split
    · next hw => exact Res.memWf_of_left (Core.acquireFirst_left _ _ hw)
    · rw [Res.MemWf, State.MemWf, State.observe_mem, State.modCore_mem]
      exact State.readDone_wf _ _ _ (foldl_wf _ (fun s _ hs => by simpa using hs) _ _ hm)

theorem State.finishVload_wf (s : State) (n r d l) (hm : s.MemWf) : (s.finishVload n r d l).MemWf := by
  unfold State.finishVload
  grind [State.bindPieces_mem, State.observe_mem, State.modCore_mem, State.readDone_wf]

theorem State.doVload_wf (s : State) (n r sp kind d m a p bi) (hm : s.MemWf) : (s.doVload n r sp kind d m a p bi).MemWf := by
  unfold State.doVload
  dsimp only
  split
  · next hw => exact Res.memWf_of_left (State.scratchWait_left _ _ _ _ hw)
  split
  · next hw => exact Res.memWf_of_left (Core.lobFull_left _ _ hw)
  split
  · trivial
  next vl cut _ =>
    split
    · trivial
    split
    · next hw => exact Res.memWf_of_left (Core.scopedFirst_left _ _ _ _ hw)
    have h1 (d l) : ((match cut with | some t => s.logRefusal n t | none => s).finishVload n { r with vl := vl } d l).MemWf := by
      refine State.finishVload_wf _ _ _ _ _ ?_
      split
      · exact State.logRefusal_wf _ _ _ hm
      · exact hm
    split
    · exact h1 d _
    · exact h1 d _

theorem State.reload_wf (s : State) (n e) (hm : s.MemWf) : (s.reload n e).MemWf := by
  unfold State.reload
  grind [State.finishLoad_wf, State.finishVload_wf, State.modCore_mem]

@[simp] theorem State.renewCopy_mem (s : State) (n x) : (s.renewCopy n x).1.mem = s.mem := by
  unfold State.renewCopy
  grind [State.modCore_mem]

@[simp] theorem State.renewAll_mem (s : State) (n l) : (s.renewAll n l).1.mem = s.mem := by
  induction l generalizing s with
  | nil => rfl
  | cons x t ih =>
    unfold State.renewAll
    grind [State.renewCopy_mem]

@[simp] theorem State.lobCheck_mem (s : State) (n r ps l) : (s.lobCheck n r ps l).1.mem = s.mem := by
  induction l generalizing s with
  | nil => rfl
  | cons x t ih =>
    unfold State.lobCheck
    grind [State.renewAll_mem]

@[simp] theorem State.carryFences_mem (s : State) (n st ps) : (s.carryFences n st ps).mem = s.mem := by
  unfold State.carryFences
  exact foldl_mem _ (fun s p => by grind [State.carryRels_mem]) _ _

theorem State.afterStore_wf (s : State) (n r ps) (hm : s.MemWf) : (s.afterStore n r ps).MemWf := by
  have h1 : (s.carryFences n r.strand ps).MemWf := by simpa using hm
  unfold State.afterStore
  dsimp only
  split
  · exact h1
  · rw [State.MemWf, State.modCore_mem]
    exact foldl_wf _ (fun s e hs => State.reload_wf _ _ _ hs) _ _ (by simpa using hm)

@[simp] theorem State.launch_mem (s : State) (n r op runs va cmd sp) : (s.launch n r op runs va cmd sp).mem = s.mem := by
  unfold State.launch
  grind

theorem State.storePiece_wf (s : State) (n r sp ea p b) (hm : s.MemWf) : (s.storePiece n r sp ea p b).MemWf := by
  unfold State.storePiece
  grind [State.writeBytes_wf, State.performOrdinary_wf, State.launch_mem]

theorem State.storePieces_wf (s : State) (n r sp ea ps b) (hm : s.MemWf) : (s.storePieces n r sp ea ps b).MemWf := by
  induction ps generalizing s b with
  | nil => exact hm
  | cons p t ih => exact ih _ _ (State.storePiece_wf s n r sp ea p _ hm)

@[simp] theorem State.signStore_mem (s : State) (n sp ea b) : (s.signStore n sp ea b).mem = s.mem := by
  unfold State.signStore
  grind [State.sign_mem]

theorem State.doStore_wf (s : State) (n r sp sz a v) (hm : s.MemWf) : (s.doStore n r sp sz a v).MemWf := by
  unfold State.doStore
  grind [State.scratchWait_left, State.loadsFirst_left, State.meetAt_wf, State.afterStore_wf, State.signStore_mem, State.storePieces_wf, Res.MemWf,
    Res.memWf_of_left]

theorem State.storeGranule_wf (s : State) (n r sp l) (hm : s.MemWf) : (s.storeGranule n r sp l).MemWf := by
  unfold State.storeGranule
  split
  · exact hm
  · refine foldl_wf _ (fun s x hs => ?_) _ _ ?_
    · exact hs
    split
    · exact foldl_wf _ (fun s x hs => State.writeBytes_wf _ _ _ hs) _ _ hm
    · split
      · exact State.performRuns_wf _ _ _ _ _ hm
      · rw [State.MemWf, State.launch_mem]; exact hm

theorem State.storeGroup_wf (s : State) (n r sp l) (hm : s.MemWf) : (s.storeGroup n r sp l).MemWf := by
  unfold State.storeGroup
  grind [State.storeGranule_wf, State.storePieces_wf, State.signRuns_mem]

theorem State.storeElems_wf (s : State) (n r sp kind nt es l) (hm : s.MemWf) : (s.storeElems n r sp kind nt es l).MemWf := by
  unfold State.storeElems
  rw [State.MemWf, State.clearCovered_mem]
  exact foldl_wf _ (fun s g hs => State.storeGroup_wf _ _ _ _ _ hs) _ _ hm

@[simp] theorem State.markAck_mem (s : State) (n r) : (s.markAck n r).mem = s.mem := rfl

theorem State.doVstore_wf (s : State) (n r sp kind m a p bi) (hm : s.MemWf) : (s.doVstore n r sp kind m a p bi).MemWf := by
  unfold State.doVstore
  grind [State.scratchWait_left, State.loadsFirst_left, State.meetAt_wf, State.storeElems_wf, State.afterStore_wf, State.markAck_mem, Res.MemWf,
    Res.memWf_of_left]

@[simp] theorem State.releaseNow_mem (s : State) (n st slices) : (s.releaseNow n st slices).mem = s.mem := rfl

theorem State.release_mem (s : State) (n r cap) {u : State} (hu : s.release n r cap = .ok u) : u.mem = s.mem := by
  unfold State.release at hu
  grind [State.releaseNow_mem]
theorem State.release_error (s : State) (n r cap) {w : Res} (hu : s.release n r cap = .error w) : w.MemWf := by
  unfold State.release at hu
  grind [State.loadsFirst_left, Res.memWf_of_left, Res.MemWf]

theorem State.meetingPoint_wf (s : State) (n place p v) (hm : s.MemWf) : (s.meetingPoint n place p v).MemWf := by
  unfold State.meetingPoint
  grind [State.performOrdinary_wf, State.loadGrant_mem, State.recallLine_wf]

theorem State.doAmo_wf (s : State) (n r op wide d expect a v cap) (hm : s.MemWf) : (s.doAmo n r op wide d expect a v cap).MemWf := by
  unfold State.doAmo
  extract_lets w
  split
  · trivial
  split
  · next x hx => exact State.release_error _ _ _ _ hx
  next s1 hx =>
    have h1 : State.MemWf s1 := hm.of_mem (State.release_mem _ _ _ _ hx)
    split
    · trivial
    split
    · exact State.meetAt_wf _ _ _ _ _ h1
    extract_lets old pc new s0 s2 t s3
    have h0 : State.MemWf s0 := State.meetingPoint_wf _ _ _ _ _ h1
    have h2 : s2.mem = s0.mem := by
      unfold s2
      clear_value new s0
      split
      · rw [State.carryRels_mem, State.sign_mem]
      · rfl
    exact State.afterStore_wf _ _ _ _ (h0.of_mem (by rw [State.observe_mem, State.modCore_mem, h2]))

theorem State.doRed_wf (s : State) (n r op a v cap) (hm : s.MemWf) : (s.doRed n r op a v cap).MemWf := by
  unfold State.doRed
  grind [State.launch_mem, State.modCore_mem, State.sign_mem, Res.MemWf, Res.memWf_of_left]

theorem State.doLupd_wf (s : State) (n r op a off cap) (hm : s.MemWf) : (s.doLupd n r op a off cap).MemWf := by
  unfold State.doLupd
  extract_lets c
  split
  · next hw => exact Res.memWf_of_left (State.scratchWait_left _ _ _ _ hw)
  split
  · trivial
  split
  · trivial
  split
  · trivial
  split
  · trivial
  split
  · trivial
  split
  · exact State.meetAt_wf _ _ _ _ _ hm
  · exact hm.of_mem (by rw [State.modCore_mem, State.sign_mem, State.launch_mem])

theorem State.holdBarrier_wf (s0 : State) (n pa) (hm : s0.MemWf) : (s0.holdBarrier n pa).MemWf := by
  unfold State.holdBarrier
  grind [State.recallLine_wf]

theorem State.doArrive_wf (s : State) (n r d a cap) (hm : s.MemWf) : (s.doArrive n r d a cap).MemWf := by
  unfold State.doArrive
  grind [State.release_mem, State.release_error, State.meetAt_wf, State.holdBarrier_wf, State.performOrdinary_wf, State.sign_mem,
    State.carryRels_mem, State.modCore_mem,
    State.afterStore_wf, Res.MemWf]

theorem State.doFlput_wf (s : State) (n r f off cap) (hm : s.MemWf) : (s.doFlput n r f off cap).MemWf := by
  unfold State.doFlput
  extract_lets c
  split
  · exact State.meetAt_wf _ _ _ _ _ hm
  split
  · trivial
  next s0 k hb =>
    have h0 : State.MemWf s0 := hm.of_mem (State.bindFlume_mem _ _ _ _ _ _ hb)
    extract_lets fl
    split
    · trivial
    split
    · next hw => exact Res.memWf_of_left (State.scratchWait_left _ _ _ _ hw)
    split
    · next x hx => exact State.release_error _ _ _ _ hx
    next s1 hx =>
      have h1 : State.MemWf s1 := h0.of_mem (State.release_mem _ _ _ _ hx)
      split
      · trivial
      split
      · trivial
      split
      · trivial
      extract_lets idx data
      split
      · exact State.meetAt_wf _ _ _ _ _ h1
      · exact h1.of_mem (by rw [State.modCore_mem, State.sign_mem])

theorem State.popFlume_wf (s : State) (n r f cap) (hm : s.MemWf) {u} (hu : s.popFlume n r f cap = .ok u) : u.1.MemWf := by
  unfold State.popFlume at hu
  dsimp only at hu
  split at hu
  · cases hu
  split at hu
  · cases hu
  next s0 k hb =>
    have h0 : State.MemWf s0 := hm.of_mem (State.bindFlume_mem _ _ _ _ _ _ hb)
    split at hu
    · cases hu
    split at hu
    · cases hu
    split at hu
    · cases hu
    split at hu
    · cases hu
    · simp only [Except.ok.injEq] at hu
      subst hu
      exact h0
theorem State.popFlume_error (s : State) (n r f cap) (hm : s.MemWf) {w : Res} (hu : s.popFlume n r f cap = .error w) : w.MemWf := by
  unfold State.popFlume at hu
  dsimp only at hu
  split at hu
  · cases hu; exact State.meetAt_wf _ _ _ _ _ hm
  repeat' split at hu
  all_goals simp only [Except.error.injEq, reduceCtorEq] at hu
  all_goals subst hu; trivial

theorem State.logPopped_wf (s : State) (n x) (hm : s.MemWf) : (s.logPopped n x).MemWf := by
  unfold State.logPopped
  grind [State.logDemand_wf]

theorem State.doFlgetX_wf (s : State) (n r d f off cap) (hm : s.MemWf) : (s.doFlgetX n r d f off cap).MemWf := by
  unfold State.doFlgetX
  dsimp only
  split
  · exact State.meetAt_wf _ _ _ _ _ hm
  split
  · trivial
  next s0 k hb =>
    have h0 : State.MemWf s0 := hm.of_mem (State.bindFlume_mem _ _ _ _ _ _ hb)
    split
    · trivial
    split
    · next hw => exact Res.memWf_of_left (State.scratchWait_left _ _ _ _ hw)
    split
    · next x hx => exact State.popFlume_error _ _ _ _ _ h0 hx
    next s1 x hx =>
      have h1 : State.MemWf s1 := State.popFlume_wf _ _ _ _ _ h0 hx
      rw [Res.MemWf, State.MemWf, State.modCore_mem, State.markRuns_mem]
      exact State.writeBytes_wf _ _ _ (State.logPopped_wf _ _ _ h1)

theorem State.doFlgetV_wf (s : State) (n r d f cap) (hm : s.MemWf) : (s.doFlgetV n r d f cap).MemWf := by
  unfold State.doFlgetV
  split
  · next x hx => exact State.popFlume_error _ _ _ _ _ hm hx
  · next s1 x hx => exact State.logPopped_wf _ _ _ (State.popFlume_wf _ _ _ _ _ hm hx)

theorem State.doPush_wf (s : State) (n r tgt arg addr cap) (hm : s.MemWf) : (s.doPush n r tgt arg addr cap).MemWf := by
  unfold State.doPush
  grind [State.release_mem, State.release_error, State.modCore_mem, Res.MemWf]

theorem State.doCache_wf (s : State) (n op a) (hm : s.MemWf) : (s.doCache n op a).MemWf := by
  unfold State.doCache
  grind [State.modCore_mem, State.logRefusal_wf, State.log_wf, State.loadBind_mem, State.crewGrant_mem, State.writeBack_wf]

theorem State.doCpy_wf (s : State) (n r cls ctx d a b pos) (hm : s.MemWf) : (s.doCpy n r cls ctx d a b pos).MemWf := by
  unfold State.doCpy
  extract_lets c off k h cmd flume fl
  split
  · trivial
  split
  · trivial
  split
  · next hw => exact Res.memWf_of_left (State.scratchWait_left _ _ _ _ hw)
  split
  · exact State.meetAt_wf _ _ _ _ _ hm
  split
  · next hw =>
    split at hw
    · exact Res.memWf_of_left (Core.acquireFirst_left _ _ hw)
    · cases hw
  split
  · trivial
  split
  · trivial
  split
  · next hw => exact Res.memWf_of_left (Core.checkerFull_left _ hw)
  split
  · trivial
  · exact hm

theorem State.doRing_wf (s : State) (n r d a b) (hm : s.MemWf) : (s.doRing n r d a b).MemWf := by
  unfold State.doRing
  grind [Core.checkerFull_left, State.modCore_mem, Res.MemWf, Res.memWf_of_left]

theorem State.doWgo_wf (s : State) (n r cfg pos nb) (hm : s.MemWf) : (s.doWgo n r cfg pos nb).MemWf := by
  unfold State.doWgo
  grind [Core.acquireFirst_left, Core.checkerFull_left, State.modCore_mem, Res.MemWf, Res.memWf_of_left, Option.or_eq_some_iff]

theorem State.doMgo_wf (s : State) (n r tile ft cfg abase bbase na nb) (hm : s.MemWf) : (s.doMgo n r tile ft cfg abase bbase na nb).MemWf := by
  unfold State.doMgo
  grind [State.meetAt_wf, State.modCore_mem, Res.MemWf, Res.memWf_of_left]

theorem Core.accWait_left (c : Core) (t) {w : Res} (h : (Core.accWait c t) = some w) : w.left = none := by
  unfold Core.accWait at h
  grind [Res.left]

theorem coreRes_wf (s : State) (n f) (hm : s.MemWf) : (coreRes s n f).MemWf := by
  unfold coreRes
  grind [State.modCore_mem, Res.MemWf, Res.memWf_of_left]

theorem State.doVector_wf (s : State) (n r) (hm : s.MemWf) : (s.doVector n r).MemWf := by
  unfold State.doVector
  grind [State.setCore_mem, Res.MemWf, Res.memWf_of_left]

theorem execUop_wf (s : State) (n r) (hm : s.MemWf) : (execUop s n r).MemWf := by
  unfold execUop
  grind [State.doLoad_wf, State.doLdc_wf, State.walkBegins_mem, State.doCache_wf, State.doVload_wf, State.doFlgetX_wf, State.doFlgetV_wf, State.doRing_wf,
    State.doCpy_wf, State.doStore_wf, State.doVstore_wf, State.doAmo_wf, State.doRed_wf, State.doLupd_wf, State.doFlput_wf, State.doPush_wf,
    State.doArrive_wf, State.doMgo_wf, coreRes_wf, Core.accWait_left, State.doWgo_wf, State.doVector_wf, Res.MemWf, Res.memWf_of_left]

theorem State.repairTag_wf (s : State) (n t) (hm : s.MemWf) : (s.repairTag n t).MemWf := by
  unfold State.repairTag
  grind [State.modCore_mem, State.log_wf]

theorem State.repair_wf (s : State) (n l) (hm : s.MemWf) : (s.repair n l).MemWf := by
  unfold State.repair
  exact foldl_wf _ (fun s t hs => State.repairTag_wf _ _ _ hs) _ _ hm

theorem State.issueRes_wf (s0 : State) (n q) (hm : s0.MemWf) : (s0.issueRes n q).MemWf := by
  unfold State.issueRes
  grind [State.modCore_mem, State.repair_wf, execUop_wf, State.walkBegins_mem, Res.MemWf, Res.memWf_of_left]

theorem State.issueHead_wf (s : State) (n q) (hm : s.MemWf) : (s.issueHead n q).MemWf :=
  issueHead_keeps State.MemWf s n q (fun _ _ hu => hu) (fun _ _ hu => takeTrap_wf _ _ _ hu) (fun _ hu => (State.issueRes_wf _ _ _ hm).left hu) hm

theorem State.overlap_wf (s : State) (n q q' l) (hm : s.MemWf) : (s.overlap n q q' l).MemWf := by
  have hi (t : State) (ht : t.MemWf) (q) (u) (hu : t.issueRes n q = .ok u) : u.MemWf := (State.issueRes_wf t n q ht).left (hu ▸ rfl)
  unfold State.overlap
  split
  · next s1 _ _ =>
    dsimp only
    split
    · exact hm
    · split
      · next t2 h2 =>
        split
        · rw [State.MemWf, State.modCore_mem]
          refine hi _ (foldl_wf _ (fun t ps ht => ?_) _ _ hm) _ _ h2
          split
          · next t3 h3 => exact hi _ (by simpa using ht) _ _ h3
          · simpa using ht
        · exact hm
      · exact hm
  · exact hm

theorem State.put_wf (s : State) (n q len r) (hm : s.MemWf) : (s.put n q len r).MemWf := by
  unfold State.put
  grind [State.modCore_mem, State.issueHead_wf]

theorem State.handlerWord_wf (s : State) (n k len u) (hm : s.MemWf) : (s.handlerWord n k len u).MemWf :=
  handlerWord_keeps State.MemWf s n k len u (fun _ _ hu => hu) (fun _ _ hu => takeTrap_wf _ _ _ hu) (fun _ _ hv => (execUop_wf _ _ _ hm).left hv) hm

theorem routeWord_wf (q t g j len rv) (cap : Bool → State → Except Trap (State × Uop)) (s : State) (h : s.MemWf)
    (hc : ∀ on u x, cap on s = .ok (u, x) → u.MemWf) : (routeWord q t g j len rv cap s).MemWf :=
  routeWord_keeps State.MemWf s q t g j len rv cap (fun _ _ hu => hu) (fun _ _ hu => takeTrap_wf _ _ _ hu)
    (fun on u x e => ⟨fun _ => State.handlerWord_wf _ _ _ _ _ (hc on u x e), fun _ => State.put_wf _ _ _ _ _ (hc on u x e)⟩) h

end Sys2Proof.Machine
end

section
/-! SUPPORT for O58. What the functions of Machine/Operands.lean do to memory. -/

namespace Sys2Proof.Machine

theorem xWord_wf (t j u) (s : State) (hm : s.MemWf) : (xWord t j u s).MemWf := by
  unfold xWord
  grind [routeWord_wf]

theorem gWord_wf (q t g j u) (s : State) (hm : s.MemWf) : (gWord q t g j u s).MemWf := by
  unfold gWord
  grind [routeWord_wf]

theorem iWord_wf (q x t j u) (s : State) (hm : s.MemWf) : (iWord q x t j u s).MemWf := by
  unfold iWord
  grind [routeWord_wf]

theorem sWord_wf (q t c j readsV u) (s : State) (hm : s.MemWf) : (sWord q t c j readsV u s).MemWf := by
  unfold sWord
  refine routeWord_wf _ _ _ _ _ _ _ _ hm (fun _ u x hx => ?_)
  generalize (if s.focusStrand = .main then _ else _ : Except Trap Cap) = y at hx
  cases y with
  | error => cases hx
  | ok k => cases hx; exact hm

theorem alu2_wf (t g d a b f) (s : State) (hm : s.MemWf) : (alu2 t g d a b f s).MemWf := by
  unfold alu2
  grind [cWord_wf, onCore_wf]

theorem alu1_wf (t g d a f) (s : State) (hm : s.MemWf) : (alu1 t g d a f s).MemWf := by
  unfold alu1
  grind [cWord_wf, onCore_wf]

theorem aluI_wf (x t d a lim f) (s : State) (hm : s.MemWf) : (aluI x t d a lim f s).MemWf := by
  unfold aluI
  grind [cWord_wf, onCore_wf]

theorem cmp2_wf (t g d a b f) (s : State) (hm : s.MemWf) : (cmp2 t g d a b f s).MemWf := by
  unfold cmp2
  grind [cWord_wf, onCore_wf]

theorem plog_wf (t g d a b f) (s : State) (hm : s.MemWf) : (plog t g d a b f s).MemWf := by
  unfold plog
  grind [cWord_wf, onCore_wf]

end Sys2Proof.Machine
end

section
/-! SUPPORT for O58. What the functions of Machine/Sync.lean do to memory. -/

namespace Sys2Proof.Machine

theorem State.cRelease_mem (s : State) (n st cap) {u : State} (hu : s.cRelease n st cap = .ok u) : u.mem = s.mem := by
  unfold State.cRelease at hu
  grind [State.releaseNow_mem]

theorem fenceWord_wf (rel acq t i) (s : State) (hm : s.MemWf) : (fenceWord rel acq t i s).MemWf := by
  unfold fenceWord
  refine cWord_wf _ _ _ _ _ _ hm ?_
  grind [State.cRelease_mem, Res.MemWf, State.modCore_mem]

theorem State.meetUe_wf (s : State) (n pa) (hm : s.MemWf) : (s.meetUe n pa).MemWf := by
  unfold State.meetUe
  grind [State.meetAt_wf]

theorem State.holdWaited_wf (s : State) (n st) (hm : s.MemWf) : (s.holdWaited n st).MemWf := by
  unfold State.holdWaited
  grind [State.holdBarrier_wf]

theorem execBarWait_wf (t c d a b) (s : State) (hm : s.MemWf) : (execBarWait t c d a b s).MemWf := by
  refine State.holdWaited_wf _ _ _ (cWord_wf _ _ _ _ _ _ hm ?_)
  extract_lets n st co p addr lim
  split
  · trivial
  split
  · trivial
  next pc _ =>
    split
    · exact State.meetUe_wf _ _ _ hm
    extract_lets o s1
    split
    · trivial
    split
    · trivial
    · exact State.MemWf.of_mem (State.holdBarrier_wf _ _ _ hm) (by rw [State.observe_mem, State.modCore_mem])

theorem execBlaze_wf (t q a b) (s : State) (hm : s.MemWf) : (execBlaze t q a b s).MemWf := cWord_wf _ _ _ _ _ _ hm (onCore_wf _ _ hm)

@[simp] theorem State.takeHandlers_mem (s : State) (n m) : (s.takeHandlers n m).mem = s.mem := rfl

theorem execJoin_wf (t) (s : State) (hm : s.MemWf) : (execJoin t s).MemWf := by
  refine cWord_wf _ _ _ _ _ _ hm ?_
  extract_lets n k
  split
  · trivial
  refine onCore_wf _ _ ?_
  split
  · exact hm.of_mem (State.takeHandlers_mem _ _ _)
  · exact hm

theorem execTlwait_wf (t k a b) (s : State) (hm : s.MemWf) : (execTlwait t k a b s).MemWf := by
  refine cWord_wf _ _ _ _ _ _ hm ?_
  extract_lets c i v
  split
  · trivial
  · exact onCore_wf _ _ (State.MemWf.ite (hm.of_mem (State.takeHandlers_mem _ _ _)) hm)

theorem execTlrd_wf (t d k) (s : State) (hm : s.MemWf) : (execTlrd t d k s).MemWf := cWord_wf _ _ _ _ _ _ hm (onCore_wf _ _ hm)

@[simp] theorem State.modRegion_mem (s : State) (r f) : (s.modRegion r f).mem = s.mem := rfl

theorem execScopeLd_wf (t g d a) (s : State) (hm : s.MemWf) : (execScopeLd t g d a s).MemWf := by
  refine cWord_wf _ _ _ _ _ _ hm ?_
  extract_lets n st c i addr
  split
  · trivial
  split
  · trivial
  split
  · trivial
  next ps _ =>
    split
    · exact State.meetUe_wf _ _ _ hm
    have h1 := State.bindPieces_mem s n none ps
    generalize s.bindPieces n none ps = y at h1 ⊢
    dsimp only
    split
    · trivial
    split
    · trivial
    · exact hm.of_mem (by rw [State.modRegion_mem, State.observe_mem, h1])

theorem execCinv_wf (t g) (s : State) (hm : s.MemWf) : (execCinv t g s).MemWf := by
  refine cWord_wf _ _ _ _ _ _ hm ?_
  extract_lets n st c k
  split
  · trivial
  · exact onCore_wf _ _ hm

theorem State.logEnq_wf (s : State) (n q cause pkt) (hm : s.MemWf) : (s.logEnq n q cause pkt).MemWf := by
  unfold State.logEnq
  grind [State.log_wf]

@[simp] theorem State.enqDone_mem (s : State) (st d ok) : (s.enqDone st d ok).mem = s.mem := rfl

theorem execEnq_wf (t g d a b) (s : State) (hm : s.MemWf) : (execEnq t g d a b s).MemWf := by
  refine cWord_wf _ _ _ _ _ _ hm ?_
  extract_lets n st c q pkt
  split
  · split
    · exact hm
    split
    · exact hm
    · exact hm.of_mem (State.enqDone_mem _ _ _ _)
  split
  · trivial
  split
  · trivial
  next s1 hr =>
    have h1 : State.MemWf s1 := hm.of_mem (State.cRelease_mem _ _ _ _ hr)
    split
    · trivial
    split
    · trivial
    extract_lets s2
    have h2 : s2.MemWf := h1.of_mem (State.modCore_mem _ _ _)
    split
    · exact (State.logEnq_wf _ _ _ _ _ h2).of_mem (State.enqDone_mem _ _ _ _)
    · exact h2.of_mem (State.modCore_mem _ _ _)

end Sys2Proof.Machine
end

section
/-! SUPPORT for O58. What the functions of Machine/DevOps.lean do to memory. -/

namespace Sys2Proof.Machine

@[simp] theorem State.acquireAt_mem (s : State) (key r idx pa len) : (s.acquireAt key r idx pa len).mem = s.mem := rfl

theorem State.logAccess_wf (s : State) (master kind pa target) (hm : s.MemWf) : (s.logAccess master kind pa target).MemWf := by
  unfold State.logAccess
  grind [State.log_wf, State.note_mem]

theorem State.faultNotice_wf (s : State) (r trap cause stepid) (hm : s.MemWf) : (s.faultNotice r trap cause stepid).MemWf := by
  unfold State.faultNotice
  grind [State.msix_mem, State.log_wf]

@[simp] theorem State.modStream_mem (s : State) (n f) : (s.modStream n f).mem = s.mem := rfl

@[simp] theorem State.modParser_mem (s : State) (p f) : (s.modParser p f).mem = s.mem := by
  unfold State.modParser
  grind [State.modStream_mem]

theorem State.devPut_wf (s : State) (key ps b) (hm : s.MemWf) : (s.devPut key ps b).MemWf := by
  induction ps generalizing s b with
  | nil => exact hm
  | cons p t ih => exact ih _ _ (State.performScoped_wf _ _ _ _ hm)

@[simp] theorem State.partsOut_mem (s : State) (r write ps) : (s.partsOut r write ps).mem = s.mem := by
  unfold State.partsOut
  exact foldl_mem _ (fun s p => by simp) _ _

@[simp] theorem State.devAsked_mem (s : State) (m r va len) : (s.devAsked m r va len).mem = s.mem := by
  unfold State.devAsked
  grind [State.partsOut_mem]

theorem State.devWrite_wf (s : State) (m key r va b) (hm : s.MemWf) {u : State} (hu : s.devWrite m key r va b = .ok u) : u.MemWf := by
  unfold State.devWrite at hu
  grind [State.partsOut_mem, State.devPut_wf]

theorem State.logPoison_wf (s : State) (region pa) (hm : s.MemWf) : (s.logPoison region pa).MemWf := by
  unfold State.logPoison
  grind [State.logDemand_wf]

theorem State.noteStop_wf (s : State) (m z) (hm : s.MemWf) : (s.noteStop m z).MemWf := by
  unfold State.noteStop
  grind [State.logAccess_wf]

@[simp] theorem State.missIn_mem (s : State) (r va w) : (s.missIn r va w).mem = s.mem := by
  unfold State.missIn
  grind [State.requestPageIn_mem]

theorem State.signal_wf (s : State) (r idx va v more) (hm : s.MemWf) {u : State} (hu : s.signal r idx va v more = .ok u) : u.MemWf := by
  unfold State.signal at hu
  grind [State.carryRels_mem, State.performScoped_wf, State.partsOut_mem]

end Sys2Proof.Machine
end

section
/-! SUPPORT for O58. What the functions of Machine/StreamOps.lean do to memory. -/

namespace Sys2Proof.Machine

@[simp] theorem State.mapWorks_mem (s : State) (f) : (s.mapWorks f).mem = s.mem := rfl

theorem State.tryWrite_wf (s : State) (m key r va b) (hm : s.MemWf) : (s.tryWrite m key r va b).MemWf := by
  unfold State.tryWrite
  grind [State.devWrite_wf, State.noteStop_wf]

theorem State.devWriteRel_wf (s : State) (m key r va b idx) (hm : s.MemWf) {u : State} (hu : s.devWriteRel m key r va b idx = .ok u) : u.MemWf := by
  unfold State.devWriteRel at hu
  split at hu
  · cases hu
  · cases hu
    rw [State.MemWf, State.partsOut_mem]
    exact foldl_wf _ (fun s p hs => by simpa using hs) _ _ (State.devPut_wf _ _ _ _ hm)

theorem State.writeScb_wf (s : State) (n) (hm : s.MemWf) {u : State} (hu : s.writeScb n = .ok u) : u.MemWf := by
  unfold State.writeScb at hu
  grind [State.carryRels_mem, State.performScoped_wf, State.partsOut_mem]

theorem State.putStatus_wf (s : State) (m key n slot w) (hm : s.MemWf) {u : State} (hu : s.putStatus m key n slot w = .ok u) : u.MemWf := by
  unfold State.putStatus at hu
  grind [State.devWriteRel_wf, State.modStream_mem]

theorem State.leaveSlot_wf (s : State) (m n f w) (hm : s.MemWf) : (s.leaveSlot m n f w).MemWf := by
  unfold State.leaveSlot
  split
  · exact hm
  split
  · exact hm
  split
  · exact hm
  extract_lets gone w'
  have hg (t : State) (ht : t.MemWf) : (gone t).MemWf := ht.of_mem (State.modStream_mem _ _ _)
  split
  · next s1 h1 => exact hg _ (State.putStatus_wf _ _ _ _ _ _ hm h1)
  · exact hm.of_mem (by rw [State.missIn_mem, State.modStream_mem])
  · exact hg _ (State.noteStop_wf _ _ _ hm)

theorem State.skipSlot_wf (s : State) (n j late) (hm : s.MemWf) : (s.skipSlot n j late).MemWf := by
  unfold State.skipSlot
  grind [State.leaveSlot_wf]

@[simp] theorem State.dropTiles_mem (s : State) (n f) : (s.dropTiles n f).mem = s.mem := rfl

@[simp] theorem State.stopOps_mem (s : State) (ops) : (s.stopOps ops).mem = s.mem := rfl

@[simp] theorem State.dropWaits_mem (s : State) (p) : (s.dropWaits p).mem = s.mem := rfl

@[simp] theorem State.dropParse_mem (s : State) (n f) : (s.dropParse n f).mem = s.mem := by
  unfold State.dropParse
  grind [State.dropWaits_mem, State.modStream_mem]

@[simp] theorem State.cancelFrame_mem (s : State) (n f) : (s.cancelFrame n f).mem = s.mem := by
  unfold State.cancelFrame
  grind [State.dropParse_mem, State.modStream_mem, State.stopOps_mem]

theorem State.stoppedNow_wf (s : State) (n out) (hm : s.MemWf) : (s.stoppedNow n out).MemWf := by
  unfold State.stoppedNow
  grind [State.modStream_mem, State.mapWorks_mem, State.writeScb_wf, State.missIn_mem, State.noteStop_wf]

theorem State.checkStopped_wf (s : State) (n) (hm : s.MemWf) : (s.checkStopped n).MemWf := by
  unfold State.checkStopped
  grind [State.stoppedNow_wf]

theorem State.payScb_wf (s : State) (n) (hm : s.MemWf) : (s.payScb n).MemWf := by
  have hf (x : Stream) (t : State) (ht : t.MemWf) : ((List.range x.owedFin).foldl (fun t _ => t.msix x.func x.vec) t).MemWf :=
    foldl_wf _ (fun s _ hs => by simpa using hs) _ _ ht
  unfold State.payScb
  grind [State.modStream_mem, State.writeScb_wf, State.missIn_mem, State.noteStop_wf]

theorem State.finishJob_wf (s : State) (n f) (hm : s.MemWf) : (s.finishJob n f).MemWf := by
  unfold State.finishJob
  grind [State.modStream_mem, State.checkStopped_wf, State.payScb_wf]

theorem State.settleStream_wf (s : State) (n) (hm : s.MemWf) : (s.settleStream n).MemWf := by
  unfold State.settleStream
  split
  · exact hm
  · refine State.checkStopped_wf _ _ (State.payScb_wf _ _ (foldl_wf _ (fun s f hs => State.finishJob_wf _ _ _ hs) _ _ ?_))
    rw [State.MemWf, State.modStream_mem]
    exact foldl_wf _ (fun s j hs => by grind [State.leaveSlot_wf]) _ _ hm

theorem State.forgiveStream_wf (s : State) (n) (hm : s.MemWf) : (s.forgiveStream n).MemWf := by
  have hf (x : Stream) (t : State) (ht : t.MemWf) : ((List.range x.owedFin).foldl (fun t _ => t.msix x.func x.vec) t).MemWf :=
    foldl_wf _ (fun s _ hs => by simpa using hs) _ _ ht
  unfold State.forgiveStream
  grind [State.modStream_mem, State.stoppedNow_wf, State.settleStream_wf]

theorem State.stopStream_wf (s : State) (n cause) (hm : s.MemWf) : (s.stopStream n cause).MemWf := by
  unfold State.stopStream
  grind [State.checkStopped_wf, State.modStream_mem]

theorem State.endJob_wf (s : State) (n f cause notice) (hm : s.MemWf) : (s.endJob n f cause notice).MemWf := by
  unfold State.endJob
  grind [State.dropTiles_mem, State.skipSlot_wf, State.modStream_mem, State.dropParse_mem, State.faultNotice_wf, State.settleStream_wf, State.stopStream_wf]

end Sys2Proof.Machine
end

section
/-! SUPPORT for O58. What the functions of Machine/Parse.lean do to memory. -/

namespace Sys2Proof.Machine

@[simp] theorem State.freeSlot_mem (s : State) (k q) : (s.freeSlot k q).mem = s.mem := rfl

theorem State.saveSlot_wf (s : State) (k) (hm : s.MemWf) : (s.saveSlot k).MemWf := by
  unfold State.saveSlot
  grind [State.modQd_wf, State.freeSlot_mem]

theorem State.logFrontEnd_wf (s : State) (queue region f) (hm : s.MemWf) : (s.logFrontEnd queue region f).MemWf := by
  unfold State.logFrontEnd
  grind [State.log_wf]

theorem State.faultQueue_wf (s : State) (q f) (hm : s.MemWf) : (s.faultQueue q f).MemWf := by
  unfold State.faultQueue
  grind [State.logFrontEnd_wf, State.saveSlot_wf, State.freeSlot_mem, State.modQd_wf, State.msix_mem]

theorem State.faultParser_wf (s : State) (p f frame notice) (hm : s.MemWf) : (s.faultParser p f frame notice).MemWf := by
  unfold State.faultParser
  grind [State.faultQueue_wf, State.logFrontEnd_wf, State.endJob_wf]

theorem State.refuse_wf (s : State) (p cause) (hm : s.MemWf) : (s.refuse p cause).MemWf := by
  unfold State.refuse
  grind [State.faultParser_wf]

theorem State.refuseBody_wf (s : State) (p i l cause at') (hm : s.MemWf) : (s.refuseBody p i l cause at').MemWf := by
  unfold State.refuseBody
  grind [State.faultParser_wf]

theorem State.stopParse_wf (s : State) (p e) (hm : s.MemWf) : (s.stopParse p e).MemWf := by
  unfold State.stopParse
  grind [State.missIn_mem, State.refuse_wf, State.noteStop_wf]

theorem State.syncRptr_wf (s : State) (p) (hm : s.MemWf) : (s.syncRptr p).MemWf := by
  unfold State.syncRptr
  grind [State.modQd_wf, State.modParser_mem, State.modStream_mem]

theorem State.settleParser_wf (s : State) (p) (hm : s.MemWf) : (s.settleParser p).MemWf := by
  unfold State.settleParser
  grind [State.syncRptr_wf, State.modParser_mem]

theorem State.advance_wf (s : State) (p) (hm : s.MemWf) : (s.advance p).MemWf := by
  unfold State.advance
  grind [State.settleParser_wf, State.modParser_mem]

theorem State.parseAs_wf (s : State) (p ty sel) (eff : Nat → Level → BitVec 512 → State → State) (h : s.MemWf) (he : ∀ i l k, (eff i l k s).MemWf) :
    (s.parseAs p ty sel eff).MemWf := by
  unfold State.parseAs
  grind [State.refuse_wf]

theorem State.completeAtParse_wf (s : State) (p k) (hm : s.MemWf) : (s.completeAtParse p k).MemWf := by
  unfold State.completeAtParse
  grind [State.msix_mem, State.advance_wf]

@[simp] theorem State.startAcquire_mem (s : State) (p k) : (s.startAcquire p k).mem = s.mem := by
  unfold State.startAcquire
  grind

@[simp] theorem State.enlist_mem (s : State) (p k exec) : (s.enlist p k exec).mem = s.mem := by
  unfold State.enlist
  grind [State.startAcquire_mem, State.modParser_mem]

@[simp] theorem State.addWork_mem (s : State) (p k exec) : (s.addWork p k exec).mem = s.mem := by
  unfold State.addWork
  grind [State.modParser_mem, State.enlist_mem]

theorem State.dispatchTo_wf (s : State) (p k exec) (hm : s.MemWf) : (s.dispatchTo p k exec).MemWf := by
  unfold State.dispatchTo
  grind [State.advance_wf, State.addWork_mem]

theorem State.readBlock_wf (s : State) (p va n) (hm : s.MemWf) {u : State} (hu : s.readBlock p va n = .error u) : u.MemWf := by
  unfold State.readBlock at hu
  grind [State.stopParse_wf, State.logPoison_wf]

end Sys2Proof.Machine
end

section
/-! SUPPORT for O58. What the functions of Machine/Packets.lean do to memory. -/

namespace Sys2Proof.Machine

@[simp] theorem State.packetAsked_mem (s : State) (p ps) : (s.packetAsked p ps).mem = s.mem := by
  unfold State.packetAsked
  exact foldl_mem _ (fun s x => by simp) _ _

@[simp] theorem State.fetchGranule_mem (s : State) (p level g) : (s.fetchGranule p level g).mem = s.mem := by
  unfold State.fetchGranule
  grind [State.modParser_mem, State.packetAsked_mem]

@[simp] theorem State.parseIrq_mem (s : State) (p k) : (s.parseIrq p k).mem = s.mem := by
  unfold State.parseIrq
  grind [State.msix_mem]

theorem State.gotPacket_wf (s : State) (p level l k) (hm : s.MemWf) : (s.gotPacket p level l k).MemWf := by
  unfold State.gotPacket
  grind [State.modParser_mem, State.refuseBody_wf, State.settleParser_wf, State.parseIrq_mem]

theorem execPacketFetch_wf (p level) (s : State) (hm : s.MemWf) : (execPacketFetch p level s).MemWf := by
  unfold execPacketFetch
  rw [Out.MemWf]
  split
  · exact hm
  split
  · exact hm
  split
  · exact hm
  split
  · exact State.stopParse_wf _ _ _ hm
  split
  · exact State.refuse_wf _ _ _ (State.logPoison_wf _ _ _ hm)
  · exact State.gotPacket_wf _ _ _ _ _ (hm.of_mem (State.packetAsked_mem _ _ _))

theorem execNop_wf (p) (s : State) (hm : s.MemWf) : (execNop p s).MemWf := by
  unfold execNop
  grind [State.parseAs_wf, State.completeAtParse_wf, Out.MemWf]

theorem execIb_wf (p) (s : State) (hm : s.MemWf) : (execIb p s).MemWf := by
  unfold execIb
  grind [State.parseAs_wf, State.settleParser_wf, State.modParser_mem, State.parseIrq_mem, Out.MemWf]

theorem execPred_wf (p) (s : State) (hm : s.MemWf) : (execPred p s).MemWf := by
  unfold execPred
  grind [State.parseAs_wf, State.readBlock_wf, State.acquireAt_mem, State.partsOut_mem, State.settleParser_wf, State.modParser_mem, State.parseIrq_mem,
    Out.MemWf]

theorem execLoopPacket_wf (p) (s : State) (hm : s.MemWf) : (execLoopPacket p s).MemWf := by
  unfold execLoopPacket
  grind [State.parseAs_wf, State.settleParser_wf, State.modParser_mem, Out.MemWf]

@[simp] theorem State.acquireAll_mem (s : State) (p) : (s.acquireAll p).mem = s.mem := by
  unfold State.acquireAll
  grind

theorem execFfence_wf (p) (s : State) (hm : s.MemWf) : (execFfence p s).MemWf := by
  unfold execFfence
  grind [State.parseAs_wf, State.modParser_mem, State.completeAtParse_wf, State.acquireAll_mem, Out.MemWf]

theorem State.tlDone_wf (s : State) (p pa k) (hm : s.MemWf) : (s.tlDone p pa k).MemWf := by
  unfold State.tlDone
  grind [State.completeAtParse_wf, State.modParser_mem, State.acquireAt_mem]

theorem execTlwaitPacket_wf (p) (s : State) (hm : s.MemWf) : (execTlwaitPacket p s).MemWf := by
  unfold execTlwaitPacket
  grind [State.parseAs_wf, State.stopParse_wf, State.refuse_wf, State.tlDone_wf, State.modParser_mem, Out.MemWf]

theorem execTlwaitSatisfied_wf (p) (s : State) (hm : s.MemWf) : (execTlwaitSatisfied p s).MemWf := by
  unfold execTlwaitSatisfied
  grind [State.stopParse_wf, State.refuse_wf, State.tlDone_wf, Out.MemWf]

theorem execTlwaitExpired_wf (p) (s : State) (hm : s.MemWf) : (execTlwaitExpired p s).MemWf := by
  unfold execTlwaitExpired
  grind [State.refuse_wf, Out.MemWf]

theorem State.performWork_wf (s : State) (p k) (r : State → Except FeStop State) (h : s.MemWf) (hr : ∀ t, r (s.startAcquire p k) = .ok t → t.MemWf) :
    (s.performWork p k r).MemWf := by
  unfold State.performWork
  grind [State.dispatchTo_wf, State.stopParse_wf]

theorem execTlsig_wf (p) (s : State) (hm : s.MemWf) : (execTlsig p s).MemWf :=
  State.parseAs_wf _ _ _ _ _ hm (fun _ _ _ => State.performWork_wf _ _ _ _ hm (fun _ ht => State.signal_wf _ _ _ _ _ _ (by simpa using hm) ht))

theorem execWrite_wf (p) (s : State) (hm : s.MemWf) : (execWrite p s).MemWf :=
  State.parseAs_wf _ _ _ _ _ hm (fun _ _ _ => State.performWork_wf _ _ _ _ hm (fun _ ht => State.devWrite_wf _ _ _ _ _ _ (by simpa using hm) ht))

theorem execMark_wf (p) (s : State) (hm : s.MemWf) : (execMark p s).MemWf :=
  State.parseAs_wf _ _ _ _ _ hm (fun _ _ _ => State.performWork_wf _ _ _ _ hm (fun _ ht => State.devWrite_wf _ _ _ _ _ _ (by simpa using hm) ht))

theorem execCopy_wf (p) (s : State) (hm : s.MemWf) : (execCopy p s).MemWf := by
  unfold execCopy
  grind [State.parseAs_wf, State.dispatchTo_wf, Out.MemWf]

@[simp] theorem State.offer_mem (s : State) (p k) : (s.offer p k).mem = s.mem := by
  unfold State.offer
  grind [State.modParser_mem, State.enlist_mem]

theorem execLaunch_wf (p) (s : State) (hm : s.MemWf) : (execLaunch p s).MemWf := by
  unfold execLaunch
  grind [State.parseAs_wf, State.offer_mem, Out.MemWf]

theorem execBundle_wf (p) (s : State) (hm : s.MemWf) : (execBundle p s).MemWf := by
  unfold execBundle
  grind [State.parseAs_wf, State.offer_mem, Out.MemWf]

end Sys2Proof.Machine
end

section
/-! SUPPORT for O58. What the functions of Machine/Mapping.lean do to memory. -/

namespace Sys2Proof.Machine

@[simp] theorem State.noteRunnable_mem (s : State) (q) : (s.noteRunnable q).mem = s.mem := rfl

theorem State.logQueue_wf (s : State) (q cause) (hm : s.MemWf) : (s.logQueue q cause).MemWf := by
  unfold State.logQueue
  grind [State.logFrontEnd_wf]

theorem State.rereadWptr_wf (s : State) (k q) (hm : s.MemWf) : (s.rereadWptr k q).MemWf := by
  unfold State.rereadWptr
  extract_lets w r
  split
  · exact State.faultQueue_wf _ _ _ hm
  · exact State.settleParser_wf _ _ (hm.of_mem (by rw [State.modParser_mem, State.acquireAt_mem]))

theorem State.mapSlot_wf (s : State) (k q) (hm : s.MemWf) : (s.mapSlot k q).MemWf := by
  unfold State.mapSlot
  grind [State.logQueue_wf, State.modQd_wf, State.rereadWptr_wf]

theorem execSlotMap_wf (slot q) (s : State) (hm : s.MemWf) : (execSlotMap slot q s).MemWf := by
  unfold execSlotMap
  grind [onlyIf_wf, State.mapSlot_wf, Out.MemWf]

theorem State.pwakeSwap_wf (s : State) (q) (hm : s.MemWf) : (s.pwakeSwap q).MemWf := by
  unfold State.pwakeSwap
  grind [State.modQd_wf, State.noteRunnable_mem]

theorem State.unmapSlot_wf (s : State) (k) (hm : s.MemWf) : (s.unmapSlot k).MemWf := by
  unfold State.unmapSlot
  grind [State.logQueue_wf, State.modParser_mem, State.modQd_wf]

theorem execSlotUnmap_wf (slot) (s : State) (hm : s.MemWf) : (execSlotUnmap slot s).MemWf := by
  unfold execSlotUnmap
  grind [State.unmapSlot_wf, Out.MemWf]

theorem execUnmapSaveComplete_wf (slot) (s : State) (hm : s.MemWf) : (execUnmapSaveComplete slot s).MemWf := by
  unfold execUnmapSaveComplete
  grind [State.noteRunnable_mem, State.saveSlot_wf, Out.MemWf]

theorem State.pendWake_wf (s : State) (q) (hm : s.MemWf) : (s.pendWake q).MemWf := by
  unfold State.pendWake
  grind [State.noteRunnable_mem, State.note_mem, State.modQd_wf]

theorem State.wakeNow_wf (s : State) (q) (hm : s.MemWf) : (s.wakeNow q).MemWf := by
  unfold State.wakeNow
  grind [State.logQueue_wf, State.rereadWptr_wf, State.pendWake_wf]

theorem State.latchWake_wf (s : State) (q) (hm : s.MemWf) : (s.latchWake q).MemWf := by
  unfold State.latchWake
  grind [State.logQueue_wf]

theorem State.wake_wf (s : State) (q) (hm : s.MemWf) : (s.wake q).MemWf := by
  unfold State.wake
  grind [State.latchWake_wf, State.wakeNow_wf]

theorem execQueueWake_wf (q) (s : State) (hm : s.MemWf) : (execQueueWake q s).MemWf := by
  unfold execQueueWake
  grind [State.wake_wf, Out.MemWf]

theorem execFrontEndClockGate_wf (s : State) (hm : s.MemWf) : (execFrontEndClockGate s).MemWf := by
  unfold execFrontEndClockGate
  grind [onlyIf_wf, Out.MemWf]

theorem State.drainLatch_wf (s : State) (hm : s.MemWf) : s.drainLatch.MemWf := by
  unfold State.drainLatch
  dsimp only
  have h3 := foldl_wf State.pendWake (fun s q hs => State.pendWake_wf s q hs) s.fe.latchFifo _
    (foldl_wf (fun (s' : State) (k : Fin 128) => if fld s.fe.latchBits k.val 1 = 1 then
      (match s'.fe.parsers[k].queue with | some q => s'.wakeNow q | none => s') else s')
      (fun s k hs => by grind [State.wakeNow_wf]) (List.finRange 128)
      { s with fe := { s.fe with gated := false, latchBits := 0, latchFifo := [], latchOverflow := false } } hm)
  split
  · exact foldl_wf _ (fun s q hs => by simpa using hs) _ _ h3
  · exact h3

theorem execFrontEndUngate_wf (q) (s : State) (hm : s.MemWf) : (execFrontEndUngate q s).MemWf := by
  unfold execFrontEndUngate
  grind [onlyIf_wf, State.drainLatch_wf, State.latchWake_wf, Out.MemWf]

theorem execWaitRecordEval_wf (q) (s : State) (hm : s.MemWf) : (execWaitRecordEval q s).MemWf := by
  unfold execWaitRecordEval
  grind [State.noteRunnable_mem, State.acquireAt_mem, Out.MemWf]

theorem State.devqAccept_wf (s : State) (n q pkt) (hm : s.MemWf) : (s.devqAccept n q pkt).MemWf := by
  unfold State.devqAccept
  grind [State.performScoped_wf, State.wake_wf, State.modQd_wf]

@[simp] theorem State.answerEnq_mem (s : State) (n ok) : (s.answerEnq n ok).mem = s.mem := rfl

theorem execDevqDispatch_wf (c) (s : State) (hm : s.MemWf) : (execDevqDispatch c s).MemWf := by
  unfold execDevqDispatch
  dsimp only [Out.MemWf]
  split
  · split
    · simpa using State.logEnq_wf _ _ _ _ _ hm
    · split
      · simpa using hm
      · simpa using State.devqAccept_wf _ _ _ _ hm
  · exact hm

end Sys2Proof.Machine
end

section
/-! SUPPORT for O58. What the functions of Machine/SchedOps.lean do to memory. -/

namespace Sys2Proof.Machine

@[simp] theorem State.dropStep_mem (s : State) (id) : (s.dropStep id).mem = s.mem := rfl

theorem State.fwWrite_wf (s : State) (pa b) (hm : s.MemWf) : (s.fwWrite pa b).MemWf := by
  unfold State.fwWrite
  grind [State.logAccess_wf, State.writeBytes_wf]

theorem State.putComposite_wf (s : State) (r) (hm : s.MemWf) : (s.putComposite r).MemWf := by
  unfold State.putComposite
  grind [State.fwWrite_wf]

@[simp] theorem State.beginSave_mem (s : State) (n) : (s.beginSave n).mem = s.mem := rfl

@[simp] theorem State.settleQuiesce_mem (s : State) : s.settleQuiesce.mem = s.mem := by
  unfold State.settleQuiesce
  exact foldl_mem _ (fun s r => by grind [State.modRegion_mem]) _ _

@[simp] theorem State.dropSamples_mem (s : State) (r) : (s.dropSamples r).mem = s.mem := rfl

@[simp] theorem State.quiesce_mem (s : State) (r) : (s.quiesce r).mem = s.mem := rfl

@[simp] theorem State.openCores_mem (s : State) (mask) : (s.openCores mask).mem = s.mem := by
  unfold State.openCores
  exact foldl_mem _ (fun s r => by grind [State.setWindows_mem]) _ _

@[simp] theorem State.closeCores_mem (s : State) : s.closeCores.mem = s.mem := by
  unfold State.closeCores
  exact foldl_mem _ (fun s n => by grind [State.setWindows_mem]) _ _

@[simp] theorem State.makeRegion_mem (s : State) (r parent func b addr ctx) : (s.makeRegion r parent func b addr ctx).mem = s.mem := by
  unfold State.makeRegion
  grind [State.setRegion_mem, State.openCores_mem, State.modRegion_mem]

@[simp] theorem State.makeRoot_mem (s : State) (f) : (s.makeRoot f).mem = s.mem := by
  unfold State.makeRoot
  grind [State.makeRegion_mem]

theorem State.storeFlumes_wf (s : State) (r) (hm : s.MemWf) : (s.storeFlumes r).MemWf := by
  unfold State.storeFlumes
  exact foldl_wf _ (fun s f hs => by grind [State.writeBytes_wf]) _ _ hm

theorem State.removeRegion_wf (s : State) (r) (hm : s.MemWf) : (s.removeRegion r).MemWf := by
  unfold State.removeRegion
  grind [State.mapWorks_mem, State.setRegion_mem, State.storeFlumes_wf, State.closeCores_mem]

theorem State.settleDestroy_wf (k) (s : State) (hm : s.MemWf) : (State.settleDestroy k s).MemWf := by
  induction k generalizing s with
  | zero => exact hm
  | succ k ih =>
    unfold State.settleDestroy
    split
    · exact ih _ (State.removeRegion_wf _ _ hm)
    · exact hm

@[simp] theorem State.settleResets_mem (s : State) : s.settleResets.mem = s.mem := by
  unfold State.settleResets
  exact foldl_mem _ (fun s f => by grind [State.setWindows_mem, State.makeRoot_mem]) _ _

theorem State.sweep_wf (s : State) (hm : s.MemWf) : s.sweep.MemWf := by
  unfold State.sweep
  grind [State.settleQuiesce_mem, State.settleResets_mem, State.settleDestroy_wf]

@[simp] theorem State.failOp_mem (s : State) (q) : (s.failOp q).mem = s.mem := by
  unfold State.failOp
  grind [State.stopOps_mem, State.mapWorks_mem]

theorem State.freeCore_wf (s : State) (n) (hm : s.MemWf) : (s.freeCore n).MemWf := by
  unfold State.freeCore
  grind [State.modCore_mem, State.performAll_wf]

theorem State.zeroCore_wf (s : State) (n) (hm : s.MemWf) : (s.zeroCore n).MemWf := by
  unfold State.zeroCore
  grind [State.modCore_mem, State.zeroScratch_wf, State.freeCore_wf]

@[simp] theorem State.applyPolicy_mem (s : State) (r) : (s.applyPolicy r).mem = s.mem := by
  unfold State.applyPolicy
  split
  · rfl
  · exact State.quiesce_mem _ _
  · exact (foldl_mem _ (fun s x => by grind [State.quiesce_mem]) _ _).trans (State.quiesce_mem _ _)

theorem State.faultStep_wf (s : State) (id cause) (hm : s.MemWf) : (s.faultStep id cause).MemWf := by
  unfold State.faultStep
  grind [State.modRegion_mem, State.dropStep_mem, State.sweep_wf, State.applyPolicy_mem, State.failOp_mem, State.faultNotice_wf]

theorem State.endUnresolved_wf (s : State) (n cause) (hm : s.MemWf) : (s.endUnresolved n cause).MemWf := by
  unfold State.endUnresolved
  grind [State.zeroCore_wf, State.faultStep_wf, State.stampRecord_mem]

@[simp] theorem State.discardStep_mem (s : State) (t) : (s.discardStep t).mem = s.mem := by
  unfold State.discardStep
  grind [State.dropStep_mem, State.failOp_mem]

@[simp] theorem State.restartStep_mem (s : State) (n avoid) : (s.restartStep n avoid).mem = s.mem := by
  unfold State.restartStep
  grind [State.discardStep_mem, State.stampRecord_mem, State.modStep_mem]

theorem State.killRegion_wf (s : State) (r index) (hm : s.MemWf) : (s.killRegion r index).MemWf := by
  unfold State.killRegion
  refine State.sweep_wf _ ?_
  rw [State.MemWf, State.modRegion_mem]
  refine foldl_wf _ (fun s e hs => by grind [State.stopStream_wf]) _ _ ?_
  refine foldl_wf _ (fun s id hs => ?_) _ _ (by simpa using hm)
  grind [State.stampRecord_mem, State.modCore_mem, State.zeroCore_wf, State.dropStep_mem, State.modRegion_mem, State.faultNotice_wf, State.failOp_mem]

theorem State.loseRecord_wf (s : State) (id) (hm : s.MemWf) : (s.loseRecord id).MemWf := by
  unfold State.loseRecord
  split
  · exact hm
  next t _ =>
    extract_lets s1
    have h1 : s1.MemWf := by
      refine foldl_wf _ (fun s r hs => ?_) _ _ hm
      exact State.log_wf _ _ hs
    exact State.killRegion_wf _ _ _ (h1)

end Sys2Proof.Machine
end

section
/-! SUPPORT for O58. What the functions of Machine/Regions.lean do to memory. -/

namespace Sys2Proof.Machine

@[simp] theorem State.step6_mem (s : State) : s.step6.mem = s.mem := by
  unfold State.step6
  exact foldl_mem _ (fun s f => by grind [State.makeRoot_mem]) _ _

theorem execMemoryTraining_wf (ok) (s : State) (hm : s.MemWf) : (execMemoryTraining ok s).MemWf := by
  unfold execMemoryTraining
  grind [onlyIf_wf, State.step6_mem, State.modBoard_mem, Out.MemWf]

@[simp] theorem State.openMasters_mem (s : State) : s.openMasters.mem = s.mem := by
  unfold State.openMasters
  exact foldl_mem _ (fun s k => by simp) _ _

theorem execDeviceReady_wf (s : State) (hm : s.MemWf) : (execDeviceReady s).MemWf := by
  unfold execDeviceReady
  grind [onlyIf_wf, State.openMasters_mem, Out.MemWf]

theorem State.unregQueue_wf (s : State) (q) (hm : s.MemWf) : (s.unregQueue q).MemWf := by
  unfold State.unregQueue
  grind [State.freeSlot_mem, State.modQd_wf]

theorem State.destroyStream_wf (s : State) (n) (hm : s.MemWf) : (s.destroyStream n).MemWf := by
  unfold State.destroyStream
  grind [State.checkStopped_wf, State.modStream_mem]

@[simp] theorem State.discardSteps_mem (s : State) (r) : (s.discardSteps r).mem = s.mem :=
  foldl_mem State.failOp (fun s q => State.failOp_mem s q) _ s

@[simp] theorem State.beginDestroy_mem (s : State) (r) : (s.beginDestroy r).mem = s.mem := by
  unfold State.beginDestroy
  grind [State.modRegion_mem, State.dropSamples_mem, State.discardSteps_mem]

theorem State.resetFunction_wf (s : State) (f) (hm : s.MemWf) : (s.resetFunction f).MemWf := by
  unfold State.resetFunction
  extract_lets s1 s2 _ _ _ s3 s4
  have h1 : s1.MemWf := foldl_wf _ (fun s q hs => State.destroyStream_wf _ _ hs) _ _ hm
  have h2 : s2.MemWf := foldl_wf _ (fun s q hs => State.unregQueue_wf _ _ hs) _ _ h1
  have h3 : Memory.wf s3.mem = true := by
    dsimp only [s3]
    exact memWrite_wf _ _ _ h2
  have h4 : s4.MemWf := State.MemWf.of_mem h3 (State.setWindows_mem _ _ _)
  exact State.sweep_wf _ (foldl_wf _ (fun s r hs => hs.of_mem (State.beginDestroy_mem _ _)) _ _ h4)

theorem State.resetPhysical_wf (s : State) (port) (hm : s.MemWf) : (s.resetPhysical port).MemWf := by
  unfold State.resetPhysical
  exact State.resetFunction_wf _ _ (foldl_wf _ (fun s k hs => State.resetFunction_wf _ _ hs) _ _ hm)

theorem execFunctionLevelResetVf_wf (vf) (s : State) (hm : s.MemWf) : (execFunctionLevelResetVf vf s).MemWf := by
  unfold execFunctionLevelResetVf
  grind [onlyIf_wf, State.resetFunction_wf, Out.MemWf]

theorem execFunctionLevelResetPf_wf (pf) (s : State) (hm : s.MemWf) : (execFunctionLevelResetPf pf s).MemWf := by
  unfold execFunctionLevelResetPf
  grind [onlyIf_wf, State.resetPhysical_wf, Out.MemWf]

@[simp] theorem State.clearLatch_mem (s : State) (port) : (s.clearLatch port).mem = s.mem := rfl

theorem execPortReset_wf (port) (s : State) (hm : s.MemWf) : (execPortReset port s).MemWf := by
  unfold execPortReset
  grind [State.clearLatch_mem, State.resetPhysical_wf, State.modBoard_mem, Out.MemWf]

theorem State.parseRegion_wf (s : State) (p op) (eff : BitVec 512 → State → State) (h : s.MemWf) (he : ∀ k, (eff k s).MemWf) :
    (s.parseRegion p op eff).MemWf := by
  refine State.parseAs_wf _ _ _ _ _ h (fun _ _ k => ?_)
  grind

theorem State.readRcb_wf (s : State) (p k) (hm : s.MemWf) {u : State} (hu : s.readRcb p k = .error u) : u.MemWf := by
  unfold State.readRcb at hu
  cases hb : s.readBlock p (fld k 128 64) 256 with
  | ok => rw [hb] at hu; cases hu
  | error t => rw [hb] at hu; cases hu; exact State.readBlock_wf _ _ _ _ hm hb

theorem State.judgeRcb_wf (s : State) (p b ok) (eff : State) (hm : s.MemWf) (he : eff.MemWf) : (s.judgeRcb p b ok eff).MemWf := by
  unfold State.judgeRcb
  grind [State.refuse_wf, State.logAccess_wf]

theorem execRegionCreate_wf (p) (s : State) (hm : s.MemWf) : (execRegionCreate p s).MemWf := by
  unfold execRegionCreate
  grind [State.parseRegion_wf, State.refuse_wf, State.readRcb_wf, State.devAsked_mem, State.judgeRcb_wf, State.devWrite_wf, State.stopParse_wf,
    State.dispatchTo_wf, State.makeRegion_mem, Out.MemWf]

theorem execRegionModify_wf (p) (s : State) (hm : s.MemWf) : (execRegionModify p s).MemWf := by
  unfold execRegionModify
  refine State.parseRegion_wf _ _ _ _ hm (fun k => ?_)
  extract_lets func r x s1 below
  split
  · next t ht => exact State.readRcb_wf _ _ _ hm ht
  extract_lets t ok u
  have h1 : s1.MemWf := hm.of_mem (State.devAsked_mem _ _ _ _ _)
  have ht : t.MemWf := h1.of_mem (State.modRegion_mem _ _ _)
  refine State.judgeRcb_wf _ _ _ _ _ h1 ?_
  split
  · exact h1
  · refine State.dispatchTo_wf _ _ _ _ (ht.of_mem ?_)
    rw [State.closeCores_mem, State.openCores_mem]
    exact foldl_mem _ (fun u y => State.modRegion_mem _ _ _) _ _

theorem execRegionQuiesce_wf (p) (s : State) (hm : s.MemWf) : (execRegionQuiesce p s).MemWf := by
  unfold execRegionQuiesce
  grind [State.parseRegion_wf, State.settleQuiesce_mem, State.dispatchTo_wf, State.quiesce_mem, Out.MemWf]

theorem execRegionDestroy_wf (p) (s : State) (hm : s.MemWf) : (execRegionDestroy p s).MemWf := by
  unfold execRegionDestroy
  grind [State.parseRegion_wf, State.sweep_wf, State.beginDestroy_mem, State.dispatchTo_wf, State.refuse_wf, Out.MemWf]

theorem State.putStatusOf_wf (s : State) (ctx addr status) (hm : s.MemWf) {u : State} (hu : s.putStatusOf ctx addr status = .ok u) : u.MemWf := by
  unfold State.putStatusOf at hu
  grind [State.devWrite_wf]

theorem State.writeStatusOf_wf (s : State) (r) (hm : s.MemWf) {u : State} (hu : s.writeStatusOf r = .ok u) : u.MemWf := by
  unfold State.writeStatusOf at hu
  grind [State.putStatusOf_wf]

theorem State.writebackRcb_wf (s : State) (r) (hm : s.MemWf) : (s.writebackRcb r).MemWf := by
  unfold State.writebackRcb
  grind [State.writeStatusOf_wf, State.missIn_mem, State.noteStop_wf]

theorem execRcbWriteback_wf (r) (s : State) (hm : s.MemWf) : (execRcbWriteback r s).MemWf := by
  unfold execRcbWriteback
  grind [State.writebackRcb_wf, Out.MemWf]

end Sys2Proof.Machine
end

section
/-! SUPPORT for O58. What the functions of Machine/System.lean do to memory. -/

namespace Sys2Proof.Machine

theorem execMfs_wf (t g d r) (s : State) (hm : s.MemWf) : (execMfs t g d r s).MemWf := by
  refine cWord_wf _ _ _ _ _ _ hm ?_
  split
  · trivial
  · exact onCore_wf _ _ hm

theorem execMts_wf (t g a r) (s : State) (hm : s.MemWf) : (execMts t g a r s).MemWf := by
  refine cWord_wf _ _ _ _ _ _ hm ?_
  split
  · trivial
  · exact onCore_wf _ _ hm

theorem execTrap_wf (t g i) (s : State) (hm : s.MemWf) : (execTrap t g i s).MemWf := cWord_wf _ _ _ _ _ _ hm hm

theorem execEret_wf (t g m) (s : State) (hm : s.MemWf) : (execEret t g m s).MemWf := by
  refine cWord_wf _ _ _ _ _ _ hm (onCore_wf _ _ (State.MemWf.ite ?_ hm))
  split
  · exact hm.of_mem (State.recapture_mem _ _ _)
  · exact hm

theorem execYield_wf (t g) (s : State) (hm : s.MemWf) : (execYield t g s).MemWf := cWord_wf _ _ _ _ _ _ hm (onCore_wf _ _ hm)

theorem execTail_wf (t g) (s : State) (hm : s.MemWf) : (execTail t g s).MemWf := cWord_wf _ _ _ _ _ _ hm (onCore_wf _ _ hm)

theorem execTsm_wf (t g) (s : State) (hm : s.MemWf) : (execTsm t g s).MemWf := cWord_wf _ _ _ _ _ _ hm (onCore_wf _ _ hm)

end Sys2Proof.Machine
end

section
/-! SUPPORT for O58. What the functions of Machine/CoreEvents.lean do to memory. -/

namespace Sys2Proof.Machine

theorem execClockHorizonAdvance_wf (s : State) (hm : s.MemWf) : (execClockHorizonAdvance s).MemWf := by
  unfold execClockHorizonAdvance
  grind [Out.MemWf]

theorem execMemoryAccessPerform_wf (i) (s : State) (hm : s.MemWf) : (execMemoryAccessPerform i s).MemWf := by
  unfold execMemoryAccessPerform
  grind [State.performInFlight_wf, Out.MemWf]

@[simp] theorem State.ackOldest_mem (s : State) (n) : (s.ackOldest n).mem = s.mem := by
  unfold State.ackOldest
  grind [State.modCore_mem]

theorem execAckWriteFinish_wf (c) (s : State) (hm : s.MemWf) : (execAckWriteFinish c s).MemWf := by
  unfold execAckWriteFinish
  grind [State.ackOldest_mem, Out.MemWf]

@[simp] theorem State.raiseEngine_mem (s : State) (n k po t) : (s.raiseEngine n k po t).mem = s.mem := by
  unfold State.raiseEngine
  grind [State.walkBegins_mem, State.modCore_mem]

theorem execSendFinish_wf (c) (s : State) (hm : s.MemWf) : (execSendFinish c s).MemWf := by
  unfold execSendFinish
  grind [State.modCore_mem, State.raiseEngine_mem, State.performScoped_wf, Out.MemWf]

@[simp] theorem State.askDeferred_mem (s : State) (n) : (s.askDeferred n).mem = s.mem := by
  unfold State.askDeferred
  exact foldl_mem _ (fun s d => by simp) _ _

@[simp] theorem State.copyDone_mem (s : State) (n x cmd) : (s.copyDone n x cmd).mem = s.mem := rfl

@[simp] theorem State.copyStop_mem (s : State) (n x cmd i full y) : (s.copyStop n x cmd i full y).1.mem = s.mem := by
  unfold State.copyStop
  grind [State.copyDone_mem, State.modCore_mem]

@[simp] theorem State.copyArrive_mem (s : State) (n x cmd) : (s.copyArrive n x cmd).1.mem = s.mem := by
  unfold State.copyArrive
  grind [State.copyDone_mem, State.modCore_mem]

theorem State.copyToFlume_wf (s : State) (n x cmd) (hm : s.MemWf) : (s.copyToFlume n x cmd).1.MemWf := by
  have hstop (t : State) (ht : t.MemWf) (i full y) : (t.copyStop n x cmd i full y).1.MemWf := ht.of_mem (State.copyStop_mem _ _ _ _ _ _ _)
  unfold State.copyToFlume
  split
  · exact hstop _ hm _ _ _
  next s0 f h0 =>
    have h0 : State.MemWf s0 := hm.of_mem (State.bindFlume_mem _ _ _ _ _ _ h0)
    split
    · exact hstop _ h0 _ _ _
    next bytes bad _ =>
      have h1 := State.copyFlume_wf s0 n x f bytes bad (s0.copyRel n x cmd) (bytes.length / max s0.fab.flumes[f].esize 1 - cmd.progress) cmd.progress h0
      generalize s0.copyFlume n x f bytes bad (s0.copyRel n x cmd) (bytes.length / max s0.fab.flumes[f].esize 1 - cmd.progress) cmd.progress = y at h1 ⊢
      obtain ⟨s1, b, stop⟩ := y
      have h2 : State.MemWf (if b = cmd.progress then s1 else s1.modCore n (fun c => c.noteSend cmd.po)) := by
        split
        · exact h1
        · exact State.MemWf.of_mem h1 (State.modCore_mem _ _ _)
      refine hstop _ ?_ _ _ _
      split
      · exact State.logCopyPoisons_wf _ _ _ _ _ h2
      · exact h2

theorem State.copyRun_wf (s : State) (n x) (hm : s.MemWf) : (s.copyRun n x).1.MemWf := by
  unfold State.copyRun
  grind [State.copyBlocks_wf, State.copyStop_mem, State.copyToFlume_wf, State.copyMemory_wf, State.askDeferred_mem, State.copyClear_mem, State.copyArrive_mem]

theorem execCopyCommandFinish_wf (c ctx) (s : State) (hm : s.MemWf) : (execCopyCommandFinish c ctx s).MemWf := by
  unfold execCopyCommandFinish
  grind [State.copyRun_wf, State.raiseEngine_mem, Out.MemWf]

theorem State.readPoison_wf (s : State) (n cmd e) (hm : s.MemWf) : (s.readPoison n cmd e).MemWf := by
  unfold State.readPoison
  grind [State.logCopyPoison_wf]

theorem State.writeSkipped_wf (s : State) (n x cmd l) (hm : s.MemWf) {u : State} (hu : s.writeSkipped n x cmd l = .ok u) : u.MemWf := by
  induction l generalizing s with
  | nil => cases hu; exact hm
  | cons e t ih =>
    unfold State.writeSkipped at hu
    grind [State.modCore_mem, State.copyWrite_wf, State.readPoison_wf]

theorem State.deliverPage_mem (s : State) (n d status) {u : State} (hu : s.deliverPage n d status = some u) : u.mem = s.mem := by
  unfold State.deliverPage at hu
  grind [State.modCore_mem]

theorem execDeferredPageDelivery_wf (c i) (s : State) (hm : s.MemWf) : (execDeferredPageDelivery c i s).MemWf := by
  have hd (t : State) (ht : t.MemWf) (d k) : ((t.deliverPage c d k).getD s).MemWf := by
    cases hu : t.deliverPage c d k with
    | none => exact hm
    | some u => exact ht.of_mem (State.deliverPage_mem t c d k hu)
  unfold execDeferredPageDelivery
  rw [Out.MemWf]
  split
  · exact hm
  split
  · exact hm
  split
  · exact hm
  · exact hd _ hm _ _
  next d _ _ _ _ =>
    cases s.coreTranslate c d.page.toNat kRead with
    | error e =>
      cases e with
      | tier => exact hm.of_mem (by rw [State.askDeferred_mem, State.modCore_mem])
      | wait => exact hm.of_mem (State.walkBegins_mem _ _ _)
      | _ => exact hd _ hm _ _
    | ok =>
      cases hu : s.writeSkipped c d.ctx d.cmd (d.cmd.inPage d.page.toNat d.size) with
      | error => exact hm.of_mem (State.raiseEngine_mem _ _ _ _ _)
      | ok s1 => exact hd _ ((State.writeSkipped_wf _ _ _ _ _ hm hu).of_mem (State.askDeferred_mem _ _)) _ _

theorem execArrivalReceive_wf (c rec') (s : State) (hm : s.MemWf) : (execArrivalReceive c rec' s).MemWf := by
  unfold execArrivalReceive
  grind [State.modCore_mem, Out.MemWf]

theorem execHandlerStart_wf (c) (s : State) (hm : s.MemWf) : (execHandlerStart c s).MemWf := by
  unfold execHandlerStart
  grind [State.modCore_mem, Out.MemWf]

theorem execMgoAccept_wf (c) (s : State) (hm : s.MemWf) : (execMgoAccept c s).MemWf := by
  unfold execMgoAccept
  grind [State.issueHead_wf, Out.MemWf]

@[simp] theorem State.countMonitors_mem (s : State) (n e r) : (s.countMonitors n e r).mem = s.mem := rfl

@[simp] theorem State.promoteChunk_mem (s : State) (n g x w vals exhaust) : (s.promoteChunk n g x w vals exhaust).mem = s.mem := by
  unfold State.promoteChunk
  grind [State.modCore_mem, State.modBoard_mem]

@[simp] theorem State.passChunk_mem (s : State) (n g x a b coarse) : (s.passChunk n g x a b coarse).mem = s.mem := by
  unfold State.passChunk
  grind [State.modCore_mem, State.countMonitors_mem, State.modBoard_mem, State.promoteChunk_mem]

theorem execMatrixChunkPass_wf (c) (s : State) (hm : s.MemWf) : (execMatrixChunkPass c s).MemWf := by
  have hcore (f) : (s.modCore c f).MemWf := hm
  unfold execMatrixChunkPass
  rw [Out.MemWf]
  split
  · exact hm
  split
  · exact hm
  split
  · exact hcore _
  split
  · exact hcore _
  split
  · split
    · exact hcore _
    split
    · exact hcore _
    split
    · exact hm.of_mem (State.raiseEngine_mem _ _ _ _ _)
    split
    · exact State.meetAt_wf _ _ _ _ _ hm
    split
    · exact hm.of_mem (State.promoteChunk_mem _ _ _ _ _ _ _)
    · exact hm.of_mem (State.passChunk_mem _ _ _ _ _ _ _)
  · exact hm

theorem execWindowBlockPush_wf (c) (s : State) (hm : s.MemWf) : (execWindowBlockPush c s).MemWf := by
  unfold execWindowBlockPush
  grind [State.raiseEngine_mem, State.meetAt_wf, State.setCore_mem, Out.MemWf]

theorem State.overRing_wf (s : State) (l) (f : State → Fin 128 → RingCmd → State) (hf : ∀ s n x, s.MemWf → (f s n x).MemWf)
    (hm : s.MemWf) : (s.overRing l f).MemWf := by
  unfold State.overRing
  exact foldl_wf _ (fun s m hs => by grind) l s hm

theorem State.ringShift_wf (s : State) (l d) (hm : s.MemWf) : (s.ringShift l d).MemWf := by
  unfold State.ringShift
  refine State.overRing_wf _ _ _ (fun s n x hs => hs) (foldl_wf _ (fun s t hs => ?_) _ _ hm)
  grind [State.performScoped_wf]

theorem execRingShift_wf (crew) (s : State) (hm : s.MemWf) : (execRingShift crew s).MemWf := by
  unfold execRingShift
  dsimp only [Out.MemWf]
  split
  · exact hm
  · split
    · exact hm
    · split
      · exact State.overRing_wf _ _ _ (fun s m x hs => by simpa using hs) hm
      · split
        · exact State.overRing_wf _ _ _ (fun s m x hs => by simpa using hs) hm
        · split
          · exact State.overRing_wf _ _ _ (fun s m x hs => State.meetAt_wf _ _ _ _ _ hs) hm
          · exact State.ringShift_wf _ _ _ hm

theorem State.expire_wf (s : State) (n q st v) (hm : s.MemWf) : (s.expire n q st v).MemWf := by
  unfold State.expire
  grind [takeTrap_wf]

theorem execBoundedWaitExpiry_wf (c q) (s : State) (hm : s.MemWf) : (execBoundedWaitExpiry c q s).MemWf := by
  unfold execBoundedWaitExpiry
  grind [State.expire_wf, State.copyRun_wf, State.raiseEngine_mem, Out.MemWf]

end Sys2Proof.Machine
end

section
/-! SUPPORT for O58. What the functions of Machine/TrapEvents.lean do to memory. -/

namespace Sys2Proof.Machine

theorem execTrapDetect_wf (c) (s : State) (hm : s.MemWf) : (execTrapDetect c s).MemWf := by
  unfold execTrapDetect
  grind [State.setCore_mem, Out.MemWf]

theorem execFreezeComplete_wf (c) (s : State) (hm : s.MemWf) : (execFreezeComplete c s).MemWf := by
  unfold execFreezeComplete
  grind [State.freezeEnd_wf, Out.MemWf]

theorem State.resolveHere_wf (s : State) (n t d) (hm : s.MemWf) : (s.resolveHere n t d).MemWf := by
  unfold State.resolveHere
  grind [State.setCore_mem, State.requestPageIn_mem, State.endUnresolved_wf]

@[simp] theorem State.modRecord_mem (s : State) (id f) : (s.modRecord id f).mem = s.mem := rfl

theorem State.resolveSaved_wf (s : State) (r t) (hm : s.MemWf) : (s.resolveSaved r t).MemWf := by
  unfold State.resolveSaved
  grind [State.putComposite_wf, State.modStep_mem, State.modRecord_mem]

theorem State.resolveRecord_wf (s : State) (n r t d) (hm : s.MemWf) : (s.resolveRecord n r t d).MemWf := by
  unfold State.resolveRecord
  grind [State.resolveSaved_wf, State.requestPageIn_mem, State.faultStep_wf]

theorem execSystemTrapResolve_wf (c d) (s : State) (hm : s.MemWf) : (execSystemTrapResolve c d s).MemWf := by
  unfold execSystemTrapResolve
  grind [State.resolveHere_wf, State.resolveRecord_wf, Out.MemWf]

theorem execSystemTrapTimeout_wf (c) (s : State) (hm : s.MemWf) : (execSystemTrapTimeout c s).MemWf := by
  unfold execSystemTrapTimeout
  grind [State.modStep_mem, State.beginSave_mem, State.sweep_wf, State.zeroCore_wf, State.restartStep_mem, Out.MemWf]

theorem State.storeAgain_wf (s : State) (n x) (hm : s.MemWf) : (s.storeAgain n x).MemWf := by
  unfold State.storeAgain
  grind [State.storePiece_wf]

theorem State.logRollback_wf (s : State) (n) (hm : s.MemWf) : (s.logRollback n).MemWf := by
  unfold State.logRollback
  grind [State.log_wf, State.modBoard_mem]

theorem State.abortStep_wf (s : State) (n po reason) (hm : s.MemWf) : (s.abortStep n po reason).MemWf := by
  unfold State.abortStep
  grind [State.log_wf, State.modCore_mem, State.sweep_wf, State.zeroCore_wf, State.restartStep_mem, State.endUnresolved_wf]

theorem execConsumedUe_wf (c) (s : State) (hm : s.MemWf) : (execConsumedUe c s).MemWf := by
  unfold execConsumedUe
  rw [Out.MemWf]
  split
  · exact hm
  split
  · exact hm
  extract_lets s1
  have h1 : s1.MemWf := State.MemWf.of_mem (State.performAll_wf _ _ hm) (State.modCore_mem _ _ _)
  split
  · exact State.abortStep_wf _ _ _ _ h1
  · refine foldl_wf _ (fun s x hs => State.storeAgain_wf _ _ _ hs) _ _ ?_
    exact (State.logRollback_wf _ _ h1).of_mem (State.modCore_mem _ _ _)

end Sys2Proof.Machine
end

section
/-! SUPPORT for O58. What the functions of Machine/Accept.lean do to memory. -/

namespace Sys2Proof.Machine

@[simp] theorem State.askedFor_mem (s : State) (r kind va len) : (s.askedFor r kind va len).mem = s.mem := by
  unfold State.askedFor
  grind [State.partsOut_mem]

@[simp] theorem State.memberAsked_mem (s : State) (q r ovr m) : (s.memberAsked q r ovr m).mem = s.mem := by
  unfold State.memberAsked
  grind [State.askedFor_mem]

@[simp] theorem State.withdraw_mem (s : State) (p id) : (s.withdraw p id).mem = s.mem := by
  unfold State.withdraw
  grind [State.modParser_mem]

theorem State.acceptAll_wf (s : State) (p w ms) (hm : s.MemWf) : (s.acceptAll p w ms).MemWf := by
  unfold State.acceptAll
  grind [State.advance_wf, State.modParser_mem]

@[simp] theorem State.walkOp_mem (s : State) (q k) : (s.walkOp q k).mem = s.mem := by
  induction k generalizing s with
  | zero => rfl
  | succ k ih =>
    unfold State.walkOp
    grind [State.modOp_mem]

@[simp] theorem State.walkAll_mem (s : State) : s.walkAll.mem = s.mem := by
  unfold State.walkAll
  exact foldl_mem _ (fun s q => by simp) _ _

@[simp] theorem State.readyAfter_mem (s : State) (q i) : (s.readyAfter q i).mem = s.mem := by
  unfold State.readyAfter
  grind

theorem execOperatorAccept_wf (i) (s : State) (hm : s.MemWf) : (execOperatorAccept i s).MemWf := by
  unfold execOperatorAccept
  rw [Out.MemWf]
  split
  · exact hm
  next p id _ =>
    have hw (t : State) (ht : t.MemWf) (c) : ((t.withdraw p id).refuse p c).MemWf := State.refuse_wf _ _ _ (ht.of_mem (State.withdraw_mem _ _ _))
    split
    · exact hm
    extract_lets r l
    split
    · exact hw _ hm _
    split
    · exact hm
    split
    · refine State.sweep_wf _ (State.MemWf.of_mem (State.acceptAll_wf _ _ _ _ (hm.of_mem ?_)) (State.walkAll_mem _))
      exact foldl_mem _ (fun s x => State.memberAsked_mem _ _ _ _ _) _ _
    · exact hm.of_mem (State.missIn_mem _ _ _ _)
    · exact hw _ (State.noteStop_wf _ _ _ hm) _
    · exact hw _ (State.logPoison_wf _ _ _ hm) _
    · exact hw _ hm _

@[simp] theorem State.dropWork_mem (s : State) (p id) : (s.dropWork p id).mem = s.mem := by
  unfold State.dropWork
  grind [State.modParser_mem]

theorem State.workFault_wf (s : State) (p w q f notice) (hm : s.MemWf) : (s.workFault p w q f notice).MemWf := by
  unfold State.workFault
  grind [State.dropWork_mem, State.faultQueue_wf, State.logFrontEnd_wf, State.faultParser_wf]

theorem State.stopWork_wf (s : State) (p w q e) (hm : s.MemWf) : (s.stopWork p w q e).MemWf := by
  unfold State.stopWork
  grind [State.missIn_mem, State.workFault_wf, State.noteStop_wf]

@[simp] theorem State.noteRels_mem (s : State) (p q l) : (s.noteRels p q l).mem = s.mem := by
  unfold State.noteRels
  grind [State.modParser_mem]

theorem State.completeWork_wf (s : State) (p w q) (hm : s.MemWf) : (s.completeWork p w q).MemWf := by
  unfold State.completeWork
  grind [State.noteRels_mem, State.dropWork_mem, State.msix_mem, State.signal_wf, State.stopWork_wf]

@[simp] theorem State.modWork_mem (s : State) (id f) : (s.modWork id f).mem = s.mem := rfl

@[simp] theorem State.carryParts_mem (s : State) (ps runs) : (s.carryParts ps runs).mem = s.mem := by
  unfold State.carryParts
  exact foldl_mem _ (fun s x => foldl_mem _ (fun s r => by grind [State.setPoison_mem]) _ _) _ _

theorem State.copyPieces_wf (s : State) (r pkt k done) (hm : s.MemWf) : (s.copyPieces r pkt k done).1.MemWf := by
  induction k generalizing s done with
  | zero => exact hm
  | succ k ih =>
    unfold State.copyPieces
    grind [State.carryParts_mem, State.partsOut_mem, State.devPut_wf, State.logPoison_wf]

theorem execWorkPacketComplete_wf (p id) (s : State) (hm : s.MemWf) : (execWorkPacketComplete p id s).MemWf := by
  unfold execWorkPacketComplete
  grind [State.completeWork_wf, State.dropWork_mem, State.workFault_wf, State.copyPieces_wf, State.stopWork_wf, State.modWork_mem, State.putStatusOf_wf,
    State.writeStatusOf_wf, Out.MemWf]

end Sys2Proof.Machine
end

section
/-! SUPPORT for O58. What the functions of Machine/Streams.lean do to memory. -/

namespace Sys2Proof.Machine

@[simp] theorem State.scbAsked_mem (s : State) (p k b) : (s.scbAsked p k b).mem = s.mem := by
  unfold State.scbAsked
  grind [State.devAsked_mem]

theorem State.readScb_wf (s : State) (p k region) (hm : s.MemWf) {u : State} (hu : s.readScb p k region = .error u) : u.MemWf := by
  unfold State.readScb at hu
  grind [State.readBlock_wf, State.refuse_wf]

theorem State.parseStream_wf (s : State) (p op) (eff : BitVec 512 → State → State) (h : s.MemWf) (he : ∀ k, (eff k s).MemWf) :
    (s.parseStream p op eff).MemWf := by
  refine State.parseAs_wf _ _ _ _ _ h (fun _ _ k => ?_)
  grind [State.refuse_wf]

theorem execStreamCreate_wf (p) (s : State) (hm : s.MemWf) : (execStreamCreate p s).MemWf := by
  unfold execStreamCreate
  grind [State.parseStream_wf, State.refuse_wf, State.readScb_wf, State.devWrite_wf, State.scbAsked_mem, State.stopParse_wf, State.dispatchTo_wf, Out.MemWf]

theorem execStreamStart_wf (p) (s : State) (hm : s.MemWf) : (execStreamStart p s).MemWf := by
  unfold execStreamStart
  grind [State.parseStream_wf, State.refuse_wf, State.readScb_wf, State.modStream_mem, State.scbAsked_mem, State.dispatchTo_wf, Out.MemWf]

theorem execStreamStop_wf (p) (s : State) (hm : s.MemWf) : (execStreamStop p s).MemWf := by
  unfold execStreamStop
  grind [State.parseStream_wf, State.checkStopped_wf, State.modStream_mem, State.dispatchTo_wf, State.refuse_wf, Out.MemWf]

theorem execStreamSetrung_wf (p) (s : State) (hm : s.MemWf) : (execStreamSetrung p s).MemWf := by
  unfold execStreamSetrung
  grind [State.parseStream_wf, State.refuse_wf, State.dispatchTo_wf, State.modStream_mem, Out.MemWf]

theorem execStreamDestroy_wf (p) (s : State) (hm : s.MemWf) : (execStreamDestroy p s).MemWf := by
  unfold execStreamDestroy
  grind [State.parseStream_wf, State.refuse_wf, State.destroyStream_wf, State.dispatchTo_wf, Out.MemWf]

@[simp] theorem State.released_mem (s : State) (n slot out) : (s.released n slot out).mem = s.mem := rfl

theorem State.takeSlot_wf (s : State) (n x) (hm : s.MemWf) : (s.takeSlot n x).1.MemWf := by
  unfold State.takeSlot
  grind [State.logPoison_wf, State.acquireAt_mem, State.devAsked_mem, State.putStatus_wf, State.released_mem]

theorem State.releaseFrame_wf (s : State) (n x0) (hm : s.MemWf) : (s.releaseFrame n x0).1.MemWf := by
  unfold State.releaseFrame
  grind [State.modStream_mem, State.devWrite_wf, State.takeSlot_wf]

theorem State.releaseFault_wf (s : State) (n region cause) (hm : s.MemWf) : (s.releaseFault n region cause).MemWf := by
  unfold State.releaseFault
  grind [State.logFrontEnd_wf, State.stopStream_wf, State.faultNotice_wf]

theorem execFrameRelease_wf (n) (s : State) (hm : s.MemWf) : (execFrameRelease n s).MemWf := by
  unfold execFrameRelease
  grind [State.modStream_mem, State.releaseFrame_wf, State.missIn_mem, State.releaseFault_wf, State.noteStop_wf, Out.MemWf]

theorem execSlackEvaluation_wf (n frame) (s : State) (hm : s.MemWf) : (execSlackEvaluation n frame s).MemWf := by
  unfold execSlackEvaluation
  grind [State.modStream_mem, Out.MemWf]

theorem State.dropContext_wf (s : State) (x j) (hm : s.MemWf) : (s.dropContext x j).MemWf := by
  unfold State.dropContext
  grind [State.tryWrite_wf]

theorem execFrameDeadline_wf (n frame) (s : State) (hm : s.MemWf) : (execFrameDeadline n frame s).MemWf := by
  unfold execFrameDeadline
  grind [State.dropContext_wf, State.dropTiles_mem, State.skipSlot_wf, State.cancelFrame_mem, State.modStream_mem, State.sweep_wf, State.settleStream_wf,
    Out.MemWf]

theorem execFrameJobFinish_wf (n frame) (s : State) (hm : s.MemWf) : (execFrameJobFinish n frame s).MemWf := by
  unfold execFrameJobFinish
  grind [State.finishJob_wf, Out.MemWf]

theorem State.logTile_wf (s : State) (e n h) (hm : s.MemWf) : (s.logTile e n h).MemWf := by
  unfold State.logTile
  grind [State.log_wf]

theorem State.takeTile_wf (s : State) (e n x h data) (hm : s.MemWf) : (s.takeTile e n x h data).MemWf := by
  unfold State.takeTile
  grind [State.logTile_wf]

theorem State.beginFrame_wf (s : State) (e n f x) (hm : s.MemWf) : (s.beginFrame e n f x).MemWf := by
  unfold State.beginFrame
  exact foldl_wf _ (fun s r hs => State.takeTile_wf _ _ _ _ _ _ hs) _ _ hm

@[simp] theorem State.popRecord_mem (s : State) (x) : (s.popRecord x).mem = s.mem := rfl

theorem State.otherRecord_wf (s : State) (e n f x h data) (hm : s.MemWf) : (s.otherRecord e n f x h data).MemWf := by
  unfold State.otherRecord
  grind [State.logTile_wf]

theorem State.takeRecord_wf (s : State) (e n f x h bad) (hm : s.MemWf) : (s.takeRecord e n f x h bad).MemWf := by
  unfold State.takeRecord
  grind [State.popRecord_mem, State.takeTile_wf, State.otherRecord_wf]

theorem execEncoderTilePop_wf (e) (s : State) (hm : s.MemWf) : (execEncoderTilePop e s).MemWf := by
  unfold execEncoderTilePop
  grind [State.takeRecord_wf, State.beginFrame_wf, State.popRecord_mem, State.otherRecord_wf, State.logTile_wf, Out.MemWf]

theorem execEncoderTileFill_wf (e) (s : State) (hm : s.MemWf) : (execEncoderTileFill e s).MemWf := by
  unfold execEncoderTileFill
  grind [State.beginFrame_wf, Out.MemWf]

@[simp] theorem State.leaveFrame_mem (s : State) (e n f key trunc) : (s.leaveFrame e n f key trunc).mem = s.mem := rfl

@[simp] theorem State.slotLeft_mem (s : State) (n f) : (s.slotLeft n f).mem = s.mem := rfl

theorem State.encoderSkips_wf (s : State) (e n f key trunc) (hm : s.MemWf) : (s.encoderSkips e n f key trunc).MemWf := by
  unfold State.encoderSkips
  grind [State.leaveFrame_mem, State.leaveSlot_wf]

theorem execEncoderFrameDone_wf (e) (s : State) (hm : s.MemWf) : (execEncoderFrameDone e s).MemWf := by
  unfold execEncoderFrameDone
  rw [Out.MemWf]
  split
  · exact hm
  split
  · exact hm
  split
  · exact hm
  extract_lets enc now late key slot stream len s0
  split
  · exact hm
  have h0 : s0.MemWf := hm
  clear_value s0 stream
  have hmiss (r va w) : (s.missIn r va w).MemWf := hm.of_mem (State.missIn_mem _ _ _ _)
  split
  · split
    · next s1 h1 => exact State.encoderSkips_wf _ _ _ _ _ _ (State.devWrite_wf _ _ _ _ _ _ h0 h1)
    · exact hmiss _ _ _
    · exact State.encoderSkips_wf _ _ _ _ _ _ ((State.noteStop_wf _ _ _ h0).of_mem (State.note_mem _ _))
  split
  · next s1 h1 =>
    have h1 : s1.MemWf := State.devWrite_wf _ _ _ _ _ _ h0 h1
    split
    · next s2 h2 => exact (State.putStatus_wf _ _ _ _ _ _ h1 h2).of_mem (by rw [State.leaveFrame_mem, State.slotLeft_mem])
    · exact hmiss _ _ _
    · exact (State.noteStop_wf _ _ _ h1).of_mem (by rw [State.leaveFrame_mem, State.slotLeft_mem, State.note_mem])
  · exact hmiss _ _ _
  · exact State.encoderSkips_wf _ _ _ _ _ _ ((State.noteStop_wf _ _ _ h0).of_mem (State.note_mem _ _))

theorem State.encoderStops_wf (s : State) (e) (hm : s.MemWf) : (s.encoderStops e).MemWf := by
  unfold State.encoderStops
  grind [State.encoderSkips_wf, State.note_mem]

end Sys2Proof.Machine
end

section
/-! SUPPORT for O58. What the functions of Machine/Bucker.lean do to memory. -/

namespace Sys2Proof.Machine

theorem execTileStepPlace_wf (s : State) (hm : s.MemWf) : (execTileStepPlace s).MemWf := by
  unfold execTileStepPlace
  grind [State.modStep_mem, Out.MemWf]

theorem State.keepCarry_wf (s : State) (n l) (hm : s.MemWf) : (s.keepCarry n l).MemWf := by
  unfold State.keepCarry
  refine foldl_wf _ (fun s e hs => ?_) _ _ (State.zeroScratch_wf _ _ hm)
  rw [State.MemWf, State.carryPoison_mem]
  exact memWrite_wf _ _ _ hs

theorem State.beginStep_wf (s : State) (n o t) (hm : s.MemWf) : (s.beginStep n o t).MemWf := by
  unfold State.beginStep
  grind [State.keepCarry_wf, State.modStep_mem, State.modCore_mem]

theorem execTileStepStart_wf (c) (s : State) (hm : s.MemWf) : (execTileStepStart c s).MemWf := by
  unfold execTileStepStart
  grind [State.beginStep_wf, Out.MemWf]

theorem State.cacheImage_wf (s : State) (n asid addr b) (hm : s.MemWf) : (s.cacheImage n asid addr b).MemWf := by
  unfold State.cacheImage
  grind [State.logAccess_wf, State.writeBytes_wf]

@[simp] theorem State.touchImage_mem (s : State) (e) : (s.touchImage e).mem = s.mem := rfl

theorem State.logImage_wf (s : State) (n ps) (hm : s.MemWf) : (s.logImage n ps).MemWf := by
  unfold State.logImage
  grind [State.logDemand_wf]

theorem State.loadImage_wf (s : State) (n o) (hm : s.MemWf) : (s.loadImage n o).MemWf := by
  have hf (l : List Piece) : (l.foldl (fun s p => s.coreOut n p.pa p.len false) s).mem = s.mem := foldl_mem _ (fun s p => by simp) _ _
  unfold State.loadImage
  grind [takeTrap_wf, State.logImage_wf, State.modCore_mem, State.cacheImage_wf]

theorem execOverlayLoad_wf (c) (s : State) (hm : s.MemWf) : (execOverlayLoad c s).MemWf := by
  unfold execOverlayLoad
  grind [State.loadImage_wf, State.logAccess_wf, State.modCore_mem, State.logImage_wf, State.touchImage_mem, Out.MemWf]

@[simp] theorem State.sample_mem (s : State) (n o t) : (s.sample n o t).mem = s.mem := by
  unfold State.sample
  grind

theorem State.retireRelease_wf (s : State) (n o t) (hm : s.MemWf) : (s.retireRelease n o t).MemWf := by
  unfold State.retireRelease
  grind [State.performAll_wf, State.modOp_mem, State.mapWorks_mem]

@[simp] theorem State.countRetired_mem (s : State) (o) : (s.countRetired o).mem = s.mem := by
  unfold State.countRetired
  grind [State.modRegion_mem, State.modStream_mem]

theorem execTileStepRetire_wf (c) (s : State) (hm : s.MemWf) : (execTileStepRetire c s).MemWf := by
  unfold execTileStepRetire
  grind [State.stampRecord_mem, State.sample_mem, State.retireRelease_wf, State.modCore_mem, State.freeCore_wf, State.dropStep_mem, State.countRetired_mem,
    State.sweep_wf, State.walkAll_mem, State.readyAfter_mem, State.modOp_mem, Out.MemWf]

@[simp] theorem State.replayed_mem (s : State) (x n) : (s.replayed x n).mem = s.mem := rfl

theorem State.silent_wf (s : State) (x sig v n) (hm : s.MemWf) : (s.silent x sig v n).MemWf := by
  unfold State.silent
  grind [State.modBoard_mem, State.log_wf, State.msix_mem]

theorem execCruiserReplay_wf (sig third) (s : State) (hm : s.MemWf) : (execCruiserReplay sig third s).MemWf := by
  unfold execCruiserReplay
  grind [State.replayed_mem, State.modBoard_mem, State.silent_wf, Out.MemWf]

theorem execCoreIdleZeroing_wf (c) (s : State) (hm : s.MemWf) : (execCoreIdleZeroing c s).MemWf := by
  unfold execCoreIdleZeroing
  grind [State.modCore_mem, State.zeroScratch_wf, Out.MemWf]

theorem execStarvationPromotion_wf (i) (s : State) (hm : s.MemWf) : (execStarvationPromotion i s).MemWf := by
  unfold execStarvationPromotion
  grind [State.modRegion_mem, State.modStep_mem, Out.MemWf]

theorem State.moveBytes_wf (s : State) (src dst len) (hm : s.MemWf) : (s.moveBytes src dst len).MemWf := by
  unfold State.moveBytes
  grind [State.carryPoison_mem, State.writeBytes_wf]

@[simp] theorem State.settleAcks_mem (s : State) (n) : (s.settleAcks n).mem = s.mem := by
  unfold State.settleAcks
  exact foldl_mem _ (fun s _ => by simp) _ _

theorem State.freezeForSave_wf (s : State) (n) (hm : s.MemWf) : (s.freezeForSave n).MemWf := by
  unfold State.freezeForSave
  grind [State.beginSave_mem, State.modCore_mem, State.settleAcks_mem, State.performAll_wf]

theorem State.saveStruck_wf (s : State) (n pa) (hm : s.MemWf) : (s.saveStruck n pa).MemWf := by
  unfold State.saveStruck
  grind [State.endUnresolved_wf, State.modCore_mem]

theorem State.saveNow_wf (s : State) (n t counted) (hm : s.MemWf) : (s.saveNow n t counted).MemWf := by
  unfold State.saveNow
  grind [State.sweep_wf, State.discardStep_mem, State.freeCore_wf, State.loseRecord_wf, State.modStep_mem, State.stampRecord_mem, State.moveBytes_wf,
    State.putComposite_wf, State.clearCovered_mem, State.modRegion_mem]

theorem State.moveRecord_wf (s : State) (r r') (hm : s.MemWf) : (s.moveRecord r r').MemWf := by
  unfold State.moveRecord
  grind [State.logAccess_wf, State.modRecord_mem, State.moveBytes_wf]

theorem State.drainTo_wf (s : State) (r a) (hm : s.MemWf) : (s.drainTo r a).MemWf := by
  unfold State.drainTo
  grind [State.loseRecord_wf, State.moveRecord_wf]

theorem State.drainOne_wf (s : State) (hm : s.MemWf) {u : State} (hu : s.drainOne = some u) : u.MemWf := by
  unfold State.drainOne at hu
  grind [State.drainTo_wf, Option.map_eq_some_iff]

theorem execContextSaveComplete_wf (c) (s : State) (hm : s.MemWf) : (execContextSaveComplete c s).MemWf := by
  have hd : (s.drainOne.getD s).MemWf := by
    cases hu : s.drainOne with
    | none => exact hm
    | some u => exact State.drainOne_wf s hm hu
  unfold execContextSaveComplete
  grind [State.saveNow_wf, State.beginSave_mem, Out.MemWf]

theorem execContextDrain_wf (i) (s : State) (hm : s.MemWf) : (execContextDrain i s).MemWf := by
  unfold execContextDrain
  grind [State.drainTo_wf, Out.MemWf]

theorem execContextReadback_wf (i) (s : State) (hm : s.MemWf) : (execContextReadback i s).MemWf := by
  unfold execContextReadback
  grind [State.loseRecord_wf, State.moveRecord_wf, Out.MemWf]

theorem execForcedPreemption_wf (i) (s : State) (hm : s.MemWf) : (execForcedPreemption i s).MemWf := by
  unfold execForcedPreemption
  grind [State.modStep_mem, State.freezeForSave_wf, State.sweep_wf, State.modRegion_mem, State.freeCore_wf, State.restartStep_mem, Out.MemWf]

theorem State.resumeOn_wf (s : State) (c o t r) (hm : s.MemWf) : (s.resumeOn c o t r).MemWf := by
  unfold State.resumeOn
  grind [State.moveBytes_wf, State.zeroScratch_wf, State.modCore_mem, State.modStep_mem]

theorem execContextResume_wf (c) (s : State) (hm : s.MemWf) : (execContextResume c s).MemWf := by
  unfold execContextResume
  grind [State.loseRecord_wf, State.resumeOn_wf, Out.MemWf]

theorem State.makeRoom_wf (size k) (s : State) (hm : s.MemWf) : (State.makeRoom size k s).MemWf := by
  induction k generalizing s with
  | zero => exact hm
  | succ k ih =>
    unfold State.makeRoom
    grind [State.drainOne_wf]

theorem State.freezeRoom_wf (s : State) (n) (hm : s.MemWf) : (s.freezeRoom n).MemWf := by
  unfold State.freezeRoom
  grind [State.makeRoom_wf, State.beginSave_mem, State.freezeForSave_wf]

theorem State.forceOff_wf (s : State) (id) (hm : s.MemWf) : (s.forceOff id).MemWf := by
  unfold State.forceOff
  grind [State.discardStep_mem, State.modStep_mem, State.freezeRoom_wf, State.saveNow_wf, State.freeCore_wf, State.restartStep_mem]

theorem State.putBlocks_wf (s : State) (a l) (hm : s.MemWf) : (s.putBlocks a l).MemWf := by
  induction l generalizing s a with
  | nil => exact hm
  | cons b t ih => exact ih _ _ (State.writeBytes_wf _ _ _ hm)

theorem State.writeSwap_wf (s : State) (r) (hm : s.MemWf) : (s.writeSwap r).MemWf := by
  unfold State.writeSwap
  grind [State.logAccess_wf, State.modRegion_mem, State.putBlocks_wf]

@[simp] theorem State.readSwap_mem (s : State) (r) : (s.readSwap r).mem = s.mem := by
  unfold State.readSwap
  dsimp only
  rw [State.modRegion_mem, foldl_mem _ (fun s i => by simp), foldl_mem _ (fun s i => by simp)]

@[simp] theorem State.dropCarry_mem (s : State) (r) : (s.dropCarry r).mem = s.mem := by
  unfold State.dropCarry
  exact foldl_mem _ (fun s n => by grind [State.modCore_mem]) _ _

theorem execPartitionSwapOut_wf (r) (s : State) (hm : s.MemWf) : (execPartitionSwapOut r s).MemWf := by
  have h1 (l : List Nat) (t : State) (ht : t.MemWf) : (l.foldl State.forceOff t).MemWf := foldl_wf _ (fun s x hs => State.forceOff_wf _ _ hs) _ _ ht
  have h2 (l : List Nat) (t : State) (ht : t.MemWf) : (l.foldl State.writeSwap t).MemWf := foldl_wf _ (fun s x hs => State.writeSwap_wf _ _ hs) _ _ ht
  have h3 (l : List Nat) (t : State) : (l.foldl (fun s x => s.modRegion x (fun x => { x with swapped := true, swapping := false })) t).mem = t.mem :=
    foldl_mem _ (fun s x => by simp) _ _
  unfold execPartitionSwapOut
  grind [State.quiesce_mem, State.dropCarry_mem, State.modRegion_mem, State.sweep_wf, Out.MemWf]

theorem execPartitionSwapIn_wf (r) (s : State) (hm : s.MemWf) : (execPartitionSwapIn r s).MemWf := by
  have h1 (l : List Nat) (t : State) : (l.foldl State.readSwap t).mem = t.mem := foldl_mem _ (fun s x => by simp) _ _
  unfold execPartitionSwapIn
  grind [State.modRegion_mem, Out.MemWf]

end Sys2Proof.Machine
end

section
/-! SUPPORT for O58. What the functions of Machine/Control.lean do to memory. -/

namespace Sys2Proof.Machine

theorem transfer_wf (t g link ss dest) (s : State) (hm : s.MemWf) : (transfer t g link ss dest s).MemWf := by
  unfold transfer
  refine cWord_wf _ _ _ _ _ _ hm ?_
  grind [Res.MemWf, State.modCur_mem]

theorem execBr_wf (t g o) (s : State) (hm : s.MemWf) : (execBr t g o s).MemWf := transfer_wf (hm := hm) ..

theorem execCall_wf (t g o) (s : State) (hm : s.MemWf) : (execCall t g o s).MemWf := transfer_wf (hm := hm) ..

theorem execLoop_wf (t g n i) (s : State) (hm : s.MemWf) : (execLoop t g n i s).MemWf := by
  refine cWord_wf _ _ _ _ _ _ hm ?_
  dsimp only
  split
  · exact hm
  · exact hm

theorem execBrl_wf (t g n k o) (s : State) (hm : s.MemWf) : (execBrl t g n k o s).MemWf := by
  refine cWord_wf _ _ _ _ _ _ hm ?_
  dsimp only
  split
  · exact hm
  · exact hm

theorem execRot_wf (t g) (s : State) (hm : s.MemWf) : (execRot t g s).MemWf := cWord_wf _ _ _ _ _ _ hm (onCore_wf _ _ hm)

theorem execLcset_wf (t g n a) (s : State) (hm : s.MemWf) : (execLcset t g n a s).MemWf := cWord_wf _ _ _ _ _ _ hm (onCore_wf _ _ hm)

theorem execLcrd_wf (t g n d) (s : State) (hm : s.MemWf) : (execLcrd t g n d s).MemWf := cWord_wf _ _ _ _ _ _ hm (onCore_wf _ _ hm)

theorem vsetWord_wf (x t d a i) (s : State) (hm : s.MemWf) : (vsetWord x t d a i s).MemWf := by
  unfold vsetWord
  grind [cWord_wf, onCore_wf, Res.MemWf]

end Sys2Proof.Machine
end

section
/-! SUPPORT for O58. What the functions of Machine/Loads.lean do to memory. -/

namespace Sys2Proof.Machine

theorem loadImm_wf (x t sp sz signed d a o) (s : State) (hm : s.MemWf) : (loadImm x t sp sz signed d a o s).MemWf := by
  unfold loadImm
  grind [iWord_wf]

theorem loadRr_wf (t g sp sz d a b) (s : State) (hm : s.MemWf) : (loadRr t g sp sz d a b s).MemWf := by
  unfold loadRr
  grind [gWord_wf]

theorem ldcImm_wf (x t sz signed d a o) (s : State) (hm : s.MemWf) : (ldcImm x t sz signed d a o s).MemWf := by
  unfold ldcImm
  grind [iWord_wf]

theorem hintImm_wf (x t op a o) (s : State) (hm : s.MemWf) : (hintImm x t op a o s).MemWf := by
  unfold hintImm
  grind [iWord_wf]

theorem vloadWord_wf (t m sp kind d a b) (s : State) (hm : s.MemWf) : (vloadWord t m sp kind d a b s).MemWf := by
  unfold vloadWord
  grind [routeWord_wf]

@[simp] theorem State.takeA_mem (s : State) (nb) : (s.takeA nb).mem = s.mem := rfl

@[simp] theorem State.takeB_mem (s : State) (nb) : (s.takeB nb).mem = s.mem := rfl

theorem cpyWord_wf (cls t g d a b k) (s : State) (hm : s.MemWf) : (cpyWord cls t g d a b k s).MemWf := by
  unfold cpyWord
  grind [routeWord_wf, State.takeA_mem, State.takeB_mem]

theorem execFlgetX_wf (t c d a b) (s : State) (hm : s.MemWf) : (execFlgetX t c d a b s).MemWf := sWord_wf (hm := hm) ..

theorem execFlgetV_wf (t c d a) (s : State) (hm : s.MemWf) : (execFlgetV t c d a s).MemWf := sWord_wf (hm := hm) ..

theorem execRing_wf (t g d a b) (s : State) (hm : s.MemWf) : (execRing t g d a b s).MemWf := gWord_wf (hm := hm) ..

end Sys2Proof.Machine
end

section
/-! SUPPORT for O58. What the functions of Machine/EngineWords.lean do to memory. -/

namespace Sys2Proof.Machine

theorem cfgWord_wf (t g ss lim f) (s : State) (hm : s.MemWf) : (cfgWord t g ss lim f s).MemWf := by
  unfold cfgWord
  grind [routeWord_wf, State.modCur_mem]

theorem execMcfg_wf (t g d a) (s : State) (hm : s.MemWf) : (execMcfg t g d a s).MemWf := cfgWord_wf (hm := hm) ..

theorem execWcfg_wf (t g d a) (s : State) (hm : s.MemWf) : (execWcfg t g d a s).MemWf := cfgWord_wf (hm := hm) ..

theorem execMgo_wf (t g d) (s : State) (hm : s.MemWf) : (execMgo t g d s).MemWf := by
  refine routeWord_wf _ _ _ _ _ _ _ _ hm (fun on u x hu => ?_)
  cases hu
  exact State.MemWf.ite hm hm

theorem execAccrd_wf (t g d a b) (s : State) (hm : s.MemWf) : (execAccrd t g d a b s).MemWf := gWord_wf (hm := hm) ..

theorem execAcczero_wf (t g d) (s : State) (hm : s.MemWf) : (execAcczero t g d s).MemWf := gWord_wf (hm := hm) ..

theorem execAccwr_wf (t g d a b) (s : State) (hm : s.MemWf) : (execAccwr t g d a b s).MemWf := gWord_wf (hm := hm) ..

theorem execWgo_wf (t g a) (s : State) (hm : s.MemWf) : (execWgo t g a s).MemWf := by
  refine routeWord_wf _ _ _ _ _ _ _ _ hm (fun on u x hu => ?_)
  cases hu
  exact State.MemWf.ite (hm.of_mem (State.takeA_mem _ _)) hm

theorem execFtld_wf (t g d a) (s : State) (hm : s.MemWf) : (execFtld t g d a s).MemWf := gWord_wf (hm := hm) ..

theorem execFtclr_wf (t g d) (s : State) (hm : s.MemWf) : (execFtclr t g d s).MemWf := gWord_wf (hm := hm) ..

theorem execFtrd_wf (t g d a) (s : State) (hm : s.MemWf) : (execFtrd t g d a s).MemWf := gWord_wf (hm := hm) ..

end Sys2Proof.Machine
end

section
/-! SUPPORT for O58. What the functions of Machine/Scalar.lean do to memory. -/

namespace Sys2Proof.Machine

theorem immWord_wf (x f3 t d a i) (s : State) (hm : s.MemWf) : (immWord x f3 t d a i s).MemWf := by
  unfold immWord
  grind [aluI_wf]

theorem limWord_wf (x t g d i) (s : State) (hm : s.MemWf) : (limWord x t g d i s).MemWf := by
  unfold limWord
  grind [cWord_wf, onCore_wf]

end Sys2Proof.Machine
end

section
/-! SUPPORT for O58. What the functions of Machine/Stores.lean do to memory. -/

namespace Sys2Proof.Machine

theorem storeImm_wf (x t sp sz d a o) (s : State) (hm : s.MemWf) : (storeImm x t sp sz d a o s).MemWf := by
  unfold storeImm
  grind [iWord_wf]

theorem storeRr_wf (t g sp sz d a b) (s : State) (hm : s.MemWf) : (storeRr t g sp sz d a b s).MemWf := by
  unfold storeRr
  grind [gWord_wf]

theorem vstoreWord_wf (t m sp kind d a b) (s : State) (hm : s.MemWf) : (vstoreWord t m sp kind d a b s).MemWf := by
  unfold vstoreWord
  grind [routeWord_wf]

theorem amoWord_wf (op wide t k d a b) (s : State) (hm : s.MemWf) : (amoWord op wide t k d a b s).MemWf := by
  unfold amoWord
  grind [sWord_wf]

theorem redWord_wf (op t k a b) (s : State) (hm : s.MemWf) : (redWord op t k a b s).MemWf := by
  unfold redWord
  grind [sWord_wf]

theorem execLupd_wf (t c d a b) (s : State) (hm : s.MemWf) : (execLupd t c d a b s).MemWf := sWord_wf (hm := hm) ..

theorem execFlput_wf (t c a b) (s : State) (hm : s.MemWf) : (execFlput t c a b s).MemWf := sWord_wf (hm := hm) ..

theorem execPush_wf (t c d a b) (s : State) (hm : s.MemWf) : (execPush t c d a b s).MemWf := sWord_wf (hm := hm) ..

theorem execBarArrive_wf (t c d a) (s : State) (hm : s.MemWf) : (execBarArrive t c d a s).MemWf := sWord_wf (hm := hm) ..

end Sys2Proof.Machine
end

section
/-! SUPPORT for O58. What the functions of Machine/Extended.lean do to memory. -/

namespace Sys2Proof.Machine

theorem illegalNow_wf (len sub) (s : State) (hm : s.MemWf) : (illegalNow len sub s).MemWf := by
  unfold illegalNow
  grind [takeTrap_wf]

theorem extLoad_wf (p w sp) (s : State) (hm : s.MemWf) : (extLoad p w sp s).MemWf := by
  unfold extLoad
  grind [loadImm_wf, illegalNow_wf]

theorem extLdc_wf (p w) (s : State) (hm : s.MemWf) : (extLdc p w s).MemWf := by
  unfold extLdc
  grind [ldcImm_wf, illegalNow_wf]

theorem extHint_wf (p w) (s : State) (hm : s.MemWf) : (extHint p w s).MemWf := by
  unfold extHint
  grind [illegalNow_wf, hintImm_wf]

theorem extStore_wf (p w sp) (s : State) (hm : s.MemWf) : (extStore p w sp s).MemWf := by
  unfold extStore
  grind [storeImm_wf, illegalNow_wf]

theorem extVset_wf (p w) (s : State) (hm : s.MemWf) : (extVset p w s).MemWf := by
  unfold extVset
  grind [illegalNow_wf, vsetWord_wf]

theorem extended_wf (p w) (s : State) (hm : s.MemWf) : (extended p w s).MemWf := by
  unfold extended
  grind [immWord_wf, limWord_wf, extVset_wf, extLoad_wf, extLdc_wf, extHint_wf, extStore_wf, illegalNow_wf]

theorem execExt_wf (p) (s : State) (hm : s.MemWf) : (execExt p s).MemWf := State.MemWf.ite (illegalNow_wf _ _ _ hm) (extended_wf _ _ _ hm)

end Sys2Proof.Machine
end

section
/-! SUPPORT for O58. What the functions of Machine/Paging.lean do to memory. -/

namespace Sys2Proof.Machine

@[simp] theorem State.forget_mem (s : State) (d) : (s.forget d).mem = s.mem := rfl

@[simp] theorem State.fill_mem (s : State) (n va l) : (s.fill n va l).mem = s.mem := by
  unfold State.fill
  grind [State.modCore_mem, State.askAts_mem]

@[simp] theorem State.walkGone_mem (s : State) (w) : (s.walkGone w).mem = s.mem := rfl

@[simp] theorem State.handLeaf_mem (s : State) (w l m) : (s.handLeaf w l m).mem = s.mem := by
  unfold State.handLeaf
  grind [State.modCore_mem, State.fill_mem]

theorem execTranslationWalk_wf (c va) (s : State) (hm : s.MemWf) : (execTranslationWalk c va s).MemWf := by
  unfold execTranslationWalk
  rw [Out.MemWf]
  split
  · exact hm
  extract_lets s1
  have h1 : s1.mem = s.mem := by
    unfold s1
    split
    · exact State.walkGone_mem _ _
    · rfl
  split
  · split
    · exact hm.of_mem h1
    split
    · exact hm.of_mem ((foldl_mem _ (fun s m => State.handLeaf_mem _ _ _ _) _ _).trans h1)
    · exact hm.of_mem ((State.fill_mem _ _ _ _).trans h1)
  · exact State.logAccess_wf _ _ _ _ _ (hm.of_mem h1)
  · exact hm.of_mem h1

@[simp] theorem State.modPageIn_mem (s : State) (i f) : (s.modPageIn i f).mem = s.mem := rfl

theorem execPageInFramePop_wf (i) (s : State) (hm : s.MemWf) : (execPageInFramePop i s).MemWf := by
  unfold execPageInFramePop
  grind [State.logAccess_wf, State.log_wf, State.modPageIn_mem, State.note_mem, State.writeBytes_wf, Out.MemWf]

theorem State.putLines_wf (s : State) (key k pa b) (hm : s.MemWf) : (s.putLines key k pa b).MemWf := by
  induction k generalizing s pa b with
  | zero => exact hm
  | succ k ih =>
    unfold State.putLines
    split
    · exact hm
    · exact ih _ _ _ (State.performScoped_wf _ _ _ _ hm)

theorem State.logCopyRefusal_wf (s : State) (x frame) (hm : s.MemWf) : (s.logCopyRefusal x frame).MemWf := by
  unfold State.logCopyRefusal
  grind [State.logAccess_wf]

@[simp] theorem State.pageAsked_mem (s : State) (x) : (s.pageAsked x).mem = s.mem := by
  unfold State.pageAsked
  grind [State.sendOut_mem]

theorem State.pageFails_wf (s : State) (n t) (hm : s.MemWf) : (s.pageFails n t).MemWf := by
  unfold State.pageFails
  grind [State.endUnresolved_wf, State.modCore_mem]

theorem State.coreHears_wf (s : State) (n x ok) (hm : s.MemWf) : (s.coreHears n x ok).MemWf := by
  unfold State.coreHears
  grind [State.setCore_mem, State.pageFails_wf, State.resolveSaved_wf, State.faultStep_wf, State.putComposite_wf]

theorem PageIn.tell_wf (x : PageIn) (ok) (s : State) (w) (hm : s.MemWf) : (PageIn.tell x ok s w).MemWf := by
  unfold PageIn.tell
  grind [State.coreHears_wf, State.modCore_mem, State.refuse_wf, State.withdraw_mem, State.stopWork_wf, State.releaseFault_wf, State.settleStream_wf,
    State.forgiveStream_wf, State.writebackRcb_wf, State.encoderStops_wf]

theorem State.endPageIn_wf (s : State) (i x ok) (hm : s.MemWf) : (s.endPageIn i x ok).MemWf := by
  unfold State.endPageIn
  exact foldl_wf _ (fun s w hs => PageIn.tell_wf _ _ _ _ hs) _ _ hm

@[simp] theorem State.returnFrame_mem (s : State) (x) : (s.returnFrame x).mem = s.mem := by
  unfold State.returnFrame
  grind [State.note_mem]

theorem execPageInComplete_wf (i ok) (s : State) (hm : s.MemWf) : (execPageInComplete i ok s).MemWf := by
  unfold execPageInComplete
  grind [State.endPageIn_wf, State.returnFrame_mem, State.logCopyRefusal_wf, State.putLines_wf, State.pageAsked_mem, State.recallLine_wf,
    State.performScoped_wf, State.forget_mem, State.note_mem, Out.MemWf]

end Sys2Proof.Machine
end

section
/-! SUPPORT for O58. What the functions of Machine/Registers.lean do to memory. -/

namespace Sys2Proof.Machine

@[simp] theorem State.regTouch_mem (s : State) (m off) : (s.regTouch m off).mem = s.mem := by
  unfold State.regTouch
  grind

@[simp] theorem State.regRead_mem (s : State) (m off len) : (s.regRead m off len).2.mem = s.mem := by
  unfold State.regRead
  exact foldl_mem _ (fun s o => by simp) _ _

@[simp] theorem State.invTake_mem (s : State) (d mbx) : (s.invTake d mbx).mem = s.mem := rfl

theorem State.ignored_wf (s : State) (m off cause) (hm : s.MemWf) : (s.ignored m off cause).MemWf := by
  unfold State.ignored
  grind [State.log_wf]

theorem State.withTrans_mem (s : State) (t : Trans) : State.mem { s with trans := t } = s.mem := rfl
theorem State.invSubmit_wf (s : State) (m seq) (hm : s.MemWf) : (s.invSubmit m seq).MemWf := by
  unfold State.invSubmit
  extract_lets d _ s1
  have h1 : s1.MemWf := hm.of_mem (State.withTrans_mem _ _)
  clear_value s1 d
  split
  · exact State.ignored_wf _ _ _ _ hm
  split
  · exact State.ignored_wf _ _ _ _ h1
  split
  · exact State.ignored_wf _ _ _ _ h1
  · exact h1.of_mem (State.invTake_mem _ _ _)

theorem execInvqSubmit_wf (m seq) (s : State) (hm : s.MemWf) : (execInvqSubmit m seq s).MemWf := by
  unfold execInvqSubmit
  grind [State.invSubmit_wf, Out.MemWf]

theorem State.mbxEnd_wf (s : State) (f k status result) (hm : s.MemWf) : (s.mbxEnd f k status result).MemWf := by
  unfold State.mbxEnd
  grind [State.writeBytes_wf, State.msix_mem]

theorem State.mbxDoneWith_wf (s : State) (f k result) (hm : s.MemWf) : (s.mbxDoneWith f k result).MemWf := by
  unfold State.mbxDoneWith
  grind [State.mbxEnd_wf]

theorem State.mbxRefuse_wf (s : State) (f k cause) (hm : s.MemWf) : (s.mbxRefuse f k cause).MemWf := by
  unfold State.mbxRefuse
  grind [State.mbxEnd_wf]

theorem State.mbxBusy_wf (s : State) (f k) (hm : s.MemWf) : (s.mbxBusy f k).MemWf := by
  unfold State.mbxBusy
  grind [State.mbxEnd_wf]

theorem execInvalidationAccept_wf (s : State) (hm : s.MemWf) : (execInvalidationAccept s).MemWf := by
  unfold execInvalidationAccept
  grind [State.forget_mem, State.mbxDoneWith_wf, Out.MemWf]

theorem execInvalidationComplete_wf (s : State) (hm : s.MemWf) : (execInvalidationComplete s).MemWf := by
  unfold execInvalidationComplete
  grind [State.note_mem, Out.MemWf]

theorem execAtsInvalidateRequest_wf (f base len) (s : State) (hm : s.MemWf) : (execAtsInvalidateRequest f base len s).MemWf := by
  unfold execAtsInvalidateRequest
  exact onlyIf_wf _ _ _ hm (foldl_wf _ (fun s i hs => by grind [State.performInFlight_wf]) _ _ hm)

theorem State.atSubmit_wf (s : State) (m v) (hm : s.MemWf) : (s.atSubmit m v).MemWf := by
  unfold State.atSubmit
  grind [State.ignored_wf]

theorem execAtupd_wf (m v) (s : State) (hm : s.MemWf) : (execAtupd m v s).MemWf := by
  unfold execAtupd
  grind [State.atSubmit_wf, Out.MemWf]

@[simp] theorem State.modUpd_mem (s : State) (f) : (s.modUpd f).mem = s.mem := rfl

@[simp] theorem State.targetLoads_mem (s : State) (target) : (s.targetLoads target).mem = s.mem := by
  unfold State.targetLoads
  grind [State.modUpd_mem]

theorem execAtupdDone_wf (s : State) (hm : s.MemWf) : (execAtupdDone s).MemWf := by
  unfold execAtupdDone
  grind [State.logAccess_wf, State.log_wf, State.modUpd_mem, State.setWindows_mem, Out.MemWf]

theorem State.doorbell_wf (s : State) (f v) (hm : s.MemWf) : (s.doorbell f v).MemWf := by
  unfold State.doorbell
  grind [State.mbxRefuse_wf]

theorem State.command_wf (s : State) (f k op cause) (eff : State → State) (h : s.MemWf) (he : (eff s).MemWf) : (s.command f k op cause eff).MemWf := by
  unfold State.command
  split
  · cases cause with
    | some c => exact State.mbxRefuse_wf _ _ _ _ h
    | none => exact he
  · exact h

theorem execQueueReg_wf (f slot) (s : State) (hm : s.MemWf) : (execQueueReg f slot s).MemWf := by
  unfold execQueueReg
  grind [State.command_wf, State.mbxBusy_wf, State.modQd_wf, State.mbxDoneWith_wf, State.noteRunnable_mem, Out.MemWf]

theorem execQueueUnreg_wf (f slot) (s : State) (hm : s.MemWf) : (execQueueUnreg f slot s).MemWf := by
  unfold execQueueUnreg
  grind [State.command_wf, State.mbxDoneWith_wf, State.unregQueue_wf, Out.MemWf]

theorem execQueueReset_wf (f slot) (s : State) (hm : s.MemWf) : (execQueueReset f slot s).MemWf := by
  unfold execQueueReset
  grind [State.command_wf, State.modQd_wf, State.mbxDoneWith_wf, State.noteRunnable_mem, Out.MemWf]

theorem execInvalidate_wf (f slot) (s : State) (hm : s.MemWf) : (execInvalidate f slot s).MemWf := by
  unfold execInvalidate
  grind [State.mbxRefuse_wf, State.log_wf, State.command_wf, State.mbxBusy_wf, State.invTake_mem, Out.MemWf]

theorem State.mbxBuffer_wf (s : State) (f k pa b result) (hm : s.MemWf) : (s.mbxBuffer f k pa b result).MemWf := by
  unfold State.mbxBuffer
  grind [State.mbxRefuse_wf, State.logAccess_wf, State.mbxDoneWith_wf, State.putLines_wf]

theorem execAttest_wf (f slot) (s : State) (hm : s.MemWf) : (execAttest f slot s).MemWf := by
  unfold execAttest
  grind [State.command_wf, State.mbxBuffer_wf, Out.MemWf]

theorem execLifetime_wf (f slot) (s : State) (hm : s.MemWf) : (execLifetime f slot s).MemWf := by
  unfold execLifetime
  grind [State.command_wf, State.mbxBuffer_wf, Out.MemWf]

theorem State.featackSet_wf (s : State) (f w v) (hm : s.MemWf) : (s.featackSet f w v).MemWf := by
  unfold State.featackSet
  grind [State.ignored_wf]

theorem execFeatackWrite_wf (f w v) (s : State) (hm : s.MemWf) : (execFeatackWrite f w v s).MemWf := by
  unfold execFeatackWrite
  grind [onlyIf_wf, State.featackSet_wf, Out.MemWf]

theorem execMbxDoneRead_wf (f) (s : State) (hm : s.MemWf) : (execMbxDoneRead f s).MemWf := by
  unfold execMbxDoneRead
  grind [onlyIf_wf, State.note_mem, State.regTouch_mem, Out.MemWf]

theorem State.slotCtlSet_wf (s : State) (k v) (hm : s.MemWf) : (s.slotCtlSet k v).MemWf := by
  unfold State.slotCtlSet
  grind [State.logQueue_wf, State.mapSlot_wf, State.unmapSlot_wf]

theorem State.feSet_wf (s : State) (m off v) (hm : s.MemWf) : (s.feSet m off v).MemWf := by
  unfold State.feSet
  grind [State.featackSet_wf, State.doorbell_wf, State.slotCtlSet_wf]

theorem State.transSet_wf (s : State) (off v) (hm : s.MemWf) : (s.transSet off v).MemWf := by
  unfold State.transSet
  grind [State.invSubmit_wf, State.atSubmit_wf, State.ignored_wf]

theorem State.withRas_mem (s : State) (r : Ras) : State.mem { s with ras := r } = s.mem := rfl
@[simp] theorem State.rasSet_mem (s : State) (off v) : (s.rasSet off v).mem = s.mem := by
  generalize h : State.rasSet = g
  delta State.rasSet at h
  subst h
  beta_reduce
  obtain ⟨k, hk⟩ : ∃ k, off - 0x200000 = k := ⟨_, rfl⟩
  rw [hk]
  extract_lets r
  split
  · exact State.withRas_mem _ _
  · split
    · rfl
    · exact State.withRas_mem _ _
  · exact State.withRas_mem _ _
  · rfl

theorem State.regSet_wf (s : State) (m off v) (hm : s.MemWf) : (s.regSet m off v).MemWf := by
  unfold State.regSet
  grind [State.ignored_wf, State.feSet_wf, State.transSet_wf, State.rasSet_mem]

theorem State.mbxPut_wf (s : State) (m off b) (hm : s.MemWf) : (s.mbxPut m off b).MemWf := by
  induction b generalizing s off with
  | nil => exact hm
  | cons x t ih =>
    unfold State.mbxPut
    exact ih _ _ (by grind [State.writeBytes_wf])

theorem State.regWrite_wf (s : State) (m off data) (hm : s.MemWf) : (s.regWrite m off data).MemWf := by
  unfold State.regWrite
  split
  · split
    · exact State.mbxPut_wf _ _ _ _ hm
    · exact hm
  · exact foldl_wf _ (fun s o hs => State.regSet_wf _ _ _ _ hs) _ _ hm

theorem execRegisterWrite_wf (m off v) (s : State) (hm : s.MemWf) : (execRegisterWrite m off v s).MemWf := by
  unfold execRegisterWrite
  grind [State.logAccess_wf, State.regWrite_wf, State.regSet_wf, Out.MemWf]

theorem State.recall_wf (s : State) (pa len m) (hm : s.MemWf) : (s.recall pa len m).MemWf := by
  unfold State.recall
  exact foldl_wf _ (fun s k hs => foldl_wf _ (fun s c hs => State.writeBack_wf _ _ _ _ hs) _ _ hs) _ _ hm

theorem State.logOutside_wf (s : State) (m pa len) (hm : s.MemWf) : (s.logOutside m pa len).MemWf := by
  unfold State.logOutside
  grind [State.logDemand_wf]

theorem State.posted_wf (s : State) (port m pa b) (hm : s.MemWf) : (s.posted port m pa b).MemWf := by
  unfold State.posted
  grind [State.putLines_wf, State.recall_wf, State.carryRels_mem]

@[simp] theorem State.complete_mem (s : State) (f b poison) : (s.complete f b poison).mem = s.mem := rfl

theorem execHostInboundRead_wf (f bar off len) (s : State) (hm : s.MemWf) : (execHostInboundRead f bar off len s).MemWf := by
  unfold execHostInboundRead
  extract_lets m
  have hc (t : State) (ht : t.MemWf) (b p) : (t.complete f b p).MemWf := ht.of_mem (State.complete_mem _ _ _ _)
  rw [Out.MemWf]
  split
  · exact hm
  split
  · exact hc _ hm _ _
  split
  · split
    · exact hc _ (State.logAccess_wf _ _ _ _ _ hm) _ _
    · exact hc _ (hm.of_mem (State.regRead_mem _ _ _ _)) _ _
  · exact hc _ hm _ _
  · exact hc _ (State.logOutside_wf _ _ _ _ hm) _ _
  · split
    · exact hc _ (State.logAccess_wf _ _ _ _ _ hm) _ _
    · exact hc _ (State.logOutside_wf _ _ _ _ (State.recall_wf _ _ _ _ hm)) _ _
  · exact hc _ hm _ _
  · exact hc _ (State.logAccess_wf _ _ _ _ _ hm) _ _
  · refine hc _ ?_ _ _
    split
    · exact State.logAccess_wf _ _ _ _ _ hm
    · exact hm

theorem State.hostWake_wf (s : State) (q) (hm : s.MemWf) : (s.hostWake q).MemWf := by
  unfold State.hostWake
  grind [State.drainLatch_wf, State.latchWake_wf, State.wakeNow_wf]

theorem State.hostQd_wf (s : State) (f q at' data) (hm : s.MemWf) : (s.hostQd f q at' data).MemWf := by
  unfold State.hostQd
  grind [State.noteRunnable_mem, State.performScoped_wf]

theorem execHostInboundWrite_wf (f bar off data) (s : State) (hm : s.MemWf) : (execHostInboundWrite f bar off data s).MemWf := by
  unfold execHostInboundWrite
  grind [State.note_mem, State.logAccess_wf, State.regWrite_wf, State.hostWake_wf, State.drainLatch_wf, State.hostQd_wf, State.posted_wf, Out.MemWf]

theorem State.peerRefused_wf (s : State) (peer m kind pa target) (hm : s.MemWf) : (s.peerRefused peer m kind pa target).MemWf := by
  unfold State.peerRefused
  grind [State.logAccess_wf, State.note_mem]

theorem execPeerInboundRequest_wf (port rid off len data) (s : State) (hm : s.MemWf) : (execPeerInboundRequest port rid off len data s).MemWf := by
  unfold execPeerInboundRequest
  grind [State.peerRefused_wf, State.posted_wf, State.recall_wf, State.note_mem, State.logOutside_wf, Out.MemWf]

end Sys2Proof.Machine
end

section
/-! SUPPORT for O58. What the functions of Machine/Inputs.lean do to memory. -/

namespace Sys2Proof.Machine

@[simp] theorem State.tick_mem (s : State) (ns) : (s.tick ns).mem = s.mem := rfl

@[simp] theorem State.setVf_mem (s : State) (vf on) : (s.setVf vf on).mem = s.mem := by
  unfold State.setVf
  grind [State.setWindows_mem, State.makeRoot_mem]

theorem State.logCorrected_wf (s : State) (pa m) (hm : s.MemWf) : (s.logCorrected pa m).MemWf := by
  unfold State.logCorrected
  grind [State.log_wf]

@[simp] theorem State.strike_mem (s : State) (pa tag) : (s.strike pa tag).mem = s.mem := by
  unfold State.strike
  grind [State.setPoison_mem]

theorem State.logCoreCorrected_wf (s : State) (n imem) (hm : s.MemWf) : (s.logCoreCorrected n imem).MemWf := by
  unfold State.logCoreCorrected
  grind [State.log_wf]

theorem State.settleScrub_wf (s : State) (hm : s.MemWf) : s.settleScrub.MemWf := by
  unfold State.settleScrub
  grind [State.logAccess_wf, State.setPoison_mem]

theorem State.input_wf (s : State) (x) (hm : s.MemWf) : (s.input x).MemWf := by
  cases x with
  | event | focus | hold | upset | powerState | atsEnable | acsControl | temperature | sbFlash
    | l1Parity | accError | fifoError | atsAnswer | assignPages | evictStamp | trainingBegins | selfTest => exact hm
  | issue n q => exact State.issueHead_wf _ _ _ hm
  | overlap n q q' l => exact State.overlap_wf _ _ _ _ _ hm
  | tick ns => exact hm.of_mem (State.tick_mem _ _)
  | poke pa b => exact State.MemWf.ite (State.writeBytes_wf _ _ _ hm) hm
  | poison pa tag => exact foldl_wf _ (fun s n hs => State.saveStruck_wf _ _ _ hs) _ _ (hm.of_mem (State.strike_mem _ _ _))
  | badDirty line => exact State.MemWf.ite hm hm
  | vfEnable vf on => exact hm.of_mem (State.setVf_mem _ _ _)
  | ptmEnable p on => exact State.MemWf.ite hm hm
  | sbRead a off => exact State.MemWf.ite hm hm
  | sbWrite a off v => exact State.MemWf.ite (State.sbWrite_wf _ _ _ hm) hm
  | corrected pa m => exact State.logCorrected_wf _ _ _ hm
  | coreCorrected n imem => exact State.logCoreCorrected_wf _ _ _ hm
  | walkBegins n va => exact hm.of_mem (State.walkBegins_mem _ _ _)
  | targetLoads t => exact State.MemWf.ite (hm.of_mem (State.targetLoads_mem _ _)) hm
  | queuePrio q v => exact State.MemWf.ite hm (State.modQd_wf _ _ _ hm)
  | queueErrvec q v => exact State.MemWf.ite hm (State.modQd_wf _ _ _ hm)
  | pwakeSwap q => exact State.pwakeSwap_wf _ _ hm
  | scrubWriteBack => exact State.settleScrub_wf _ hm
  | combine i j => exact hm.of_mem (State.combine_mem _ _ _)
  | fetchGranule p l g => exact hm.of_mem (State.fetchGranule_mem _ _ _ _)

end Sys2Proof.Machine
end

section
/-! SUPPORT for O58. What the functions of Machine/Ras.lean do to memory. -/

namespace Sys2Proof.Machine

theorem State.scrubLog_wf (s : State) (pa cls d0 d1 companion) (hm : s.MemWf) : (s.scrubLog pa cls d0 d1 companion).MemWf := by
  unfold State.scrubLog
  grind [State.log_wf]

@[simp] theorem State.passed_mem (s : State) (pa) : (s.passed pa).mem = s.mem := by
  unfold State.passed
  grind

theorem State.scrubAsk_wf (s : State) (right a) (f : State → State) (h : s.MemWf) (hf : (f s).MemWf) : (s.scrubAsk right a f).MemWf := by
  unfold State.scrubAsk
  grind [State.logAccess_wf]

@[simp] theorem State.scrubPoison_mem (s : State) (a) : (s.scrubPoison a).mem = s.mem := rfl

theorem execScrubLine_wf (pa finding) (s : State) (hm : s.MemWf) : (execScrubLine pa finding s).MemWf := by
  unfold execScrubLine
  grind [State.settleScrub_wf, State.recallLine_wf, State.scrubAsk_wf, State.passed_mem, State.scrubLog_wf, State.scrubPoison_mem, Out.MemWf]

theorem execCrewCacheEviction_wf (crew line) (s : State) (hm : s.MemWf) : (execCrewCacheEviction crew line s).MemWf := by
  unfold execCrewCacheEviction
  grind [State.writeBack_wf, Out.MemWf]

theorem State.predfail_wf (s : State) (d count) (hm : s.MemWf) : (s.predfail d count).MemWf := by
  unfold State.predfail
  grind [State.modBoard_mem, State.log_wf]

theorem execGovernorWindow_wf (dom count) (s : State) (hm : s.MemWf) : (execGovernorWindow dom count s).MemWf := by
  unfold execGovernorWindow
  grind [State.modBoard_mem, State.log_wf, onlyIf_wf, State.predfail_wf, Out.MemWf]

end Sys2Proof.Machine
end

section
/-! SUPPORT for O58. What the functions of Machine/VectorWords.lean do to memory. -/

namespace Sys2Proof.Machine

theorem viWord_wf (op t g d a b) (s : State) (hm : s.MemWf) : (viWord op t g d a b s).MemWf := by
  unfold viWord
  grind [xWord_wf]

theorem visWord_wf (op t g d a b) (s : State) (hm : s.MemWf) : (visWord op t g d a b s).MemWf := by
  unfold visWord
  grind [xWord_wf]

theorem vfWord_wf (op t g d a b) (s : State) (hm : s.MemWf) : (vfWord op t g d a b s).MemWf := by
  unfold vfWord
  grind [xWord_wf]

theorem vfsWord_wf (op t g d a b) (s : State) (hm : s.MemWf) : (vfsWord op t g d a b s).MemWf := by
  unfold vfsWord
  grind [xWord_wf]

theorem vfsignWord_wf (neg t g d a) (s : State) (hm : s.MemWf) : (vfsignWord neg t g d a s).MemWf := by
  unfold vfsignWord
  grind [xWord_wf]

theorem vfmaWord_wf (op t g d a b) (s : State) (hm : s.MemWf) : (vfmaWord op t g d a b s).MemWf := by
  unfold vfmaWord
  grind [xWord_wf]

theorem vcmpWord_wf (op float t g d a b) (s : State) (hm : s.MemWf) : (vcmpWord op float t g d a b s).MemWf := by
  unfold vcmpWord
  grind [xWord_wf]

theorem vcmpsWord_wf (op float t g d a b) (s : State) (hm : s.MemWf) : (vcmpsWord op float t g d a b s).MemWf := by
  unfold vcmpsWord
  grind [xWord_wf]

theorem kWord_wf (op t d a b) (s : State) (hm : s.MemWf) : (kWord op t d a b s).MemWf := by
  unfold kWord
  grind [xWord_wf]

theorem cvtWord_wf (op t g d a r m) (s : State) (hm : s.MemWf) : (cvtWord op t g d a r m s).MemWf := by
  unfold cvtWord
  grind [xWord_wf]

theorem permSWord_wf (op t g d a b) (s : State) (hm : s.MemWf) : (permSWord op t g d a b s).MemWf := by
  unfold permSWord
  grind [xWord_wf]

theorem permVWord_wf (op t g d a b) (s : State) (hm : s.MemWf) : (permVWord op t g d a b s).MemWf := by
  unfold permVWord
  grind [xWord_wf]

theorem redVWord_wf (op float rows t g d a) (s : State) (hm : s.MemWf) : (redVWord op float rows t g d a s).MemWf := by
  unfold redVWord
  grind [xWord_wf]

theorem sfWord_wf (op t g d a) (s : State) (hm : s.MemWf) : (sfWord op t g d a s).MemWf := by
  unfold sfWord
  grind [xWord_wf]

theorem mvWord_wf (op t g d a b ss lim v) (s : State) (hm : s.MemWf) : (mvWord op t g d a b ss lim v s).MemWf := by
  unfold mvWord
  grind [xWord_wf]

end Sys2Proof.Machine
end

section
/-! SUPPORT for O58. What the functions of Machine/Fetch.lean do to memory. -/

namespace Sys2Proof.Machine

theorem State.fetch_wf (s : State) (hm : s.MemWf) : s.fetch.MemWf := by
  unfold State.fetch
  grind [takeTrap_wf, State.modCur_mem, illegalNow_wf, Turn.MemWf]

theorem State.turn_wf (s : State) (hm : s.MemWf) : s.turn.MemWf := by
  unfold State.turn
  grind [State.modCore_mem, State.issueHead_wf, State.fetch_wf, Turn.MemWf]

end Sys2Proof.Machine
end

section
/-! O58: every instruction, and with it every step, keeps memory canonical. -/

namespace Sys2Proof.Machine

/-- Every instruction keeps memory canonical: the words by their shapes, the events one by one. -/
theorem exec_wf (i : Instr) (s : State) (hm : s.MemWf) : Out.MemWf (exec i s) := by
  cases i with
  | add | sub | and | or | xor | sll | srl | sra | min | max | minN | maxN | addSat | subSat | andn | ror | mul | mulh | mulhN | div | divN | rem |
    remN => exact alu2_wf (hm := hm) ..
  | addi | andi | ori | xori | slli | srli | srai | rori => exact immWord_wf (hm := hm) ..
  | clz | ctz | cpop | sextB | sextH | sextW | zextB | zextH | zextW => exact alu1_wf (hm := hm) ..
  | lim => exact limWord_wf (hm := hm) ..
  | ext => exact execExt_wf (hm := hm) ..
  | cmpEq | cmpNe | cmpLt | cmpGe | cmpLtN | cmpGeN | tbit => exact cmp2_wf (hm := hm) ..
  | pand | por | pxor | pandn | pnot | pset | pclr => exact plog_wf (hm := hm) ..
  | br => exact execBr_wf (hm := hm) ..
  | call => exact execCall_wf (hm := hm) ..
  | jmp | ret | callr => exact transfer_wf (hm := hm) ..
  | loop => exact execLoop_wf (hm := hm) ..
  | brl => exact execBrl_wf (hm := hm) ..
  | rot => exact execRot_wf (hm := hm) ..
  | yield => exact execYield_wf (hm := hm) ..
  | tail => exact execTail_wf (hm := hm) ..
  | lcset => exact execLcset_wf (hm := hm) ..
  | lcrd => exact execLcrd_wf (hm := hm) ..
  | mfs => exact execMfs_wf (hm := hm) ..
  | mts => exact execMts_wf (hm := hm) ..
  | trap => exact execTrap_wf (hm := hm) ..
  | eret => exact execEret_wf (hm := hm) ..
  | tsm => exact execTsm_wf (hm := hm) ..
  | fenceRel | fenceAcq | fenceAr => exact fenceWord_wf (hm := hm) ..
  | barWait => exact execBarWait_wf (hm := hm) ..
  | blaze => exact execBlaze_wf (hm := hm) ..
  | join => exact execJoin_wf (hm := hm) ..
  | tlwait => exact execTlwait_wf (hm := hm) ..
  | tlrd => exact execTlrd_wf (hm := hm) ..
  | enq => exact execEnq_wf (hm := hm) ..
  | scopeLd => exact execScopeLd_wf (hm := hm) ..
  | cinv => exact execCinv_wf (hm := hm) ..
  | vset | vsetMax => exact vsetWord_wf (hm := hm) ..
  | ldBG | ldHG | ldWG | ldDG | ldBNG | ldHNG | ldWNG | ldBX | ldHX | ldWX | ldDX | ldBNX | ldHNX | ldWNX | ldBL | ldHL | ldWL | ldDL | ldBNL | ldHNL
    | ldWNL => exact loadImm_wf (hm := hm) ..
  | ldBGRr | ldHGRr | ldWGRr | ldDGRr | ldBXRr | ldHXRr | ldWXRr | ldDXRr | ldBLRr | ldHLRr | ldWLRr | ldDLRr => exact loadRr_wf (hm := hm) ..
  | vldG | vldsG | vldxG | vldFfG | vldX | vldsX | vldxX | vldFfX | vldL | vldsL | vldxL | vldFfL => exact vloadWord_wf (hm := hm) ..
  | ldcB | ldcH | ldcW | ldcD | ldcBN | ldcHN | ldcWN => exact ldcImm_wf (hm := hm) ..
  | cpy | cpyA | cpyB => exact cpyWord_wf (hm := hm) ..
  | flgetX => exact execFlgetX_wf (hm := hm) ..
  | flgetV => exact execFlgetV_wf (hm := hm) ..
  | ring => exact execRing_wf (hm := hm) ..
  | pfL1 | pfCrew | lrenew => exact hintImm_wf (hm := hm) ..
  | vadd | vsub | vmul | vmulh | vand | vor | vxor | vsll | vsrl | vsra | vmin | vmax | vminN | vmaxN | vaddSat | vsubSat =>
    exact viWord_wf (hm := hm) ..
  | vaddS | vsubS | vrsubS | vmulS | vandS | vorS | vxorS | vsllS | vsrlS | vsraS | vminS | vmaxS | vminNS | vmaxNS | vaddSatS | vaddSatNS =>
    exact visWord_wf (hm := hm) ..
  | vfadd | vfsub | vfmul | vfmin | vfmax => exact vfWord_wf (hm := hm) ..
  | vfabs | vfneg => exact vfsignWord_wf (hm := hm) ..
  | vfaddS | vfmulS | vfminS | vfmaxS => exact vfsWord_wf (hm := hm) ..
  | vfma | vfms | vfnms | vfnma => exact vfmaWord_wf (hm := hm) ..
  | vfmaS | vmacc | vmaccS | vtr16 => exact xWord_wf (hm := hm) ..
  | vcmpEq | vcmpNe | vcmpLt | vcmpLe | vcmpLtN | vcmpLeN | vfcmpEq | vfcmpLt | vfcmpLe | vfcmpUn => exact vcmpWord_wf (hm := hm) ..
  | vcmpEqS | vcmpLtS | vcmpGtS | vfcmpLtS | vfcmpGtS => exact vcmpsWord_wf (hm := hm) ..
  | kand | kor | kxor | kandn | knot | kset | kclr => exact kWord_wf (hm := hm) ..
  | vcvtF32 | vcvtBf16 | vcvtF16 | vcvtE4m3 | vcvtE5m2 | vcvtE2m1 | vcvtEfE4m3 | vcvtEfE2m1 | vcvtEfBf16 | vwidE4m3 | vwidE5m2 | vwidE2m1 | vcvtFI |
    vcvtFN | vcvtIF | vcvtNF => exact cvtWord_wf (hm := hm) ..
  | vslideup | vslidedn | vbcastC | vrotR | vbcastR => exact permSWord_wf (hm := hm) ..
  | vgatherC | vgatherR => exact permVWord_wf (hm := hm) ..
  | vredsumC | vredmaxC | vredminC | vredmaxNC | vfredsumC | vfredmaxC | vfredminC | vredsumR | vredmaxR | vredminR | vredmaxNR | vfredsumR |
    vfredmaxR | vfredminR | vredminNC | vredminNR => exact redVWord_wf (hm := hm) ..
  | vexp2 | vlog2 | vrcp | vrsqrt | vtanh => exact sfWord_wf (hm := hm) ..
  | vmov | vmovS | vsel | vmovk | vmovv | vid | vrid | vmovi => exact mvWord_wf (hm := hm) ..
  | mcfg => exact execMcfg_wf (hm := hm) ..
  | mcfgz => exact cfgWord_wf (hm := hm) ..
  | mgo => exact execMgo_wf (hm := hm) ..
  | mstat | ftmon | cwb | cev | l1inv => exact gWord_wf (hm := hm) ..
  | accrd => exact execAccrd_wf (hm := hm) ..
  | acczero => exact execAcczero_wf (hm := hm) ..
  | accwr => exact execAccwr_wf (hm := hm) ..
  | wcfg => exact execWcfg_wf (hm := hm) ..
  | wgo => exact execWgo_wf (hm := hm) ..
  | ftld => exact execFtld_wf (hm := hm) ..
  | ftclr => exact execFtclr_wf (hm := hm) ..
  | ftrd => exact execFtrd_wf (hm := hm) ..
  | stBG | stHG | stWG | stDG | stBX | stHX | stWX | stDX | stBL | stHL | stWL | stDL => exact storeImm_wf (hm := hm) ..
  | stBGRr | stHGRr | stWGRr | stDGRr | stBXRr | stHXRr | stWXRr | stDXRr | stBLRr | stHLRr | stWLRr | stDLRr => exact storeRr_wf (hm := hm) ..
  | vstG | vstsG | vstxG | vstNtG | vstX | vstsX | vstxX | vstL | vstsL | vstxL => exact vstoreWord_wf (hm := hm) ..
  | amoLdW | amoStW | amoSwapW | amoCasW | amoAddW | amoOrW | amoMinW | amoMaxW | amoLdD | amoStD | amoSwapD | amoCasD | amoAddD | amoOrD | amoMinD |
    amoMaxD => exact amoWord_wf (hm := hm) ..
  | redAddW | redAddD | redAddF32 | redMinW | redMaxW | redOrD => exact redWord_wf (hm := hm) ..
  | lupd => exact execLupd_wf (hm := hm) ..
  | flput => exact execFlput_wf (hm := hm) ..
  | push => exact execPush_wf (hm := hm) ..
  | barArrive => exact execBarArrive_wf (hm := hm) ..
  | coldReset => exact execColdReset_wf (hm := hm) ..
  | coldrst => exact execColdrst_wf (hm := hm) ..
  | warmReset => exact execWarmReset_wf (hm := hm) ..
  | firmwareWatchdogExpiry => exact execFirmwareWatchdogExpiry_wf (hm := hm) ..
  | portReset => exact execPortReset_wf (hm := hm) ..
  | functionLevelResetVf => exact execFunctionLevelResetVf_wf (hm := hm) ..
  | functionLevelResetPf => exact execFunctionLevelResetPf_wf (hm := hm) ..
  | pufReconstruction => exact execPufReconstruction_wf (hm := hm) ..
  | linkTraining => exact execLinkTraining_wf (hm := hm) ..
  | slotVerification => exact execSlotVerification_wf (hm := hm) ..
  | memoryTraining => exact execMemoryTraining_wf (hm := hm) ..
  | deviceReady => exact execDeviceReady_wf (hm := hm) ..
  | powerSample => exact execPowerSample_wf (hm := hm) ..
  | arithClockStepDone => exact execArithClockStepDone_wf (hm := hm) ..
  | junctionThrottle => exact execJunctionThrottle_wf (hm := hm) ..
  | throttleRelease => exact execThrottleRelease_wf (hm := hm) ..
  | thermalTrip => exact execThermalTrip_wf (hm := hm) ..
  | entdaa => exact execEntdaa_wf (hm := hm) ..
  | sbLimitWrite => exact execSbLimitWrite_wf (hm := hm) ..
  | sbMeasRead => exact execSbMeasRead_wf (hm := hm) ..
  | lifetimeRecordTimer => exact execLifetimeRecordTimer_wf (hm := hm) ..
  | cxlLinkLoss => exact execCxlLinkLoss_wf (hm := hm) ..
  | ptmDialog => exact execPtmDialog_wf (hm := hm) ..
  | tbStepsRead => exact execTbStepsRead_wf (hm := hm) ..
  | atsInvalidateRequest => exact execAtsInvalidateRequest_wf (hm := hm) ..
  | hostInboundRead => exact execHostInboundRead_wf (hm := hm) ..
  | hostInboundWrite => exact execHostInboundWrite_wf (hm := hm) ..
  | peerInboundRequest => exact execPeerInboundRequest_wf (hm := hm) ..
  | registerWrite => exact execRegisterWrite_wf (hm := hm) ..
  | featackWrite => exact execFeatackWrite_wf (hm := hm) ..
  | mbxDoneRead => exact execMbxDoneRead_wf (hm := hm) ..
  | queueReg => exact execQueueReg_wf (hm := hm) ..
  | queueUnreg => exact execQueueUnreg_wf (hm := hm) ..
  | queueReset => exact execQueueReset_wf (hm := hm) ..
  | invalidate => exact execInvalidate_wf (hm := hm) ..
  | attest f k => exact execAttest_wf f k s hm
  | lifetime f k => exact execLifetime_wf f k s hm
  | invqSubmit => exact execInvqSubmit_wf (hm := hm) ..
  | invalidationAccept => exact execInvalidationAccept_wf (hm := hm) ..
  | invalidationComplete => exact execInvalidationComplete_wf (hm := hm) ..
  | atupd => exact execAtupd_wf (hm := hm) ..
  | atupdDone => exact execAtupdDone_wf (hm := hm) ..
  | slotMap => exact execSlotMap_wf (hm := hm) ..
  | slotUnmap => exact execSlotUnmap_wf (hm := hm) ..
  | unmapSaveComplete => exact execUnmapSaveComplete_wf (hm := hm) ..
  | queueWake => exact execQueueWake_wf (hm := hm) ..
  | frontEndClockGate => exact execFrontEndClockGate_wf (hm := hm) ..
  | frontEndUngate => exact execFrontEndUngate_wf (hm := hm) ..
  | waitRecordEval => exact execWaitRecordEval_wf (hm := hm) ..
  | packetFetch => exact execPacketFetch_wf (hm := hm) ..
  | nop => exact execNop_wf (hm := hm) ..
  | launch => exact execLaunch_wf (hm := hm) ..
  | bundle => exact execBundle_wf (hm := hm) ..
  | ib => exact execIb_wf (hm := hm) ..
  | pred => exact execPred_wf (hm := hm) ..
  | loopPacket => exact execLoopPacket_wf (hm := hm) ..
  | ffence => exact execFfence_wf (hm := hm) ..
  | tlsig => exact execTlsig_wf (hm := hm) ..
  | tlwaitPacket => exact execTlwaitPacket_wf (hm := hm) ..
  | tlwaitSatisfied => exact execTlwaitSatisfied_wf (hm := hm) ..
  | tlwaitExpired => exact execTlwaitExpired_wf (hm := hm) ..
  | write => exact execWrite_wf (hm := hm) ..
  | streamCreate => exact execStreamCreate_wf (hm := hm) ..
  | streamStart => exact execStreamStart_wf (hm := hm) ..
  | streamStop => exact execStreamStop_wf (hm := hm) ..
  | streamSetrung => exact execStreamSetrung_wf (hm := hm) ..
  | streamDestroy => exact execStreamDestroy_wf (hm := hm) ..
  | regionCreate => exact execRegionCreate_wf (hm := hm) ..
  | regionModify => exact execRegionModify_wf (hm := hm) ..
  | regionQuiesce => exact execRegionQuiesce_wf (hm := hm) ..
  | regionDestroy => exact execRegionDestroy_wf (hm := hm) ..
  | mark => exact execMark_wf (hm := hm) ..
  | copy => exact execCopy_wf (hm := hm) ..
  | workPacketComplete => exact execWorkPacketComplete_wf (hm := hm) ..
  | devqDispatch => exact execDevqDispatch_wf (hm := hm) ..
  | translationWalk => exact execTranslationWalk_wf (hm := hm) ..
  | pageInFramePop => exact execPageInFramePop_wf (hm := hm) ..
  | pageInComplete => exact execPageInComplete_wf (hm := hm) ..
  | frameRelease => exact execFrameRelease_wf (hm := hm) ..
  | slackEvaluation => exact execSlackEvaluation_wf (hm := hm) ..
  | frameDeadline => exact execFrameDeadline_wf (hm := hm) ..
  | frameJobFinish => exact execFrameJobFinish_wf (hm := hm) ..
  | encoderTilePop => exact execEncoderTilePop_wf (hm := hm) ..
  | encoderTileFill => exact execEncoderTileFill_wf (hm := hm) ..
  | encoderFrameDone => exact execEncoderFrameDone_wf (hm := hm) ..
  | operatorAccept => exact execOperatorAccept_wf (hm := hm) ..
  | tileStepPlace => exact execTileStepPlace_wf (hm := hm) ..
  | tileStepStart => exact execTileStepStart_wf (hm := hm) ..
  | overlayLoad => exact execOverlayLoad_wf (hm := hm) ..
  | tileStepRetire => exact execTileStepRetire_wf (hm := hm) ..
  | cruiserReplay => exact execCruiserReplay_wf (hm := hm) ..
  | coreIdleZeroing => exact execCoreIdleZeroing_wf (hm := hm) ..
  | starvationPromotion => exact execStarvationPromotion_wf (hm := hm) ..
  | rcbWriteback => exact execRcbWriteback_wf (hm := hm) ..
  | forcedPreemption => exact execForcedPreemption_wf (hm := hm) ..
  | contextSaveComplete => exact execContextSaveComplete_wf (hm := hm) ..
  | contextDrain => exact execContextDrain_wf (hm := hm) ..
  | contextReadback => exact execContextReadback_wf (hm := hm) ..
  | partitionSwapOut => exact execPartitionSwapOut_wf (hm := hm) ..
  | partitionSwapIn => exact execPartitionSwapIn_wf (hm := hm) ..
  | contextResume => exact execContextResume_wf (hm := hm) ..
  | scrubLine => exact execScrubLine_wf (hm := hm) ..
  | crewCacheEviction => exact execCrewCacheEviction_wf (hm := hm) ..
  | governorWindow => exact execGovernorWindow_wf (hm := hm) ..
  | clockHorizonAdvance => exact execClockHorizonAdvance_wf (hm := hm) ..
  | memoryAccessPerform => exact execMemoryAccessPerform_wf (hm := hm) ..
  | consumedUe => exact execConsumedUe_wf (hm := hm) ..
  | trapDetect => exact execTrapDetect_wf (hm := hm) ..
  | freezeComplete => exact execFreezeComplete_wf (hm := hm) ..
  | systemTrapResolve => exact execSystemTrapResolve_wf (hm := hm) ..
  | systemTrapTimeout => exact execSystemTrapTimeout_wf (hm := hm) ..
  | boundedWaitExpiry => exact execBoundedWaitExpiry_wf (hm := hm) ..
  | arrivalReceive => exact execArrivalReceive_wf (hm := hm) ..
  | handlerStart => exact execHandlerStart_wf (hm := hm) ..
  | copyCommandFinish => exact execCopyCommandFinish_wf (hm := hm) ..
  | deferredPageDelivery => exact execDeferredPageDelivery_wf (hm := hm) ..
  | sendFinish => exact execSendFinish_wf (hm := hm) ..
  | ackWriteFinish => exact execAckWriteFinish_wf (hm := hm) ..
  | mgoAccept => exact execMgoAccept_wf (hm := hm) ..
  | matrixChunkPass => exact execMatrixChunkPass_wf (hm := hm) ..
  | windowBlockPush => exact execWindowBlockPush_wf (hm := hm) ..
  | ringShift => exact execRingShift_wf (hm := hm) ..
  | configurationRequest => exact execConfigurationRequest_wf (hm := hm) ..
  | powerLoss => exact execPowerLoss_wf (hm := hm) ..
  | orderlyShutdown => exact execOrderlyShutdown_wf (hm := hm) ..

theorem exec_next_wf (i : Instr) (s : State) (hm : s.MemWf) {t : State} (ht : exec i s = .next t) : t.MemWf := by
  have h := exec_wf i s hm
  rw [ht] at h
  exact h

/-- Settles O58: the reset of a device, an input, a turn or an instruction is a composition of writes to memory, and each keeps the canonical form. -/
theorem everyStepKeepsMemoryCanonical : Obligations.EveryStepKeepsMemoryCanonical := by
  intro s t hm ht
  unfold step at ht
  split at ht
  · cases ht
  split at ht
  · next i rest _ => exact exec_next_wf i { s with agenda := rest } hm ht
  · cases ht
    exact State.input_wf _ _ hm
  · have h := State.turn_wf s hm
    split at ht
    · next hs =>
      cases ht
      rw [hs] at h
      exact h
    · exact exec_next_wf _ _ hm ht

end Sys2Proof.Machine
end

section
/-! SUPPORT for O22. What the strand may access stays as a word goes into a queue (R36, R37). -/

namespace Sys2Proof.Machine

theorem State.walkFrom_setCore (s : State) (n c va k t) : (s.setCore n c).walkFrom va k t = s.walkFrom va k t := by
  induction k generalizing t with
  | zero => rfl
  | succ k ih => simp only [State.walkFrom, ih]; rfl

theorem State.translate_setCore (s : State) (n c tlb root asid va kind) : (s.setCore n c).translate tlb root asid va kind = s.translate tlb root asid va kind := by
  simp only [State.translate, State.walked, State.walk, State.walkFrom_setCore]; rfl

theorem State.translate_modCore (s : State) (n f tlb root asid va kind) : (s.modCore n f).translate tlb root asid va kind = s.translate tlb root asid va kind :=
  State.translate_setCore s n _ tlb root asid va kind

theorem State.missWaits_modCore (s : State) (n f va) (hc : (f s.cores[n]).ctx = s.cores[n].ctx) : (s.modCore n f).missWaits n va = s.missWaits n va := by
  simp only [State.missWaits, State.modCore_core, hc]; rfl

theorem State.coreTranslate_modCore (s : State) (n f va kind) (hm : (f s.cores[n]).mem = s.cores[n].mem) (hc : (f s.cores[n]).ctx = s.cores[n].ctx) :
    (s.modCore n f).coreTranslate n va kind = s.coreTranslate n va kind := by
  simp only [State.coreTranslate, State.modCore_core, hm, hc, State.missWaits_modCore s n f va hc, State.translate_modCore]; rfl

theorem State.globalPiece_modCore (s : State) (n f q st seq kind a) (hm : (f s.cores[n]).mem = s.cores[n].mem) (hc : (f s.cores[n]).ctx = s.cores[n].ctx) :
    (s.modCore n f).globalPiece n q st seq kind a = s.globalPiece n q st seq kind a := by
  simp only [State.globalPiece, State.coreTranslate_modCore s n f _ kind hm hc]; rfl

theorem State.landingPiece_modCore (s : State) (n f q st seq kind a) (hc : (f s.cores[n]).ctx = s.cores[n].ctx) :
    (s.modCore n f).landingPiece n q st seq kind a = s.landingPiece n q st seq kind a := by
  simp only [State.landingPiece, State.modCore_core, hc]; rfl

theorem State.checkAccess_modCore (s : State) (n f q st seq sp kind ea len) (hm : (f s.cores[n]).mem = s.cores[n].mem) (hc : (f s.cores[n]).ctx = s.cores[n].ctx) :
    (s.modCore n f).checkAccess n q st seq sp kind ea len = s.checkAccess n q st seq sp kind ea len := by
  have hg : (s.modCore n f).globalPiece n q st seq kind = s.globalPiece n q st seq kind := funext (fun a => State.globalPiece_modCore s n f q st seq kind a hm hc)
  have hl : (s.modCore n f).landingPiece n q st seq kind = s.landingPiece n q st seq kind := funext (fun a => State.landingPiece_modCore s n f q st seq kind a hc)
  simp only [State.checkAccess, State.modCore_core, hc, hg, hl]

theorem State.globalPiece_seq (s : State) (n q st seq seq' kind a p) (h : s.globalPiece n q st seq kind a = .ok p) : s.globalPiece n q st seq' kind a = .ok p := by
  unfold State.globalPiece at h ⊢
  split at h
  · cases h
  · next pa leaf hx =>
    split at h
    · cases h
    · exact h

theorem State.landingPiece_seq (s : State) (n q st seq seq' kind a p) (h : s.landingPiece n q st seq kind a = .ok p) : s.landingPiece n q st seq' kind a = .ok p := by
  unfold State.landingPiece at h ⊢
  dsimp only at h ⊢
  split at h
  · cases h
  · exact h

theorem mapM_ok_congr {α β ε : Type} (f g : α → Except ε β) (hfg : ∀ a b, f a = .ok b → g a = .ok b) (l : List α) (ys : List β)
    (h : l.mapM f = .ok ys) : l.mapM g = .ok ys := by
  induction l generalizing ys with
  | nil => exact h
  | cons x t ih =>
    rw [List.mapM_cons] at h ⊢
    cases hx : f x with
    | error e => rw [hx] at h; cases h
    | ok y =>
      rw [hx] at h
      cases ht : t.mapM f with
      | error e => simp only [ht] at h; cases h
      | ok zs =>
        simp only [ht] at h
        rw [hfg _ _ hx, ih _ ht]; exact h

theorem State.checkAccess_seq (s : State) (n q st seq seq' sp kind ea len ps) (h : s.checkAccess n q st seq sp kind ea len = .ok ps) :
    s.checkAccess n q st seq' sp kind ea len = .ok ps := by
  unfold State.checkAccess at h ⊢
  dsimp only at h ⊢
  cases sp with
  | g => exact mapM_ok_congr _ _ (fun a p hp => State.globalPiece_seq s n q st seq seq' kind a p hp) _ _ h
  | x =>
    dsimp only at h ⊢
    split at h
    · next hq => rw [if_pos hq]; exact h
    · cases h
  | l =>
    dsimp only at h ⊢
    split at h
    · next hq => rw [if_pos hq]; exact mapM_ok_congr _ _ (fun a p hp => State.landingPiece_seq s n q st seq seq' kind a p hp) _ _ h
    · cases h

end Sys2Proof.Machine
end

section
/-! SUPPORT for O22 and O36. Where nothing is poisoned, the write-backs of the crew caches change the caches and the scrubbed line alone (R155, R192). -/

namespace Sys2Proof.Machine

/-- `t` is `s` but for the state of the crew caches and the line that the scrubber has read. -/
def State.onlyCaches (s t : State) : Prop :=
  ∃ d c x, t = { s with fab := { s.fab with dirty := d, clean := c }, ras := { s.ras with scrubbing := x } }

theorem State.onlyCaches.refl (s : State) : s.onlyCaches s := ⟨s.fab.dirty, s.fab.clean, s.ras.scrubbing, rfl⟩

theorem State.onlyCaches.trans {s t u : State} (h : s.onlyCaches t) (h' : t.onlyCaches u) : s.onlyCaches u := by
  obtain ⟨d, c, x, rfl⟩ := h
  obtain ⟨d', c', x', rfl⟩ := h'
  exact ⟨d', c', x', rfl⟩

theorem State.onlyCaches.clean {s t : State} (h : s.onlyCaches t) (hs : s.clean) : t.clean := by
  obtain ⟨d, c, x, rfl⟩ := h
  exact hs

theorem State.poisoned_clean {s : State} (hs : s.clean) (pa len : Nat) : s.poisoned pa len = false := by
  obtain ⟨hp, hb⟩ := hs
  simp [State.poisoned, hp, hb]

theorem State.evictMeets_clean {s : State} (hs : s.clean) (d : DirtyLine) : s.evictMeets d = [] := by
  simp [State.evictMeets, State.poisoned_clean hs]

theorem State.writeBack_clean {s : State} (hs : s.clean) (crew line master : Nat) : s.onlyCaches (s.writeBack crew line master) := by
  have hb := hs.2
  unfold State.writeBack
  split
  · exact .refl s
  · next d _ =>
    rw [State.evictMeets_clean hs, hb]
    exact ⟨s.fab.dirty.filter (fun d => !(d.crew == crew && d.line == line)), s.fab.clean, s.ras.scrubbing.filter (· != line), by simp [hb]⟩

theorem foldl_onlyCaches {α : Type} (f : State → α → State) (hf : ∀ (s : State) x, s.clean → s.onlyCaches (f s x)) (l : List α) (s : State) (hs : s.clean) :
    s.onlyCaches (l.foldl f s) :=
  (foldl_keeps (fun t => t.clean ∧ s.onlyCaches t) f l s ⟨hs, .refl s⟩ (fun t x ht => ⟨(hf t x ht.1).clean ht.1, ht.2.trans (hf t x ht.1)⟩)).2

theorem State.recallLine_clean {s : State} (hs : s.clean) (line master : Nat) : s.onlyCaches (s.recallLine line master) := by
  unfold State.recallLine
  split
  · exact State.writeBack_clean hs _ _ _
  · exact .refl s

theorem State.addDirty_onlyCaches (s : State) (crew line pa len : Nat) : s.onlyCaches (s.addDirty crew line pa len) := ⟨_, _, s.ras.scrubbing, rfl⟩

theorem State.own_clean {s : State} (hs : s.clean) (crew line pa len master : Nat) : s.onlyCaches (s.own crew line pa len master) := by
  unfold State.own
  split
  · split
    · exact ⟨_, s.fab.clean, s.ras.scrubbing, rfl⟩
    · exact (State.writeBack_clean hs _ _ _).trans (State.addDirty_onlyCaches _ _ _ _ _)
  · refine State.onlyCaches.trans ?_ (State.addDirty_onlyCaches _ _ _ _ _)
    split
    · split
      · exact State.writeBack_clean hs _ _ _
      · exact .refl s
    · exact .refl s

theorem State.arriveAt_clean {s : State} (hs : s.clean) (n place line runs) : s.onlyCaches (s.arriveAt n place line runs) := by
  unfold State.arriveAt
  split
  · exact .refl s
  · cases place with
    | home => exact State.recallLine_clean hs _ _
    | crew => exact foldl_onlyCaches _ (fun s r hs => State.own_clean hs _ _ _ _ _) _ _ hs

theorem State.recall_clean {s : State} (hs : s.clean) (pa len m : Nat) : s.onlyCaches (s.recall pa len m) :=
  foldl_onlyCaches _ (fun _ _ hs => foldl_onlyCaches _ (fun _ _ hs => State.writeBack_clean hs _ _ _) _ _ hs) _ _ hs

end Sys2Proof.Machine
end

section
/-! SUPPORT for O22. What a store changes: memory, the writes in flight, and nothing that a word sees of a core (R206, R207, R359). -/

namespace Sys2Proof.Machine

/-- The registers, the system registers, the phase and the positions of a core. -/
def Core.seen (c : Core) : Regs × SysRegs × Phase × Nat × Vector Handler 3 := (c.regs, c.sys, c.phase, c.pc, c.hnd)

/-- What the words of a strand see of a core, and the loads that it may replay. -/
def Core.view (c : Core) : (Regs × SysRegs × Phase × Nat × Vector Handler 3) × List LobEntry := (c.seen, c.mem.lob)

theorem Core.seen_of_view {c d : Core} (h : c.view = d.view) : c.seen = d.seen := congrArg Prod.fst h

theorem Core.lob_of_view {c d : Core} (h : c.view = d.view) : c.mem.lob = d.mem.lob := congrArg Prod.snd h

/-- `t` is at the same focus as `s`, and every core shows what it did. -/
structure State.sameViews (s t : State) : Prop where
  core : t.focusCore = s.focusCore
  strand : t.focusStrand = s.focusStrand
  view : ∀ m : Fin 128, t.cores[m].view = s.cores[m].view

theorem State.sameViews.refl (s : State) : s.sameViews s := ⟨rfl, rfl, fun _ => rfl⟩

theorem State.sameViews.trans {s t u : State} (h : s.sameViews t) (h' : t.sameViews u) : s.sameViews u :=
  ⟨h'.core.trans h.core, h'.strand.trans h.strand, fun m => (h'.view m).trans (h.view m)⟩

theorem State.onlyCaches.sameViews {s t : State} (h : s.onlyCaches t) : s.sameViews t := by
  obtain ⟨d, c, x, rfl⟩ := h
  exact ⟨rfl, rfl, fun _ => rfl⟩

theorem State.sameViews_modCore (s : State) (n : Fin 128) (f : Core → Core) (hf : (f s.cores[n]).view = s.cores[n].view) : s.sameViews (s.modCore n f) := by
  refine ⟨rfl, rfl, fun m => ?_⟩
  by_cases h : m = n
  · subst h; rw [State.modCore_core, hf]
  · rw [State.modCore_core_ne _ _ h]

/-- The writes in flight: address and bytes. -/
def State.flight (s : State) : List (Nat × List Byte) := s.fab.inflight.map (fun x => (x.pa, x.data))

/-- `t` is `s` with memory `m` and the writes `l` put in flight; the cores show what they did, and nothing is poisoned. -/
structure State.Stored (s t : State) (m : Memory) (l : List (Nat × List Byte)) : Prop where
  mem : t.mem = m
  flight : t.flight = s.flight ++ l
  views : s.sameViews t
  clean : t.clean

theorem State.Stored.trans {s t u : State} {m m' : Memory} {l l' : List (Nat × List Byte)} (h : s.Stored t m l) (h' : t.Stored u m' l') : s.Stored u m' (l ++ l') :=
  ⟨h'.mem, by rw [h'.flight, h.flight, List.append_assoc], h.views.trans h'.views, h'.clean⟩

/-- A change of what no word sees of a core stores nothing. -/
theorem State.stored_modCore {s : State} {m : Memory} (hs : s.clean) (hm : s.mem = m) (n : Fin 128) (f : Core → Core) (hf : (f s.cores[n]).view = s.cores[n].view) :
    s.Stored (s.modCore n f) m [] :=
  ⟨hm, (List.append_nil _).symm, State.sameViews_modCore s n f hf, hs⟩

theorem State.onlyCaches.stored {s t : State} (hs : s.clean) (h : s.onlyCaches t) : s.Stored t s.mem [] := by
  have hv := h.sameViews
  obtain ⟨d, c, x, rfl⟩ := h
  exact ⟨rfl, (List.append_nil _).symm, hv, hs⟩

theorem State.stored_writeBytes {s : State} (hs : s.clean) (pa : Nat) (b : List Byte) : s.Stored (s.writeBytes pa b) (memWrite s.mem pa b) [] :=
  ⟨rfl, (List.append_nil _).symm, ⟨rfl, rfl, fun _ => rfl⟩, by
    obtain ⟨hp, hb⟩ := hs
    exact ⟨by simp [State.writeBytes, hp, clearPoison, clearRuns], hb⟩⟩

theorem State.stored_fab {s : State} {m : Memory} (hs : s.clean) (hm : s.mem = m) (f : Fabric) (hf : f.inflight = s.fab.inflight) (hb : f.badDirty = s.fab.badDirty) :
    s.Stored { s with fab := f } m [] :=
  ⟨hm, by simp [State.flight, hf], ⟨rfl, rfl, fun _ => rfl⟩, hs.1, hb.trans hs.2⟩

theorem State.stored_launch {s : State} (hs : s.clean) (n r pa b va cmd sp) : s.Stored (s.launch n r .data [(pa, b)] va cmd sp) s.mem [(pa, b)] :=
  ⟨rfl, by simp [State.flight, State.launch], ⟨rfl, rfl, fun _ => rfl⟩, hs⟩

theorem State.stored_performOrdinary {s : State} (hs : s.clean) (n place) (p : Piece) (b : List Byte) :
    s.Stored (s.performOrdinary n place p b) (memWrite s.mem p.pa b) [] := by
  have h0 := State.arriveAt_clean hs n place (p.pa / 128) [(p.pa, b)]
  have hm : (s.arriveAt n place (p.pa / 128) [(p.pa, b)]).mem = s.mem := (h0.stored hs).mem
  have h1 := State.stored_writeBytes (h0.clean hs) p.pa b
  rw [hm] at h1
  unfold State.performOrdinary State.performRuns
  extract_lets s0 w f s1
  have h2 := ((h0.stored hs).trans h1).trans (State.stored_fab h1.clean h1.mem f rfl rfl)
  refine h2.trans (State.stored_modCore h2.clean h2.mem n _ ?_)
  rfl

theorem State.stored_storePiece {s : State} (hs : s.clean) (n r sp ea) (p : Piece) (b : List Byte) :
    s.Stored (s.storePiece n r sp ea p b) (if sp = .x ∨ p.ordinary = true then memWrite s.mem p.pa b else s.mem)
      (if sp = .x ∨ p.ordinary = true then [] else [(p.pa, b)]) := by
  unfold State.storePiece
  by_cases hx : sp = .x
  · simp only [hx, true_or, if_true]
    exact State.stored_writeBytes hs _ _
  · by_cases ho : p.ordinary = true
    · simp only [hx, ho, or_true, if_true, if_false]
      exact State.stored_performOrdinary hs _ _ _ _
    · simp only [hx, ho, if_false]
      exact State.stored_launch hs _ _ _ _ _ _ _

theorem Core.view_retainStore (c : Core) (r sp p ea b) : (c.retainStore r sp p ea b).view = c.view := by
  unfold Core.retainStore
  split
  · rfl
  · rfl

theorem State.stored_storePieces (n r sp ea) (ps : List Piece) : ∀ {s : State}, s.clean → ∀ b : List Byte,
    s.Stored (s.storePieces n r sp ea ps b) (storedMem s.mem sp ps b) (scopedParts sp ps b) := by
  induction ps with
  | nil => exact fun hs b => ⟨rfl, (List.append_nil _).symm, .refl _, hs⟩
  | cons p ps ih =>
    intro s hs b
    have h1 := State.stored_storePiece hs n r sp ea p (b.take p.len)
    have h2 := h1.trans (State.stored_modCore h1.clean h1.mem n (fun c => c.retainStore r sp p ea (b.take p.len)) (Core.view_retainStore _ _ _ _ _ _))
    have h3 := ih h2.clean (b.drop p.len)
    have := h2.trans h3
    rw [List.append_nil, h2.mem] at this
    exact this

theorem State.stored_signStore {s : State} {m : Memory} (hs : s.clean) (hm : s.mem = m) (n sp ea b) : s.Stored (s.signStore n sp ea b) m [] := by
  unfold State.signStore
  split
  · unfold State.sign State.signRuns
    refine State.stored_modCore hs hm n _ ?_
    rfl
  · exact ⟨hm, (List.append_nil _).symm, .refl s, hs⟩

theorem State.stored_carryRels {s : State} {m : Memory} (hs : s.clean) (hm : s.mem = m) (pa len : Nat) (l : List Release) : s.Stored (s.carryRels pa len l) m [] := by
  have h := foldl_keeps (fun f : Fabric => f.inflight = s.fab.inflight ∧ f.badDirty = s.fab.badDirty) (fun f r => f.addRel pa len r) l s.fab
    ⟨rfl, rfl⟩ (fun _ _ h => h)
  exact State.stored_fab hs hm _ h.1 h.2

theorem State.stored_carryFences {s : State} {m : Memory} (hs : s.clean) (hm : s.mem = m) (n st ps) : s.Stored (s.carryFences n st ps) m [] := by
  unfold State.carryFences
  refine foldl_keeps (fun t => s.Stored t m []) _ ps s ⟨hm, (List.append_nil _).symm, .refl s, hs⟩ (fun t p ht => ?_)
  split
  · exact ht.trans (State.stored_carryRels ht.clean ht.mem _ _ _)
  · exact ht

/-- Where no load may be replayed, what follows a store stores nothing. -/
theorem State.stored_afterStore {s : State} {m : Memory} (hs : s.clean) (hm : s.mem = m) (n : Fin 128) (r : Routed) (ps)
    (hl : r.strand = .main → s.cores[n].mem.lob = []) :
    s.Stored (s.afterStore n r ps) m [] := by
  unfold State.afterStore
  extract_lets u
  have h1 : s.Stored u m [] := State.stored_carryFences hs hm n r.strand ps
  clear_value u
  split
  · exact h1
  · next hr =>
    have hlob : u.cores[n].mem.lob = [] := (Core.lob_of_view (h1.views.view n)).trans (hl hr)
    rw [hlob]
    dsimp only [State.lobCheck, List.foldl]
    have h2 : s.Stored (u.modCore n (fun c => { c with mem := { c.mem with lob := [] }, loreplay := c.loreplay + BitVec.ofNat 64 ([] : List LobEntry).length })) m [] :=
      h1.trans (State.stored_modCore h1.clean h1.mem n _ (by simp only [Core.view, hlob]; rfl))
    refine h2.trans (State.stored_modCore h2.clean h2.mem n _ ?_)
    rw [State.modCore_core]
    rfl

theorem State.badLine_clean {s : State} (hs : s.clean) (ps : List Piece) : s.badLine ps = none := by
  simp [State.badLine, hs.2]

/-- A store that waits for nothing, where its parts are granted, performs or puts in flight part by part. -/
theorem State.doStore_stored {s : State} (hs : s.clean) (n : Fin 128) (r : Routed) (sp sz a v ps) (hw : s.scratchWait n r (s.uopSpans n r) = none)
    (hc : s.checkAccess n 3 r.strand (s.cores[n].seqOf r) sp kWrite a sz = .ok ps) (hf : s.loadsFirst n r = none) (hl : r.strand = .main → s.cores[n].mem.lob = []) :
    ∃ t, s.doStore n r sp sz a v = .ok t ∧ s.Stored t (storedMem s.mem sp ps (natLe sz v.toNat)) (scopedParts sp ps (natLe sz v.toNat)) := by
  have h1 := State.stored_storePieces n r sp a ps hs (natLe sz v.toNat)
  have h2 := h1.trans (State.stored_signStore h1.clean h1.mem n sp a (natLe sz v.toNat))
  have h3 := h2.trans (State.stored_afterStore h2.clean h2.mem n r ps (fun hr => (Core.lob_of_view (h2.views.view n)).trans (hl hr)))
  rw [List.append_nil, List.append_nil] at h3
  refine ⟨_, ?_, h3⟩
  simp only [State.doStore, hw, hc, hf, State.badLine_clean hs, ite_self]


end Sys2Proof.Machine
end

section
/-! SUPPORT for O22. A word that leaves its queue, or is done in a handler, goes on and changes no register (R178, R189). -/

namespace Sys2Proof.Machine

theorem Core.seen_passMarkers (c : Core) : c.passMarkers.seen = c.seen := by
  unfold Core.passMarkers
  split
  · rfl
  · dsimp only
    split
    · rfl
    · rfl

theorem Core.seen_pushTok (c : Core) (f b) : (c.pushTok f b).seen = c.seen := by cases b <;> rfl

theorem Core.seen_popTok (c : Core) (f b) : (c.popTok f b).seen = c.seen := by cases b <;> rfl

theorem Core.seen_pushes (c : Core) (q t) : (c.pushes q t).seen = c.seen := by rw [Core.pushes, Core.seen_pushTok, Core.seen_pushTok]

theorem Core.seen_pops (c : Core) (q t) : (c.pops q t).seen = c.seen := by rw [Core.pops, Core.seen_popTok, Core.seen_popTok]

theorem Core.seen_setQueue (c : Core) (q l) : (c.setQueue q l).seen = c.seen := by cases q <;> rfl

theorem Core.seen_setWait (c : Core) (q w) : (c.setWait q w).seen = c.seen := rfl

theorem Core.seen_leave (c : Core) (q r) : (c.leave q r).seen = c.seen := by
  unfold Core.leave
  extract_lets c1 c2
  have h1 : c1.seen = c.seen := by
    unfold c1
    split
    · rfl
    · exact Core.seen_pops _ _ _
  have h2 : c2.seen = c.seen := h1
  split
  · rw [Core.seen_passMarkers, Core.seen_pushes, Core.seen_setQueue, h2]
  · rw [Core.seen_setWait, Core.seen_setQueue, h2]

theorem Core.seen_remember (c : Core) (q seq r l) : (c.remember q seq r l).seen = c.seen := by
  unfold Core.remember
  extract_lets dst isLd fresh k rp newest _ c0 c1 c2 c3
  have h2 : c2.seen = c.seen := by
    unfold c2
    split
    · rfl
    · rfl
  have h3 : c3.seen = c.seen := by
    unfold c3
    split
    · exact h2
    · exact h2
  exact h3

theorem Core.seen_unhand (c : Core) (q) : (c.unhand q).seen = c.seen := by
  unfold Core.unhand
  split
  · rfl
  · rfl

theorem State.seen_kept (s : State) (n q r c) : (s.kept n q r c).seen = c.seen := by
  rw [State.kept, Core.seen_unhand, Core.seen_leave, Core.seen_remember]

theorem Core.seen_append (c : Core) (q len r) : (c.append q len r).seen = (c.regs, c.sys, c.phase, c.pc + len, c.hnd) := by cases q <;> rfl

theorem Core.seen_handlerRan (c : Core) (h len u) :
    (c.handlerRan h len u).seen = (c.regs, c.sys, c.phase, c.pc, c.hnd.set h { c.hnd[h] with pc := c.hnd[h].pc + len, wait := none }) := by
  unfold Core.handlerRan
  dsimp only
  split
  · rfl
  · rfl

/-- Where no earlier word stands in the queues and no command holds a scratch range, a word waits for no range (R182). -/
theorem State.scratchWait_none {s : State} {n : Fin 128} {r : Routed} (l : List Span) (hq : s.cores[n].earlierWords r.po = []) (hr : s.cores[n].eng.ranges = []) :
    s.scratchWait n r l = none := by
  unfold State.scratchWait
  split
  · rfl
  · extract_lets c
    have hq : c.earlierWords r.po = [] := hq
    have hr : c.eng.ranges = [] := hr
    simp [Core.rangeConflict, hq, hr]

theorem State.loadsFirst_none {s : State} {n : Fin 128} (r : Routed) (hq : s.cores[n].qL = []) : s.loadsFirst n r = none := by
  unfold State.loadsFirst
  split
  · rfl
  · extract_lets c
    have hq : c.qL = [] := hq
    simp [hq]

/-- The word of a store as it issues has nothing of its core to wait for. -/
theorem State.store_waits_not (s : State) (t j) (u : Uop) (h : s.memRuns .s t j) :
    (s.atHead .s t 1 u).scratchWait s.focusCore (s.word t u) ((s.atHead .s t 1 u).uopSpans s.focusCore (s.word t u)) = none
    ∧ (s.atHead .s t 1 u).loadsFirst s.focusCore (s.word t u) = none
    ∧ ((s.word t u).strand = .main → (s.atHead .s t 1 u).cores[s.focusCore].mem.lob = []) := by
  unfold State.atHead State.word
  cases hs : s.focusStrand with
  | ctx k => exact ⟨rfl, rfl, fun h => by cases h⟩
  | main =>
    obtain ⟨hL, hX, hS, hlob, hr⟩ := h.2 hs
    have hc : (s.modCur (fun c => c.append .s 1 (s.cur.routed t true u))).cores[s.focusCore] = s.cur.append .s 1 (s.cur.routed t true u) := State.modCore_core _ _ _
    have hL' : (s.cur.append .s 1 (s.cur.routed t true u)).qL = [] := hL
    have hr' : (s.cur.append .s 1 (s.cur.routed t true u)).eng.ranges = [] := hr
    have he : (s.cur.append .s 1 (s.cur.routed t true u)).earlierWords s.cur.po = [] := by
      have hw : (s.cur.append .s 1 (s.cur.routed t true u)).qL ++ (s.cur.append .s 1 (s.cur.routed t true u)).qX ++ (s.cur.append .s 1 (s.cur.routed t true u)).qS
          = s.cur.qL ++ s.cur.qX ++ (s.cur.qS ++ [s.cur.routed t true u]) := rfl
      rw [Core.earlierWords, hw, hL, hX, hS]
      simp [Core.routed]
    refine ⟨State.scratchWait_none _ ?_ ?_, State.loadsFirst_none _ ?_, fun _ => ?_⟩
    · rw [hc]; exact he
    · rw [hc]; exact hr'
    · rw [hc]; exact hL'
    · rw [hc]; exact hlob

/-- Where the registers, the system registers and the phase stand, and the position is `len` words further, the strand has gone on. -/
theorem State.wentOn_of {s s' : State} {len : Nat} (hr : s'.cur.regs = s.cur.regs) (hs : s'.cur.sys = s.cur.sys) (hp : s'.cur.phase = s.cur.phase)
    (hpc : s'.cur.pcOf s.focusStrand = s.cur.pcOf s.focusStrand + len)
    (hh : ∀ h, s.focusStrand = .ctx h → s'.cur.hnd[h].h = s.cur.hnd[h].h) : s.wentOn s' len none := by
  refine ⟨hpc, by rw [hr], by rw [hr], by rw [hr], by rw [hs], by rw [hs], by rw [hs], hp, fun r _ _ => ?_⟩
  cases hst : s.focusStrand with
  | main => simp only [Core.rdS, Core.phys, hr, hs]
  | ctx h => simp only [Core.rdS, hh h hst]

theorem State.modCur_cur (s : State) (f : Core → Core) : (s.modCur f).cur = f s.cur := by rw [State.modCur_eq, State.setCore_cur]

/-- A word of one word whose effect, as it issues, leaves what every core shows, goes on and changes no register. -/
theorem State.wentOn_leftHead (s s2 : State) (q t u) (hv : (s.atHead q t 1 u).sameViews s2) :
    s.wentOn (s.leftHead s2 q t 1 u) 1 none ∧ (s.leftHead s2 q t 1 u).cur.regs = s.cur.regs := by
  obtain ⟨hn, -, hc⟩ := hv
  have hf : (s.atHead q t 1 u).focusCore = s.focusCore := by
    unfold State.atHead
    split
    · rfl
    · rfl
  have hn : s2.focusCore = s.focusCore := hn.trans hf
  have hc : s2.cur.seen = (s.atHead q t 1 u).cur.seen := by
    have := Core.seen_of_view (hc s.focusCore)
    unfold State.cur
    simp only [hn, hf]
    exact this
  have hcur (f) : (s2.modCore s.focusCore f).cur = f s2.cur := by rw [← hn]; exact State.modCur_cur s2 f
  unfold State.leftHead
  cases hst : s.focusStrand with
  | main =>
    have h : ((s2.modCore s.focusCore (fun c => (s.atHead q t 1 u).kept s.focusCore q (s.word t u) c)).cur).seen
        = (s.cur.regs, s.cur.sys, s.cur.phase, s.cur.pc + 1, s.cur.hnd) := by
      rw [hcur, State.seen_kept, hc]
      simp only [State.atHead, hst, State.modCur_cur, Core.seen_append]
    simp only [Core.seen, Prod.mk.injEq] at h
    obtain ⟨hr, hs, hp, hpc, -⟩ := h
    exact ⟨State.wentOn_of hr hs hp (by rw [hst]; exact hpc) (fun h hh => by rw [hst] at hh; cases hh), hr⟩
  | ctx k =>
    have h : ((s2.modCore s.focusCore (fun c => c.handlerRan k 1 u)).cur).seen
        = (s.cur.regs, s.cur.sys, s.cur.phase, s.cur.pc, s.cur.hnd.set k { s.cur.hnd[k] with pc := s.cur.hnd[k].pc + 1, wait := none }) := by
      simp only [State.atHead, hst] at hc
      simp only [Core.seen, Prod.mk.injEq] at hc
      obtain ⟨hr, hs, hp, hpc, hh⟩ := hc
      rw [hcur, Core.seen_handlerRan, hr, hs, hp, hpc, hh]
    simp only [Core.seen, Prod.mk.injEq] at h
    obtain ⟨hr, hs, hp, -, hh⟩ := h
    refine ⟨State.wentOn_of hr hs hp ?_ (fun h e => ?_), hr⟩
    · rw [hst]; simp [Core.pcOf, hh]
    · rw [hst] at e
      cases e
      simp [hh]

theorem State.leftHead_mem (s s1 : State) (q t len u) : (s.leftHead s1 q t len u).mem = s1.mem := by
  unfold State.leftHead
  split
  · rfl
  · rfl

theorem State.leftHead_flight (s s1 : State) (q t len u) : (s.leftHead s1 q t len u).flight = s1.flight := by
  unfold State.leftHead
  split
  · rfl
  · rfl

theorem State.atHead_mem (s : State) (q t len u) : (s.atHead q t len u).mem = s.mem := by
  unfold State.atHead
  split
  · rfl
  · rfl

theorem State.atHead_flight (s : State) (q t len u) : (s.atHead q t len u).flight = s.flight := by
  unfold State.atHead
  split
  · rfl
  · rfl

theorem State.atHead_clean {s : State} (hs : s.clean) (q t len u) : (s.atHead q t len u).clean := by
  unfold State.atHead
  split
  · exact hs
  · exact hs

theorem State.word_strand (s : State) (t u) : (s.word t u).strand = s.focusStrand := by
  unfold State.word
  split
  · next h => exact h.symm
  · next h => exact h.symm

theorem State.word_uop (s : State) (t u) : (s.word t u).uop = u := by
  unfold State.word
  split
  · rfl
  · rfl

/-- What the strand may access stays as a word is put into a queue. -/
theorem State.checkAccess_atHead (s : State) (q t len u k st seq sp kind ea n) :
    (s.atHead q t len u).checkAccess s.focusCore k st seq sp kind ea n = s.checkAccess s.focusCore k st seq sp kind ea n := by
  unfold State.atHead
  split
  · exact State.checkAccess_modCore s s.focusCore _ k st seq sp kind ea n (by cases q <;> rfl) (by cases q <;> rfl)
  · rfl


end Sys2Proof.Machine
end

section
/-! SUPPORT for O22. Numbers in memory, least significant byte first (R3). -/

namespace Sys2Proof.Machine

/-- A number of `n` bytes is stored least significant byte first (R3). -/
theorem leNat_natLe (n v : Nat) : leNat (natLe n v) = v % 2 ^ (8 * n) := by
  induction n generalizing v with
  | zero => simp [natLe, leNat, Nat.mod_one]
  | succ n ih =>
    have hp : 2 ^ (8 * (n + 1)) = 256 * 2 ^ (8 * n) := by rw [Nat.mul_add, Nat.pow_add]; omega
    rw [natLe, leNat, ih, BitVec.toNat_ofNat, hp, Nat.mod_mul]

theorem natLe_length (n v : Nat) : (natLe n v).length = n := by
  induction n generalizing v with
  | zero => rfl
  | succ n ih => rw [natLe, List.length_cons, ih]

theorem memNat_memWrite_natLe (m : Memory) (a n v : Nat) : memNat (memWrite m a (natLe n v)) a n = v % 2 ^ (8 * n) := by
  have h := memRead_memWrite (natLe n v) m a
  rw [natLe_length] at h
  rw [memNat, h, leNat_natLe]

theorem sext_eq_toInt (n v : Nat) (hn : 0 < n) : sext n v = (BitVec.ofNat n v).toInt := by
  obtain ⟨n, rfl⟩ : ∃ k, n = k + 1 := ⟨n - 1, by omega⟩
  have hp : 2 ^ (n + 1) = 2 * 2 ^ n := Nat.pow_succ'
  rw [sext, BitVec.toInt_eq_toNat_cond, BitVec.toNat_ofNat, Nat.add_sub_cancel]
  split
  · rw [if_pos (by omega)]
  · rw [if_neg (by omega)]

/-- Without an EXT word the offset is the field of 9 bits, extended and scaled by the size (R359). -/
theorem baseOff_none (c : Core) (st a) (o : Fin 512) (size : Nat) :
    baseOff c st none a o size = c.rdS st a + (BitVec.ofNat 9 o.val).signExtend 64 * BitVec.ofNat 64 size := by
  rw [baseOff, w64, immS, sext_eq_toInt 9 o.val (by decide), BitVec.ofInt_mul, BitVec.signExtend, BitVec.ofInt_natCast]


end Sys2Proof.Machine
end

section
/-! O22: the scalar stores, and what memory reads back. -/

namespace Sys2Proof.Machine

/-- A scalar store whose parts are granted, where nothing is poisoned (R359, R360). -/
theorem storeWord_runs {s : State} {t : Tok} {g : Option Guard} {j : Judge} {cap} {sp sz} {a v : W64} {ps : List Piece} (hs : s.clean) (h : s.memRuns .s t j)
    (hg : ∀ x, g = some x → s.cur.rdP s.focusStrand x = true) (hcap : cap true s = .ok (s, Uop.store sp sz a v))
    (hc : s.checkAccess s.focusCore 3 s.focusStrand 0 sp kWrite a sz = .ok ps) :
    ∃ s', routeWord .s t g j 1 false cap s = s' ∧ s'.mem = storedMem s.mem sp ps (natLe sz v.toNat) ∧ s'.flight = s.flight ++ scopedParts sp ps (natLe sz v.toNat)
      ∧ s.wentOn s' 1 none ∧ s'.cur.regs = s.cur.regs := by
  obtain ⟨hw, hl, hb⟩ := State.store_waits_not s t j (.store sp sz a v) h
  have hc' : (s.atHead .s t 1 (.store sp sz a v)).checkAccess s.focusCore 3 (s.word t (.store sp sz a v)).strand
      ((s.atHead .s t 1 (.store sp sz a v)).cores[s.focusCore].seqOf (s.word t (.store sp sz a v))) sp kWrite a sz = .ok ps := by
    rw [State.checkAccess_atHead, State.word_strand]
    exact State.checkAccess_seq _ _ _ _ _ _ _ _ _ _ _ hc
  obtain ⟨s2, he, hst⟩ := State.doStore_stored (State.atHead_clean hs .s t 1 (.store sp sz a v)) s.focusCore (s.word t (.store sp sz a v)) sp sz a v ps hw hc' hl hb
  have hx : execUop (s.atHead .s t 1 (.store sp sz a v)) s.focusCore (s.word t (.store sp sz a v)) = .ok s2 := by
    simp only [execUop, State.word_uop, he]
  have hrun := routeWord_runs s .s t g j 1 false cap (.store sp sz a v) s s2 h.1 h.1 hg hcap rfl rfl rfl hx
  obtain ⟨hwent, hregs⟩ := State.wentOn_leftHead s s2 .s t (.store sp sz a v) hst.views
  refine ⟨_, hrun, ?_, ?_, hwent, hregs⟩
  · rw [State.leftHead_mem, hst.mem, State.atHead_mem]
  · rw [State.leftHead_flight, hst.flight, State.atHead_flight]


/-- Settles O22: a store that runs performs or puts in flight part by part, by induction on the parts of the access; a read after a write is a law of memory. -/
theorem scalarStoresAndReadBack : Obligations.ScalarStoresAndReadBack := by
  refine ⟨fun s t g d a b o ps hg hs => ⟨fun h p hp => ?_, fun h p hp => ?_⟩,
    fun m a b => ⟨memRead_memWrite b m a, fun k hk => sget_memWrite_ne b m a k hk, memWrite_wf b m a, memNat_memWrite_natLe m a⟩⟩
  · have hx : exec p.1 s = .next (storeImm none t p.2.1 p.2.2 d a o s) := by
      simp only [List.mem_cons, List.not_mem_nil, or_false] at hp
      rcases hp with rfl | rfl | rfl | rfl | rfl | rfl | rfl | rfl | rfl | rfl | rfl | rfl <;> rfl
    intro hc
    obtain ⟨s', hs', hrest⟩ := storeWord_runs (g := none)
      (cap := fun _ s => .ok (s, .store p.2.1 p.2.2 (baseOff s.cur s.focusStrand none a o p.2.2) (s.cur.rdS s.focusStrand d)))
      hs h (fun _ hx => by cases hx) (by rw [baseOff_none]) hc
    exact ⟨s', hx.trans (congrArg _ hs'), hrest⟩
  · have hx : exec p.1 s = .next (storeRr t g p.2.1 p.2.2 d a b s) := by
      simp only [List.mem_cons, List.not_mem_nil, or_false] at hp
      rcases hp with rfl | rfl | rfl | rfl | rfl | rfl | rfl | rfl | rfl | rfl | rfl | rfl <;> rfl
    intro hc
    obtain ⟨s', hs', hrest⟩ := storeWord_runs (g := some g)
      (cap := fun _ s => .ok (s, .store p.2.1 p.2.2 (s.cur.rdS s.focusStrand a + s.cur.rdS s.focusStrand b) (s.cur.rdS s.focusStrand d)))
      hs h (fun _ hx => by cases hx; exact hg) rfl hc
    exact ⟨s', hx.trans (congrArg _ hs'), hrest⟩

end Sys2Proof.Machine
end

section
/-! SUPPORT for O36. Fields of words: a masked register, a field read from a low half, a field read after a field is written. -/

namespace Sys2Proof.Machine

theorem bits_mul_two_pow (n lo len : Nat) : bits n lo len * 2 ^ lo = n &&& ((2 ^ len - 1) * 2 ^ lo) := by
  apply Nat.eq_of_testBit_eq
  intro i
  simp only [bits, Nat.testBit_and, Nat.testBit_mul_two_pow, Nat.testBit_mod_two_pow, Nat.testBit_div_two_pow, Nat.testBit_two_pow_sub_one]
  by_cases h : lo ≤ i
  · simp [h, Bool.and_comm]
  · simp [h]

theorem bits_zero (n len : Nat) : bits n 0 len = n &&& (2 ^ len - 1) := by
  have h := bits_mul_two_pow n 0 len
  simpa using h

/-- A register of 32 bits that keeps the bits of a mask takes the low half of what is written, masked. -/
theorem ofNat_and_mask (v : W64) (k : Nat) : BitVec.ofNat 32 (v.toNat &&& k) = v.setWidth 32 &&& BitVec.ofNat 32 k := by
  rw [BitVec.ofNat_and, BitVec.ofNat_toNat]

theorem ofNat_fld_zero (v : W64) (len : Nat) : BitVec.ofNat 32 (fld v 0 len) = v.setWidth 32 &&& BitVec.ofNat 32 (2 ^ len - 1) := by
  rw [fld, bits_zero, ofNat_and_mask]

theorem and_lowWord (v : W64) (k : Nat) (hk : k < 2 ^ 32) : fld v 0 32 &&& k = v.toNat &&& k := by
  rw [fld, bits_zero, Nat.and_assoc]
  congr 1
  rw [Nat.and_comm, Nat.and_two_pow_sub_one_eq_mod, Nat.mod_eq_of_lt hk]


theorem bits_fld_low (v : W64) (lo len : Nat) (h : lo + len ≤ 32) : bits (fld v 0 32) lo len = fld v lo len := by
  apply Nat.eq_of_testBit_eq
  intro i
  simp only [fld, bits, Nat.testBit_mod_two_pow, Nat.testBit_div_two_pow]
  by_cases hi : i < len
  · have h32 : i + lo < 32 := by omega
    simp [hi, h32]
  · simp [hi]


theorem bits_mod (n m lo len : Nat) (h : lo + len ≤ m) : bits (n % 2 ^ m) lo len = bits n lo len := by
  apply Nat.eq_of_testBit_eq
  intro i
  simp only [bits, Nat.testBit_mod_two_pow, Nat.testBit_div_two_pow]
  by_cases hi : i < len
  · have hm : i + lo < m := by omega
    simp [hi, hm]
  · simp [hi]

theorem bits_div (n m lo len : Nat) (h : m ≤ lo) : bits (n / 2 ^ m) (lo - m) len = bits n lo len := by
  rw [bits, bits, Nat.div_div_eq_div_mul, ← Nat.pow_add, Nat.add_sub_cancel' h]

/-- A field written stands between the bits above it and the bits below it. -/
theorem toNat_setFld {w : Nat} (x : BitVec w) (lo len v : Nat) (h : lo + len ≤ w) :
    (setFld x lo len v).toNat = (x.toNat / 2 ^ (lo + len) * 2 ^ len + v % 2 ^ len) * 2 ^ lo + x.toNat % 2 ^ lo := by
  have hlt : x.toNat < 2 ^ (w - (lo + len)) * 2 ^ (lo + len) := by rw [← Nat.pow_add, Nat.sub_add_cancel h]; exact x.isLt
  have hH : x.toNat / 2 ^ (lo + len) + 1 ≤ 2 ^ (w - (lo + len)) := Nat.div_lt_of_lt_mul (by rw [Nat.mul_comm]; exact hlt)
  have hL : x.toNat % 2 ^ lo < 2 ^ lo := Nat.mod_lt _ (Nat.two_pow_pos lo)
  have hV : v % 2 ^ len < 2 ^ len := Nat.mod_lt _ (Nat.two_pow_pos len)
  have hx : x.toNat = x.toNat / 2 ^ (lo + len) * 2 ^ len * 2 ^ lo + bits x.toNat lo len * 2 ^ lo + x.toNat % 2 ^ lo := by
    rw [bits, ← Nat.add_mul, Nat.pow_add, ← Nat.div_div_eq_div_mul, Nat.div_add_mod', Nat.div_add_mod']
  have hsum : x.toNat - bits x.toNat lo len * 2 ^ lo + v % 2 ^ len * 2 ^ lo
      = (x.toNat / 2 ^ (lo + len) * 2 ^ len + v % 2 ^ len) * 2 ^ lo + x.toNat % 2 ^ lo := by
    rw [Nat.add_mul]; omega
  have hfit : (x.toNat / 2 ^ (lo + len) * 2 ^ len + v % 2 ^ len) * 2 ^ lo + x.toNat % 2 ^ lo < 2 ^ w := by
    have h1 : x.toNat / 2 ^ (lo + len) * 2 ^ len + v % 2 ^ len + 1 ≤ 2 ^ (w - (lo + len)) * 2 ^ len := by
      have := Nat.mul_le_mul_right (2 ^ len) hH
      rw [Nat.add_mul] at this
      omega
    have h2 := Nat.mul_le_mul_right (2 ^ lo) h1
    rw [Nat.add_mul, Nat.mul_assoc, ← Nat.pow_add, Nat.add_comm len lo, ← Nat.pow_add, Nat.sub_add_cancel h] at h2
    omega
  rw [setFld, BitVec.toNat_ofNat, hsum, Nat.mod_eq_of_lt hfit]

theorem fld_setFld_same {w : Nat} (x : BitVec w) (lo len v : Nat) (h : lo + len ≤ w) : fld (setFld x lo len v) lo len = v % 2 ^ len := by
  have hmod : x.toNat % 2 ^ lo < 2 ^ lo := Nat.mod_lt _ (Nat.two_pow_pos lo)
  rw [fld, toNat_setFld x lo len v h, bits, Nat.add_comm, Nat.add_mul_div_right _ _ (Nat.two_pow_pos lo), Nat.div_eq_of_lt hmod, Nat.zero_add, Nat.add_comm,
    Nat.add_mul_mod_self_right, Nat.mod_mod]

theorem fld_setFld_ne {w : Nat} (x : BitVec w) (lo len v lo' len' : Nat) (h : lo + len ≤ w) (hd : lo' + len' ≤ lo ∨ lo + len ≤ lo') :
    fld (setFld x lo len v) lo' len' = fld x lo' len' := by
  have hmod : x.toNat % 2 ^ lo < 2 ^ lo := Nat.mod_lt _ (Nat.two_pow_pos lo)
  rw [fld, toNat_setFld x lo len v h, fld]
  rcases hd with hd | hd
  · rw [← bits_mod _ lo lo' len' hd, Nat.mul_add_mod_self_right, Nat.mod_mod, bits_mod _ _ _ _ hd]
  · have hv : v % 2 ^ len < 2 ^ len := Nat.mod_lt _ (Nat.two_pow_pos len)
    rw [← bits_div _ (lo + len) lo' len' hd, Nat.pow_add, ← Nat.div_div_eq_div_mul, Nat.add_comm _ (x.toNat % 2 ^ lo), Nat.add_mul_div_right _ _ (Nat.two_pow_pos lo),
      Nat.div_eq_of_lt hmod, Nat.zero_add, Nat.add_comm, Nat.add_mul_div_right _ _ (Nat.two_pow_pos len),
      Nat.div_eq_of_lt hv, Nat.zero_add, ← Nat.pow_add, bits_div _ _ _ _ hd]


end Sys2Proof.Machine
end

section
/-! SUPPORT for O36. What a record in the error log and a note leave (R61). -/

namespace Sys2Proof.Machine

/-- What writing memory, the RAS block and the board leaves. -/
theorem State.withRecord_kept (s : State) (m : Memory) (r : Ras) (b : Board) (t : State) (h : t = { s with mem := m, ras := r, board := b }) :
    t.cores = s.cores ∧ t.fe = s.fe ∧ t.trans = s.trans ∧ t.tb = s.tb ∧ t.notes = s.notes ∧ t.ras = r := by
  subst h
  exact ⟨rfl, rfl, rfl, rfl, rfl, rfl⟩

/-- A record in the error log changes memory, the log's position and the counters of the board. -/
theorem State.log_kept (s : State) (r : LogRec) :
    (s.log r).cores = s.cores ∧ (s.log r).fe = s.fe ∧ (s.log r).trans = s.trans ∧ (s.log r).tb = s.tb ∧ (s.log r).notes = s.notes
    ∧ (s.log r).ras = { s.ras with elogSeq := s.ras.elogSeq + 1 } := State.withRecord_kept s _ _ _ _ rfl

theorem State.note_kept (s : State) (x : Note) : (s.note x).cores = s.cores ∧ (s.note x).fe = s.fe ∧ (s.note x).trans = s.trans ∧ (s.note x).tb = s.tb
    ∧ (s.note x).ras = s.ras := ⟨rfl, rfl, rfl, rfl, rfl⟩

theorem State.logAccess_kept (s : State) (m k pa t) :
    (s.logAccess m k pa t).ras.elogSeq = s.ras.elogSeq + 1 ∧ (s.logAccess m k pa t).fe = s.fe ∧ (s.logAccess m k pa t).trans = s.trans
      ∧ (s.logAccess m k pa t).tb = s.tb := by
  obtain ⟨-, hf, ht, hb, -, hr⟩ := State.log_kept s { cls := 0x0B, addr := pa, data0 := k, master := m, target := t, unit := m }
  unfold State.logAccess
  extract_lets s1
  obtain ⟨-, nf, nt, nb, nr⟩ := State.note_kept s1 .fwIrq
  split
  · exact ⟨by rw [nr, hr], nf.trans hf, nt.trans ht, nb.trans hb⟩
  · exact ⟨by rw [hr], hf, ht, hb⟩

/-- For a master that is none of firmware's, no interrupt of firmware is noted. -/
theorem State.logAccess_notes (s : State) (m k pa t) (h : notifiesFw m = false) : (s.logAccess m k pa t).notes = s.notes := by
  obtain ⟨-, -, -, -, hn, -⟩ := State.log_kept s { cls := 0x0B, addr := pa, data0 := k, master := m, target := t, unit := m }
  unfold State.logAccess
  extract_lets s1
  rw [if_neg (by rw [h]; decide)]
  exact hn

end Sys2Proof.Machine
end

section
/-! SUPPORT for O36. A write from outside leaves its bytes in memory and the cores as they were (R228, R229). -/

namespace Sys2Proof.Machine

theorem State.badGranule_clean {s : State} (hs : s.clean) (ps : List (Nat × Nat)) : s.badGranule ps = none := by
  unfold State.badGranule
  rw [List.find?_eq_none]
  intro g _
  simp [State.poisoned_clean hs]

theorem State.logOutside_clean {s : State} (hs : s.clean) (m pa len : Nat) : s.logOutside m pa len = s := by
  simp only [State.logOutside, State.badGranule_clean hs]

theorem memWrite_take_drop (m : Memory) (pa n : Nat) (b : List Byte) : memWrite (memWrite m pa (b.take n)) (pa + n) (b.drop n) = memWrite m pa b := by
  induction b generalizing m pa n with
  | nil => rw [List.take_nil, List.drop_nil]; rfl
  | cons x t ih =>
    cases n with
    | zero => rfl
    | succ n =>
      have h := ih (sset Memory.dflt m pa x) (pa + 1) n
      rw [show pa + 1 + n = pa + (n + 1) by omega] at h
      exact h

/-- `t` is `s` after a write from outside that leaves memory `m`: the cores stand, and nothing is poisoned. -/
structure State.Wrote (s t : State) (m : Memory) : Prop where
  mem : t.mem = m
  cores : t.cores = s.cores
  clean : t.clean

theorem State.Wrote.trans {s t u : State} {m m' : Memory} (h : s.Wrote t m) (h' : t.Wrote u m') : s.Wrote u m' := ⟨h'.mem, h'.cores.trans h.cores, h'.clean⟩

theorem State.onlyCaches.wrote {s t : State} (hs : s.clean) (h : s.onlyCaches t) : s.Wrote t s.mem := by
  obtain ⟨d, c, x, rfl⟩ := h
  exact ⟨rfl, rfl, hs⟩

theorem Fabric.stampLines_badDirty (f : Fabric) (l : List Nat) (t : Nat) : (f.stampLines l t).1.badDirty = f.badDirty := by
  induction l generalizing f t with
  | nil => rfl
  | cons x l ih => exact ih _ _

/-- A write of an agent that is no engine of a core (R229). -/
theorem State.performScoped_wrote {s : State} (hs : s.clean) (agent pa : Nat) (b : List Byte) (ha : ¬ agent < 1024) :
    s.Wrote (s.performScoped agent pa b).1 (memWrite s.mem pa b) := by
  have h0 : s.onlyCaches ((linesOf pa b.length).foldl (fun s x => s.recallLine x (agentMaster agent)) s) :=
    foldl_onlyCaches _ (fun _ _ hs => State.recallLine_clean hs _ _) _ _ hs
  unfold State.performScoped
  extract_lets s0
  have h0 : s.onlyCaches s0 := h0
  have hw := h0.wrote hs
  have hf := Fabric.stampLines_badDirty s0.fab (linesOf pa b.length) (sget 0 s0.fab.eclock agent)
  generalize s0.fab.stampLines (linesOf pa b.length) (sget 0 s0.fab.eclock agent) = y at hf ⊢
  obtain ⟨f, w⟩ := y
  dsimp only
  rw [if_neg ha]
  have hb := (State.stored_writeBytes hw.clean pa b)
  refine ⟨?_, hw.cores, hb.clean.1, hf.trans hw.clean.2⟩
  rw [← hw.mem]; rfl

theorem State.putLines_wrote {s : State} (hs : s.clean) (key : Nat) (hk : ¬ key < 1024) (k pa : Nat) (b : List Byte) (hb : b.length + pa % 128 ≤ 128 * k) :
    s.Wrote (s.putLines key k pa b) (memWrite s.mem pa b) := by
  induction k generalizing s pa b with
  | zero =>
    obtain rfl : b = [] := List.length_eq_zero_iff.mp (by omega)
    exact ⟨rfl, rfl, hs⟩
  | succ k ih =>
    unfold State.putLines
    split
    · next he =>
      obtain rfl := List.isEmpty_iff.mp he
      exact ⟨rfl, rfl, hs⟩
    · extract_lets n
      have h1 := State.performScoped_wrote hs key pa (b.take n) hk
      have h2 := ih h1.clean (pa + n) (b.drop n) (by rw [List.length_drop]; omega)
      rw [h1.mem, memWrite_take_drop] at h2
      exact h1.trans h2

theorem State.carryRels_wrote {s : State} (hs : s.clean) (pa len : Nat) (l : List Release) : s.Wrote (s.carryRels pa len l) s.mem := by
  have h := State.stored_carryRels hs rfl pa len l
  exact ⟨h.mem, rfl, h.clean⟩

/-- A posted write leaves its bytes in memory (R229). -/
theorem State.posted_wrote {s : State} (hs : s.clean) (port m pa b) : s.Wrote (s.posted port m pa b) (memWrite s.mem pa b) := by
  have h0 := (State.recall_clean hs pa b.length m).wrote hs
  have h1 := State.putLines_wrote h0.clean (portKey port) (by unfold portKey; omega) (b.length / 128 + 2) pa b (by omega)
  rw [h0.mem] at h1
  have h2 (l) := State.carryRels_wrote h1.clean pa b.length l
  simp only [h1.mem] at h2
  exact (h0.trans h1).trans (h2 _)

/-- What is read back after a write from outside, and what stands. -/
theorem State.Wrote.reads {s t : State} {pa : Nat} {b : List Byte} (h : s.Wrote t (memWrite s.mem pa b)) :
    memRead t.mem pa b.length = b ∧ t.cores = s.cores ∧ ∀ a, a < pa ∨ pa + b.length ≤ a → sget Memory.dflt t.mem a = sget Memory.dflt s.mem a := by
  refine ⟨by rw [h.mem, memRead_memWrite], h.cores, fun a ha => ?_⟩
  rw [h.mem]
  exact sget_memWrite_ne b s.mem pa a ha


end Sys2Proof.Machine
end

section
/-! SUPPORT for O36. The registers that firmware writes (R5, R6, R158). -/

namespace Sys2Proof.Machine

theorem execRegisterWrite_granted (m o v) (s : State) (ho : o % 4 = 0) (hs : o < 0x4000000) (hm : ¬ (0x800000 ≤ o ∧ o < 0x1000000))
    (hr : s.refusal m 2 (0x4100000000 + o) 4 = none) :
    exec (.registerWrite m o v) s = .next (s.regSet m o v) := by
  have e : o / 4 * 4 = o := by omega
  have hr' : s.refusal m 2 (Config.regBase + o) 4 = none := hr
  have hs' : ¬ Config.regSize ≤ o := Nat.not_le.mpr hs
  show execRegisterWrite m o v s = _
  simp only [execRegisterWrite, e, hr', if_neg hs', if_neg hm]

theorem execRegisterWrite_refused (m o v) (s : State) (k) (ho : o % 4 = 0) (hs : o < 0x4000000) (hr : s.refusal m 2 (0x4100000000 + o) 4 = some k) :
    exec (.registerWrite m o v) s = .next (s.logAccess m.val 2 (0x4100000000 + o) k) := by
  have e : o / 4 * 4 = o := by omega
  have hr' : s.refusal m 2 (Config.regBase + o) 4 = some k := hr
  have hs' : ¬ Config.regSize ≤ o := Nat.not_le.mpr hs
  show execRegisterWrite m o v s = _
  simp only [execRegisterWrite, e, hr', if_neg hs']
  rfl

theorem State.regSet_fe (s : State) (off v) (h1 : off < 0x100000) (h2 : fwOnly off = false) : s.regSet 0x8C off v = s.feSet 0x8C off (fld v 0 32) := by
  unfold State.regSet
  rw [show s.bar0Sees 0x8C off = true from rfl, h2]
  simp [h1]

theorem State.regSet_trans (s : State) (off v) (h1 : 0x100000 ≤ off) (h2 : off < 0x130000) : s.regSet 0x8C off v = s.transSet off v := by
  unfold State.regSet
  rw [show s.bar0Sees 0x8C off = true from rfl]
  have h3 : ¬ off < 0x100000 := by omega
  simp [h2, h3, fwMaster]

theorem State.regSet_ras (s : State) (off v) (h1 : 0x200000 ≤ off) (h2 : off < 0x300000) : s.regSet 0x8C off v = s.rasSet off (fld v 0 32) := by
  have h3 : ¬ off < 0x100000 := by omega
  have h4 : ¬ off < 0x130000 := by omega
  unfold State.regSet
  rw [show s.bar0Sees 0x8C off = true from rfl]
  simp [h1, h2, h3, h4, fwMaster]

theorem execRegisterWrite_lwbase (s : State) (v : W64) (hr : s.refusal 0x8C 2 (0x4100000000 + 0x58) 4 = none) :
    exec (.registerWrite 0x8C 0x58 v) s = .next { s with fe := { s.fe with lwbase := v.setWidth 32 &&& 0x7800000 } } := by
  rw [execRegisterWrite_granted _ _ _ _ (by decide) (by decide) (by decide) hr, State.regSet_fe _ _ _ (by decide) (by decide)]
  have h : BitVec.ofNat 32 (bits (fld v 0 32) 23 4 * 2 ^ 23) = v.setWidth 32 &&& 0x7800000 := by
    rw [bits_mul_two_pow, and_lowWord _ _ (by decide), ofNat_and_mask]; rfl
  rw [← h]
  rfl

theorem TimeBase.setCtl_ctl (v : W64) : BitVec.ofNat 32 (bits (fld v 0 32) 0 2) = v.setWidth 32 &&& 3 := by
  rw [bits_zero, and_lowWord _ _ (by decide), ofNat_and_mask]; rfl

theorem execRegisterWrite_tbCtl (s : State) (v : W64) (hr : s.refusal 0x8C 2 (0x4100000000 + 0x208) 4 = none) :
    exec (.registerWrite 0x8C 0x208 v) s = .next { s with tb := s.tb.setCtl (fld v 0 32) } := by
  rw [execRegisterWrite_granted _ _ _ _ (by decide) (by decide) (by decide) hr, State.regSet_fe _ _ _ (by decide) (by decide)]
  rfl

theorem TimeBase.setCtl_keeps (t : TimeBase) (v : W64) (h : fld v 0 1 = 1) (h' : fld v 1 1 = fld t.ctl 1 1) :
    t.setCtl (fld v 0 32) = { t with ctl := v.setWidth 32 &&& 3 } := by
  unfold TimeBase.setCtl
  rw [TimeBase.setCtl_ctl, bits_fld_low _ _ _ (by decide), bits_fld_low _ _ _ (by decide)]
  simp [h, h']

theorem TimeBase.setCtl_frees (t : TimeBase) (v : W64) (h : fld v 0 1 = 0 ∨ fld v 1 1 ≠ fld t.ctl 1 1) :
    t.setCtl (fld v 0 32) = { t with ctl := v.setWidth 32 &&& 3, slewPpm := 0, remaining := 0, frac := 0 } := by
  unfold TimeBase.setCtl
  rw [TimeBase.setCtl_ctl, bits_fld_low _ _ _ (by decide), bits_fld_low _ _ _ (by decide)]
  rw [if_pos h]
  rfl

theorem execRegisterWrite_crSeed (s : State) (v : W64) (hr : s.refusal 0x8C 2 (0x4100000000 + 0x200024) 4 = none) :
    exec (.registerWrite 0x8C 0x200024 v) s = .next { s with ras := { s.ras with crSeed := v.setWidth 32 } } := by
  rw [execRegisterWrite_granted _ _ _ _ (by decide) (by decide) (by decide) hr, State.regSet_ras _ _ _ (by decide) (by decide)]
  have h : BitVec.ofNat 32 (fld v 0 32) = v.setWidth 32 := by
    apply BitVec.eq_of_toNat_eq
    simp [fld, bits]
  rw [← h]
  rfl

theorem execRegisterWrite_crCtl (s : State) (v : W64) (hr : s.refusal 0x8C 2 (0x4100000000 + 0x200020) 4 = none) (hv : fld v 0 5 ≤ 20) :
    exec (.registerWrite 0x8C 0x200020 v) s = .next { s with ras := { s.ras with crCtl := v.setWidth 32 &&& 0x11F } } := by
  rw [execRegisterWrite_granted _ _ _ _ (by decide) (by decide) (by decide) hr, State.regSet_ras _ _ _ (by decide) (by decide)]
  have h : BitVec.ofNat 32 (bits (fld v 0 32) 8 1 * 2 ^ 8 + bits (fld v 0 32) 0 5) = v.setWidth 32 &&& 0x11F := by
    have hlt : bits (fld v 0 32) 0 5 < 2 ^ 8 := Nat.lt_of_lt_of_le (Nat.mod_lt _ (by decide)) (by decide)
    rw [Nat.mul_comm, Nat.two_pow_add_eq_or_of_lt hlt, Nat.mul_comm, bits_mul_two_pow, bits_zero, ← Nat.and_or_distrib_left,
      and_lowWord _ _ (by decide), ofNat_and_mask]
    rfl
  have hb : ¬ 20 < bits (fld v 0 32) 0 5 := by rw [bits_fld_low _ _ _ (by decide)]; omega
  rw [← h]
  show Host.Outcome.next (if 20 < bits (fld v 0 32) 0 5 then s else _) = _
  rw [if_neg hb]

theorem State.transSet_domainSelf (s : State) (v : W64) : s.transSet 0x120000 v = { s with trans := { s.trans with domainSelf := v.setWidth 32 &&& 15 } } := by
  have h : BitVec.ofNat 32 (fld v 0 4) = v.setWidth 32 &&& 15 := ofNat_fld_zero v 4
  rw [← h]
  unfold State.transSet
  simp

theorem State.transSet_invIrq (s : State) (v : W64) : s.transSet 0x100038 v = { s with trans := { s.trans with invIrq := v.setWidth 32 &&& 1 } } := by
  have h : BitVec.ofNat 32 (fld v 0 1) = v.setWidth 32 &&& 1 := ofNat_fld_zero v 1
  rw [← h]
  unfold State.transSet
  simp

theorem execRegisterWrite_domainSelf (s : State) (v : W64) (hr : s.refusal 0x8C 2 (0x4100000000 + 0x120000) 4 = none) :
    exec (.registerWrite 0x8C 0x120000 v) s = .next { s with trans := { s.trans with domainSelf := v.setWidth 32 &&& 15 } } :=
  (execRegisterWrite_granted _ _ _ _ (by decide) (by decide) (by decide) hr).trans
    (congrArg _ ((State.regSet_trans s _ v (by decide) (by decide)).trans (s.transSet_domainSelf v)))

theorem execRegisterWrite_invIrq (s : State) (v : W64) (hr : s.refusal 0x8C 2 (0x4100000000 + 0x100038) 4 = none) :
    exec (.registerWrite 0x8C 0x100038 v) s = .next { s with trans := { s.trans with invIrq := v.setWidth 32 &&& 1 } } :=
  (execRegisterWrite_granted _ _ _ _ (by decide) (by decide) (by decide) hr).trans
    (congrArg _ ((State.regSet_trans s _ v (by decide) (by decide)).trans (s.transSet_invIrq v)))


end Sys2Proof.Machine
end

section
/-! SUPPORT for O36. Requests of the host and of peers that are granted or refused (R36, R65). -/

namespace Sys2Proof.Machine

theorem isVf_root {f : Fin 10} (hf : f = 0 ∨ f = 9) : isVf f = false := by
  rcases hf with rfl | rfl
  · rfl
  · rfl

theorem notifiesFw_root {f : Fin 10} (hf : f = 0 ∨ f = 9) : notifiesFw (funcMaster f).val = false := by
  rcases hf with rfl | rfl
  · rfl
  · rfl

theorem State.landing_memory (s : State) {f : Fin 10} (hf : f = 0 ∨ f = 9) (off : Nat) (h : off < 0x3000000000) (h' : off < s.usableTop) :
    s.landing f .bar4 off = .mem off := by
  simp only [State.landing, isVf_root hf, if_pos h, if_pos h']
  rfl

/-- A write-back of the crew caches sends no note. -/
theorem State.onlyCaches.notes {s t : State} (h : s.onlyCaches t) : t.notes = s.notes := by
  obtain ⟨d, c, x, rfl⟩ := h
  rfl

/-- A granted read of memory by the host (R228). -/
theorem execHostInboundRead_granted {s : State} (hs : s.clean) {f : Fin 10} {off : Nat} (len : Nat) (hon : s.funcOn f = true) (hd : s.board.d3hot[funcPort f] = false)
    (hl : s.landing f .bar4 off = .mem off) (hr : s.refusal (funcMaster f) 1 off len = none) :
    ∃ t, exec (.hostInboundRead f .bar4 off len) s = .next t ∧ t.mem = s.mem ∧ t.cores = s.cores
      ∧ t.notes = s.notes ++ [.data f.val (some (memRead s.mem off len)) false] := by
  have hc := State.recall_clean hs off len (funcMaster f).val
  have hw := hc.wrote hs
  have hx : exec (.hostInboundRead f .bar4 off len) s
      = .next ((s.recall off len (funcMaster f).val).complete f (some (memRead s.mem off len)) false) := by
    show execHostInboundRead f .bar4 off len s = _
    simp only [execHostInboundRead, hon, hd, hl, hr, State.logOutside_clean hw.clean, State.poisoned_clean hw.clean, hw.mem]
    simp
  refine ⟨_, hx, hw.mem, hw.cores, ?_⟩
  rw [State.complete, State.note, hc.notes]

/-- A read that the access table refuses is recorded and answered with Unsupported Request (R61). -/
theorem execHostInboundRead_refused {s : State} {f : Fin 10} {off : Nat} (len k : Nat) (hf : notifiesFw (funcMaster f).val = false) (hon : s.funcOn f = true)
    (hd : s.board.d3hot[funcPort f] = false) (hl : s.landing f .bar4 off = .mem off) (hr : s.refusal (funcMaster f) 1 off len = some k) :
    ∃ t, exec (.hostInboundRead f .bar4 off len) s = .next t ∧ t.ras.elogSeq = s.ras.elogSeq + 1 ∧ t.notes = s.notes ++ [.data f.val none false] := by
  have hx : exec (.hostInboundRead f .bar4 off len) s = .next ((s.logAccess (funcMaster f).val 1 off k).complete f none false) := by
    show execHostInboundRead f .bar4 off len s = _
    simp only [execHostInboundRead, hon, hd, hl, hr]
    simp
  obtain ⟨he, -⟩ := State.logAccess_kept s (funcMaster f).val 1 off k
  obtain ⟨-, -, -, -, hn⟩ := State.note_kept (s.logAccess (funcMaster f).val 1 off k) (.data f.val none false)
  refine ⟨_, hx, ?_, ?_⟩
  · rw [State.complete, hn, he]
  · rw [State.complete, State.note, State.logAccess_notes _ _ _ _ _ hf]

/-- A granted write of memory by the host (R229). -/
theorem execHostInboundWrite_granted {s : State} (hs : s.clean) {f : Fin 10} {off : Nat} {data : List Byte} (hdata : data ≠ []) (hon : s.funcOn f = true)
    (hd : s.board.d3hot[funcPort f] = false) (hl : s.landing f .bar4 off = .mem off) (hr : s.refusal (funcMaster f) 2 off data.length = none) :
    ∃ t, exec (.hostInboundWrite f .bar4 off data) s = .next t ∧ s.Wrote t (memWrite s.mem off data) := by
  have hx : exec (.hostInboundWrite f .bar4 off data) s = .next (s.posted (funcPort f) (funcMaster f).val off data) := by
    show execHostInboundWrite f .bar4 off data s = _
    simp only [execHostInboundWrite, hon, hd, hl, hr]
    simp [hdata]
  exact ⟨_, hx, State.posted_wrote hs _ _ _ _⟩

/-- A peer's request that runs, at a trained port and inside the window (R65). -/
theorem State.peerRequest_runs {s : State} {port : Fin 2} {off n : Nat} (hb : s.board.bootStep = 7) (ht : s.board.trained[port] = true) (h0 : 0 < n)
    (hsz : off + n ≤ 0x800000000) : ¬ (s.board.bootStep ≠ 7 ∨ (!s.board.trained[port]) = true ∨ Config.peerSize < off + n ∨ n = 0) := by
  rintro (h | h | h | h)
  · exact h hb
  · rw [ht] at h; cases h
  · exact absurd h (Nat.not_lt.mpr hsz)
  · omega

/-- A peer's granted read (R65). -/
theorem execPeerInboundRequest_read {s : State} (hs : s.clean) {port : Fin 2} {rid : BitVec 16} {p : Fin 16} {off len pa : Nat} (hb : s.board.bootStep = 7)
    (ht : s.board.trained[port] = true) (hp : s.peerOf port rid = some p) (h0 : 0 < len) (hsz : off + len ≤ 0x800000000) (he : s.exported p false off len = some pa)
    (hr : s.refusal (Fin.ofNat 256 (0xA0 + p.val)) 1 pa len = none) :
    ∃ t, exec (.peerInboundRequest port rid off len none) s = .next t ∧ t.mem = s.mem
      ∧ t.notes = s.notes ++ [.peerData p.val (some (memRead s.mem pa len)) false] := by
  have hc := State.recall_clean hs pa len (0xA0 + p.val)
  have hw := hc.wrote hs
  have hn := State.peerRequest_runs hb ht h0 hsz
  have hx : exec (.peerInboundRequest port rid off len none) s
      = .next ((s.recall pa len (0xA0 + p.val)).note (.peerData p.val (some (memRead s.mem pa len)) false)) := by
    show execPeerInboundRequest port rid off len none s = _
    simp only [execPeerInboundRequest, Option.isSome_none, if_neg hn, hp, he, hr, State.logOutside_clean hw.clean, State.poisoned_clean hw.clean, hw.mem,
      Bool.false_eq_true, if_false]
  refine ⟨_, hx, hw.mem, ?_⟩
  rw [State.note, hc.notes]

/-- A peer's granted write (R65). -/
theorem execPeerInboundRequest_write {s : State} (hs : s.clean) {port : Fin 2} {rid : BitVec 16} {p : Fin 16} {off pa : Nat} (len : Nat) {data : List Byte}
    (hb : s.board.bootStep = 7)
    (ht : s.board.trained[port] = true) (hp : s.peerOf port rid = some p) (h0 : data ≠ []) (hsz : off + data.length ≤ 0x800000000)
    (he : s.exported p true off data.length = some pa) (hr : s.refusal (Fin.ofNat 256 (0xA0 + p.val)) 2 pa data.length = none) :
    ∃ t, exec (.peerInboundRequest port rid off len (some data)) s = .next t ∧ s.Wrote t (memWrite s.mem pa data) := by
  have hn := State.peerRequest_runs hb ht (List.length_pos_iff.mpr h0) hsz
  have hx : exec (.peerInboundRequest port rid off len (some data)) s = .next (s.posted port (0xA0 + p.val) pa data) := by
    show execPeerInboundRequest port rid off len (some data) s = _
    simp only [execPeerInboundRequest, Option.isSome_some, if_neg hn, hp, he, hr, if_true]
  exact ⟨_, hx, State.posted_wrote hs _ _ _ _⟩


end Sys2Proof.Machine
end

section
/-! O36: requests, and accesses to registers. -/

namespace Sys2Proof.Machine

theorem seenFunc_funcMaster (f : Fin 10) : seenFunc (funcMaster f) = f := by
  revert f; decide

theorem onlyIf_true {b : Bool} (s t : State) (hb : b = true) : onlyIf b s t = .next t := by rw [onlyIf, if_pos hb]

/-- FEATACK takes a word until the function has registered a queue (R67). -/
theorem execFeatackWrite_taken (s : State) (f : Fin 10) (w : Fin 8) (v : W32) (hon : s.funcOn f = true) (hr : s.fe.registered[f] = false) :
    exec (.featackWrite f w v) s = .next { s with fe := { s.fe with featack := s.fe.featack.set f (setFld s.fe.featack[f] (32 * w.val) 32 v.toNat) } } := by
  have h : s.featackSet f w.val v.toNat = _ := if_neg (by rw [hr]; decide)
  exact (onlyIf_true _ _ hon).trans (congrArg _ h)

theorem execFeatackWrite_ignored (s : State) (f : Fin 10) (w : Fin 8) (v : W32) (hon : s.funcOn f = true) (hr : s.fe.registered[f] = true) :
    exec (.featackWrite f w v) s = .next (s.ignored (funcMaster f) (0x30 + 4 * w.val) 0) := by
  have h : s.featackSet f w.val v.toNat = _ := if_pos hr
  exact (onlyIf_true _ _ hon).trans (congrArg _ h)

/-- The read of MBX_DONE returns it and clears it (R70). -/
theorem execMbxDoneRead_on (s : State) (f : Fin 10) (hon : s.funcOn f = true) :
    exec (.mbxDoneRead f) s = .next { s with
      fe := { s.fe with mbxDone := s.fe.mbxDone.set f 0 }, notes := s.notes ++ [.data f.val (some (natLe 4 s.fe.mbxDone[f].toNat)) false] } := by
  refine (onlyIf_true _ _ hon).trans ?_
  simp only [State.regTouch, if_true, seenFunc_funcMaster, State.note]

/-- Settles O36: each request and each access is taken apart by what the table of rights answers; under no poison the crew caches write back in silence. -/
theorem requestsAndRegisters : Obligations.RequestsAndRegisters := by
  refine ⟨fun s f off len data hs => ⟨fun hon hd hf h1 h2 => ?_, fun port rid p pa hb ht hp => ⟨fun h0 hsz he hr => ?_, fun h0 hsz he hr => ?_⟩⟩,
    fun s => ⟨fun v hr => ?_, fun m o k v ho hs hr => ?_, fun f w v hon => ⟨fun hr => ?_, fun hr => ?_⟩, fun f hon => execMbxDoneRead_on s f hon⟩⟩
  · have hl := s.landing_memory hf off h1 h2
    refine ⟨execHostInboundRead_granted hs len hon hd hl, fun k => execHostInboundRead_refused len k (notifiesFw_root hf) hon hd hl, fun hne hr => ?_⟩
    obtain ⟨t, hx, hw⟩ := execHostInboundWrite_granted hs hne hon hd hl hr
    exact ⟨t, hx, hw.reads⟩
  · exact execPeerInboundRequest_read hs hb ht hp h0 hsz he hr
  · obtain ⟨t, hx, hw⟩ := execPeerInboundRequest_write hs len hb ht hp h0 hsz he hr
    exact ⟨t, hx, hw.reads⟩
  · refine ⟨execRegisterWrite_lwbase s v (hr _ rfl (by decide)), fun h h' => ?_, fun h => ?_, execRegisterWrite_crSeed s v (hr _ rfl (by decide)),
      execRegisterWrite_domainSelf s v (hr _ rfl (by decide)), execRegisterWrite_invIrq s v (hr _ rfl (by decide)), execRegisterWrite_crCtl s v (hr _ rfl (by decide))⟩
    · rw [execRegisterWrite_tbCtl s v (hr _ rfl (by decide)), TimeBase.setCtl_keeps s.tb v h h']
    · rw [execRegisterWrite_tbCtl s v (hr _ rfl (by decide)), TimeBase.setCtl_frees s.tb v h]
  · exact ⟨_, execRegisterWrite_refused m o v s k ho hs hr, s.logAccess_kept m.val 2 (0x4100000000 + o) k⟩
  · refine ⟨_, execFeatackWrite_taken s f w v hon hr, ?_, fun k hk hne => ?_, rfl⟩
    · rw [Fin.getElem_fin, Vector.getElem_set_self, fld_setFld_same _ _ _ _ (by omega), Nat.mod_eq_of_lt v.isLt]
    · rw [Fin.getElem_fin, Vector.getElem_set_self, fld_setFld_ne _ _ _ _ _ _ (by omega) (by omega)]
  · obtain ⟨-, hfe, -, -, -, hras⟩ := s.log_kept
      { cls := 0x0B, addr := Config.regBase + (0x30 + 4 * w.val), data0 := 2, master := (funcMaster f).val, target := 0x40, cause := 0,
        unit := (funcMaster f).val }
    exact ⟨_, execFeatackWrite_ignored s f w v hon hr, hfe, by rw [State.ignored, hras]⟩

end Sys2Proof.Machine
end

section
/-! O59: what reset leaves. -/

namespace Sys2Proof.Machine

/-- Every master but firmware has empty windows after a reset (R60). -/
theorem reset_windows (m : Fin 256) (i : Fin 8) (hm : m ≠ 0x8C) : State.reset.trans.windows[m][i] = 0 := by
  have h : State.reset.trans.windows[m] = Vector.replicate 8 0 := by
    simp only [State.reset, Trans.reset, Fin.getElem_fin]
    rw [Vector.getElem_set_ne _ _ (by omega), Vector.getElem_replicate]
  rw [h]
  exact Vector.getElem_replicate ..

/-- Settles O59, field by field; the vectors of the reset state hold one value at every place. -/
theorem resetState : Obligations.ResetState := by
  have hcore (c : Fin 128) : State.reset.cores[c] = Core.reset := Vector.getElem_replicate ..
  refine ⟨reset_mem_wf, rfl, rfl, rfl, rfl, rfl, rfl, rfl, rfl, rfl, rfl, fun i => Vector.getElem_replicate .., fun i => Vector.getElem_replicate .., reset_windows,
    by decide, by decide, by decide, rfl, fun c => ?_⟩
  rw [hcore c]
  exact ⟨rfl, rfl, rfl, rfl, rfl⟩

end Sys2Proof.Machine
end

section
/-! O57: every instruction answers a next state, and so does every step that is not stopped. -/

namespace Sys2Proof.Machine

/-- INVALIDATE alone takes cases of its own before its command is judged (R72). -/
theorem execInvalidate_answers (f : Fin 10) (slot : Fin 8) (s : State) : ∃ t, execInvalidate f slot s = .next t := by
  unfold execInvalidate
  dsimp only
  split
  · exact ⟨_, rfl⟩
  split
  · exact ⟨_, rfl⟩
  · exact ⟨_, rfl⟩

/-- No instruction's meaning faults or is refused: each is written as a next state, with its cases inside it. -/
theorem exec_answers (i : Instr) (s : State) : ∃ t, exec i s = .next t := by
  cases i with
  | invalidate f slot => exact execInvalidate_answers f slot s
  | _ => exact ⟨_, rfl⟩

/-- Only stopped clocks keep a step from answering (R12). -/
theorem step_answers (s : State) (h : (s.board.fatal && !(s.agenda.head?.map Input.sideband).getD false) = false) : ∃ t, step s = .next t := by
  rw [step, if_neg (by rw [h]; exact Bool.false_ne_true)]
  split
  · exact exec_answers ..
  · exact ⟨_, rfl⟩
  split
  · exact ⟨_, rfl⟩
  · exact exec_answers ..

/-- With its clocks stopped the device answers no input but a sideband's (R12). -/
theorem step_stopped (s : State) (hf : s.board.fatal = true) (h : (s.agenda.head?.map Input.sideband).getD false = false) : step s = .fault .clocksStopped :=
  if_pos (by rw [hf, h]; rfl)

/-- A sideband event is executed whether the clocks run or not (R12). -/
theorem step_sidebandEvent (s : State) (i : Instr) (rest : List Input) (ha : s.agenda = .event i :: rest) (h : (Input.event i).sideband = true) :
    step s = exec i { s with agenda := rest } := by
  rw [step, ha, if_neg (by simp [h])]

/-- Settles O57: every meaning answers, and with it every step that is not stopped; a cold reset starts a stopped device again. -/
theorem runningStepsComplete : Obligations.RunningStepsComplete := by
  refine ⟨⟨fun s hf => step_answers s (by rw [hf]; rfl), exec_answers⟩, fun s hf => ⟨fun ha => ?_, fun i rest ha hi => ?_, fun x rest ha hx => ?_⟩⟩
  · exact step_stopped s hf (by rw [ha]; rfl)
  · rw [List.mem_pair] at hi
    obtain rfl | rfl := hi
    · exact ⟨_, step_sidebandEvent s _ rest ha rfl, rfl, rfl⟩
    · exact ⟨_, step_sidebandEvent s _ rest ha rfl, rfl, rfl⟩
  · exact step_stopped s hf (by rw [ha]; exact hx)

end Sys2Proof.Machine
end

section
/-! SUPPORT for O30, O31 and O33. An event that does not hold; fields of words and numbers. -/

namespace Sys2Proof.Machine

theorem onlyIf_false {b : Bool} (s t : State) (hb : b = false) : onlyIf b s t = .next s := by
  rw [onlyIf, if_neg (by rw [hb]; exact Bool.false_ne_true)]

/-- A field of a number put into a word (R7). -/
theorem fld_ofNat {w : Nat} (n lo len : Nat) (h : lo + len ≤ w) : fld (BitVec.ofNat w n) lo len = bits n lo len := by
  rw [fld, BitVec.toNat_ofNat, bits_mod _ _ _ _ h]

/-- A field read from a word is its bits (R7). -/
theorem ofNat_fld {w : Nat} (x : BitVec w) (lo len : Nat) : BitVec.ofNat len (fld x lo len) = x.extractLsb' lo len := by
  refine BitVec.eq_of_toNat_eq ?_
  rw [BitVec.toNat_ofNat, BitVec.extractLsb'_toNat, Nat.shiftRight_eq_div_pow, fld, bits, Nat.mod_mod]

end Sys2Proof.Machine
end

section
/-! SUPPORT for O31. What each event of the boot does where it is its turn (R27 to R29, R127). -/

namespace Sys2Proof.Machine

/-! Steps 1 to 3 (R27) -/

theorem execPufReconstruction_runs (s : State) (he : s.board.bootErr = 0) (hs : s.board.bootStep = 1) :
    exec .pufReconstruction s = .next { s with board := s.board.step2 } :=
  onlyIf_true _ _ (by rw [hs, he]; rfl)

theorem Board.step2_reconstructs (b : Board) (h : b.flash.helperOk = true) :
    b.step2 = { b with bootStep := if b.watchdog then 3 else 2, idKey := true } := if_pos h

theorem Board.step2_fails (b : Board) (h : b.flash.helperOk = false) : b.step2 = { b with bootStep := 2, bootErr := 4 } :=
  if_neg (by rw [h]; exact Bool.false_ne_true)

theorem Board.beginTraining_runs (b : Board) (he : b.bootErr = 0) (hs : b.bootStep = 2) : b.beginTraining = { b with bootStep := 3 } := if_pos (by rw [hs, he]; rfl)

theorem execLinkTraining_runs (s : State) (p : Fin 2) (hs : 2 ≤ s.board.bootStep) (he : s.board.bootErr ≠ 4) (ht : s.board.trained[p] = false) :
    exec (.linkTraining p) s = .next { s with board := { s.board with trained := s.board.trained.set p true, bootStep := max s.board.bootStep 3 } } :=
  onlyIf_true _ _ (by rw [ht, decide_eq_true hs, bne_iff_ne.mpr he]; rfl)

/-! Steps 4 and 5 (R28, R29) -/

/-- The three checks of a slot (R28). -/
theorem Flash.slotOk_iff (f : Flash) (x : SlotImage) :
    f.slotOk x = true ↔ x.chainOk = true ∧ x.sigOk = true ∧ (if f.secMacOk then f.secVersion else 0) ≤ x.version := by
  rw [Flash.slotOk, Bool.and_eq_true, Bool.and_eq_true, and_assoc, decide_eq_true_iff]
  rfl

theorem execSlotVerification_runs (s : State) (he : s.board.bootErr = 0) (hs : s.board.bootStep = 3) :
    exec .slotVerification s = .next { s with board := s.board.verify } :=
  onlyIf_true _ _ (by rw [hs, he]; rfl)

theorem Board.verify_slotA (b : Board) (h : b.flash.slotOk b.flash.slotA = true) : b.verify = b.start false b.flash.slotA := if_pos h

theorem Board.verify_slotB (b : Board) (h : ¬ b.flash.slotOk b.flash.slotA = true) (h' : b.flash.slotOk b.flash.slotB = true) :
    b.verify = b.start true b.flash.slotB := by
  rw [Board.verify, if_neg h, if_pos h']

theorem Board.verify_none (b : Board) (h : ¬ b.flash.slotOk b.flash.slotA = true) (h' : ¬ b.flash.slotOk b.flash.slotB = true) :
    b.verify = { b with bootStep := 4, bootErr := 3 } := by
  rw [Board.verify, if_neg h, if_neg h']

/-! Steps 6 and 7 (R27, R127) -/

/-- A step on memory training reached (R27 step 6). -/
theorem execMemoryTraining_runs (s : State) (ok : Bool) (he : s.board.bootErr ≠ 5) (hs : s.board.bootStep = 5) :
    exec (.memoryTraining ok) s = .next (if ok || s.board.warm then s.step6 else s.modBoard (fun b => { b with bootErr := 5 })) :=
  onlyIf_true _ _ (by rw [hs, bne_iff_ne.mpr he]; rfl)

/-- A function that the blob gives no root region gets none (R127). -/
theorem State.makeRoot_none (s : State) (f : Fin 10) (h : s.board.blob.roots = []) : s.makeRoot f = s := by
  unfold State.makeRoot
  rw [h]
  rfl

/-- The board after step 6 (R20, R22, R25). -/
def Board.step6 (b : Board) : Board :=
  { b with bootStep := 6, blob := b.flash.blob, hdm := checkHdm b.flash.blob.hdm, tags := if b.warm then b.tags else b.flash.blob.tags,
           limit := match b.flash.blob.limit with | some w => if b.warm then b.limit else clampLimit w | none => b.limit }

/-- The region that step 6 makes first (R127). -/
def region0 (b : Blob) : Region := { Region.none with exist := true, rcb := b.rcb0, state := 0 }

/-- Without root regions in the blob, step 6 changes the board and makes region 0 (R127). -/
theorem State.step6_noRoots (s : State) (h : s.board.flash.blob.roots = []) :
    s.step6 = (s.modBoard Board.step6).setRegion 0 (region0 s.board.flash.blob) := by
  unfold State.step6
  extract_lets b s1 x s2
  exact foldl_keeps (fun t => t = s2) _ _ s2 rfl fun t f ht => by rw [State.makeRoot_none t f (by rw [ht]; exact h), ite_self, ht]

@[simp] theorem State.setRegion_region (s : State) (r : Nat) (x : Region) : (s.setRegion r x).region r = x := sget_sset_same ..

/-- Region 0 gives itself every field group (R128). -/
theorem State.group_zero (s : State) (g : Nat) : s.group g 0 = (s.region 0).rcb := if_pos (.inr rfl)

/-- Region 0 has every core, and 1 MiB of scratch on each (R127). -/
theorem Blob.rcb0_budget (b : Blob) : fld b.rcb0 0 128 = 2 ^ 128 - 1 ∧ fld b.rcb0 128 9 = 256 := by
  unfold Blob.rcb0
  extract_lets up lbase lq
  rw [fld_ofNat _ _ _ (by decide), fld_ofNat _ _ _ (by decide), bits, bits]
  omega

/-- Opening the masters' windows changes the access tables alone (R59). -/
theorem State.openMasters_trans (s : State) : ∃ x, s.openMasters = { s with trans := x } := by
  unfold State.openMasters
  refine foldl_keeps (fun t : State => ∃ x, t = { s with trans := x }) _ _ _ ⟨s.trans, rfl⟩ ?_
  rintro _ k ⟨x, rfl⟩
  exact ⟨_, rfl⟩

theorem execDeviceReady_runs (s : State) (he : s.board.bootErr ≠ 5) (hs : s.board.bootStep = 6) :
    exec .deviceReady s = .next (State.openMasters { s with
      board := { s.board with bootStep := 7, retry := false }, fe := { s.fe with features := publishedFeatures } }) :=
  onlyIf_true _ _ (by rw [hs, bne_iff_ne.mpr he]; rfl)

end Sys2Proof.Machine
end

section
/-! O31: the steps of the boot. -/

namespace Sys2Proof.Machine

/-- Settles O31, one step of the boot after another. -/
theorem bootSteps : Obligations.BootSteps := by
  intro s
  refine ⟨fun he hs hk => ⟨_, execPufReconstruction_runs s he hs, by rw [Board.step2_reconstructs _ hk]⟩,
    fun he hs hk => ⟨_, execPufReconstruction_runs s he hs, by rw [Board.step2_fails _ hk]⟩,
    fun hs => ⟨s, onlyIf_false _ _ (by rw [beq_false_of_ne hs]; rfl), rfl⟩,
    fun he hs => by rw [← Board.beginTraining_runs _ he hs]; rfl,
    fun p hs he ht => ⟨_, execLinkTraining_runs s p hs he ht, rfl⟩,
    fun he hs => ⟨fun ha => ?_, fun ha hb => ?_, fun ha hb => ?_⟩,
    fun he hs hw => ⟨_, execMemoryTraining_runs s false he hs, if_neg (by rw [hw]; decide)⟩,
    fun he hs hr ok hok => ?_, fun he hs => ?_, fun f => ⟨_, rfl, rfl⟩⟩
  · have hv := s.board.verify_slotA ((Flash.slotOk_iff ..).mpr ha)
    exact ⟨_, execSlotVerification_runs s he hs, by rw [hv]; exact ⟨⟨rfl, rfl, rfl, rfl, rfl⟩, rfl, he⟩⟩
  · have hv := s.board.verify_slotB (mt (Flash.slotOk_iff ..).mp ha) ((Flash.slotOk_iff ..).mpr hb)
    exact ⟨_, execSlotVerification_runs s he hs, by rw [hv]; exact ⟨⟨rfl, rfl, rfl, rfl, rfl⟩, rfl, rfl⟩⟩
  · have hv := s.board.verify_none (mt (Flash.slotOk_iff ..).mp ha) (mt (Flash.slotOk_iff ..).mp hb)
    exact ⟨_, execSlotVerification_runs s he hs, by rw [hv]⟩
  · have hrun : (ok || s.board.warm) = true := by simpa using hok
    refine ⟨_, execMemoryTraining_runs s ok he hs, ?_⟩
    rw [if_pos hrun, s.step6_noRoots hr]
    obtain ⟨hmask, hscr⟩ := s.board.flash.blob.rcb0_budget
    refine ⟨rfl, rfl, rfl, rfl, rfl, rfl, ?_, ?_, ?_, ?_⟩
    · rw [State.setRegion_region]; rfl
    · rw [State.setRegion_region]; rfl
    · rw [State.effMask, State.group_zero, State.setRegion_region, region0, hmask]; decide
    · rw [State.effScrq, State.group_zero, State.setRegion_region, region0, hscr]
  · refine ⟨_, execDeviceReady_runs s he hs, ?_⟩
    obtain ⟨x, hx⟩ := State.openMasters_trans { s with
      board := { s.board with bootStep := 7, retry := false }, fe := { s.fe with features := publishedFeatures } }
    rw [hx]
    exact ⟨rfl, rfl, rfl, rfl⟩

end Sys2Proof.Machine
end

section
/-! SUPPORT for O30 and O33. Lifetime records, dialogs of the time base, a lost CXL link (R21, R32, R104). -/

namespace Sys2Proof.Machine

theorem clampLimit_eq (w : Nat) : clampLimit w = max 900 (min 1650 w) := by unfold clampLimit; omega

/-- A record in the error log counts on the board and changes nothing else of it (R158, R166, R171). -/
theorem State.log_board (s : State) (r : LogRec) : ∃ l d, (s.log r).board = { s.board with life := l, domCount := d } := by
  cases h : r.domain with
  | none => exact ⟨_, s.board.domCount, by unfold State.log; rw [h]; rfl⟩
  | some d => exact ⟨_, _, by unfold State.log; rw [h]; rfl⟩

theorem State.log_lostCxl (s : State) (r : LogRec) : (s.log r).board.lostCxl = s.board.lostCxl := by
  obtain ⟨l, d, h⟩ := s.log_board r
  rw [h]

theorem mem_lostRanges {l : List Hdm} {p : Fin 2} {h : Hdm} (hl : h ∈ l) (he : h.enabled = true) (hp : h.interleave = true ∨ h.port = p) :
    (h.base, h.size) ∈ lostRanges l p :=
  List.mem_map_of_mem (List.mem_filter.mpr ⟨hl, by simpa [he] using hp⟩)

/-- The loss of a link loses the ranges of its port for good, and no core hears of it (R21). -/
theorem execCxlLinkLoss_lost (s : State) (p : Fin 2) : ∃ t, exec (.cxlLinkLoss p) s = .next t ∧ t.cores = s.cores
    ∧ ∀ r ∈ lostRanges s.board.hdm p, r ∈ t.board.lostCxl := by
  refine ⟨_, rfl, ?_⟩
  let l := (lostRanges s.board.hdm p).filter (fun r => !s.board.lostCxl.contains r)
  have hl : ∀ r ∈ lostRanges s.board.hdm p, r ∈ s.board.lostCxl ++ l := by
    intro r hr
    by_cases h : r ∈ s.board.lostCxl
    · exact List.mem_append_left _ h
    · exact List.mem_append_right _ (List.mem_filter.mpr ⟨hr, by simpa using h⟩)
  refine foldl_keeps (fun t : State => t.cores = s.cores ∧ ∀ r ∈ lostRanges s.board.hdm p, r ∈ t.board.lostCxl) _ _ _ ⟨rfl, hl⟩
    fun t x ⟨hc, hm⟩ => ⟨?_, ?_⟩
  · rw [State.log_cores, hc]
  · rwa [State.log_lostCxl]

/-! Lifetime records (R32) -/

theorem Board.putRecord_bank0 (b : Board) (ok : Bool) (hs : b.lifeSlot < 256) (hb : b.lifeBank = false) :
    (b.putRecord ok).flash = { b.flash with bank0 := b.flash.bank0 ++ [⟨b.lifeSeq, ok, b.life⟩] } := by
  have h : decide (bankSlots ≤ b.lifeSlot) = false := decide_eq_false (Nat.not_le.mpr hs)
  simp [Board.putRecord, h, hb]

theorem Board.putRecord_bank1 (b : Board) (ok : Bool) (hs : b.lifeSlot < 256) (hb : b.lifeBank = true) :
    (b.putRecord ok).flash = { b.flash with bank1 := b.flash.bank1 ++ [⟨b.lifeSeq, ok, b.life⟩] } := by
  have h : decide (bankSlots ≤ b.lifeSlot) = false := decide_eq_false (Nat.not_le.mpr hs)
  simp [Board.putRecord, h, hb]

/-- While firmware runs, its timer and an orderly shutdown append a good record (R32). -/
theorem exec_goodRecord (s : State) (e : Instr) (he : e ∈ [Instr.lifetimeRecordTimer, .orderlyShutdown]) (hf : 5 ≤ s.board.bootStep) :
    exec e s = .next (s.modBoard (fun b => b.putRecord true)) := by
  rw [List.mem_pair] at he
  obtain rfl | rfl := he
  · exact onlyIf_true _ _ (decide_eq_true hf)
  · exact onlyIf_true _ _ (decide_eq_true hf)

/-! The time base (R103, R104) -/

theorem TimeBase.dialog_ahead (t : TimeBase) (off : Int) (h : 1000000 < off) :
    (t.dialog off).now = t.now + BitVec.ofInt 64 off ∧ (t.dialog off).steps = t.steps + 1 ∧ (t.dialog off).slewPpm = 0 := by
  simp [TimeBase.dialog, h]

theorem TimeBase.dialog_behind (t : TimeBase) (off : Int) (h : off < -1000000) :
    (t.dialog off).now = t.now ∧ (t.dialog off).steps = t.steps ∧ (t.dialog off).slewPpm = -1000 ∧ (t.dialog off).remaining = off := by
  simp [TimeBase.dialog, h, show ¬ 1000000 < off by omega]

theorem TimeBase.dialog_near (t : TimeBase) (off : Int) (h : -1000000 ≤ off) (h' : off ≤ 1000000) :
    (t.dialog off).now = t.now ∧ (t.dialog off).steps = t.steps ∧ (t.dialog off).remaining = off ∧ -100 ≤ (t.dialog off).slewPpm ∧ (t.dialog off).slewPpm ≤ 100 := by
  rw [TimeBase.dialog, if_neg (not_lt.mpr h'), if_neg (not_lt.mpr h)]
  exact ⟨rfl, rfl, rfl, le_min (le_max_right _ _) (by decide), min_le_right _ _⟩

/-- A dialog on port 0 while TB_CTL disciplines the base from it (R104). -/
theorem execPtmDialog_runs (s : State) (off : Int) (hc : s.tb.ctl = 1) (ht : s.board.trained[(0 : Fin 2)] = true) (hp : s.board.ptmEnable[(0 : Fin 2)] = true)
    (hf : 5 ≤ s.board.bootStep) : exec (.ptmDialog off) s = .next { s with tb := s.tb.dialog off } := by
  have hport : (Fin.ofNat 2 (fld s.tb.ctl 1 1)) = 0 := by rw [hc]; rfl
  refine onlyIf_true _ _ ?_
  simp only [hport]
  rw [ht, hp, hc]
  exact decide_eq_true hf

end Sys2Proof.Machine
end

section
/-! O33: the sideband, lifetime records and the time base. -/

namespace Sys2Proof.Machine

/-- Settles O33, one event after another. -/
theorem sidebandAndTimeEvents : Obligations.SidebandAndTimeEvents := by
  intro s
  refine ⟨fun a => rfl, fun v => ?_, ?_,
    fun hf hs e he => ⟨_, exec_goodRecord s e he hf, rfl, s.board.putRecord_bank0 true hs, s.board.putRecord_bank1 true hs, rfl, rfl⟩, rfl,
    fun off hc ht hp hf => ?_, fun p => ?_⟩
  · rw [← clampLimit_eq]; rfl
  · rw [← ofNat_fld]; rfl
  · have hx := execPtmDialog_runs s off hc ht hp hf
    exact ⟨fun h => ⟨_, hx, s.tb.dialog_ahead off h⟩, fun h => ⟨_, hx, s.tb.dialog_behind off h⟩, fun h h' => ⟨_, hx, s.tb.dialog_near off h h'⟩⟩
  · obtain ⟨t, hx, hc, hl⟩ := execCxlLinkLoss_lost s p
    exact ⟨t, hx, hc, fun h hh he hp => hl _ (mem_lostRanges hh he hp)⟩

end Sys2Proof.Machine
end

section
/-! O32: a board that is stopped does not throttle. -/

namespace Sys2Proof.Machine

/-- A stopped device measures its temperature and does nothing else about it (R12, R25). -/
theorem Board.setTemp_stopped (b : Board) (t : Int) (h : b.fatal = true) : b.setTemp t = { b with temp := t } := if_pos h

theorem execJunctionThrottle_stopped (s : State) (t : Int) (h : s.board.fatal = true) (ht : 840 ≤ t) (ht' : t < 920) (hn : s.board.throttle = false) :
    exec (.junctionThrottle t) s = .next { s with board := { s.board with temp := t } } := by
  have hc : (decide (840 ≤ t ∧ t < 920) && !s.board.throttle) = true := by simp [ht, ht', hn]
  exact (onlyIf_true _ _ hc).trans (by rw [State.modBoard, Board.setTemp_stopped _ _ h])

/-- Refutes O32: the clause of 105 °C speaks of every board, and one that a fatal error has stopped takes the temperature without the throttle (R12): a
machine after reset with FATAL set, at 105 °C. -/
theorem not_powerThermalAndVoltage : ¬ Obligations.PowerThermalAndVoltage := by
  rintro ⟨hclock, -⟩
  let s : State := { State.reset with board := { Board.reset with fatal := true } }
  obtain ⟨-, -, -, hthrottle, -⟩ := hclock s
  obtain ⟨t, hx, ht⟩ := hthrottle 840 (by decide) (by decide) rfl
  rw [execJunctionThrottle_stopped s 840 rfl (by decide) (by decide) rfl] at hx
  have hs : t.board.throttle = false := by cases hx; rfl
  have hn : t.board.throttle = true := by rw [ht]
  rw [hs] at hn
  cases hn

end Sys2Proof.Machine
end

section
/-! SUPPORT for O30. What the resets of the device leave in memory and in the flash (R23, R27, R32). -/

namespace Sys2Proof.Machine

/-- What is left at a key of an array of which some keys are kept. -/
theorem sget_filter {β : Type} (d : β) (p : Nat → Bool) (m : Sparse β) (a : Nat) : sget d (m.filter (fun e => p e.1)) a = if p a then sget d m a else d := by
  induction m with
  | nil => exact (ite_self d).symm
  | cons e m ih =>
    obtain ⟨k, v⟩ := e
    rw [List.filter_cons, sget]
    by_cases hka : k = a
    · rw [if_pos hka, ← hka]
      split
      · next hk => rw [sget, if_pos rfl]
      · next hk => rw [hka, ih, if_neg (hka ▸ hk)]
    · rw [if_neg hka]
      split
      · rw [sget, if_neg hka, ih]
      · exact ih

/-- What every reset of the device loses: its cores, streams, regions, front end, translations and caches (R23). -/
theorem State.restart_clears (s : State) : s.restart.cores = Vector.replicate 128 Core.reset ∧ s.restart.streams = [] ∧ s.restart.sched = Sched.reset
    ∧ s.restart.fe = FrontEnd.reset ∧ s.restart.trans = Trans.reset ∧ s.restart.fab = Fabric.reset := ⟨rfl, rfl, rfl, rfl, rfl, rfl⟩

/-- A cold reset leaves the bytes outside the device alone (R23, R27). -/
theorem State.coldReset_reads (s : State) (a : Nat) :
    sget Memory.dflt s.coldReset.mem a = if a < Config.cxlBase then 0 else sget Memory.dflt s.mem a := by
  have h := sget_filter Memory.dflt (fun k => decide (Config.cxlBase ≤ k)) s.mem a
  refine h.trans ?_
  by_cases ha : a < Config.cxlBase
  · rw [if_pos ha, if_neg (by simpa using ha)]; rfl
  · rw [if_neg ha, if_pos (by simpa using ha)]

/-- A warm reset keeps device memory, and what lies outside the device (R23). -/
theorem State.warmReset_reads (s : State) (dog : Bool) (a : Nat) (ha : a < 0x4000000000 ∨ Config.cxlBase ≤ a) :
    sget Memory.dflt (s.warmReset dog).mem a = sget Memory.dflt s.mem a := by
  have h := sget_filter Memory.dflt (fun k => decide (k < 0x4000000000) || decide (Config.cxlBase ≤ k)) s.mem a
  exact h.trans (if_pos (by simpa using ha))

/-- Firmware that writes a record at a power loss leaves it damaged (R32). -/
theorem execPowerLoss_mid (s : State) (hf : 5 ≤ s.board.bootStep) :
    exec (.powerLoss true) s = .next (s.modBoard (fun b => b.putRecord false)).restart :=
  congrArg _ (congrArg _ (if_pos (decide_eq_true hf)))

end Sys2Proof.Machine
end

section
/-! SUPPORT for O30. The registers that the reset of a function withdraws, through everything else that it does (R18). -/

namespace Sys2Proof.Machine

theorem State.clearLatch_latchFifo (s : State) (p : Fin 2) (q : Nat) :
    q ∈ (s.clearLatch p).fe.latchFifo ↔ q ∈ s.fe.latchFifo ∧ fld (s.qd q) 148 1 ≠ p.val := by
  simp [State.clearLatch, List.mem_filter]

/-- What a function's reset withdraws, of every function, and VF Enable: FEATACK, the registrations, MBX_DONE (R14, R18, R67, R70). -/
def State.funcRegs (s : State) : Vector (BitVec 256) 10 × Vector Bool 10 × Vector (BitVec 8) 10 × Vector Bool 8 :=
  (s.fe.featack, s.fe.registered, s.fe.mbxDone, s.board.vfEnable)

theorem State.funcRegs_congr {s t : State} (ha : t.fe.featack = s.fe.featack) (hr : t.fe.registered = s.fe.registered) (hm : t.fe.mbxDone = s.fe.mbxDone)
    (hv : t.board.vfEnable = s.board.vfEnable) : t.funcRegs = s.funcRegs := by
  rw [State.funcRegs, State.funcRegs, ha, hr, hm, hv]

theorem foldl_funcRegs {α : Type} (f : State → α → State) (hf : ∀ s x, (f s x).funcRegs = s.funcRegs) (l : List α) (s : State) :
    (l.foldl f s).funcRegs = s.funcRegs :=
  foldl_keeps (fun t : State => t.funcRegs = s.funcRegs) f l s rfl (fun t x ht => (hf t x).trans ht)

theorem State.modQd_funcRegs (s : State) (q : Nat) (f) : (s.modQd q f).funcRegs = s.funcRegs := by
  rw [State.funcRegs, State.modQd_fe, State.modQd_board, State.funcRegs]

theorem State.freeSlot_funcRegs (s : State) (k : Fin 128) (q : Nat) : (s.freeSlot k q).funcRegs = s.funcRegs :=
  State.funcRegs_congr rfl rfl rfl rfl

theorem State.unregQueue_funcRegs (s : State) (q : Nat) : (s.unregQueue q).funcRegs = s.funcRegs := by
  unfold State.unregQueue
  extract_lets st s1 s2
  have h1 : s1.funcRegs = s.funcRegs := by
    dsimp only [s1]
    split
    · exact State.freeSlot_funcRegs ..
    · rfl
  have h2 : s2.funcRegs = s1.funcRegs := State.modQd_funcRegs ..
  refine Eq.trans ?_ (h2.trans h1)
  exact State.funcRegs_congr rfl rfl rfl rfl

theorem State.openCores_funcRegs (s : State) (mask) : (s.openCores mask).funcRegs = s.funcRegs :=
  foldl_funcRegs _ (fun s n => by split <;> rfl) _ _

theorem State.closeCores_funcRegs (s : State) : s.closeCores.funcRegs = s.funcRegs :=
  foldl_funcRegs _ (fun s n => by split <;> rfl) _ _

theorem State.makeRegion_funcRegs (s : State) (r parent func b addr ctx) : (s.makeRegion r parent func b addr ctx).funcRegs = s.funcRegs :=
  State.openCores_funcRegs _ _

theorem State.makeRoot_funcRegs (s : State) (f) : (s.makeRoot f).funcRegs = s.funcRegs := by
  unfold State.makeRoot
  split
  · rfl
  dsimp only
  split
  · exact State.makeRegion_funcRegs ..
  · rfl

theorem State.storeFlumes_funcRegs (s : State) (r) : (s.storeFlumes r).funcRegs = s.funcRegs :=
  foldl_funcRegs _ (fun s f => by dsimp only; split <;> rfl) _ _

theorem State.mapWorks_funcRegs (s : State) (f) : (s.mapWorks f).funcRegs = s.funcRegs := rfl

theorem State.setRegion_funcRegs (s : State) (r x) : (s.setRegion r x).funcRegs = s.funcRegs := rfl

theorem State.removeRegion_funcRegs (s : State) (r) : (s.removeRegion r).funcRegs = s.funcRegs := by
  unfold State.removeRegion
  extract_lets x s0 s1
  have h0 : s0.funcRegs = s.funcRegs := State.mapWorks_funcRegs ..
  have h1 : s1.funcRegs = (s0.storeFlumes r).funcRegs := State.setRegion_funcRegs ..
  clear_value s0 s1
  refine (State.closeCores_funcRegs _).trans (Eq.trans ?_ (h1.trans ((State.storeFlumes_funcRegs s0 r).trans h0)))
  exact State.funcRegs_congr rfl rfl rfl rfl

theorem State.settleQuiesce_funcRegs (s : State) : s.settleQuiesce.funcRegs = s.funcRegs :=
  foldl_funcRegs _ (fun s r => by split <;> rfl) _ _

theorem State.settleDestroy_funcRegs (k : Nat) (s : State) : (State.settleDestroy k s).funcRegs = s.funcRegs := by
  induction k generalizing s with
  | zero => rfl
  | succ k ih =>
    rw [State.settleDestroy]
    split
    · rw [ih, State.removeRegion_funcRegs]
    · rfl

theorem State.settleResets_funcRegs (s : State) : s.settleResets.funcRegs = s.funcRegs := by
  refine foldl_funcRegs _ (fun s f => ?_) _ _
  dsimp only
  split
  · split
    · exact State.makeRoot_funcRegs _ _
    · rfl
  · rfl

theorem State.sweep_funcRegs (s : State) : s.sweep.funcRegs = s.funcRegs :=
  ((State.settleResets_funcRegs _).trans (State.settleDestroy_funcRegs _ _)).trans (State.settleQuiesce_funcRegs _)

theorem State.failOp_funcRegs (s : State) (q) : (s.failOp q).funcRegs = s.funcRegs := by
  unfold State.failOp
  split
  · rfl
  · rfl

theorem State.beginDestroy_funcRegs (s : State) (r) : (s.beginDestroy r).funcRegs = s.funcRegs :=
  foldl_funcRegs State.failOp State.failOp_funcRegs _ s

/-- The reset of a function without streams withdraws its own registers and no other's (R18). -/
theorem State.resetFunction_funcRegs (s : State) (f : Fin 10) (h : s.streams = []) :
    (s.resetFunction f).funcRegs = (s.fe.featack.set f 0, s.fe.registered.set f false, s.fe.mbxDone.set f 0, s.board.vfEnable) := by
  unfold State.resetFunction
  extract_lets s1 s2 _ _ _ s3 s4
  have h1 : s1 = s := by
    dsimp only [s1]
    rw [h]
    rfl
  have h2 : s2.funcRegs = s.funcRegs := by
    rw [← h1]
    exact foldl_funcRegs _ State.unregQueue_funcRegs _ _
  clear_value s2
  have h3 : s3.funcRegs = (s2.fe.featack.set f 0, s2.fe.registered.set f false, s2.fe.mbxDone.set f 0, s2.board.vfEnable) := rfl
  have h4 : s4.funcRegs = s3.funcRegs := State.funcRegs_congr rfl rfl rfl rfl
  simp only [State.funcRegs, Prod.mk.injEq] at h2
  obtain ⟨ha, hr, hm, hv⟩ := h2
  rw [State.sweep_funcRegs, foldl_funcRegs _ State.beginDestroy_funcRegs, h4, h3, ha, hr, hm, hv]

theorem State.resetPhysical_funcRegs (s : State) (p : Fin 2) (hs : s.streams = []) (hv : s.board.vfEnable = Vector.replicate 8 false) :
    let f : Fin 10 := if p = 0 then 0 else 9
    (s.resetPhysical p).funcRegs = (s.fe.featack.set f 0, s.fe.registered.set f false, s.fe.mbxDone.set f 0, Vector.replicate 8 false) := by
  intro f
  unfold State.resetPhysical
  extract_lets g vfs s1
  have hvfs : vfs = [] := by
    dsimp only [vfs]
    rw [hv]
    fin_cases p <;> decide
  have hg : g = f := by fin_cases p <;> rfl
  have h1 : s1.board.vfEnable = Vector.replicate 8 false := by
    show (if p.val = 0 then Vector.replicate 8 false else s.board.vfEnable) = _
    rw [hv, ite_self]
  rw [hvfs, hg, List.foldl_nil, State.resetFunction_funcRegs _ _ (show s1.streams = [] from hs), h1]
  rfl

/-- A function whose registers were withdrawn has nothing of its own in force (R18, R67, R70). -/
theorem State.withdrawn_of_funcRegs {s t : State} {f : Fin 10} {v : Vector Bool 8}
    (h : t.funcRegs = (s.fe.featack.set f 0, s.fe.registered.set f false, s.fe.mbxDone.set f 0, v)) :
    t.fe.featack[f] = 0 ∧ t.fe.registered[f] = false ∧ t.fe.mbxDone[f] = 0 ∧ t.board.vfEnable = v := by
  simp only [State.funcRegs, Prod.mk.injEq] at h
  obtain ⟨ha, hr, hm, hv⟩ := h
  rw [ha, hr, hm, hv]
  exact ⟨Vector.getElem_set_self _, Vector.getElem_set_self _, Vector.getElem_set_self _, rfl⟩

theorem execPortReset_link (s : State) (p : Fin 2) : ∃ t, exec (.portReset p) s = .next t ∧ t.board.trained[p] = false ∧ t.board.d3hot[p] = false :=
  ⟨_, rfl, Vector.getElem_set_self _, Vector.getElem_set_self _⟩

/-- Before boot step 6 no function is there to be reset (R18). -/
theorem execPortReset_early (s : State) (p : Fin 2) (h : s.board.bootStep < 6) :
    exec (.portReset p) s = .next { s.clearLatch p with
      tb := s.tb.ptmOff p.val, board := { s.board with trained := s.board.trained.set p false, d3hot := s.board.d3hot.set p false } } := by
  have h6 : ¬ 6 ≤ s.board.bootStep := Nat.not_le.mpr h
  show execPortReset p s = _
  rw [execPortReset, if_neg h6]
  rfl

theorem execFunctionLevelResetVf_runs (s : State) (vf : Fin 8) (hv : s.board.vfEnable[vf] = true) (hb : 6 ≤ s.board.bootStep) :
    exec (.functionLevelResetVf vf) s = .next (s.resetFunction (Fin.ofNat 10 (vf.val + 1))) :=
  onlyIf_true _ _ (by rw [hv, decide_eq_true hb]; rfl)

theorem execFunctionLevelResetPf_runs (s : State) (pf : Fin 2) (hb : 6 ≤ s.board.bootStep) :
    exec (.functionLevelResetPf pf) s = .next (s.resetPhysical pf) :=
  onlyIf_true _ _ (decide_eq_true hb)

end Sys2Proof.Machine
end

section
/-! O30: the resets. -/

namespace Sys2Proof.Machine

/-- Settles O30: the resets of the device are read off the model; those of a function keep every register of it that they do not withdraw. -/
theorem resetsClearWhatTheySay : Obligations.ResetsClearWhatTheySay := by
  refine ⟨fun s => ?_, fun s => ⟨fun p => ?_, fun vf hv hb hr hs => ?_, fun pf hb hr hs hv => ?_⟩⟩
  · refine ⟨⟨s.coldReset, rfl, ?_⟩, ⟨s.coldReset, rfl, ?_⟩, fun v hv => onlyIf_false _ _ (beq_false_of_ne hv), ⟨s.warmReset false, rfl, ?_⟩,
      fun hf => ⟨s.warmReset true, onlyIf_true _ _ (decide_eq_true hf), ?_⟩, ⟨s.restart, rfl, s.restart_clears, rfl⟩, fun hf hb hl => ⟨_, execPowerLoss_mid s hf, ?_⟩⟩
    · exact ⟨s.restart_clears, rfl, rfl, s.coldReset_reads⟩
    · exact ⟨s.restart_clears, rfl, rfl, s.coldReset_reads⟩
    · exact ⟨s.restart_clears, rfl, rfl, rfl, rfl, rfl, rfl, s.warmReset_reads false⟩
    · exact ⟨s.restart_clears, rfl, rfl, rfl, rfl, rfl, rfl, s.warmReset_reads true⟩
    · exact ⟨State.restart_clears _, rfl, s.board.putRecord_bank0 false hl hb⟩
  · obtain ⟨t, hx, ht, hd⟩ := execPortReset_link s p
    refine ⟨t, hx, ht, hd, fun h => ?_⟩
    rw [execPortReset_early s p h] at hx
    cases hx
    exact ⟨rfl, rfl, rfl, rfl, rfl, s.clearLatch_latchFifo p⟩
  · obtain ⟨ha, hg, hm, -⟩ := State.withdrawn_of_funcRegs (s.resetFunction_funcRegs (Fin.ofNat 10 (vf.val + 1)) hs)
    exact ⟨_, execFunctionLevelResetVf_runs s vf hv hb, ha, hg, hm⟩
  · exact ⟨_, execFunctionLevelResetPf_runs s pf hb, State.withdrawn_of_funcRegs (s.resetPhysical_funcRegs pf hs hv)⟩

end Sys2Proof.Machine
end

section
/-! SUPPORT for O34 and O35. What a request that leaves through a port changes beside the notes: the ATS cache alone (R49). -/

namespace Sys2Proof.Machine

/-- `t` is `s` but for the ATS cache and what the device has sent outside. -/
def State.onlyAts (s t : State) : Prop := ∃ l n, t = { s with trans := { s.trans with ats := l }, notes := n }

theorem State.onlyAts.refl (s : State) : s.onlyAts s := ⟨s.trans.ats, s.notes, rfl⟩

theorem State.onlyAts.eq {s t : State} (h : s.onlyAts t) : t = { s with trans := { s.trans with ats := t.trans.ats }, notes := t.notes } := by
  obtain ⟨l, n, rfl⟩ := h
  rfl

theorem State.onlyAts.note {s t : State} (h : s.onlyAts t) (x : Note) : s.onlyAts (t.note x) := by
  obtain ⟨l, n, rfl⟩ := h
  exact ⟨l, n ++ [x], rfl⟩

theorem State.askAts_onlyAts (s : State) (func asid pa : Nat) : s.onlyAts (s.askAts func asid pa) := by
  unfold State.askAts
  split
  · exact .refl s
  · exact ⟨_, _, rfl⟩

theorem State.sendOut_onlyAts (s : State) (func asid pa len : Nat) (write : Bool) : s.onlyAts (s.sendOut func asid pa len write) := by
  unfold State.sendOut
  split
  · exact .refl s
  · split
    · exact (State.onlyAts.refl s).note _
    · extract_lets s1 bus
      split
      · exact (s.askAts_onlyAts func asid pa).note _
      · exact (s.askAts_onlyAts func asid pa).note _

end Sys2Proof.Machine
end

section
/-! SUPPORT for O34. How a walk ends: with a leaf for the caches, with one for the access that waits, or with a fault (R46 to R48, R51). -/

namespace Sys2Proof.Machine

theorem mem_cachePut {α : Type} [DecidableEq α] (k : Nat) (x : α) (l : List α) : x ∈ cachePut (k + 1) x l := List.mem_cons_self ..

theorem length_cachePut {α : Type} [DecidableEq α] (k : Nat) (x : α) (l : List α) : (cachePut k x l).length ≤ k := List.length_take_le ..

/-- A core after a walk has given its TLB an entry (R46). -/
def Core.cached (c : Core) (e : TlbEntry) : Core := { c with mem := { c.mem with tlb := cachePut coreTlbSize e c.mem.tlb } }

/-- A leaf goes into the TLB of the core and of its crew; memory and the fabric stand (R46, R47). -/
theorem State.fill_caches (s : State) (n : Fin 128) (va : Nat) (l : LeafAt) :
    let e := l.entry s.cores[n].ctx.asid va
    ∃ w a x, s.fill n va l = { s.modCore n (fun c => c.cached e) with
      trans := { s.trans with crewTlb := s.trans.crewTlb.set (crewOf n) (crewPut e s.trans.crewTlb[crewOf n]), walkCache := w, ats := a }, notes := x } :=
  ⟨_, _, _, (State.askAts_onlyAts _ _ _ _).eq⟩

theorem State.fill_core (s : State) (n : Fin 128) (va : Nat) (l : LeafAt) :
    (s.fill n va l).cores[n] = s.cores[n].cached (l.entry s.cores[n].ctx.asid va) := by
  obtain ⟨w, a, x, h⟩ := s.fill_caches n va l
  have hc : (s.fill n va l).cores = (s.modCore n (fun c => c.cached (l.entry s.cores[n].ctx.asid va))).cores := by rw [h]
  rw [hc, State.modCore_core]

theorem State.fill_core_ne (s : State) {n m : Fin 128} (va : Nat) (l : LeafAt) (hm : m ≠ n) : (s.fill n va l).cores[m] = s.cores[m] := by
  obtain ⟨w, a, x, h⟩ := s.fill_caches n va l
  have hc : (s.fill n va l).cores = (s.modCore n (fun c => c.cached (l.entry s.cores[n].ctx.asid va))).cores := by rw [h]
  rw [hc, State.modCore_core_ne _ _ hm]

theorem State.mem_fill_crewTlb (s : State) (n : Fin 128) (va : Nat) (l : LeafAt) :
    l.entry s.cores[n].ctx.asid va ∈ (s.fill n va l).trans.crewTlb[crewOf n] := by
  obtain ⟨w, a, x, h⟩ := s.fill_caches n va l
  have hc : (s.fill n va l).trans.crewTlb[crewOf n] = crewPut (l.entry s.cores[n].ctx.asid va) s.trans.crewTlb[crewOf n] := by
    rw [h]; exact Vector.getElem_set_self _
  rw [hc]
  exact List.mem_cons_self ..

theorem State.fill_fab (s : State) (n : Fin 128) (va : Nat) (l : LeafAt) : (s.fill n va l).fab = s.fab := by
  obtain ⟨w, a, x, h⟩ := s.fill_caches n va l
  rw [h]; rfl

theorem State.walkOf_none (s : State) (n : Fin 128) (va : Nat) (h : s.trans.walks = []) : s.walkOf n va = none := by
  rw [State.walkOf, h]
  rfl

/-- A walk that an invalidation has covered is still the one that its core waits for (R51). -/
theorem State.walkOf_stale (s : State) (n : Fin 128) (va : Nat) (w : Walk) (h : s.trans.walks = [w]) (ha : w.asid = s.cores[n].ctx.asid) (hv : w.va = va)
    (hs : w.stale = true) (hc : w.cores = [n]) : s.walkOf n va = some w := by
  simp [State.walkOf, h, Walk.serves, ha, hv, hs, hc]

/-- A core that waits for a walk which an invalidation has covered is handed the leaf (R51). -/
theorem State.handLeaf_stale (s : State) (w : Walk) (l : LeafAt) (n : Fin 128) (ha : w.asid = s.cores[n].ctx.asid) (hp : s.cores[n].phase ≠ .idle) (hs : w.stale = true) :
    s.handLeaf w l n = s.modCore n (fun c => { c with mem := { c.mem with handed := some (l.entry w.asid w.va) } }) := by
  rw [State.handLeaf, if_neg (not_or.mpr ⟨not_not.mpr ha.symm, hp⟩), if_pos hs]

theorem State.logAccess_cores (s : State) (m k pa t) : (s.logAccess m k pa t).cores = s.cores := by
  have hl := (s.log_kept { cls := 0x0B, addr := pa, data0 := k, master := m, target := t, unit := m }).1
  unfold State.logAccess
  extract_lets s1
  have hl : s1.cores = s.cores := hl
  split
  · exact (s1.note_kept .fwIrq).1.trans hl
  · exact hl

/-- Records that a walk makes as it faults: one of a refused read (R61). -/
def XFault.records : XFault → W32
  | .walk _ _ => 1
  | _ => 0

section
variable {s : State} {c : Fin 128} {va : W64} (hp : s.cores[c].phase ≠ .idle) (hv : va.toNat < 2 ^ 48)
include hp hv

/-- A core that is not idle walks for a canonical address (R45, R47). -/
theorem walk_applies : ¬ (s.cores[c].phase = .idle ∨ va.toNat / 2 ^ 48 ≠ 0) := not_or.mpr ⟨hp, not_not.mpr (Nat.div_eq_of_lt hv)⟩

theorem execTranslationWalk_fills {l : LeafAt} (hw : s.walk s.cores[c].ctx.root s.cores[c].ctx.asid va.toNat = .ok l)
    (hc : cacheable (s.marked l.leaf l.shift va.toNat) = true) (hn : s.trans.walks = []) :
    exec (.translationWalk c va) s = .next (s.fill c va.toNat l) := by
  have hi := walk_applies hp hv
  show execTranslationWalk c va s = _
  simp only [execTranslationWalk, if_neg hi, State.walkOf_none s c va.toNat hn, hw, hc]
  rfl

theorem execTranslationWalk_hands {l : LeafAt} (hw : s.walk s.cores[c].ctx.root s.cores[c].ctx.asid va.toNat = .ok l)
    (hc : cacheable (s.marked l.leaf l.shift va.toNat) = true) {w : Walk} (hn : s.trans.walks = [w]) (ha : w.asid = s.cores[c].ctx.asid) (hva : w.va = va.toNat)
    (hs : w.stale = true) (hcs : w.cores = [c]) :
    exec (.translationWalk c va) s = .next ((s.walkGone w).modCore c (fun x => { x with mem := { x.mem with handed := some (l.entry w.asid w.va) } })) := by
  have hi := walk_applies hp hv
  rw [← State.handLeaf_stale (s.walkGone w) w l c ha hp hs]
  show execTranslationWalk c va s = _
  simp only [execTranslationWalk, if_neg hi, State.walkOf_stale s c va.toNat w hn ha hva hs hcs, hw, hc, hcs]
  rfl

/-- A walk that faults is over; the record of a refused read is made, and no cache changes (R48, R61). -/
theorem execTranslationWalk_faults {f : XFault} (hw : s.walk s.cores[c].ctx.root s.cores[c].ctx.asid va.toNat = .error f) :
    ∃ t, exec (.translationWalk c va) s = .next t ∧ t.cores = s.cores ∧ t.trans.crewTlb = s.trans.crewTlb ∧ t.trans.walkCache = s.trans.walkCache
      ∧ t.ras.elogSeq = s.ras.elogSeq + f.records := by
  have hi := walk_applies hp hv
  show ∃ t, execTranslationWalk c va s = .next t ∧ _
  rw [execTranslationWalk, if_neg hi]
  extract_lets s1
  have h1 : ∃ w, s1 = { s with trans := { s.trans with walks := w } } := by
    unfold s1
    split
    · exact ⟨_, rfl⟩
    · exact ⟨s.trans.walks, rfl⟩
  obtain ⟨w, h1⟩ := h1
  have hs1 : s1.cores = s.cores ∧ s1.trans.crewTlb = s.trans.crewTlb ∧ s1.trans.walkCache = s.trans.walkCache ∧ s1.ras.elogSeq = s.ras.elogSeq + 0 := by
    rw [h1]
    exact ⟨rfl, rfl, rfl, (BitVec.add_zero _).symm⟩
  rw [hw]
  cases f with
  | walk pa t =>
    obtain ⟨hl, -, ht, -⟩ := s1.logAccess_kept xlMaster.val 1 pa t
    obtain ⟨hcores, hcrew, hcache, -⟩ := hs1
    refine ⟨_, rfl, (s1.logAccess_cores ..).trans hcores, by rw [ht, hcrew], by rw [ht, hcache], ?_⟩
    rw [hl, h1]
    rfl
  | page sub => exact ⟨s1, rfl, hs1⟩
  | tier leaf => exact ⟨s1, rfl, hs1⟩
  | drop => exact ⟨s1, rfl, hs1⟩
  | wait => exact ⟨s1, rfl, hs1⟩

end

end Sys2Proof.Machine
end

section
/-! SUPPORT for O34 and O35. What a descriptor covers, and what its acceptance leaves in the caches (R50, R51). -/

namespace Sys2Proof.Machine

/-- KIND 0 covers an entry with some address of its span among the pages named (R50). -/
theorem InvDesc.covers_pages (d : InvDesc) (asid va shift : Nat) (hk : d.kind = 0) (hp : 0 < d.pages) :
    d.covers asid va shift = true ↔ asid = d.asid ∧ ∃ a, va / 2 ^ shift * 2 ^ shift ≤ a ∧ a < va / 2 ^ shift * 2 ^ shift + 2 ^ shift ∧ d.va ≤ a ∧ a < d.va + d.pages * 4096 := by
  have hs : 0 < 2 ^ shift := Nat.two_pow_pos shift
  simp only [InvDesc.covers, hk, Bool.and_eq_true, decide_eq_true_eq, and_assoc]
  refine and_congr_right fun _ => ⟨fun ⟨h1, h2⟩ => ⟨max (va / 2 ^ shift * 2 ^ shift) d.va, ?_⟩, fun ⟨a, h⟩ => ?_⟩
  · omega
  · omega

/-- KIND 1 covers every entry of its ASID (R50). -/
theorem InvDesc.covers_asid (d : InvDesc) (asid va shift : Nat) (hk : d.kind = 1) : d.covers asid va shift = true ↔ asid = d.asid := by
  simp only [InvDesc.covers, hk, decide_eq_true_eq]

/-- KIND 2 covers every entry (R50). -/
theorem InvDesc.covers_all (d : InvDesc) (asid va shift : Nat) (hk : 2 ≤ d.kind) : d.covers asid va shift = true := by
  obtain ⟨k, hk⟩ := Nat.exists_eq_add_of_le' hk
  simp only [InvDesc.covers, hk]

theorem InvDesc.mem_keep (d : InvDesc) (l : List TlbEntry) (e : TlbEntry) : e ∈ d.keep l ↔ e ∈ l ∧ d.covers e.asid e.va e.shift = false := by
  rw [InvDesc.keep, List.mem_filter, Bool.not_eq_true']

/-- Acceptance leaves in a core's TLB the entries that the descriptor does not cover (R51). -/
theorem State.mem_forget_tlb (s : State) (d : InvDesc) (n : Fin 128) (e : TlbEntry) :
    e ∈ (s.forget d).cores[n].mem.tlb ↔ e ∈ s.cores[n].mem.tlb ∧ d.covers e.asid e.va e.shift = false := by
  rw [← InvDesc.mem_keep]
  simp [State.forget]

/-- The same of a crew's TLB (R51). -/
theorem State.mem_forget_crewTlb (s : State) (d : InvDesc) (n : Fin 16) (e : TlbEntry) :
    e ∈ (s.forget d).trans.crewTlb[n] ↔ e ∈ s.trans.crewTlb[n] ∧ d.covers e.asid e.va e.shift = false := by
  rw [← InvDesc.mem_keep]
  simp [State.forget]

end Sys2Proof.Machine
end

section
/-! SUPPORT for O34. The phases of an invalidation, and the request of a host that withdraws translations (R37, R49 to R51). -/

namespace Sys2Proof.Machine

/-- The SEQ that a submission gives its descriptor (R50). -/
theorem fld_seq (d : BitVec 256) (seq : W64) : fld (setFld d 192 64 seq.toNat) 192 64 = seq.toNat := by
  rw [fld_setFld_same _ _ _ _ (by decide), Nat.mod_eq_of_lt seq.isLt]

theorem State.invTake_cores (s : State) (d : BitVec 256) (mbx : Option Nat) : (s.invTake d mbx).cores = s.cores := rfl

theorem State.invTake_trans (s : State) (d : BitVec 256) (mbx : Option Nat) :
    (s.invTake d mbx).trans = { s.trans with queue := s.trans.queue ++ [invDesc d mbx], nextSeq := fld d 192 64 + 1 } := rfl

/-- A good descriptor of firmware joins the queue (R37, R50). -/
theorem execInvqSubmit_queues (s : State) (seq : W64) (d : BitVec 256) (hd : d = setFld s.trans.invq 192 64 seq.toNat) (hq : s.trans.queue.length < 64)
    (hb : s.invBad d = false) :
    ∃ t, exec (.invqSubmit 0x8C seq) s = .next t ∧ t.mem = s.mem ∧ t.cores = s.cores ∧ t.trans.queue = s.trans.queue ++ [invDesc d none]
      ∧ t.trans.nextSeq = fld d 192 64 + 1 := by
  have hq' : ¬ 64 ≤ s.trans.queue.length := Nat.not_le.mpr hq
  have hb' : ¬ s.invBad d = true := by rw [hb]; exact Bool.false_ne_true
  refine ⟨State.invTake { s with trans := { s.trans with invq := d } } d none, ?_, State.invTake_mem .., State.invTake_cores .., ?_, ?_⟩
  · show Host.Outcome.next (s.invSubmit fwMaster seq) = _
    rw [State.invSubmit, if_neg (not_not.mpr rfl), ← hd]
    exact congrArg _ ((if_neg hq').trans (if_neg hb'))
  · rw [State.invTake_trans]
  · rw [State.invTake_trans]

/-- Acceptance takes the oldest descriptor (R51). -/
theorem execInvalidationAccept_takes (s : State) (d : InvDesc) (rest : List InvDesc) (hq : s.trans.queue = d :: rest) (hm : d.mbx = none) :
    exec .invalidationAccept s = .next (State.forget { s with
      trans := { s.trans with queue := rest, accepted := s.trans.accepted ++ [d], invAcc := BitVec.ofNat 64 d.seq } } d) := by
  show execInvalidationAccept s = _
  simp only [execInvalidationAccept, hq, hm]

/-- An invalidation with no write outstanding that used a covered entry is complete (R51). -/
theorem execInvalidationComplete_done (s : State) (d : InvDesc) (rest : List InvDesc) (hq : s.trans.accepted = d :: rest)
    (hd : ∀ x ∈ s.fab.inflight, s.drains d x = false) :
    ∃ t, exec .invalidationComplete s = .next t ∧ t.trans = { s.trans with accepted := rest, invDone := BitVec.ofNat 64 d.seq } ∧ t.cores = s.cores ∧ t.mem = s.mem
      ∧ t.notes = (if fld s.trans.invIrq 0 1 = 1 then s.notes ++ [.fwIrq] else s.notes) := by
  have hn : ¬ s.fab.inflight.any (s.drains d) = true := by simpa using hd
  show ∃ t, execInvalidationComplete s = .next t ∧ _
  simp only [execInvalidationComplete, hq, if_neg hn]
  split
  · exact ⟨_, rfl, rfl, rfl, rfl, rfl⟩
  · exact ⟨_, rfl, rfl, rfl, rfl, rfl⟩

/-- The writes that leave through a port perform, in order (R228). -/
def State.outwardPerformed (s : State) : State :=
  (List.range s.fab.inflight.length).foldl (fun s i => match s.fab.inflight[i]? with
    | some x => if x.outward then s.performInFlight i else s
    | none => s) s

theorem State.outwardPerformed_none (s : State) (h : ∀ x ∈ s.fab.inflight, x.outward = false) : s.outwardPerformed = s := by
  refine foldl_keeps (fun t : State => t = s) _ _ s rfl ?_
  rintro _ i rfl
  split
  · next x hx => rw [h x (List.mem_of_getElem? hx), if_neg Bool.false_ne_true]
  · rfl

/-- A translation of a function's page that meets a range of bus addresses (R49). -/
def AtsEntry.meets (e : AtsEntry) (f : Fin 10) (base len : Nat) : Prop := e.func = f.val ∧ e.page * 4096 < base + len ∧ base < e.page * 4096 + 4096

/-- Where ATS is on, the request clears the range and is answered (R49, R51). -/
theorem execAtsInvalidateRequest_answers (s : State) (f : Fin 10) (base len : Nat) (hf : s.funcOn f = true) (ha : s.trans.atsEnable[f] = true) :
    ∃ t, exec (.atsInvalidateRequest f base len) s = .next t ∧ t.notes = s.outwardPerformed.notes ++ [.atsComplete f.val]
      ∧ ∀ e, e ∈ t.trans.ats ↔ e ∈ s.outwardPerformed.trans.ats ∧ ¬ e.meets f base len := by
  refine ⟨_, onlyIf_true _ _ (by rw [hf, ha]; rfl), rfl, fun e => ?_⟩
  refine List.mem_filter.trans (and_congr_right fun _ => ?_)
  simp only [AtsEntry.meets, Bool.not_eq_true', Bool.and_eq_false_iff, beq_eq_false_iff_ne, decide_eq_false_iff_not, not_and_or]

end Sys2Proof.Machine
end

section
/-! O34: walks and invalidations. -/

namespace Sys2Proof.Machine

/-- Settles O34: what each way of a walk to end leaves, each phase of an invalidation, and the entries that each KIND covers. -/
theorem walksAndInvalidations : Obligations.WalksAndInvalidations := by
  refine ⟨fun s c va hp hv => ⟨fun l hw hc => ⟨fun hn => ?_, fun w hn ha hva hs hcs => ?_⟩, fun f hw => ?_⟩,
    fun s => ⟨?_, fun d rest hq hm => ⟨_, execInvalidationAccept_takes s d rest hq hm, rfl, rfl, rfl, rfl, ?_, ?_⟩,
      execInvalidationComplete_done s, fun f base len hf ha => ?_⟩,
    fun d asid va shift => ⟨d.covers_pages asid va shift, d.covers_asid asid va shift, d.covers_all asid va shift⟩⟩
  · refine ⟨_, execTranslationWalk_fills hp hv hw hc hn, ?_, s.mem_fill_crewTlb c _ l, s.fill_mem c _ l, s.fill_fab c _ l, ?_, ?_, fun n hne => s.fill_core_ne _ l hne⟩
    · rw [State.fill_core]; exact mem_cachePut _ _ _
    · rw [State.fill_core]; exact length_cachePut _ _ _
    · rw [State.fill_core]; rfl
  · refine ⟨_, execTranslationWalk_hands hp hv hw hc hn ha hva hs hcs, ?_, rfl, ?_, fun n hne => State.modCore_core_ne _ _ hne⟩
    · rw [State.modCore_trans]
      simp [State.walkGone, hn]
    · rw [State.modCore_core, ha, hva]; rfl
  · obtain ⟨t, hx, hcores, hcrew, hcache, hlog⟩ := execTranslationWalk_faults hp hv hw
    refine ⟨t, hx, hcores, hcrew, hcache, hlog.trans ?_⟩
    cases f <;> rfl
  · intro seq d hq hb
    have hs : fld d 192 64 = seq.toNat := fld_seq _ seq
    obtain ⟨t, hx, hmem, hcores, hqueue, hnext⟩ := execInvqSubmit_queues s seq d rfl hq hb
    exact ⟨t, hx, hmem, hcores, by rw [hqueue, invDesc, hs], by rw [hnext, hs]⟩
  · exact fun n e => State.mem_forget_tlb _ d n e
  · exact fun n e => State.mem_forget_crewTlb _ d n e
  · obtain ⟨t, hx, hnotes, hats⟩ := execAtsInvalidateRequest_answers s f base len hf ha
    refine ⟨t, hx, ?_, fun e he => ((hats e).mp he).2, fun ho e => ?_⟩
    · rw [hnotes, List.getLast?_concat]
    · rw [hats, s.outwardPerformed_none ho]; rfl

end Sys2Proof.Machine
end

section
/-! SUPPORT for O35. What the translation service's own writes leave, where nothing is poisoned (R54, R56). -/

namespace Sys2Proof.Machine

theorem length_memRead (m : Memory) (pa n : Nat) : (memRead m pa n).length = n := by
  induction n generalizing pa with
  | zero => rfl
  | succ n ih => rw [memRead, List.length_cons, ih]

/-- `t` is `s` after a part of a page-in that leaves memory `m`: the cores and the page-ins stand, and nothing is poisoned. -/
structure State.Paged (s t : State) (m : Memory) : Prop where
  wrote : s.Wrote t m
  pageIns : t.trans.pageIns = s.trans.pageIns

theorem State.Paged.trans {s t u : State} {m m' : Memory} (h : s.Paged t m) (h' : t.Paged u m') : s.Paged u m' :=
  ⟨h.wrote.trans h'.wrote, h'.pageIns.trans h.pageIns⟩

theorem State.onlyCaches.paged {s t : State} (hs : s.clean) (h : s.onlyCaches t) : s.Paged t s.mem := by
  refine ⟨h.wrote hs, ?_⟩
  obtain ⟨d, c, x, rfl⟩ := h
  rfl

theorem State.onlyAts.paged {s t : State} (hs : s.clean) (h : s.onlyAts t) : s.Paged t s.mem := by
  obtain ⟨l, n, rfl⟩ := h
  exact ⟨⟨rfl, rfl, hs⟩, rfl⟩

/-- A scoped write of an agent that is no engine of a core leaves the translation service's state (R229). -/
theorem State.performScoped_paged {s : State} (hs : s.clean) (agent pa : Nat) (b : List Byte) (ha : ¬ agent < 1024) :
    s.Paged (s.performScoped agent pa b).1 (memWrite s.mem pa b) := by
  refine ⟨State.performScoped_wrote hs agent pa b ha, ?_⟩
  have h0 : s.onlyCaches ((linesOf pa b.length).foldl (fun s x => s.recallLine x (agentMaster agent)) s) :=
    foldl_onlyCaches _ (fun _ _ hs => State.recallLine_clean hs _ _) _ _ hs
  rw [← (h0.paged hs).pageIns, State.performScoped]
  extract_lets s0
  dsimp only
  rw [if_neg ha]
  rfl

theorem State.putLines_paged {s : State} (hs : s.clean) (key : Nat) (hk : ¬ key < 1024) (k pa : Nat) (b : List Byte) (hb : b.length + pa % 128 ≤ 128 * k) :
    s.Paged (s.putLines key k pa b) (memWrite s.mem pa b) := by
  refine ⟨State.putLines_wrote hs key hk k pa b hb, ?_⟩
  clear hb
  induction k generalizing s pa b with
  | zero => rfl
  | succ k ih =>
    unfold State.putLines
    split
    · rfl
    · extract_lets n
      have h1 := State.performScoped_paged hs key pa (b.take n) hk
      exact (ih h1.wrote.clean _ _).trans h1.pageIns

theorem State.pageAsked_onlyAts (s : State) (x : PageIn) : s.onlyAts (s.pageAsked x) := by
  unfold State.pageAsked
  split
  · exact s.sendOut_onlyAts _ _ _ _ _
  · exact .refl s

/-- The page's bytes come into the frame (R54). -/
def State.pageCopied (s : State) (x : PageIn) (f : Nat) : State :=
  (s.pageAsked x).putLines xlKey (x.size / 128 + 2) f (memRead s.mem (pteAddr x.old) x.size)

theorem State.pageCopied_paged {s : State} (hs : s.clean) (x : PageIn) (f : Nat) :
    s.Paged (s.pageCopied x f) (memWrite s.mem f (memRead s.mem (pteAddr x.old) x.size)) := by
  have h1 := (s.pageAsked_onlyAts x).paged hs
  have h2 := State.putLines_paged h1.wrote.clean xlKey (by decide) (x.size / 128 + 2) f (memRead s.mem (pteAddr x.old) x.size) (by rw [length_memRead]; omega)
  rw [h1.wrote.mem] at h2
  exact h1.trans h2

/-- The copy, with the leaf's line recalled to its home for the swap. -/
def State.leafHome (s : State) (x : PageIn) (f : Nat) : State := (s.pageCopied x f).recallLine (x.leafAddr / 128) xlMaster.val

theorem State.leafHome_paged {s : State} (hs : s.clean) (x : PageIn) (f : Nat) :
    s.Paged (s.leafHome x f) (memWrite s.mem f (memRead s.mem (pteAddr x.old) x.size)) := by
  have h1 := State.pageCopied_paged hs x f
  have h2 := (State.recallLine_clean h1.wrote.clean (x.leafAddr / 128) xlMaster.val).paged h1.wrote.clean
  rw [h1.wrote.mem] at h2
  exact h1.trans h2

/-- The leaf names the frame (R54). -/
def State.leafSwapped (s : State) (x : PageIn) (f : Nat) : State :=
  ((s.leafHome x f).performScoped xlKey x.leafAddr (natLe 8 (newLeaf x.old f).toNat)).1

theorem State.leafSwapped_paged {s : State} (hs : s.clean) (x : PageIn) (f : Nat) :
    s.Paged (s.leafSwapped x f)
      (memWrite (memWrite s.mem f (memRead s.mem (pteAddr x.old) x.size)) x.leafAddr (natLe 8 (newLeaf x.old f).toNat)) := by
  have h1 := State.leafHome_paged hs x f
  have h2 := State.performScoped_paged h1.wrote.clean xlKey x.leafAddr (natLe 8 (newLeaf x.old f).toNat) (by decide)
  rw [h1.wrote.mem] at h2
  exact h1.trans h2

/-- A page-in that nobody waits for ends by leaving the list (R54). -/
theorem State.endPageIn_unawaited (s : State) (i : Nat) (x : PageIn) (ok : Bool) (hw : x.waiters = []) :
    s.endPageIn i x ok = { s with trans := { s.trans with pageIns := s.trans.pageIns.eraseIdx i },
                                  sched := { s.sched with records := s.sched.records.map (fun r => { r with core := r.core.pageEnded x ok }) } } := by
  rw [State.endPageIn, hw]
  rfl

/-- Where the access tables grant the copy, no refusal is recorded (R61). -/
theorem State.logCopyRefusal_granted (s : State) (x : PageIn) (f : Nat) (h : s.copyOk x f = true) : s.logCopyRefusal x f = s := by
  simp only [State.copyOk, Bool.and_eq_true, Option.isNone_iff_eq_none] at h
  obtain ⟨⟨⟨-, hr⟩, hw⟩, hl⟩ := h
  simp only [State.logCopyRefusal, hr, hw, hl]

section
variable {s : State} {i : Nat} {x : PageIn} {f : Nat} (hx : s.trans.pageIns[i]? = some x) (hf : x.frame = some f) (hok : s.copyOk x f = true)
include hx hf hok

/-- A copy that fails gives the frame back (R54). -/
theorem execPageInComplete_fails : exec (.pageInComplete i false) s = .next ((s.note (.frameReturn x.asid f x.size)).endPageIn i x false) := by
  show execPageInComplete i false s = _
  simp only [execPageInComplete, hx, hf, State.logCopyRefusal_granted s x f hok, State.returnFrame]
  rfl

/-- A copy that ends well, whose leaf stands, swaps the leaf and drops the page's cached translations (R54). -/
theorem execPageInComplete_swaps (hd : ∀ y ∈ s.fab.inflight, s.drains x.inval y = false) (hl : memNat (s.leafHome x f).mem x.leafAddr 8 = x.old.toNat) :
    exec (.pageInComplete i true) s = .next ((((s.leafSwapped x f).forget x.inval).note (.pagein x.asid x.va (pteAddr x.old) f)).endPageIn i x true) := by
  have hn : ¬ s.fab.inflight.any (s.drains x.inval) = true := by simpa using hd
  have hg : ¬ (!(true && s.copyOk x f)) = true := by rw [hok]; decide
  show execPageInComplete i true s = _
  simp only [execPageInComplete, hx, hf, if_neg hg, if_neg hn]
  exact congrArg _ (if_pos hl)

/-- After a copy that ends well: the page's bytes in the frame, the swapped leaf, every other byte as before, no covered entry in a core's TLB (R54). -/
theorem execPageInComplete_copies (hs : s.clean) (hwt : x.waiters = []) (hl : memNat s.mem x.leafAddr 8 = x.old.toNat)
    (hd : ∀ y ∈ s.fab.inflight, s.drains x.inval y = false) (hap : x.leafAddr + 8 ≤ f ∨ f + x.size ≤ x.leafAddr) :
    ∃ t, exec (.pageInComplete i true) s = .next t ∧ t.trans.pageIns = s.trans.pageIns.eraseIdx i
      ∧ memRead t.mem f x.size = memRead s.mem (pteAddr x.old) x.size ∧ memNat t.mem x.leafAddr 8 = (newLeaf x.old f).toNat
      ∧ (∀ a, (a < f ∨ f + x.size ≤ a) → (a < x.leafAddr ∨ x.leafAddr + 8 ≤ a) → sget Memory.dflt t.mem a = sget Memory.dflt s.mem a)
      ∧ t.notes.getLast? = some (.pagein x.asid x.va (pteAddr x.old) f)
      ∧ ∀ (n : Fin 128), ∀ e ∈ t.cores[n].mem.tlb, x.inval.covers e.asid e.va e.shift = false := by
  have hlen := length_memRead s.mem (pteAddr x.old) x.size
  have hleaf : memNat (s.leafHome x f).mem x.leafAddr 8 = x.old.toNat := by
    rw [(State.leafHome_paged hs x f).wrote.mem, memNat, memRead_memWrite_ne _ _ _ _ _ (by rw [hlen]; exact hap)]
    exact hl
  have hsw := State.leafSwapped_paged hs x f
  refine ⟨_, execPageInComplete_swaps hx hf hok hd hleaf, ?_⟩
  rw [State.endPageIn_unawaited _ i x true hwt]
  generalize s.leafSwapped x f = t at hsw ⊢
  have hmem := hsw.wrote.mem
  refine ⟨congrArg (fun l => l.eraseIdx i) hsw.pageIns, ?_, ?_, fun a ha hb => ?_, List.getLast?_concat, fun n e he => ?_⟩
  · show memRead t.mem f x.size = _
    rw [hmem, memRead_memWrite_ne _ _ _ _ _ (by rw [natLe_length]; exact hap.symm)]
    have hread := memRead_memWrite (memRead s.mem (pteAddr x.old) x.size) s.mem f
    rwa [hlen] at hread
  · show memNat t.mem x.leafAddr 8 = _
    rw [hmem, memNat_memWrite_natLe, Nat.mod_eq_of_lt (newLeaf x.old f).isLt]
  · show sget Memory.dflt t.mem a = _
    rw [hmem, sget_memWrite_ne _ _ _ _ (by rw [natLe_length]; exact hb), sget_memWrite_ne _ _ _ _ (by rw [hlen]; exact ha)]
  · exact ((t.mem_forget_tlb x.inval n e).mp he).2

end

end Sys2Proof.Machine
end

section
/-! SUPPORT for O35. The pop of a frame, and the updates of access tables (R37, R55, R59). -/

namespace Sys2Proof.Machine

theorem State.modPageIn_pageIns (s : State) (i : Nat) (f : PageIn → PageIn) {x : PageIn} (hx : s.trans.pageIns[i]? = some x) :
    (s.modPageIn i f).trans.pageIns[i]? = some (f x) := by
  obtain ⟨hi, -⟩ := List.getElem?_eq_some_iff.mp hx
  simp only [State.modPageIn, hx]
  exact List.getElem?_set_self hi

section
variable {s : State} {i : Nat} {x : PageIn} (hx : s.trans.pageIns[i]? = some x) (hf : x.frame = none) (hp : x.pools = true) (hb : s.popBehind i x = false)
  (hr : s.popRefusal x (s.pageInBlock x) = none) (hok : pibOk (s.pageInBlock x) = true)
include hx hf hp hb hr hok

/-- The page-in pops the frame at HEAD, and HEAD moves on (R55). -/
theorem execPageInFramePop_pops (hne : fld (s.pageInBlock x) (x.ring + 48) 16 ≠ fld (s.pageInBlock x) (x.ring + 32) 16) :
    exec (.pageInFramePop i) s = .next ((s.writeBytes (x.pib + (x.ring + 48) / 8) (natLe 2 (fld (s.pageInBlock x) (x.ring + 48) 16 + 1))).modPageIn i
      (fun y => { y with frame := some (s.poolFrame x (s.pageInBlock x)) })) := by
  show execPageInFramePop i s = _
  simp only [execPageInFramePop, hx, hf, hp, hb, hr, hok, if_neg hne]
  rfl

/-- An empty ring is told to firmware once (R55). -/
theorem execPageInFramePop_empty (he : fld (s.pageInBlock x) (x.ring + 48) 16 = fld (s.pageInBlock x) (x.ring + 32) 16) (hem : x.emptied = false) :
    exec (.pageInFramePop i) s = .next ((s.note (.poolEmpty x.pib)).modPageIn i (fun x => { x with emptied := true })) := by
  show execPageInFramePop i s = _
  simp only [execPageInFramePop, hx, hf, hp, hb, hr, hok, if_pos he, hem]
  rfl

end

/-- Firmware's write queues the record (R37). -/
theorem execAtupd_queues (s : State) (v : W64) (hq : s.trans.atQueue.length < 16) :
    exec (.atupd 0x8C v) s = .next { s with trans := { s.trans with
      atQueue := s.trans.atQueue ++ [⟨Fin.ofNat 256 (v.toNat % 256), s.trans.atupdAddr.toNat, BitVec.ofNat 32 (v.toNat / 2 ^ 32), [], Vector.replicate 8 0⟩] } } := by
  have hm : fld v 0 8 = v.toNat % 256 := by simp [fld, bits]
  have hs : BitVec.ofNat 32 (fld v 32 32) = BitVec.ofNat 32 (v.toNat / 2 ^ 32) := BitVec.eq_of_toNat_eq (by simp [fld, bits])
  have hq' : ¬ 16 ≤ s.trans.atQueue.length := Nat.not_le.mpr hq
  show Host.Outcome.next (s.atSubmit fwMaster v) = _
  rw [State.atSubmit, if_neg (not_not.mpr rfl), if_neg hq', hm, hs]

theorem State.setWindows_windows (s : State) (m : Fin 256) (w : Vector (BitVec 128) 8) :
    (s.setWindows m.val w).trans.windows = s.trans.windows.set m w := by
  simp [State.setWindows]

theorem State.windowRec_get (s : State) (u : AtUpd) (i : Fin 8) : (s.windowRec u)[i] = BitVec.ofNat 128 (memNat s.mem (u.addr + 16 * i.val) 16) := by
  simp [State.windowRec]

theorem State.windowRec_good (s : State) (u : AtUpd) (h : ∀ i : Fin 8, windowBad (s.windowRec u)[i] = false) : ¬ (s.windowRec u).toList.any windowBad = true := by
  rw [List.any_eq_true]
  rintro ⟨w, hw, hb⟩
  obtain ⟨i, hi, rfl⟩ := Vector.getElem_of_mem (Vector.mem_toList_iff.mp hw)
  exact Bool.false_ne_true ((h ⟨i, hi⟩).symm.trans hb)

theorem State.oldRequests_iff (s : State) (m : Fin 256) : s.oldRequests m = true ↔ ∃ x ∈ s.fab.inflight, x.performed = false ∧ x.core.val = m.val := by
  simp [State.oldRequests]

section
variable {s : State} {u : AtUpd} {rest : List AtUpd} (hq : s.trans.atQueue = u :: rest) (hl : u.loaded = []) (hr : s.refusal 0x8C 1 u.addr 128 = none)
  (hw : ∀ i : Fin 8, windowBad (s.windowRec u)[i] = false)
include hq hl hr hw

/-- While a request that passed under the old windows is outstanding, the update is loaded but not done (R59). -/
theorem execAtupdDone_waits (ho : s.oldRequests u.master = true) :
    exec .atupdDone s = .next { s with trans := { s.trans with atQueue := { u with loaded := allTargets, wins := s.windowRec u } :: rest } } := by
  have hs : s.recStop u = none := by rw [State.recStop, hl]; exact hr
  have hg := s.windowRec_good u hw
  show execAtupdDone s = _
  simp only [execAtupdDone, hq, hs, hl, List.isEmpty_nil, if_true, if_neg hg, if_pos ho, State.modUpd]

/-- With none outstanding, the windows of its master are the record's, and ATDONE takes its sequence number (R59). -/
theorem execAtupdDone_done (ho : s.oldRequests u.master = false) :
    exec .atupdDone s = .next (State.setWindows { s with trans := { s.trans with atQueue := rest, atDone := u.seq } } u.master.val (s.windowRec u)) := by
  have hs : s.recStop u = none := by rw [State.recStop, hl]; exact hr
  have hg := s.windowRec_good u hw
  show execAtupdDone s = _
  have ho' : ¬ s.oldRequests u.master = true := by rw [ho]; exact Bool.false_ne_true
  simp only [execAtupdDone, hq, hs, hl, List.isEmpty_nil, if_true, if_neg hg, if_neg ho']
  rfl

end

end Sys2Proof.Machine
end

section
/-! O35: page-ins and updates of access tables. -/

namespace Sys2Proof.Machine

/-- Settles O35: a page-in pops its frame and copies through the laws of scoped writes, and an update loads its windows once no old request is outstanding. -/
theorem pageInsAndAccessTables : Obligations.PageInsAndAccessTables := by
  refine ⟨fun s i x hx hs => ⟨fun hf hp hb hr hok => ⟨fun hne => ?_, fun he hem => ?_⟩, fun f hf hwt hok hl hd hap => ?_, fun f hf hwt hok => ?_⟩,
    fun s => ⟨fun v hq => ⟨_, execAtupd_queues s v hq, rfl, rfl⟩, fun u rest hq hld hr hw => ⟨fun ho => ?_, fun ho => ?_⟩⟩⟩
  · refine ⟨_, execPageInFramePop_pops hx hf hp hb hr hok hne, State.modPageIn_pageIns _ i _ hx, ?_, rfl, rfl⟩
    exact memNat_memWrite_natLe ..
  · exact ⟨_, execPageInFramePop_empty hx hf hp hb hr hok he hem, rfl, State.modPageIn_pageIns _ i _ hx, rfl⟩
  · exact execPageInComplete_copies hx hf hok hs hwt hl hd hap
  · refine ⟨_, execPageInComplete_fails hx hf hok, ?_⟩
    rw [State.endPageIn_unawaited _ i x false hwt]
    exact ⟨rfl, rfl, rfl⟩
  · exact ⟨_, execAtupdDone_waits hq hld hr hw ((s.oldRequests_iff u.master).mpr ho), rfl, rfl⟩
  · have hold : s.oldRequests u.master = false := by
      rw [Bool.eq_false_iff, Ne, State.oldRequests_iff]
      rintro ⟨x, hx, hnp, hc⟩
      exact (ho x hx).elim (by rw [hnp]; exact Bool.false_ne_true) (absurd hc)
    refine ⟨_, execAtupdDone_done hq hld hr hw hold, rfl, rfl, rfl, fun i => ?_, fun m hm => ?_⟩
    · rw [State.setWindows_windows, ← State.windowRec_get]
      exact congrArg (fun w : Vector (BitVec 128) 8 => w[i]) (Vector.getElem_set_self _)
    · rw [State.setWindows_windows]
      exact Vector.getElem_set_ne _ _ (fun h => hm (Fin.ext h.symm))

end Sys2Proof.Machine
end

section
/-! SUPPORT for O42. What the writes of the front end and of the encoders leave: the streams (R84, R118). -/

namespace Sys2Proof.Machine

theorem foldl_streams {α : Type} (f : State → α → State) (hf : ∀ s x, (f s x).streams = s.streams) (l : List α) (s : State) : (l.foldl f s).streams = s.streams :=
  foldl_keeps (fun t : State => t.streams = s.streams) f l s rfl (fun t x ht => (hf t x).trans ht)

theorem State.logRead_streams (s : State) (m pa id r how : Nat) : (s.logRead m pa id r how).streams = s.streams := State.log_streams _ _

theorem State.writeBack_streams (s : State) (crew line m : Nat) : (s.writeBack crew line m).streams = s.streams := by
  unfold State.writeBack
  split
  · rfl
  extract_lets s1
  split
  · exact State.log_streams _ _
  · exact foldl_streams _ (fun s pa => s.logRead_streams _ _ _ _ _) _ _

theorem State.recallLine_streams (s : State) (line m : Nat) : (s.recallLine line m).streams = s.streams := by
  unfold State.recallLine
  split
  · exact s.writeBack_streams _ _ _
  · rfl

theorem State.onlyAts.streams {s t : State} (h : s.onlyAts t) : t.streams = s.streams := by
  obtain ⟨l, n, rfl⟩ := h
  rfl

theorem State.performScoped_streams (s : State) (agent pa : Nat) (b : List Byte) : (s.performScoped agent pa b).1.streams = s.streams := by
  have h0 := foldl_streams _ (fun s x => State.recallLine_streams s x (agentMaster agent)) (linesOf pa b.length) s
  unfold State.performScoped
  dsimp only
  split
  · exact (State.sendOut_onlyAts _ _ _ _ _ _).streams.trans h0
  · exact h0

/-- A scoped write leaves its bytes in memory (R207). -/
theorem State.performScoped_mem (s : State) (agent pa : Nat) (b : List Byte) : ∃ m, (s.performScoped agent pa b).1.mem = memWrite m pa b := by
  unfold State.performScoped
  dsimp only
  split
  · exact ⟨_, State.coreOut_mem _ _ _ _ _⟩
  · exact ⟨_, rfl⟩

theorem State.devPut_streams (s : State) (key : Nat) (ps : List (Nat × Nat × W64)) (b : List Byte) : (s.devPut key ps b).streams = s.streams := by
  induction ps generalizing s b with
  | nil => rfl
  | cons p ps ih => exact (ih _ _).trans (s.performScoped_streams _ _ _)

theorem State.partsOut_streams (s : State) (r : Nat) (w : Bool) (ps : List (Nat × Nat × W64)) : (s.partsOut r w ps).streams = s.streams :=
  foldl_streams _ (fun s _ => (s.sendOut_onlyAts _ _ _ _ _).streams) ps s

theorem State.devWrite_streams {s u : State} {m : Fin 256} {key r va : Nat} {b : List Byte} (h : s.devWrite m key r va b = .ok u) : u.streams = s.streams := by
  unfold State.devWrite at h
  split at h
  · cases h
  · cases h
    exact (State.partsOut_streams _ _ _ _).trans (s.devPut_streams _ _ _)

theorem State.devWriteRel_streams {s u : State} {m : Fin 256} {key r va : Nat} {b : List Byte} {idx : Nat} (h : s.devWriteRel m key r va b idx = .ok u) :
    u.streams = s.streams := by
  unfold State.devWriteRel at h
  split at h
  · cases h
  · cases h
    have hrels (t : State) (p : Nat × Nat × W64) : (t.carryRels p.1 p.2.1 [s.releaseBy key r idx]).streams = t.streams := rfl
    exact (State.partsOut_streams _ _ _ _).trans ((foldl_streams _ hrels _ _).trans (s.devPut_streams _ _ _))

theorem State.logAccess_streams (s : State) (m k pa t : Nat) : (s.logAccess m k pa t).streams = s.streams := by
  unfold State.logAccess
  extract_lets s1
  split
  · rw [State.note_streams, State.log_streams]
  · rw [State.log_streams]

theorem State.noteStop_streams (s : State) (m : Fin 256) (e : FeStop) : (s.noteStop m e).streams = s.streams := by
  unfold State.noteStop
  split
  · split
    · rfl
    · exact s.logAccess_streams _ _ _ _
  · exact s.logAccess_streams _ _ _ _
  · rfl

theorem State.missIn_streams (s : State) (r va : Nat) (w : PageWaiter) : (s.missIn r va w).streams = s.streams := by
  unfold State.missIn State.requestPageIn
  split
  · rfl
  · split <;> rfl

theorem State.modStream_stream (s : State) (n : Nat) (f : Stream → Stream) : (s.modStream n f).stream n = (s.stream n).map f := sget_sset_same _ _ _ _

theorem State.stream_congr {s t : State} (h : t.streams = s.streams) (n : Nat) : t.stream n = s.stream n := by
  rw [State.stream, h, State.stream]

end Sys2Proof.Machine
end

section
/-! SUPPORT for O42. How a slot leaves ENCODING, and an encoder its frame (R117, R118, R124). -/

namespace Sys2Proof.Machine

/-- A slot's status word begins with its state (R117). -/
theorem SlotWord.word_mod (w : SlotWord) (seq : Nat) (h : w.state < 16) : w.word seq % 16 = w.state := by
  unfold SlotWord.word
  omega

/-- The lowest bits of a number that has been stored. -/
theorem memNat_one_memWrite_natLe (m : Memory) (pa n v : Nat) : memNat (memWrite m pa (natLe (n + 1) v)) pa 1 % 16 = v % 16 := by
  have h : memNat (memWrite m pa (natLe (n + 1) v)) pa 1 = v % 256 := by
    simp [memNat, memRead, leNat, sget_memWrite, natLe]
  omega

/-- A write to a range in one part leaves its bytes there (R118). -/
theorem State.devWriteRel_part {s : State} {m : Fin 256} {key r va idx pa : Nat} {b : List Byte} {leaf : W64}
    (hd : s.devRange m r kWrite va b.length = .ok [(pa, b.length, leaf)]) : ∃ u mem, s.devWriteRel m key r va b idx = .ok u ∧ u.mem = memWrite mem pa b := by
  obtain ⟨mem, hm⟩ := s.performScoped_mem key pa b
  refine ⟨_, mem, by rw [State.devWriteRel, hd], ?_⟩
  simp only [List.foldl_cons, List.foldl_nil, State.partsOut_mem, State.carryRels_mem, State.devPut, List.take_length, hm]

/-- A status word that is written stands in the slot, and its sequence number with the stream (R117). -/
theorem State.putStatus_ok {s : State} {m : Fin 256} {key n slot : Nat} {x : Stream} {w : SlotWord} {pa : Nat} {leaf : W64} (hx : s.stream n = some x) (hw : w.state < 16)
    (hd : s.devRange m x.region kWrite (x.ringBase + 16 * slot) 16 = .ok [(pa, 16, leaf)]) :
    ∃ t v, s.putStatus m key n slot w = .ok t ∧ memNat t.mem pa 1 % 16 = w.state ∧ t.stream n = some { x with seqs := v } := by
  let seq := (x.seqs[(Fin.ofNat 64 slot : Fin 64)] + 1) % 65536
  obtain ⟨u, mem, hu, hmem⟩ := State.devWriteRel_part (b := natLe 16 (w.word seq)) (key := key) (idx := 15) (by rw [natLe_length]; exact hd)
  have hstreams := State.devWriteRel_streams hu
  refine ⟨u.modStream n (fun x => { x with seqs := x.seqs.set (Fin.ofNat 64 slot : Fin 64) seq }), x.seqs.set (Fin.ofNat 64 slot : Fin 64) seq, ?_, ?_, ?_⟩
  · simp only [State.putStatus, hx]
    rw [hu]
  · rw [State.modStream_mem, hmem, memNat_one_memWrite_natLe, w.word_mod seq hw]
  · rw [State.modStream_stream, State.stream_congr hstreams, hx]
    rfl

theorem State.putStatus_stream {s t : State} {m : Fin 256} {key n slot : Nat} {w : SlotWord} {x : Stream} (hx : s.stream n = some x) (h : s.putStatus m key n slot w = .ok t) :
    ∃ y, t.stream n = some y := by
  simp only [State.putStatus, hx] at h
  split at h
  · cases h
  · next u hu =>
    cases h
    rw [State.modStream_stream, State.stream_congr (State.devWriteRel_streams hu), hx]
    exact ⟨_, rfl⟩

/-- Whatever becomes of its status word, a slot's leaving keeps the stream (R118). -/
theorem State.leaveSlot_stream {s : State} {n : Nat} {x : Stream} (m : Fin 256) (f : Nat) (w : SlotWord) (hx : s.stream n = some x) :
    ∃ y, (s.leaveSlot m n f w).stream n = some y := by
  have hmod (t : State) (g : Stream → Stream) {y : Stream} (ht : t.stream n = some y) : ∃ y, (t.modStream n g).stream n = some y :=
    ⟨g y, by rw [State.modStream_stream, ht]; rfl⟩
  simp only [State.leaveSlot, hx]
  split
  · exact ⟨x, hx⟩
  split
  · exact ⟨x, hx⟩
  split
  · next t ht =>
    obtain ⟨y, hy⟩ := State.putStatus_stream hx ht
    exact hmod _ _ hy
  · rw [State.stream_congr (State.missIn_streams _ _ _ _)]
    exact hmod _ _ hx
  · exact hmod _ _ ((State.stream_congr (s.noteStop_streams m _) n).trans hx)

theorem State.leaveFrame_encoder (s : State) (e : Fin 8) (n f : Nat) (key trunc : Bool) :
    (s.leaveFrame e n f key trunc).encoders[e].current = none ∧ (s.leaveFrame e n f key trunc).encoders[e].tiles = [] := by
  simp [State.leaveFrame]

/-- The stream after its encoder has left a frame: the next is a key frame where this one was cut (R124). -/
theorem State.leaveFrame_stream {s : State} {n : Nat} {x : Stream} (e : Fin 8) (f : Nat) (key trunc : Bool) (hx : s.stream n = some x) :
    ∃ y, (s.leaveFrame e n f key trunc).stream n = some y ∧ y.forceKey = trunc ∧ y.jobs = x.jobs :=
  ⟨_, (State.modStream_stream _ _ _).trans (congrArg _ hx), rfl, rfl⟩

theorem Stream.job_modJob {x : Stream} {f : Nat} {j : FrameJob} (g : FrameJob → FrameJob) (hj : x.job f = some j) (hf : ∀ i, (g i).frame = i.frame)
    (hb : ∀ i, (g i).faulted = i.faulted) : (x.modJob f g).job f = some (g j) := by
  have hjf : j.frame = f := by
    have := List.find?_some hj
    simp only [Bool.and_eq_true, beq_iff_eq] at this
    exact this.1
  have hp : (fun i : FrameJob => i.frame == f && !i.faulted) ∘ (fun i => if i.frame = f then g i else i) = fun i => i.frame == f && !i.faulted := by
    funext i
    simp only [Function.comp_apply]
    split
    · rw [hf, hb]
    · rfl
  rw [Stream.job] at hj
  rw [Stream.job, Stream.modJob, List.find?_map, hp, hj, Option.map_some, if_pos hjf]

end Sys2Proof.Machine
end

section
/-! SUPPORT for O42. The events of an encoder that assembles a frame (R118, R120, R121, R126). -/

namespace Sys2Proof.Machine

theorem State.popRecord_encoders (s : State) (x : Stream) : (s.popRecord x).encoders = s.encoders := rfl

section
variable {s : State} {e : Fin 8} {n f : Nat} {x : Stream} (hc : s.encoders[e].current = some (n, f)) (hx : s.stream n = some x)
include hc hx

/-- A good record of the present frame is popped and its tile assembled (R120). -/
theorem execEncoderTilePop_assembles {h : BitVec 512} (hh : s.headRecord x = some (h, false)) (hf : recFrame h = f % 2 ^ 32) (ht : tileBad x s.encoders[e].tiles h = false) :
    exec (.encoderTilePop e) s = .next { s.popRecord x with
      encoders := s.encoders.set e { s.encoders[e] with tiles := s.encoders[e].tiles ++ [{ x := (recTile h).1, y := (recTile h).2, data := s.headSamples x }] } } := by
  show execEncoderTilePop e s = _
  simp only [execEncoderTilePop, hc, hx, hh, State.takeRecord, hf, State.takeTile, State.popRecord_encoders, ht, Bool.false_eq_true, if_true, if_false]

/-- A frame whose packets are over, with no record left to come and tiles missing, is filled (R121). -/
theorem execEncoderTileFill_fills (hp : x.packetsOver f = true) (hy : s.comesYet x f = false) (hn : s.encoders[e].full x = false) :
    exec (.encoderTileFill e) s = .next { s with
      encoders := s.encoders.set e { s.encoders[e] with tiles := s.encoders[e].tiles ++ x.fillers f s.encoders[e].tiles, filled := true } } := by
  show execEncoderTileFill e s = _
  simp only [execEncoderTileFill, hc, hx, hp, hy, hn]
  rfl

end

/-- The bitstream that an encoder makes of its frame now: its bytes and their number are free (R126, log 17). -/
def State.coded (s : State) (x : Stream) (f : Nat) : List Byte :=
  x.bitstream (x.isKey f) ((List.range (Config.bitstreamLength s.fresh)).map (Config.bitstreamByte s.fresh))

/-- The status word that an encoder writes when its frame has been written (R117, R118). -/
def State.readyWord (s : State) (e : Fin 8) (x : Stream) (f : Nat) (j : FrameJob) : SlotWord :=
  { state := 2, frame := f, rung := j.rung, interp := x.interp j.rung, late := decide (j.deadline < s.tb.now.toNat), filled := s.encoders[e].filled, key := x.isKey f,
    bytes := (s.coded x f).length }

section
variable {s : State} {e : Fin 8} {n f : Nat} {x : Stream} {j : FrameJob} (hc : s.encoders[e].current = some (n, f)) (hx : s.stream n = some x)
  (hj : x.job f = some j) (hf : s.encoders[e].full x = true)
include hc hx hj hf

/-- A frame that fits its slot and is written: the status word says READY, and the encoder leaves the frame (R118, R126). -/
theorem execEncoderFrameDone_fits {u : State} {pa : Nat} {leaf : W64} (hlen : 64 + (s.coded x f).length ≤ x.slotBytes)
    (hu : State.devWrite { s with fresh := s.fresh + 1 } (encMaster e) (encKey e) x.region (x.payBase + j.slot.getD 0 * x.slotBytes)
      (natLe 64 (outHeader x n j (s.coded x f).length s.tb.now.toNat (x.isKey f) (decide (j.deadline < s.tb.now.toNat))) ++ s.coded x f) = .ok u)
    (hd : u.devRange (encMaster e) x.region kWrite (x.ringBase + 16 * j.slot.getD 0) 16 = .ok [(pa, 16, leaf)]) :
    ∃ t : State, exec (.encoderFrameDone e) s = .next ((t.slotLeft n f).leaveFrame e n f (x.isKey f) false) ∧ memNat t.mem pa 1 % 16 = 2
      ∧ ∃ v, t.stream n = some { x with seqs := v } := by
  have hux : u.stream n = some x := (State.stream_congr (State.devWrite_streams hu) n).trans hx
  obtain ⟨t, v, ht, hmem, htx⟩ := State.putStatus_ok (key := encKey e) (w := s.readyWord e x f j) hux (show 2 < 16 by decide) hd
  refine ⟨t, ?_, hmem, v, htx⟩
  show execEncoderFrameDone e s = _
  unfold State.readyWord at ht
  unfold State.coded at hlen hu ht
  simp only [execEncoderFrameDone, hc, hx, hj, hf, Bool.not_true, Bool.false_eq_true, if_false, if_neg (Nat.not_lt.mpr hlen), hu, ht]

/-- One that does not fit is cut to its slot and skipped (R118, R126). -/
theorem execEncoderFrameDone_cut {u : State} (hlen : x.slotBytes < 64 + (s.coded x f).length)
    (hu : State.devWrite { s with fresh := s.fresh + 1 } (encMaster e) (encKey e) x.region (x.payBase + j.slot.getD 0 * x.slotBytes + 64)
      ((s.coded x f).take (x.slotBytes - 64)) = .ok u) :
    exec (.encoderFrameDone e) s = .next (u.encoderSkips e n f (x.isKey f) true) := by
  show execEncoderFrameDone e s = _
  unfold State.coded at hlen hu
  simp only [execEncoderFrameDone, hc, hx, hj, hf, Bool.not_true, Bool.false_eq_true, if_false, if_pos hlen, hu]

end

/-- An encoder that skips a frame leaves it, and the next is a key frame (R118, R124). -/
theorem State.encoderSkips_left {s : State} {n f : Nat} {x : Stream} {j : FrameJob} (e : Fin 8) (key trunc : Bool) (hx : s.stream n = some x) (hj : x.job f = some j) :
    (s.encoderSkips e n f key trunc).encoders[e].current = none ∧ (s.encoderSkips e n f key trunc).encoders[e].tiles = []
      ∧ ∃ y, (s.encoderSkips e n f key trunc).stream n = some y ∧ y.forceKey = true := by
  have hm : (s.stream n).bind (fun x => (x.job f).map (fun j => (x, j))) = some (x, j) := by rw [hx, Option.bind_some, hj, Option.map_some]
  simp only [State.encoderSkips, hm]
  obtain ⟨y, hy⟩ := State.leaveSlot_stream (encMaster e) f _ hx
  obtain ⟨z, hz, hzk, -⟩ := State.leaveFrame_stream e f key true hy
  obtain ⟨hcur, htiles⟩ := State.leaveFrame_encoder _ e n f key true
  exact ⟨hcur, htiles, z, hz, hzk⟩

end Sys2Proof.Machine
end

section
/-! O42: the events of an encoder. -/

namespace Sys2Proof.Machine

/-- Settles O42: a good record is assembled, a frame whose packets are over is filled, and a complete frame leaves its slot READY or makes the next a key frame. -/
theorem encoderEvents : Obligations.EncoderEvents := by
  refine fun s e n f x hc hx => ⟨fun h hh hf ht => ?_, fun hp hy hn => ?_, fun j hj hfull => ⟨fun u pa leaf hlen hu hd => ?_, fun u hlen hu => ?_⟩⟩
  · refine ⟨_, execEncoderTilePop_assembles hc hx hh hf ht, ?_, ?_, rfl⟩
    · exact congrArg Encoder.tiles (Vector.getElem_set_self _)
    · exact congrArg Flume.out (Vector.getElem_set_self _)
  · refine ⟨_, execEncoderTileFill_fills hc hx hp hy hn, ?_, ?_, rfl⟩
    · exact congrArg Encoder.filled (Vector.getElem_set_self _)
    · exact congrArg Encoder.tiles (Vector.getElem_set_self _)
  · obtain ⟨t, ht, hmem, v, htx⟩ := execEncoderFrameDone_fits hc hx hj hfull hlen hu hd
    have hleft : (t.slotLeft n f).stream n = some (Stream.modJob { x with seqs := v } f (fun j => { j with left := true })) := by
      rw [State.slotLeft, State.modStream_stream, htx]
      rfl
    obtain ⟨y, hy, hkey, hjobs⟩ := State.leaveFrame_stream e f (x.isKey f) false hleft
    obtain ⟨hcur, htiles⟩ := (t.slotLeft n f).leaveFrame_encoder e n f (x.isKey f) false
    have hjob : y.job f = some { j with left := true } := by
      rw [Stream.job, hjobs]
      exact Stream.job_modJob (x := { x with seqs := v }) _ hj (fun _ => rfl) (fun _ => rfl)
    exact ⟨_, ht, ⟨hcur, htiles, y, hy, hkey⟩, hmem, y, hy, hjob⟩
  · exact ⟨_, execEncoderFrameDone_cut hc hx hj hfull hlen hu,
      State.encoderSkips_left e (x.isKey f) true ((State.stream_congr (State.devWrite_streams hu) n).trans hx) hj⟩

end Sys2Proof.Machine
end

section
/-! O41: a work packet in flight that already bears the number of the next one. -/

namespace Sys2Proof.Machine

/-- SETRUNG of stream 0 to rung 0, at scope 15, in region 1. -/
def setrungPkt : BitVec 512 := BitVec.ofNat 512 (10 + 15 * 2 ^ 20 + 3 * 2 ^ 24 + 1 * 2 ^ 64)

/-- A work packet with number 0, which is the next work packet's number after reset. -/
def workZero : Work :=
  { id := 0, pkt := 0, exec := 0, latest := true, frame := none, ops := [], faulted := none, cancelled := false, copied := 0, region := 1, func := 0, level := 0, addr := 0,
    index0 := 0, gen := 0, rels := [], final := none }

/-- The machine after reset with stream 0, STOPPED, in the root region of function 0, and slot 0 with the packet at its parse point and work packet 0 in flight. -/
def numberTaken : State :=
  { State.reset with
    streams := [(0, some (newStream 1 0 0 0 0 0))],
    sched := { Sched.reset with regions := [(1, { Region.none with exist := true })] },
    fe := { FrontEnd.reset with
      features := 2 ^ 4, featack := Vector.replicate 10 (2 ^ 4),
      parsers := FrontEnd.reset.parsers.set 0
        { Parser.reset with queue := some 0, levels := [{ freshLevel 0 none with buf := [setrungPkt] }], work := [workZero] } } }

theorem numberTaken_atRing : numberTaken.atRing 0 0 { freshLevel 0 none with buf := [setrungPkt] } setrungPkt := by
  refine ⟨?_, ?_, rfl, rfl, rfl, rfl, rfl, ?_, ?_, ?_⟩ <;> decide +kernel

theorem numberTaken_work : numberTaken.fe.parsers[(0 : Fin 128)].work = [workZero] := by decide +kernel

/-- SETRUNG there leaves two work packets that are the latest: its own, and the one whose number it has taken (R90, R91). -/
theorem numberTaken_latest {t : State} (h : exec (.streamSetrung (slotOf 0)) numberTaken = .next t) : t.fe.parsers[(0 : Fin 128)].work.map (·.latest) = [true, true] := by
  obtain rfl := Host.Outcome.next.inj h
  decide +kernel

/-- Refutes O41: its clauses of STREAM packets say that the dispatched packet alone becomes the latest, of every state, and do not ask that the numbers of the packets
in flight lie below the next one; one that bears the next number becomes the latest too (R90, R91): a machine after reset with work packet 0 in flight at slot 0 and
SETRUNG for stream 0 at its parse point. -/
theorem not_streamsAndFrameJobs : ¬ Obligations.StreamsAndFrameJobs := by
  rintro ⟨hpackets, -⟩
  obtain ⟨-, hstream⟩ := hpackets numberTaken 0 0 _ setrungPkt numberTaken_atRing (by decide +kernel)
  obtain ⟨-, -, -, hsetrung, -⟩ := hstream (newStream 1 0 0 0 0 0) (by decide +kernel) (by decide +kernel)
  obtain ⟨t, hx, -, ⟨-, w, hw, -⟩, -⟩ := hsetrung (by decide +kernel) (by decide) (by decide +kernel)
  have hlatest := numberTaken_latest hx
  rw [hw, numberTaken_work] at hlatest
  exact Bool.false_ne_true (List.cons.inj hlatest).1

end Sys2Proof.Machine
end

section
/-! O44: two steps of one number, of different operators. -/

namespace Sys2Proof.Machine

/-- A READY step with number 0, of an operator, in region 0. -/
def stepZero (q : Nat) : Step :=
  { stepid := 0, op := q, region := 0, coord := 0, state := 0, core := 0, attempt := 0, eclass := 0, readyAt := 0, placedAt := 0, saveSlot := none, pos := 0, since := 0,
    avoid := none, trapPending := false, promos := 0, ctx := none, claim := none }

/-- Operator 0, in region 0. -/
def opZero : Operator :=
  { opseq := 0, region := 0, parser := 0, work := 0, member := 0, peers := [], opbAddr := 0, opb := 0, lpb := 0, hdr := 0, patches := [], fmts := [], image := 0, total := 1,
    scope := 15, fjpb := 0, rung := 0, stream := none, walk := 1, done := [], stopped := false, acq := [], acqEntry := 0, acqIdx := 15, hand := [] }

/-- The machine after reset with core 0 in the root of the regions, operator 0, and two READY steps with number 0: of operator 0, and of operator 1, which is not there. -/
def numberTwice : State :=
  { State.reset with sched := { Sched.reset with regions := [(0, { Region.none with exist := true, state := 0, rcb := 1 })], ops := [opZero], steps := [stepZero 0, stepZero 1] } }

/-- TILE_STEP_PLACE there gives the one step its operator's context and the other none (R131). -/
theorem numberTwice_placed {t : State} (h : exec .tileStepPlace numberTwice = .next t) : t.sched.steps.map (·.ctx.isSome) = [true, false] := by
  obtain rfl := Host.Outcome.next.inj h
  decide +kernel

/-- Refutes O44: its clause of placement gives every step of the placed number the context of one operator, of every state, and does not ask that steps of one number
be of one operator; the machine gives each step the context of its own (R131): a machine after reset with two READY steps of number 0, of operator 0 and of an operator
that is not there. -/
theorem not_operatorsAndPlacement : ¬ Obligations.OperatorsAndPlacement := by
  rintro ⟨-, hplace⟩
  obtain ⟨u, t, n, hx, ht, -, -, hu, -⟩ := hplace numberTwice (stepZero 0) 0 (by decide +kernel) (by decide +kernel) (by decide +kernel)
  have hctx := numberTwice_placed hx
  have hid : t.stepid = 0 := by
    rcases List.mem_pair.mp ht with rfl | rfl <;> rfl
  rw [hu, hid] at hctx
  obtain ⟨hfirst, hrest⟩ := List.cons.inj hctx
  exact absurd (hfirst.symm.trans (List.cons.inj hrest).1) (by decide)

end Sys2Proof.Machine
end

section
/-! O43: a REGION packet while a work packet in flight bears the number of the next one. -/

namespace Sys2Proof.Machine

/-- QUIESCE of region 1, at scope 15. -/
def quiescePkt : BitVec 512 := BitVec.ofNat 512 (11 + 15 * 2 ^ 20 + 2 * 2 ^ 24 + 1 * 2 ^ 64)

/-- The machine after reset with the root region of function 0, and slot 0, of queue 0 with PRIV, with the packet at its parse point and work packet 0 in flight. -/
def numberTakenPriv : State :=
  { State.reset with
    mem := memWrite [] (0x2000000000 + 18) [0x40],
    sched := { Sched.reset with regions := [(1, { Region.none with exist := true, state := 0 })] },
    fe := { FrontEnd.reset with
      features := 2 ^ 5, featack := Vector.replicate 10 (2 ^ 5),
      parsers := FrontEnd.reset.parsers.set 0
        { Parser.reset with queue := some 0, levels := [{ freshLevel 0 none with buf := [quiescePkt] }], work := [workZero] } } }

theorem numberTakenPriv_atRing : numberTakenPriv.atRing 0 0 { freshLevel 0 none with buf := [quiescePkt] } quiescePkt := by
  refine ⟨?_, ?_, rfl, rfl, rfl, rfl, rfl, ?_, ?_, ?_⟩ <;> decide +kernel

theorem numberTakenPriv_work : numberTakenPriv.fe.parsers[(0 : Fin 128)].work = [workZero] := by decide +kernel

/-- QUIESCE there leaves two work packets that are the latest: its own, and the one whose number it has taken (R90, R91). -/
theorem numberTakenPriv_latest {t : State} (h : exec (.regionQuiesce (slotOf 0)) numberTakenPriv = .next t) :
    t.fe.parsers[(0 : Fin 128)].work.map (·.latest) = [true, true] := by
  obtain rfl := Host.Outcome.next.inj h
  decide +kernel

/-- Refutes O43: its clauses of CREATE, MODIFY and QUIESCE say that the dispatched packet alone becomes the latest, of every state, and do not ask that the numbers of
the packets in flight lie below the next one; one that bears the next number becomes the latest too (R90, R91): a machine after reset with work packet 0 in flight at
slot 0 and QUIESCE of region 1 at its parse point. -/
theorem not_regionPackets : ¬ Obligations.RegionPackets := by
  rintro ⟨hpackets, -⟩
  obtain ⟨-, -, hquiesce, -⟩ := hpackets numberTakenPriv 0 0 _ quiescePkt numberTakenPriv_atRing (by decide +kernel) (by decide +kernel)
  obtain ⟨t, hx, -, ⟨-, w, hw, -⟩, -⟩ := hquiesce (by decide +kernel) (by decide +kernel) (by decide +kernel)
  have hlatest := numberTakenPriv_latest hx
  rw [hw, numberTakenPriv_work] at hlatest
  exact Bool.false_ne_true (List.cons.inj hlatest).1

end Sys2Proof.Machine
end

section
/-! O47: a firmware core that may not write the shadow store, and an error log that lies in the scratch of the core that is saved. -/

namespace Sys2Proof.Machine

/-- A running step of region 0 on core 0, with number 0. -/
def runningZero : Step := { stepZero 0 with state := 2 }

/-- The machine after reset with no window in any access table, the error log in the scratch of core 0, and core 0, which has 64 bytes of scratch, frozen to be saved
at the start of the shadow store. -/
def logInScratch : State :=
  { State.reset with
    cores := State.reset.cores.set 0 { Core.reset with phase := .frozen, saving := true, ctx := { StepCtx.reset with scratchQuota := 64 } },
    trans := { Trans.reset with windows := Vector.replicate 256 (Vector.replicate 8 0) },
    ras := { Ras.reset with elogBase := scratchPa 0 0 },
    sched := { Sched.reset with steps := [runningZero] } }

/-- CONTEXT_SAVE_COMPLETE there records the refusal of the composite record (R61) in the scratch before it is copied: the record holds other bytes than the scratch did. -/
theorem logInScratch_saved {u : State} (h : exec (.contextSaveComplete 0) logInScratch = .next u) :
    u.sched.records.all (fun x => decide (memRead u.mem (u.recordPa x + recordHead) 64 ≠ memRead logInScratch.mem (scratchPa 0 0) 64)) = true := by
  obtain rfl := Host.Outcome.next.inj h
  decide +kernel

/-- Refutes O47: its clause of CONTEXT_SAVE_COMPLETE says that the record holds the scratch as it was, of every state, and asks neither that the firmware core may write
the record (R34, R57) nor that the error log lies outside the scratch (R158): a machine after reset with no windows, the error log in the scratch of core 0, and core 0
frozen to be saved. -/
theorem not_preemptionAndPartitions : ¬ Obligations.PreemptionAndPartitions := by
  rintro ⟨⟨-, hsave, -⟩, -⟩
  obtain ⟨u, x, hx, -, hmem, -, -, -, -, -, hscratch, -⟩ := hsave logInScratch 0 runningZero (by decide +kernel) (by decide +kernel) (by decide +kernel) rfl
    (by decide +kernel) (by decide +kernel) (fun _ h => nomatch h) (fun _ => rfl) rfl
  exact of_decide_eq_true (List.all_eq_true.mp (logInScratch_saved hx) x hmem) hscratch

end Sys2Proof.Machine
end

section
/-! SUPPORT for O46. The performing of writes in flight leaves what is scheduled, and, where no reduction holds operands of two cores, every other core (R207, R221, R262). -/

namespace Sys2Proof.Machine

/-- What the performing of a scoped write's bytes leaves: the cores, what is scheduled, the resets under way, the list of writes in flight. -/
def State.duties (s : State) : Vector Core 128 × Sched × Vector Bool 10 × List InFlight := (s.cores, s.sched, s.board.flr, s.fab.inflight)

theorem foldl_duties {α : Type} (f : State → α → State) (hf : ∀ s x, (f s x).duties = s.duties) (l : List α) (s : State) : (l.foldl f s).duties = s.duties :=
  foldl_keeps (fun t : State => t.duties = s.duties) f l s rfl (fun t x ht => (hf t x).trans ht)

theorem State.log_flr (s : State) (r : LogRec) : (s.log r).board.flr = s.board.flr := by
  obtain ⟨l, d, h⟩ := s.log_board r
  rw [h]

theorem State.log_duties (s : State) (r : LogRec) : (s.log r).duties = s.duties := by
  simp [State.duties, State.log_flr]

theorem State.logRead_duties (s : State) (m pa id r how : Nat) : (s.logRead m pa id r how).duties = s.duties := State.log_duties _ _

theorem State.writeBack_duties (s : State) (crew line m : Nat) : (s.writeBack crew line m).duties = s.duties := by
  unfold State.writeBack
  split
  · rfl
  extract_lets s1
  split
  · exact State.log_duties _ _
  · exact foldl_duties _ (fun s pa => s.logRead_duties _ _ _ _ _) _ _

theorem State.recallLine_duties (s : State) (line m : Nat) : (s.recallLine line m).duties = s.duties := by
  unfold State.recallLine
  split
  · exact s.writeBack_duties _ _ _
  · rfl

theorem State.onlyAts.duties {s t : State} (h : s.onlyAts t) : t.duties = s.duties := by
  obtain ⟨l, n, rfl⟩ := h
  rfl

theorem Fabric.stampLines_inflight (l : List Nat) (f : Fabric) (t : Nat) : (f.stampLines l t).1.inflight = f.inflight := by
  induction l generalizing f t with
  | nil => rfl
  | cons x l ih => exact ih _ _

theorem State.performScoped_duties (s : State) (agent pa : Nat) (b : List Byte) : (s.performScoped agent pa b).1.duties = s.duties := by
  have h0 := foldl_duties _ (fun s x => State.recallLine_duties s x (agentMaster agent)) (linesOf pa b.length) s
  have h1 : ∀ u : State, ∀ t e, ({ u.writeBytes pa b with fab := { (u.fab.stampLines (linesOf pa b.length) t).1 with eclock := e } } : State).duties = u.duties := fun u t e => by
    simp [State.duties, State.writeBytes, Fabric.stampLines_inflight]
  unfold State.performScoped
  dsimp only
  split
  · exact (State.sendOut_onlyAts _ _ _ _ _ _).duties.trans ((h1 _ _ _).trans h0)
  · exact (h1 _ _ _).trans h0

theorem State.carryRels_duties (s : State) (pa len : Nat) (l : List Release) : (s.carryRels pa len l).duties = s.duties := by
  have h := foldl_keeps (fun f : Fabric => f.inflight = s.fab.inflight) (fun f r => f.addRel pa len r) l s.fab rfl (fun f r hf => hf)
  simp [State.duties, State.carryRels, h]

theorem State.performBytes_duties (s : State) (x : InFlight) : (s.performBytes x).1.duties = s.duties := by
  unfold State.performBytes
  refine (foldl_duties _ (fun s r => s.carryRels_duties _ _ _) _ _).trans ((State.carryRels_duties _ _ _ _).trans ?_)
  exact foldl_keeps (fun a : State × Nat => a.1.duties = s.duties) _ _ _ (s.performScoped_duties _ _ _) (fun a r ha => (a.1.performScoped_duties _ _ _).trans ha)

/-- Every write in flight that is of a core, or holds an operand of it, is of that core alone. -/
def State.ownWrites (s : State) (n : Fin 128) : Prop := ∀ x ∈ s.fab.inflight, x.ofCore n = true → x.core = n ∧ ∀ k ∈ x.joined, k.core = n

/-- `t` keeps the regions and the resets under way of `s`, and, where the writes of core `n` hold no operand of another core, every other core. -/
structure State.ForCore (n : Fin 128) (s t : State) : Prop where
  regions : t.sched.regions = s.sched.regions
  flr : t.board.flr = s.board.flr
  others : s.ownWrites n → (∀ k : Fin 128, k ≠ n → t.cores[k] = s.cores[k]) ∧ t.ownWrites n

theorem State.ForCore.refl (n : Fin 128) (s : State) : s.ForCore n s := ⟨rfl, rfl, fun h => ⟨fun _ _ => rfl, h⟩⟩

theorem State.ForCore.trans {n : Fin 128} {s t u : State} (h : s.ForCore n t) (h' : t.ForCore n u) : s.ForCore n u where
  regions := h'.regions.trans h.regions
  flr := h'.flr.trans h.flr
  others hs := by
    obtain ⟨hc, ht⟩ := h.others hs
    obtain ⟨hc', hu⟩ := h'.others ht
    exact ⟨fun k hk => (hc' k hk).trans (hc k hk), hu⟩

/-- An update of the core itself that leaves the list of writes in flight, or takes some away. -/
theorem State.ForCore.of_sublist {n : Fin 128} {s t : State} (hr : t.sched.regions = s.sched.regions) (hf : t.board.flr = s.board.flr)
    (hc : ∀ k : Fin 128, k ≠ n → t.cores[k] = s.cores[k]) (hi : t.fab.inflight ⊆ s.fab.inflight) : s.ForCore n t :=
  ⟨hr, hf, fun hs => ⟨hc, fun x hx => hs x (hi hx)⟩⟩

theorem State.ForCore.of_duties {s t : State} (n : Fin 128) (h : t.duties = s.duties) : s.ForCore n t := by
  simp only [State.duties, Prod.mk.injEq] at h
  obtain ⟨hc, hs, hf, hi⟩ := h
  exact .of_sublist (by rw [hs]) hf (fun k _ => by rw [hc]) (by rw [hi]; exact List.Subset.refl _)

theorem State.ForCore.modCore (n : Fin 128) (s : State) (f : Core → Core) : s.ForCore n (s.modCore n f) :=
  .of_sublist rfl rfl (fun _ hk => s.modCore_core_ne f hk) (List.Subset.refl _)

theorem foldl_forCore {α : Type} (n : Fin 128) (f : State → α → State) (l : List α) (hf : ∀ s : State, ∀ x ∈ l, s.ForCore n (f s x)) (s : State) :
    s.ForCore n (l.foldl f s) := by
  induction l generalizing s with
  | nil => exact .refl n s
  | cons x l ih => exact (hf s x List.mem_cons_self).trans (ih (fun s y hy => hf s y (List.mem_cons_of_mem _ hy)) _)

theorem State.blockedAt_forCore (s : State) {x : InFlight} {n : Fin 128} (hx : x.core = n) : s.ForCore n (s.blockedAt x) := by
  subst hx
  exact (State.ForCore.of_duties _ (s.logRead_duties _ _ _ _ _)).trans (.modCore _ _ _)

theorem InFlight.others_core {x : InFlight} {n : Fin 128} (hj : ∀ k ∈ x.joined, k.core = n) : ∀ y ∈ x.others, y.core = n ∧ y.joined = [] := by
  intro y hy
  obtain ⟨k, hk, rfl⟩ := List.mem_map.mp hy
  exact ⟨hj k hk, rfl⟩

/-- Updates each of which is of core `n` where the writes of core `n` hold no operand of another core. -/
theorem State.ForCore.foldl {α : Type} {n : Fin 128} {s t : State} (hst : s.ForCore n t) (f : State → α → State) (l : List α)
    (hr : ∀ s x, (f s x).sched.regions = s.sched.regions) (hf : ∀ s x, (f s x).board.flr = s.board.flr)
    (h : s.ownWrites n → ∀ x ∈ l, ∀ t : State, t.ForCore n (f t x)) : s.ForCore n (l.foldl f t) where
  regions := foldl_keeps (fun u : State => u.sched.regions = s.sched.regions) f l t hst.regions (fun u x hu => (hr u x).trans hu)
  flr := foldl_keeps (fun u : State => u.board.flr = s.board.flr) f l t hst.flr (fun u x hu => (hf u x).trans hu)
  others hs := (hst.trans (foldl_forCore n f l (fun t x hx => h hs x hx t) t)).others hs

/-- A write that has performed, with those whose operands it held, in the list of writes in flight (R207, R221). -/
def State.markDone (s : State) (i : Nat) (x : InFlight) (w : Nat) : State :=
  let mine : InFlight := { x with performed := true, stamp := w, joined := [] }
  let more := x.others.map (fun (y : InFlight) => { y with performed := true, stamp := w })
  { s with fab := { s.fab with inflight := setAt s.fab.inflight i mine ++ more } }

theorem State.performInFlight_blocked {s : State} {i : Nat} {x : InFlight} (hx : s.fab.inflight[i]? = some x) (hp : ¬ x.performed = true) (hb : x.blocked s = true) :
    s.performInFlight i = ((x :: x.others).foldl State.blockedAt s).markDone i x 0 := by
  unfold State.performInFlight
  rw [hx]
  simp only [if_neg hp, hb, if_true]
  rfl

/-- A write performs with those whose operands it holds: its bytes, the releases of their strands, and its place in the list (R207, R214, R221). -/
def State.performJoined (s : State) (i : Nat) (x : InFlight) : State :=
  (x.joined.foldl (fun s k => s.carryRels x.pa x.data.length s.cores[k.core].mem.fences[k.strand.slot]) (s.performBytes x).1).markDone i x (s.performBytes x).2

/-- An operation that cannot be repeated counts for its core (R161). -/
def State.noteOnce (s : State) (y : InFlight) : State := s.modCore y.core (fun c => c.notePoint y.po (fun p => { p with nonIdem := true }))

theorem State.performInFlight_performs {s : State} {i : Nat} {x : InFlight} (hx : s.fab.inflight[i]? = some x) (hp : ¬ x.performed = true) (hb : ¬ x.blocked s = true) :
    s.performInFlight i = (s.performJoined i x).clearCovered ((s.performJoined i x).wordRuns x)
    ∨ s.performInFlight i = (x :: x.others).foldl State.noteOnce (s.performJoined i x) := by
  unfold State.performInFlight
  rw [hx]
  simp only [if_neg hp, Bool.eq_false_of_not_eq_true hb, Bool.false_eq_true, if_false]
  split
  · exact .inl rfl
  · exact .inr rfl

theorem State.noteOnce_forCore (s : State) {y : InFlight} {n : Fin 128} (hy : y.core = n) : s.ForCore n (s.noteOnce y) := by
  subst hy
  exact .modCore _ _ _

/-- The write at a place is done: where it was of core `n`, the list still holds none of another core with an operand of this one. -/
theorem State.ForCore.markDone {s u : State} {x : InFlight} {n : Fin 128} (h : s.ForCore n u) (hx : x ∈ s.fab.inflight) (hn : x.ofCore n = true) (i w : Nat) :
    s.ForCore n (u.markDone i x w) where
  regions := h.regions
  flr := h.flr
  others hs := by
    obtain ⟨hc, hu⟩ := h.others hs
    obtain ⟨hxn, hxj⟩ := hs x hx hn
    refine ⟨hc, fun y hy hyn => ?_⟩
    rcases List.mem_append.mp hy with hy | hy
    · rcases List.mem_or_eq_of_mem_set hy with hy | rfl
      · exact hu y hy hyn
      · exact ⟨hxn, fun _ hk => nomatch hk⟩
    · obtain ⟨z, hz, rfl⟩ := List.mem_map.mp hy
      obtain ⟨hzn, hzj⟩ := InFlight.others_core hxj z hz
      exact ⟨hzn, fun k hk => absurd (hzj ▸ hk) List.not_mem_nil⟩

theorem State.performInFlight_forCore (s : State) (i : Nat) {x : InFlight} {n : Fin 128} (hx : s.fab.inflight[i]? = some x) (hn : x.ofCore n = true) :
    s.ForCore n (s.performInFlight i) := by
  have hmem := List.mem_of_getElem? hx
  have hown : s.ownWrites n → ∀ y ∈ x :: x.others, y.core = n := fun hs y hy => by
    obtain ⟨hxn, hxj⟩ := hs x hmem hn
    rcases List.mem_cons.mp hy with rfl | hy
    · exact hxn
    · exact (InFlight.others_core hxj y hy).1
  by_cases hp : x.performed = true
  · simp only [State.performInFlight, hx, hp, if_true]
    exact .refl n s
  by_cases hb : x.blocked s = true
  · rw [State.performInFlight_blocked hx hp hb]
    refine State.ForCore.markDone ?_ hmem hn i 0
    exact (State.ForCore.refl n s).foldl _ _ (fun s y => by simp [State.blockedAt, State.logDemand, State.logRead]) (fun s y => State.log_flr _ _)
      (fun hs y hy t => t.blockedAt_forCore (hown hs y hy))
  · have hj : s.ForCore n (s.performJoined i x) := by
      refine State.ForCore.markDone (.of_duties n ?_) hmem hn i _
      exact (foldl_duties _ (fun s k => s.carryRels_duties _ _ _) _ _).trans (s.performBytes_duties x)
    rcases State.performInFlight_performs hx hp hb with h | h
    · rw [h]
      exact hj.trans (.of_sublist rfl rfl (fun _ _ => rfl) (List.Subset.refl _))
    · rw [h]
      exact hj.foldl _ _ (fun _ _ => rfl) (fun _ _ => rfl) (fun hs y hy t => t.noteOnce_forCore (hown hs y hy))

theorem State.performAll_forCore (s : State) (n : Fin 128) : s.ForCore n (s.performAll n) :=
  foldl_forCore n _ _ (fun t i _ => by
    split
    · split
      · next x hx hn => exact t.performInFlight_forCore i hx hn
      · exact .refl n t
    · exact .refl n t) s

end Sys2Proof.Machine
end

section
/-! SUPPORT for O46. What the walk of the operators and the sweep leave where no region is being destroyed and no function reset is under way (R131, R136). -/

namespace Sys2Proof.Machine

/-- `t` is `s` but for the operators, the steps and the context records. -/
def State.onlyWork (s t : State) : Prop := ∃ o l r, t = { s with sched := { s.sched with ops := o, steps := l, records := r } }

theorem State.onlyWork.refl (s : State) : s.onlyWork s := ⟨s.sched.ops, s.sched.steps, s.sched.records, rfl⟩

theorem State.onlyWork.trans {s t u : State} (h : s.onlyWork t) (h' : t.onlyWork u) : s.onlyWork u := by
  obtain ⟨o, l, r, rfl⟩ := h
  obtain ⟨o', l', r', rfl⟩ := h'
  exact ⟨o', l', r', rfl⟩

theorem State.modOp_onlyWork (s : State) (q : Nat) (f : Operator → Operator) : s.onlyWork (s.modOp q f) := ⟨_, s.sched.steps, s.sched.records, rfl⟩

theorem State.dropStep_onlyWork (s : State) (id : Nat) : s.onlyWork (s.dropStep id) := ⟨s.sched.ops, _, _, rfl⟩

theorem State.readyAfter_onlyWork (s : State) (q i : Nat) : s.onlyWork (s.readyAfter q i) := by
  unfold State.readyAfter
  split
  · exact .refl s
  · split
    · exact .refl s
    · split
      · exact ⟨s.sched.ops, _, s.sched.records, rfl⟩
      · exact .refl s

theorem State.walkOp_onlyWork (s : State) (q k : Nat) : s.onlyWork (s.walkOp q k) := by
  induction k generalizing s with
  | zero => exact .refl s
  | succ k ih =>
    unfold State.walkOp
    split
    · exact .refl s
    · split
      · exact .refl s
      · next o _ _ =>
        refine State.onlyWork.trans ?_ (ih _)
        split
        · exact ⟨_, _, s.sched.records, rfl⟩
        · exact s.modOp_onlyWork q _

theorem State.walkAll_onlyWork (s : State) : s.onlyWork s.walkAll :=
  foldl_keeps s.onlyWork _ _ s (.refl s) (fun _ q h => h.trans (State.walkOp_onlyWork _ q 1024))

/-- No region is being destroyed and no function reset is under way. -/
def State.settled (s : State) : Prop := (∀ r, (s.region r).destroying = false) ∧ s.board.flr = Vector.replicate 10 false

theorem State.settleDestroy_settled {s : State} (h : s.settled) (k : Nat) : State.settleDestroy k s = s := by
  cases k with
  | zero => rfl
  | succ k =>
    have hnone : s.regionIds.find? (fun r => (s.region r).destroying && !s.runningUnder r && !s.regionIds.any (fun x => x != r && (s.region x).parent == r)) = none :=
      List.find?_eq_none.mpr (fun r _ => by simp [h.1])
    simp only [State.settleDestroy, hnone]

theorem State.settleResets_settled {s : State} (h : s.settled) : s.settleResets = s :=
  List.foldl_fixed' (fun f => by simp [h.2]) _

/-- `t` is `s` but for the regions, and each of these is as it was but for its state. -/
def State.onlyStates (s t : State) : Prop :=
  ∃ m, t = { s with sched := { s.sched with regions := m } } ∧ ∀ r, ∃ v, t.region r = { s.region r with state := v }

theorem State.onlyStates.refl (s : State) : s.onlyStates s := ⟨s.sched.regions, rfl, fun r => ⟨(s.region r).state, rfl⟩⟩

theorem State.onlyStates.trans {s t u : State} (h : s.onlyStates t) (h' : t.onlyStates u) : s.onlyStates u := by
  obtain ⟨m, rfl, hr⟩ := h
  obtain ⟨m', rfl, hr'⟩ := h'
  refine ⟨m', rfl, fun r => ?_⟩
  obtain ⟨v, hv⟩ := hr r
  obtain ⟨v', hv'⟩ := hr' r
  exact ⟨v', by rw [hv', hv]⟩

theorem State.region_modRegion (s : State) (r x : Nat) (f : Region → Region) : (s.modRegion r f).region x = if x = r then f (s.region r) else s.region x :=
  sget_sset _ _ _ _ _

theorem State.settleQuiesce_onlyStates (s : State) : s.onlyStates s.settleQuiesce :=
  foldl_keeps s.onlyStates _ _ s (.refl s) (fun t r h => h.trans (by
    split
    · refine ⟨_, rfl, fun x => ?_⟩
      rw [State.region_modRegion]
      split
      · next hx => exact ⟨2, by rw [hx]⟩
      · exact ⟨_, rfl⟩
    · exact .refl t))

theorem State.onlyStates.settled {s t : State} (h : s.onlyStates t) (hs : s.settled) : t.settled := by
  obtain ⟨m, rfl, hr⟩ := h
  refine ⟨fun r => ?_, hs.2⟩
  obtain ⟨v, hv⟩ := hr r
  rw [hv]
  exact hs.1 r

/-- Operators that are over have left the bucker. -/
def State.endOps (s : State) : State := { s with sched := { s.sched with ops := s.sched.ops.filter (fun o => !s.opOver o) } }

theorem State.sweep_eq (s : State) : s.sweep = (State.settleDestroy 4096 s.endOps.settleQuiesce).settleResets := rfl

/-- The sweep then changes the operators and the states of regions alone. -/
theorem State.sweep_settled {s : State} (h : s.settled) : ∃ t, s.onlyWork t ∧ t.onlyStates s.sweep := by
  have hq := s.endOps.settleQuiesce_onlyStates
  have hs := hq.settled h
  refine ⟨s.endOps, ⟨_, s.sched.steps, s.sched.records, rfl⟩, ?_⟩
  rwa [State.sweep_eq, State.settleDestroy_settled hs, State.settleResets_settled hs]

end Sys2Proof.Machine
end

section
/-! SUPPORT for O46. The retirement of a step (R138). -/

namespace Sys2Proof.Machine

theorem State.retireRelease_forCore (s : State) (n : Fin 128) (o : Operator) (t : Step) : s.ForCore n (s.retireRelease n o t) :=
  (s.performAll_forCore n).trans (.of_sublist rfl rfl (fun _ _ => rfl) (List.Subset.refl _))

theorem State.sample_forCore (s : State) (n : Fin 128) (o : Operator) (t : Step) : s.ForCore n (s.sample n o t) := by
  unfold State.sample
  dsimp only
  split
  · exact .refl n s
  · split <;> exact .of_sublist rfl rfl (fun _ _ => rfl) (List.Subset.refl _)

theorem State.freeCore_forCore (s : State) (n : Fin 128) : s.ForCore n (s.freeCore n) := by
  unfold State.freeCore
  refine ((s.performAll_forCore n).trans ?_).trans (.modCore n _ _)
  exact .of_sublist rfl rfl (fun _ _ => rfl) (List.filter_subset_self _)

/-- The state in which the core of a retired step is free, and keeps its carry. -/
def State.leftCore (s : State) (n : Fin 128) (o : Operator) (t : Step) : State :=
  ((((s.retireRelease n o t).sample n o t).stampRecord n t 5 0).freeCore n).modCore n (fun k => { k with carryOk := true })

theorem State.leftCore_forCore (s : State) (n : Fin 128) (o : Operator) (t : Step) : s.ForCore n (s.leftCore n o t) :=
  ((((s.retireRelease_forCore n o t).trans (State.sample_forCore _ n o t)).trans (.modCore n _ _)).trans (State.freeCore_forCore _ n)).trans (.modCore n _ _)

theorem State.freeCore_inflight (s : State) (n : Fin 128) : ∀ x ∈ (s.freeCore n).fab.inflight, x.core ≠ n := by
  intro x hx
  simpa using (List.mem_filter.mp hx).2

/-- RETIRED counts in the operator's region, and in nothing else of a core, of the fabric or of another region. -/
theorem State.countRetired_counts (s : State) (o : Operator) : (s.countRetired o).cores = s.cores ∧ (s.countRetired o).fab = s.fab ∧ (s.countRetired o).board = s.board
    ∧ ∀ r, (s.countRetired o).region r = if r = o.region then { s.region o.region with retired := (s.region o.region).retired + 1 } else s.region r := by
  have hr := fun r => State.region_modRegion s o.region r (fun x => { x with retired := x.retired + 1 })
  unfold State.countRetired
  dsimp only
  split
  · exact ⟨rfl, rfl, rfl, hr⟩
  · exact ⟨rfl, rfl, rfl, hr⟩

theorem execTileStepRetire_eq {s : State} {n : Fin 128} {t : Step} {o : Operator} (hf : s.cores[n].finished = true) (ht : s.stepOn n = some t) (ho : s.opAt t.op = some o) :
    execTileStepRetire n s = .next ((((((s.leftCore n o t).countRetired o).dropStep t.stepid).modOp t.op (fun o => { o with done := t.stepid % 2 ^ 32 :: o.done })).readyAfter t.op
      (t.stepid % 2 ^ 32)).walkAll).sweep := by
  unfold execTileStepRetire
  simp only [hf, ht, ho]
  rfl

/-- What a retirement leaves after its core is free: the walk and the sweep change operators, steps and the states of regions. -/
theorem execTileStepRetire_leaves {s : State} {n : Fin 128} {t : Step} {o : Operator} (hf : s.cores[n].finished = true) (ht : s.stepOn n = some t) (ho : s.opAt t.op = some o)
    (hs : s.settled) : ∃ u, execTileStepRetire n s = .next u ∧ u.cores = (s.leftCore n o t).cores ∧ u.fab = (s.leftCore n o t).fab
      ∧ (u.region o.region).retired = (s.region o.region).retired + 1 := by
  obtain ⟨hregions, hflr, -⟩ := s.leftCore_forCore n o t
  obtain ⟨hcores, hfab, hboard, hregion⟩ := (s.leftCore n o t).countRetired_counts o
  have hwork := ((((s.leftCore n o t).countRetired o).dropStep_onlyWork t.stepid).trans (State.modOp_onlyWork _ t.op (fun o => { o with done := t.stepid % 2 ^ 32 :: o.done }))).trans
    ((State.readyAfter_onlyWork _ t.op (t.stepid % 2 ^ 32)).trans (State.walkAll_onlyWork _))
  have hsame : ∀ r, (s.leftCore n o t).region r = s.region r := fun r => by rw [State.region, hregions, State.region]
  refine ⟨_, execTileStepRetire_eq hf ht ho, ?_⟩
  generalize ((((((s.leftCore n o t).countRetired o).dropStep t.stepid).modOp t.op (fun o => { o with done := t.stepid % 2 ^ 32 :: o.done })).readyAfter t.op
      (t.stepid % 2 ^ 32)).walkAll) = v at hwork ⊢
  obtain ⟨ops, steps, records, rfl⟩ := hwork
  have hv : State.settled { (s.leftCore n o t).countRetired o with
      sched := { ((s.leftCore n o t).countRetired o).sched with ops := ops, steps := steps, records := records } } := by
    refine ⟨fun r => ?_, ?_⟩
    · refine (congrArg Region.destroying (hregion r)).trans ?_
      split
      · rw [hsame]; exact hs.1 _
      · rw [hsame]; exact hs.1 _
    · exact (congrArg Board.flr hboard).trans (hflr.trans hs.2)
  obtain ⟨w, ⟨ops', steps', records', rfl⟩, m, hu, hst⟩ := State.sweep_settled hv
  obtain ⟨x, hx⟩ := hst o.region
  refine ⟨?_, ?_, ?_⟩
  · rw [hu]; exact hcores
  · rw [hu]; exact hfab
  · rw [hx]
    refine (congrArg Region.retired (hregion o.region)).trans ?_
    rw [if_pos rfl, hsame]

end Sys2Proof.Machine
end

section
/-! SUPPORT for O46. Idle cores, starved steps and the cruiser's replays (R141, R146, R169, R170). -/

namespace Sys2Proof.Machine

/-- The scratch of a core is 0, and every other byte stands. -/
theorem State.zeroScratch_byte (s : State) (n : Fin 128) (a : Nat) :
    sget Memory.dflt (s.zeroScratch n).mem a = if scratchPa n 0 ≤ a ∧ a < scratchPa n 0 + 0x100000 then 0 else sget Memory.dflt s.mem a := by
  refine (sget_filter Memory.dflt (fun k => decide (k < scratchPa n 0) || decide (scratchPa n 0 + 0x100000 ≤ k)) s.mem a).trans ?_
  simp only [Bool.or_eq_true, decide_eq_true_eq]
  split <;> split
  · omega
  · rfl
  · rfl
  · omega

theorem execCoreIdleZeroing_zeroes {s : State} {n : Fin 128} (hp : s.cores[n].phase = .idle) (hon : s.stepOn n = none) (hc : s.cores[n].clean = false)
    (ht : s.cores[n].idleSince + 3000 ≤ s.tb.now.toNat) : execCoreIdleZeroing n s = .next ((s.zeroScratch n).modCore n Core.zeroed) := by
  unfold execCoreIdleZeroing
  exact congrArg Host.Outcome.next (if_pos ⟨hp, by rw [hon]; rfl, by rw [hc]; rfl, ht⟩)

theorem execStarvationPromotion_promotes {s : State} {i : Nat} {t : Step} (hi : s.sched.steps[i]? = some t) (hstate : t.state = 0 ∨ t.state = 3) (hrank : 2 ≤ s.rankOf t)
    (hbound : t.since + s.effStarve t.region < s.tb.now.toNat) : execStarvationPromotion i s = .next
      ((s.modStep t.stepid (fun x => { x with promos := x.promos + 1, eclass := s.rankOf t - 1, since := x.since + s.effStarve t.region })).modRegion t.region
        (fun x => { x with promoted := x.promoted + 1 })) := by
  unfold execStarvationPromotion
  rw [hi]
  exact congrArg Host.Outcome.next (if_pos ⟨hstate, hrank, hbound⟩)

/-! What a region inherits depends on the regions alone (R128). -/

theorem State.groupAt_congr {s t : State} (h : t.sched.regions = s.sched.regions) (g k r : Nat) : t.groupAt g k r = s.groupAt g k r := by
  have hregion : ∀ x, t.region x = s.region x := fun x => by rw [State.region, h, State.region]
  induction k generalizing r with
  | zero => rfl
  | succ k ih => simp only [State.groupAt, hregion, ih]

theorem State.effFdom_congr {s t : State} (h : t.sched.regions = s.sched.regions) (r : Nat) : t.effFdom r = s.effFdom r := by
  rw [State.effFdom, State.group, State.groupAt_congr h, State.effFdom, State.group]

theorem State.effFdvec_congr {s t : State} (h : t.sched.regions = s.sched.regions) (r : Nat) : t.effFdvec r = s.effFdvec r := by
  rw [State.effFdvec, State.group, State.groupAt_congr h, State.effFdvec, State.group]

/-! The cruiser (R169, R170) -/

/-- The machine without its oldest sample. -/
def State.dropOldest (s : State) (rest : List Sample) : State := { s with ras := { s.ras with samples := rest } }

theorem execCruiserReplay_match {s : State} {x : Sample} {rest : List Sample} {n : Fin 128} {sig : W64} (hx : s.ras.samples = x :: rest) (ha : s.regionActive x.region = true)
    (hw : s.stepsWait = false) (hn : s.replayCore x = some n) (third : Option W64) (he : sig = x.sig) :
    execCruiserReplay sig third s
      = .next (State.replayed { (s.dropOldest rest).modBoard (fun b => b.binCruise 0) with ras := { s.ras with samples := rest, crMatch := s.ras.crMatch + 1 } } x n) := by
  simp only [execCruiserReplay, hx, ha, hw, hn, he]
  rfl

/-- The registers of a core that has run a replay stand (R169). -/
theorem State.replayed_regs (s : State) (x : Sample) (n k : Fin 128) : (s.replayed x n).cores[k].regs = s.cores[k].regs := by
  unfold State.replayed
  by_cases h : k = n
  · subst h
    rw [State.modCore_core]
  · rw [State.modCore_core_ne _ _ h]

/-- Unequal signatures end with a verdict, after one run more or none (R169). -/
theorem execCruiserReplay_mismatch {s : State} {x : Sample} {rest : List Sample} {n : Fin 128} {sig : W64} (hx : s.ras.samples = x :: rest) (ha : s.regionActive x.region = true)
    (hw : s.stepsWait = false) (hn : s.replayCore x = some n) (third : Option W64) (he : sig ≠ x.sig) (h3 : s.thirdCore x n = none ∨ third.isSome = true) :
    ∃ v, execCruiserReplay sig third s = .next (((s.dropOldest rest).silent x sig v n).replayed x n)
      ∨ ∃ m, execCruiserReplay sig third s = .next ((((s.dropOldest rest).silent x sig v n).replayed x n).replayed x m) := by
  cases hm : s.thirdCore x n with
  | none =>
    refine ⟨3, .inl ?_⟩
    simp only [execCruiserReplay, hx, ha, hw, hn, he, hm, Bool.not_true, Bool.false_eq_true, if_false]
    rfl
  | some m =>
    cases third with
    | none => simp [hm] at h3
    | some y =>
      refine ⟨cruiseVerdict x.sig sig (some y), .inr ⟨m, ?_⟩⟩
      simp only [execCruiserReplay, hx, ha, hw, hn, he, hm, Bool.not_true, Bool.false_eq_true, if_false]
      rfl

theorem State.log_ras (s : State) (r : LogRec) : (s.log r).ras = { s.ras with elogSeq := s.ras.elogSeq + 1 } := by
  obtain ⟨-, -, -, -, -, hr⟩ := s.log_kept r
  exact hr

/-- What unequal signatures leave: the count, two records, the notice to the fault domain; the registers stand (R169, R171). -/
theorem State.silent_leaves (s : State) (x : Sample) (sig : W64) (v : Nat) (n : Fin 128) :
    (s.silent x sig v n).ras = { s.ras with crMismatch := s.ras.crMismatch + 1, elogSeq := s.ras.elogSeq + 2 } ∧ (s.silent x sig v n).cores = s.cores
      ∧ (s.silent x sig v n).notes = s.notes ++ [.msix (s.region (s.effFdom x.region)).func (s.effFdvec x.region)] := by
  unfold State.silent
  extract_lets r x' s1 s2
  have hras : s2.ras = { s.ras with crMismatch := s.ras.crMismatch + 1, elogSeq := s.ras.elogSeq + 2 } := by
    simp only [s2, State.modBoard_ras, State.log_ras, s1]
    rw [BitVec.add_assoc]
    rfl
  have hcores : s2.cores = s.cores := by simp [s2, s1]
  have hnotes : s2.notes = s.notes := by simp [s2, s1]
  exact ⟨hras, hcores, congrArg (· ++ _) hnotes⟩

end Sys2Proof.Machine
end

section
/-! O46: the retirement of steps, the cruiser, idle cores and starved steps. -/

namespace Sys2Proof.Machine

/-- Settles O46: a retirement performs and frees what is of its core, and its sweep settles regions alone; the cruiser, the zeroing and the promotion are read off the model. -/
theorem stepsRetire : Obligations.StepsRetire := by
  refine ⟨fun s n t o hf ht ho _ hd hflr => ?_, fun s x rest sig third n hx ha hw hn => ⟨fun he => ?_, fun he h3 => ?_, fun o r y => ?_⟩,
    fun s n hp hon hc ht => ?_, fun s i t hi hstate hrank hbound => ?_⟩
  · obtain ⟨u, hu, hcores, hfab, hretired⟩ := execTileStepRetire_leaves hf ht ho ⟨hd, hflr⟩
    refine ⟨u, hu, ?_, ?_, hretired, ?_, fun hown k hk => ?_⟩
    · rw [hcores, State.leftCore, State.modCore_core, State.freeCore, State.modCore_core]
      rfl
    · rw [hcores, State.leftCore, State.modCore_core]
    · rw [hfab]
      exact State.freeCore_inflight _ n
    · rw [hcores]
      exact ((s.leftCore_forCore n o t).others hown).1 k hk
  · exact ⟨_, execCruiserReplay_match hx ha hw hn third he, rfl, rfl, rfl, fun k hk => State.modCore_core_ne _ _ hk⟩
  · obtain ⟨v, hexec⟩ := execCruiserReplay_mismatch hx ha hw hn third he h3
    obtain ⟨hras, hcores, hnotes⟩ := (s.dropOldest rest).silent_leaves x sig v n
    have hdomain : (s.dropOldest rest).notes ++ [.msix ((s.dropOldest rest).region ((s.dropOldest rest).effFdom x.region)).func ((s.dropOldest rest).effFdvec x.region)]
        = s.notes ++ [.msix (s.region (s.effFdom x.region)).func (s.effFdvec x.region)] := by
      rw [State.effFdom_congr (s := s) (t := s.dropOldest rest) rfl, State.effFdvec_congr (s := s) (t := s.dropOldest rest) rfl]
      rfl
    rcases hexec with hexec | ⟨m, hexec⟩
    · refine ⟨_, hexec, ?_, ?_, ?_, fun k => ?_, hnotes.trans hdomain⟩
      · exact congrArg Ras.crMismatch hras
      · exact congrArg Ras.samples hras
      · exact congrArg Ras.elogSeq hras
      · rw [State.replayed_regs, hcores]
        rfl
    · refine ⟨_, hexec, ?_, ?_, ?_, fun k => ?_, hnotes.trans hdomain⟩
      · exact congrArg Ras.crMismatch hras
      · exact congrArg Ras.samples hras
      · exact congrArg Ras.elogSeq hras
      · rw [State.replayed_regs, State.replayed_regs, hcores]
        rfl
  · refine ⟨by simp [cruiseVerdict], by simp [cruiseVerdict], fun h => by simp [cruiseVerdict, h], fun h h' => by simp [cruiseVerdict, h, h']⟩
  · refine ⟨_, execCoreIdleZeroing_zeroes hp hon hc ht, ?_, ?_, fun k hk => State.modCore_core_ne _ _ hk, s.zeroScratch_byte n⟩
    · rw [State.modCore_core]
      rfl
    · rw [State.modCore_core]
      rfl
  · refine ⟨_, execStarvationPromotion_promotes hi hstate hrank hbound, rfl, ?_, rfl, rfl⟩
    exact congrArg Region.promoted ((State.region_modRegion _ _ _ _).trans (if_pos rfl))

end Sys2Proof.Machine
end

section
/-! SUPPORT for O45. The first instruction of a step: its registers, its mailbox, its core (R143, R145). -/

namespace Sys2Proof.Machine

/-- `t` is `s` but for memory and the RAS block. -/
def State.onlyBytes (s t : State) : Prop := ∃ m r, t = { s with mem := m, ras := r }

theorem State.onlyBytes.trans {s t u : State} (h : s.onlyBytes t) (h' : t.onlyBytes u) : s.onlyBytes u := by
  obtain ⟨m, r, rfl⟩ := h
  obtain ⟨m', r', rfl⟩ := h'
  exact ⟨m', r', rfl⟩

theorem State.carryPoison_onlyBytes (s : State) (dst : Nat) (runs : List (Nat × Nat)) : s.onlyBytes (s.carryPoison dst runs) :=
  foldl_keeps s.onlyBytes _ _ s ⟨s.mem, s.ras, rfl⟩ (fun t _ h => h.trans ⟨t.mem, _, rfl⟩)

theorem State.keepCarry_onlyBytes (s : State) (n : Fin 128) (l : List (Nat × Nat)) : s.onlyBytes (s.keepCarry n l) :=
  foldl_keeps s.onlyBytes _ _ _ ⟨_, _, rfl⟩ (fun t e h => (h.trans ⟨memWrite t.mem e.1 e.2.1, t.ras, rfl⟩).trans (State.carryPoison_onlyBytes _ _ _))

theorem physS_zero (r : Reg) : physS 0 r = r := by
  revert r
  decide

/-- The scalars of a step that begins (R145). -/
theorem startRegs_scalar (o : Operator) (t : Step) (r : Reg) : (startRegs o t).s[r] = if r = 1 then BitVec.ofNat 64 (fld o.opb 128 64) else if r = 2 then BitVec.ofNat 64 t.coord
    else if r = 3 then BitVec.ofNat 64 o.lpb else if r = 4 then BitVec.ofNat 64 o.fjpb else 0 := by
  fin_cases r <;> rfl

theorem Core.begin_scalar (c : Core) (o t ctx clock same carry reload) (r : Reg) : (c.begin o t ctx clock same carry reload).rdS .main r
    = if r = 1 then BitVec.ofNat 64 (fld o.opb 128 64) else if r = 2 then BitVec.ofNat 64 t.coord
      else if r = 3 then BitVec.ofNat 64 o.lpb else if r = 4 then BitVec.ofNat 64 o.fjpb else 0 := by
  have hphys : (c.begin o t ctx clock same carry reload).rdS .main r = (c.begin o t ctx clock same carry reload).phys (physS 0 r) := rfl
  have hread : (c.begin o t ctx clock same carry reload).phys r = if r.val = 0 then 0 else (startRegs o t).s[r] := rfl
  rw [hphys, physS_zero, hread, startRegs_scalar]
  by_cases hr : r = 0
  · subst hr
    rfl
  · exact if_neg (fun e => hr (Fin.ext e))

theorem Core.begin_predicate (c : Core) (o t ctx clock same carry reload) (g : Guard) : (c.begin o t ctx clock same carry reload).rdP .main g = decide (g = 0) := by
  have h : (c.begin o t ctx clock same carry reload).rdP .main g = if g.val = 0 then true else Regs.reset.p[physP 0 g] := rfl
  exact h.trans ((by decide : ∀ g : Guard, (if g.val = 0 then true else Regs.reset.p[physP 0 g]) = decide (g = 0)) g)

/-- GO is set (R143). -/
theorem mailbox_go (o : Operator) (t : Step) (carry resumed reload : Bool) : fld (mailbox o t carry resumed reload) 0 1 = 1 := by
  simp only [fld, bits, mailbox, BitVec.toNat_ofNat]
  omega

/-- A step that begins on its core (R143 to R145). -/
theorem execTileStepStart_begins {s : State} {n : Fin 128} {t : Step} {o : Operator} (hp : s.placedOn n = some (t, o)) (hr : s.recordOf t.stepid = none) :
    execTileStepStart n s = .next (s.beginStep n o t) := by
  simp only [execTileStepStart, hp, hr]
  rfl

theorem State.beginStep_core (s : State) (n : Fin 128) (o : Operator) (t : Step) : (s.beginStep n o t).cores[n]
    = s.cores[n].begin o t (s.ctxFor o t) (s.startClock n o t) (decide (s.cores[n].lastRegion = o.region)) (s.cores[n].carries o && t.attempt == 0) (!s.holdsAs o (s.ctxFor o t).asid n) := by
  unfold State.beginStep
  extract_lets c ctx carry reload s1
  obtain ⟨m, r, h⟩ : s.onlyBytes s1 := State.keepCarry_onlyBytes _ _ _
  have hc : s1.cores = s.cores := by rw [h]
  rw [State.modStep_cores, State.modCore_core, hc]

theorem State.beginStep_core_ne (s : State) {n k : Fin 128} (o : Operator) (t : Step) (hk : k ≠ n) : (s.beginStep n o t).cores[k] = s.cores[k] := by
  unfold State.beginStep
  extract_lets c ctx carry reload s1
  obtain ⟨m, r, h⟩ : s.onlyBytes s1 := State.keepCarry_onlyBytes _ _ _
  rw [State.modStep_cores, State.modCore_core_ne _ _ hk, h]

/-- The step is RUNNING. -/
theorem State.beginStep_running (s : State) (n : Fin 128) (o : Operator) (t : Step) : ∀ x ∈ (s.beginStep n o t).sched.steps, x.stepid = t.stepid → x.state = 2 := by
  intro x hx hid
  obtain ⟨y, -, rfl⟩ := List.mem_map.mp hx
  split at hid
  · next h => rw [if_pos h]
  · next h => exact absurd hid h

end Sys2Proof.Machine
end

section
/-! SUPPORT for O45. The overlay loader: instruction memory, the cache's range, patches (R144, R196, R299). -/

namespace Sys2Proof.Machine

/-! Instruction memory -/

theorem sget_eq_dflt {β : Type} (d : β) (m : Sparse β) (a : Nat) (h : ∀ e ∈ m, e.1 ≠ a) : sget d m a = d := by
  induction m with
  | nil => rfl
  | cons e m ih =>
    rw [sget, if_neg (h e List.mem_cons_self), ih (fun x hx => h x (List.mem_cons_of_mem _ hx))]

/-- Code words of which those that are not 0 are listed from a number on. -/
def imemFrom (ws : List Nat) (k : Nat) : Sparse W32 := ((ws.zipIdx k).filter (fun x => BitVec.ofNat 32 x.1 != 0)).map (fun x => (x.2, BitVec.ofNat 32 x.1))

theorem imemFrom_key (ws : List Nat) (k : Nat) : ∀ e ∈ imemFrom ws k, k ≤ e.1 := by
  intro e he
  obtain ⟨x, hx, rfl⟩ := List.mem_map.mp he
  exact List.le_snd_of_mem_zipIdx (List.mem_of_mem_filter hx)

theorem imemFrom_word (ws : List Nat) (k i w : Nat) (h : ws[i]? = some w) : sget 0 (imemFrom ws k) (k + i) = BitVec.ofNat 32 w := by
  induction ws generalizing k i with
  | nil => simp at h
  | cons x ws ih =>
    have hlast : sget 0 (imemFrom ws (k + 1)) k = 0 := sget_eq_dflt 0 _ k (fun e he => by have := imemFrom_key ws (k + 1) e he; omega)
    have hcons : imemFrom (x :: ws) k = if BitVec.ofNat 32 x != 0 then (k, BitVec.ofNat 32 x) :: imemFrom ws (k + 1) else imemFrom ws (k + 1) := by
      simp only [imemFrom, List.zipIdx_cons, List.filter_cons]
      split <;> rfl
    cases i with
    | zero =>
      obtain rfl : x = w := by simpa using h
      rw [hcons]
      split
      · exact if_pos (Nat.add_zero k).symm
      · next h0 =>
        have hx : BitVec.ofNat 32 x = 0 := by simpa using h0
        exact hlast.trans hx.symm
    | succ i =>
      have htail : sget 0 (imemFrom ws (k + 1)) (k + (i + 1)) = BitVec.ofNat 32 w := by
        rw [← ih (k + 1) i (by simpa using h)]
        congr 1
        omega
      rw [hcons]
      split
      · rw [sget, if_neg (by omega), htail]
      · exact htail

/-- What a core is after its loader is done (R144). -/
theorem Core.loaded_word (c : Core) (o : Operator) (b : List Byte) (bad : List (Nat × Nat)) (i w : Nat) (h : (o.patches.foldl applyPatch (wordsOf b))[i]? = some w) :
    (c.loaded o b bad).word i = BitVec.ofNat 32 w := by
  have hw := imemFrom_word _ 0 i w h
  rwa [Nat.zero_add] at hw

/-! The cache's range -/

theorem placeIn_fits {l : List (Nat × Nat)} {k limit a : Nat} (h : placeIn l k limit = some a) : a + k ≤ limit := by
  have := List.find?_some h
  simp only [Bool.and_eq_true, decide_eq_true_eq] at this
  exact this.1

theorem cachePlace_fits {size len fuel off : Nat} {l m : List Cached} (h : cachePlace size len fuel l = some (off, m)) : off + len ≤ size := by
  induction fuel generalizing l with
  | zero => cases h
  | succ k ih =>
    unfold cachePlace at h
    split at h
    · next a ha =>
      obtain ⟨rfl, -⟩ := Prod.mk.inj (Option.some.inj h)
      exact placeIn_fits ha
    · exact ih h

/-- An image that enters the cache changes the cores not at all, and memory in the cache's range alone, unless a refusal is recorded (R57, R196). -/
theorem State.cacheImage_leaves (s : State) (n : Fin 128) (asid addr : Nat) (b : List Byte) : (s.cacheImage n asid addr b).cores = s.cores
    ∧ ((s.cacheImage n asid addr b).ras.elogSeq = s.ras.elogSeq → ∀ a, a < Config.landingBase + s.board.blob.cacheBase ∨ Config.landingBase + s.board.blob.cacheBase + s.cacheSize ≤ a →
      sget Memory.dflt (s.cacheImage n asid addr b).mem a = sget Memory.dflt s.mem a) := by
  unfold State.cacheImage
  extract_lets l
  split
  · exact ⟨rfl, fun _ _ _ => rfl⟩
  next off l' hplace =>
    extract_lets e
    have hfits := cachePlace_fits hplace
    split
    · next t _ =>
      refine ⟨s.logAccess_cores _ _ _ _, fun hseq => ?_⟩
      obtain ⟨hlog, -⟩ := s.logAccess_kept n.val 2 (s.cachePa e) t
      rw [hlog] at hseq
      exact absurd hseq (by bv_omega)
    · refine ⟨rfl, fun _ a ha => sget_memWrite_ne b s.mem _ a ?_⟩
      have hpa : s.cachePa e = Config.landingBase + s.board.blob.cacheBase + off := rfl
      rw [hpa]
      omega

/-! The loader -/

theorem State.onlyAts.trans {s t u : State} (h : s.onlyAts t) (h' : t.onlyAts u) : s.onlyAts u := by
  obtain ⟨l, m, rfl⟩ := h
  obtain ⟨l', m', rfl⟩ := h'
  exact ⟨l', m', rfl⟩

/-- A loader that goes to the cache for a core (R144). -/
theorem execOverlayLoad_cached {s : State} {n : Fin 128} {t : Step} {o : Operator} {e : Cached} (hp : s.cores[n].phase = .starting) (hl : s.cores[n].loading = true)
    (hd : s.cores[n].trap.detected = none) (ht : s.stepOn n = some t) (ho : s.opAt t.op = some o)
    (hc : s.sched.images.find? (fun e => decide (e.asid = s.cores[n].ctx.asid) && decide (e.addr = o.image)) = some e) (hr : s.refusal (coreMaster n) 1 (s.cachePa e) e.len = none) :
    execOverlayLoad n s = .next (((s.touchImage e).logImage n [{ pa := s.cachePa e, len := e.len, ordinary := false }]).modCore n
      (fun k => k.loaded o (readPieces s.mem [{ pa := s.cachePa e, len := e.len, ordinary := false }]) (s.badWords 0 [{ pa := s.cachePa e, len := e.len, ordinary := false }]))) := by
  unfold execOverlayLoad
  simp only [hp, hl, hd, ht, Option.bind_some, ho, hc, hr]
  rfl

theorem execOverlayLoad_uncached {s : State} {n : Fin 128} {t : Step} {o : Operator} (hp : s.cores[n].phase = .starting) (hl : s.cores[n].loading = true)
    (hd : s.cores[n].trap.detected = none) (ht : s.stepOn n = some t) (ho : s.opAt t.op = some o)
    (hc : s.sched.images.find? (fun e => decide (e.asid = s.cores[n].ctx.asid) && decide (e.addr = o.image)) = none) : execOverlayLoad n s = .next (s.loadImage n o) := by
  unfold execOverlayLoad
  simp only [hp, hl, hd, ht, Option.bind_some, ho, hc]
  rfl

/-- A readable image without poison: the core is loaded, and the image enters the cache (R144, R196). -/
theorem State.loadImage_reads {s : State} {n : Fin 128} {o : Operator} {b : List Byte} {ps : List Piece} (hb : s.loadBytes n (o.image + 64) (4 * hdrNcode o.hdr) = .ok (b, ps))
    (hw : s.badWords o.image ps = []) (hp : s.badPa ps = none) :
    ∃ v, s.onlyAts v ∧ s.loadImage n o = (v.modCore n (fun k => k.loaded o b [])).cacheImage n s.cores[n].ctx.asid o.image b := by
  have hv : s.onlyAts (ps.foldl (fun s p => s.coreOut n p.pa p.len false) s) := foldl_keeps s.onlyAts _ _ s (.refl s) (fun t p h => h.trans (State.sendOut_onlyAts _ _ _ _ _ _))
  refine ⟨_, hv, ?_⟩
  have hlog : (ps.foldl (fun s p => s.coreOut n p.pa p.len false) s).logImage n ps = ps.foldl (fun s p => s.coreOut n p.pa p.len false) s := by
    have hbad : (ps.foldl (fun s p => s.coreOut n p.pa p.len false) s).badPa ps = none := by
      obtain ⟨l, m, h⟩ := hv
      rw [h]
      exact hp
    simp only [State.logImage, hbad]
  simp only [State.loadImage, hb, hw, hlog]
  rfl

/-! Patches (R299) -/

/-- A number of three fields: the low `lo` bits, `n` bits, the rest. -/
theorem fields_of_sum {a x h lo n : Nat} (ha : a < 2 ^ lo) (hx : x < 2 ^ n) : bits (a + 2 ^ lo * (x + 2 ^ n * h)) lo n = x ∧ bits (a + 2 ^ lo * (x + 2 ^ n * h)) 0 lo = a
    ∧ (a + 2 ^ lo * (x + 2 ^ n * h)) / 2 ^ (lo + n) = h := by
  have hlo : (a + 2 ^ lo * (x + 2 ^ n * h)) / 2 ^ lo = x + 2 ^ n * h := by
    rw [Nat.add_mul_div_left _ _ (Nat.two_pow_pos lo), Nat.div_eq_of_lt ha, Nat.zero_add]
  refine ⟨?_, ?_, ?_⟩
  · rw [bits, hlo, Nat.add_mul_mod_self_left, Nat.mod_eq_of_lt hx]
  · rw [bits, Nat.pow_zero, Nat.div_one, Nat.add_mul_mod_self_left, Nat.mod_eq_of_lt ha]
  · rw [Nat.pow_add, ← Nat.div_div_eq_div_mul, hlo, Nat.add_mul_div_left _ _ (Nat.two_pow_pos n), Nat.div_eq_of_lt hx, Nat.zero_add]

/-- A word as the sum of its three fields. -/
theorem eq_fields (w lo n : Nat) : w = w % 2 ^ lo + 2 ^ lo * (bits w lo n + 2 ^ n * (w / 2 ^ (lo + n))) := by
  rw [bits, Nat.pow_add, ← Nat.div_div_eq_div_mul, Nat.mod_add_div, Nat.mod_add_div]

/-- A field that is replaced holds the value modulo its width, and the word's other bits stand. -/
theorem setW_fields (w lo n : Nat) (v : Int) :
    (bits (setW w lo n v) lo n : Int) = v % 2 ^ n ∧ bits (setW w lo n v) 0 lo = bits w 0 lo ∧ setW w lo n v / 2 ^ (lo + n) = w / 2 ^ (lo + n) := by
  have hpos : (0 : Int) < 2 ^ n := by positivity
  have hv : (lowBits n v : Int) = v % 2 ^ n := Int.toNat_of_nonneg (Int.emod_nonneg _ hpos.ne')
  have hlt : lowBits n v < 2 ^ n := by
    have := Int.emod_lt_of_pos v hpos
    rw [← hv] at this
    exact_mod_cast this
  have hset : setW w lo n v = w % 2 ^ lo + 2 ^ lo * (lowBits n v + 2 ^ n * (w / 2 ^ (lo + n))) := by
    have hw := eq_fields w lo n
    rw [Nat.mul_add] at hw
    rw [setW, Nat.mul_add, Nat.mul_comm _ (2 ^ lo), Nat.mul_comm _ (2 ^ lo)]
    omega
  obtain ⟨h1, h2, h3⟩ := fields_of_sum (h := w / 2 ^ (lo + n)) (Nat.mod_lt w (Nat.two_pow_pos lo)) hlt
  rw [hset, h1, h2, h3]
  exact ⟨hv, by rw [bits, Nat.pow_zero, Nat.div_one], rfl⟩

/-- A patch of one word leaves every other word. -/
theorem applyPatch_ne (ws : List Nat) (i k j : Nat) (v : Int) (h : j ≠ i) (h' : j ≠ i + 1) : (applyPatch ws (i, k, v))[j]? = ws[j]? := by
  unfold applyPatch
  dsimp only
  split <;> simp [h.symm, h'.symm]

/-- A patch of kind 1, 2, 3 or 7 puts its value in the field that its kind names (R299). -/
theorem applyPatch_field (ws : List Nat) (i w : Nat) (v : Int) (hw : ws[i]? = some w) {k lo n : Nat} (hk : (k, lo, n) ∈ [(1, 0, 9), (2, 0, 9), (3, 0, 14), (7, 18, 4)]) :
    (applyPatch ws (i, k, v))[i]? = some (setW w lo n v) := by
  simp only [List.mem_cons, Prod.mk.injEq, List.not_mem_nil, or_false] at hk
  rcases hk with ⟨rfl, rfl, rfl⟩ | ⟨rfl, rfl, rfl⟩ | ⟨rfl, rfl, rfl⟩ | ⟨rfl, rfl, rfl⟩ <;> simp [applyPatch, hw]

end Sys2Proof.Machine
end

section
/-! O45: steps begin with their image. -/

namespace Sys2Proof.Machine

/-- Settles O45: a start writes the core as R145 says; the loader's words are read back from instruction memory, and the cache's places lie in its range; a patched word is
the sum of its three fields. -/
theorem stepsBeginWithTheirImage : Obligations.StepsBeginWithTheirImage := by
  refine ⟨fun s n t o hp hr => ?_, fun s n t o hp hl hd ht ho => ⟨fun e hc hr hbad => ?_, fun b ps hc hb hw hbad => ?_⟩,
    fun ws i w v hw => ⟨fun k lo m hk => ⟨_, applyPatch_field ws i w v hw hk, setW_fields w lo m v⟩, fun k j h h' => applyPatch_ne ws i k j v h h'⟩⟩
  · refine ⟨_, execTileStepStart_begins hp hr, ?_⟩
    rw [State.beginStep_core]
    have hphase : ∀ b : Bool, (if (!b) = true then Phase.starting else Phase.running) = if b = true then Phase.running else Phase.starting := by decide
    exact ⟨hphase _, rfl, rfl, rfl, fun r => Core.begin_scalar .., fun g => Core.begin_predicate .., rfl, rfl, rfl, rfl, rfl, rfl, rfl, Nat.le_max_right _ _, rfl,
      mailbox_go .., s.beginStep_running n o t, fun k hk => s.beginStep_core_ne o t hk⟩
  · refine ⟨_, execOverlayLoad_cached hp hl hd ht ho hc hr, ?_⟩
    have hlog : (s.touchImage e).logImage n [{ pa := s.cachePa e, len := e.len, ordinary := false }] = s.touchImage e := by
      have hbad' : (s.touchImage e).badPa [{ pa := s.cachePa e, len := e.len, ordinary := false }] = none := hbad
      simp only [State.logImage, hbad']
    have hread : readPieces s.mem [{ pa := s.cachePa e, len := e.len, ordinary := false }] = memRead s.mem (s.cachePa e) e.len := List.append_nil _
    rw [hlog, hread]
    refine ⟨⟨?_, ?_, ?_, fun i w hi => ?_⟩, rfl⟩ <;> rw [State.modCore_core]
    · rfl
    · rfl
    · rfl
    · exact Core.loaded_word _ o _ _ i w hi
  · obtain ⟨x, ⟨l, m, rfl⟩, hload⟩ := State.loadImage_reads hb hw hbad
    refine ⟨_, execOverlayLoad_uncached hp hl hd ht ho hc, ?_⟩
    rw [hload]
    obtain ⟨hcores, hmem⟩ := State.cacheImage_leaves (State.modCore { s with trans := { s.trans with ats := l }, notes := m } n (fun k => k.loaded o b [])) n s.cores[n].ctx.asid o.image b
    refine ⟨⟨?_, ?_, ?_, fun i w hi => ?_⟩, hmem⟩ <;> rw [hcores, State.modCore_core]
    · rfl
    · rfl
    · rfl
    · exact Core.loaded_word _ o _ _ i w hi

end Sys2Proof.Machine
end

section
/-! SUPPORT for O48. What the scrubber finds, and what an eviction leaves of a crew cache (R156, R163, R192). -/

namespace Sys2Proof.Machine

theorem State.scrubLog_ras (s : State) (pa cls d0 d1 : Nat) (x : Option Nat) : (s.scrubLog pa cls d0 d1 x).ras = { s.ras with elogSeq := s.ras.elogSeq + 1 } :=
  State.log_ras _ _

theorem State.scrubLog_usableTop (s : State) (pa cls d0 d1 : Nat) (x : Option Nat) : (s.scrubLog pa cls d0 d1 x).usableTop = s.usableTop := by
  obtain ⟨l, d, h⟩ := State.log_board { s with fresh := s.fresh + 1 }
    { cls := cls, addr := pa, data0 := d0, data1 := d1, companion := x.getD (fld (Config.freeW64 s.fresh) 0 8), master := scrubMaster,
      target := (s.targetOf pa).getD 0, unit := if scrubSram pa then bits pa 7 4 else channelOf pa }
  simp only [State.usableTop, State.scrubLog, h]

theorem State.passed_ras (s : State) (a : Nat) :
    (s.passed a).ras = { s.ras with scrubPass := s.ras.scrubPass + (if a + 128 = s.usableTop then 1 else 0) } := by
  unfold State.passed
  split
  · rfl
  · simp

theorem State.passed_cores (s : State) (a : Nat) : (s.passed a).cores = s.cores := by
  unfold State.passed
  split <;> rfl

/-- The scrubber may read the line of an address, and has no write-back under way. -/
structure State.ScrubReady (s : State) (pa : Nat) : Prop where
  covered : s.scrubs (pa / 128 * 128) = true
  enabled : fld s.ras.scrubCtl 16 1 = 1
  booted : 6 ≤ s.board.bootStep
  idle : s.ras.scrubbing = none
  sound : s.fab.badDirty = []
  allowed : s.scrubRefusal 1 (pa / 128 * 128) = none

theorem State.settleScrub_idle {s : State} (h : s.ras.scrubbing = none) : s.settleScrub = s := by
  unfold State.settleScrub
  rw [h]

/-- A line that the scrubber reads without error leaves the count of passes alone. -/
theorem execScrubLine_clean {s : State} {pa : Nat} (h : s.ScrubReady pa) : execScrubLine pa .clean s = .next (s.passed (pa / 128 * 128)) := by
  unfold execScrubLine
  simp [State.settleScrub_idle h.idle, h.covered, h.enabled, h.sound, State.scrubAsk, h.allowed, Nat.not_lt.mpr h.booted]

/-- An uncorrectable line is logged, and its write-back set out. -/
theorem execScrubLine_uncorrectable {s : State} {pa : Nat} (h : s.ScrubReady pa) (y : W64) : ∃ cls x, execScrubLine pa (.uncorrectable y) s
    = .next (((s.scrubLog (pa / 128 * 128) cls y.toNat (arrayOffset (pa / 128 * 128)) x).scrubPoison (pa / 128 * 128)).passed (pa / 128 * 128)) := by
  refine ⟨if scrubSram (pa / 128 * 128) then 5 else 2, if scrubSram (pa / 128 * 128) then none else some 1, ?_⟩
  unfold execScrubLine
  simp [State.settleScrub_idle h.idle, h.covered, h.enabled, h.sound, State.scrubAsk, h.allowed, Nat.not_lt.mpr h.booted]

theorem foldl_fab {α : Type} (f : State → α → State) (hf : ∀ s x, (f s x).fab = s.fab) (l : List α) (s : State) : (l.foldl f s).fab = s.fab :=
  foldl_keeps (fun t : State => t.fab = s.fab) f l s rfl (fun t x ht => (hf t x).trans ht)

theorem State.logRead_fab (s : State) (m pa id r how : Nat) : (s.logRead m pa id r how).fab = s.fab := State.log_fab _ _

/-- A write-back takes the line from its crew's cache, and no other. -/
theorem State.writeBack_dirty (s : State) (crew line m : Nat) : (s.writeBack crew line m).fab.dirty = s.fab.dirty.filter (fun d => !(d.crew == crew && d.line == line)) := by
  unfold State.writeBack
  split
  · next h =>
    rw [List.find?_eq_none] at h
    exact (List.filter_eq_self.mpr (fun d hd => by simpa [imp_iff_not_or] using h d hd)).symm
  · extract_lets s1
    split
    · rw [State.log_fab]
      rfl
    · rw [foldl_fab _ (fun s pa => s.logRead_fab _ _ _ _ _)]

/-- Poison set from the start of a line reaches its first granule. -/
theorem State.setPoison_line (s : State) (line len : Nat) (hl : 0 < len) : line * 128 / 32 ∈ (s.setPoison (line * 128) len).ras.poison := by
  have hg : granSize (line * 128) = 64 ∨ granSize (line * 128) = 32 := by
    unfold granSize
    split
    · exact .inl rfl
    · exact .inr rfl
  have hin : line * 128 / 32 ∈ (List.range ((line * 128 + len + granSize (line * 128) - 1) / granSize (line * 128) * granSize (line * 128) / 32
      - line * 128 / granSize (line * 128) * granSize (line * 128) / 32)).map (· + line * 128 / granSize (line * 128) * granSize (line * 128) / 32) := by
    refine List.mem_map.mpr ⟨0, List.mem_range.mpr ?_, ?_⟩
    · rcases hg with hg | hg <;> rw [hg] <;> omega
    · rcases hg with hg | hg <;> rw [hg] <;> omega
  by_cases hp : line * 128 / 32 ∈ s.ras.poison
  · exact List.mem_append_left _ hp
  · exact List.mem_append_right _ (List.mem_filter.mpr ⟨hin, by simpa using hp⟩)

theorem State.poisoned_of_mem {s : State} {pa len : Nat} (h : pa / 32 ∈ s.ras.poison) : s.poisoned pa len = true := by
  refine List.any_eq_true.mpr ⟨0, List.mem_range.mpr (Nat.succ_pos _), ?_⟩
  rw [Nat.add_zero, Bool.or_eq_true]
  exact .inl (List.contains_iff_mem.mpr h)

/-- The write-back of an orphan leaves it poisoned, and makes one record (R163). -/
theorem State.writeBack_orphan {s : State} {crew line : Nat} (hd : ∃ d ∈ s.fab.dirty, d.crew = crew ∧ d.line = line) (hb : line ∈ s.fab.badDirty) (m : Nat) :
    (s.writeBack crew line m).poisoned (line * 128) 128 = true ∧ (s.writeBack crew line m).ras.elogSeq = s.ras.elogSeq + 1 := by
  unfold State.writeBack
  split
  · next h =>
    obtain ⟨d, hd, rfl, rfl⟩ := hd
    exact absurd (List.find?_eq_none.mp h d hd) (by simp)
  · dsimp only
    rw [if_pos (List.contains_iff_mem.mpr hb)]
    refine ⟨State.poisoned_of_mem ?_, by rw [State.log_ras]; rfl⟩
    rw [State.log_ras]
    exact State.setPoison_line _ line 128 (by decide)

end Sys2Proof.Machine
end

section
/-! SUPPORT for O48. The clocks at a horizon moment (R202). -/

namespace Sys2Proof.Machine

theorem le_foldl_max {α : Type} (f : α → Nat) (l : List α) (m : Nat) : m ≤ l.foldl (fun m x => max m (f x)) m ∧ ∀ x ∈ l, f x ≤ l.foldl (fun m x => max m (f x)) m := by
  induction l generalizing m with
  | nil => exact ⟨Nat.le_refl m, fun _ h => nomatch h⟩
  | cons y l ih =>
    obtain ⟨hm, hl⟩ := ih (max m (f y))
    refine ⟨(Nat.le_max_left ..).trans hm, fun x hx => ?_⟩
    rcases List.mem_cons.mp hx with rfl | hx
    · exact (Nat.le_max_right ..).trans hm
    · exact hl x hx

theorem clock_le_greatest (v : Vector Core 128) (c : Fin 128) : v[c].mem.clock ≤ v.foldl (fun m c => max m c.mem.clock) 0 := by
  rw [← Vector.foldl_toList]
  exact (le_foldl_max (fun c : Core => c.mem.clock) v.toList 0).2 _ (by simp)

/-- Raising the values at some keys to a bound. -/
theorem sget_foldl_raise (h : Nat) (l : List Nat) (e : Sparse Nat) (k : Nat) :
    sget 0 (l.foldl (fun e k => sset 0 e k (max (sget 0 e k) h)) e) k = if k ∈ l then max (sget 0 e k) h else sget 0 e k := by
  induction l generalizing e with
  | nil => rfl
  | cons x l ih =>
    rw [List.foldl_cons, ih, sget_sset]
    by_cases hx : k = x
    · subst hx
      simp
    · simp [hx]

/-- The machine after a horizon moment, with the agents of other kinds listed by their keys. -/
def State.atHorizon (s : State) (agents : List Nat) : State :=
  { s with
    cores := s.cores.map (fun c => { c with mem := { c.mem with clock := max (c.mem.clock + 1) s.fab.horizon } }),
    fab := { s.fab with horizon := s.cores.foldl (fun m c => max m c.mem.clock) 0,
                        eclock := agents.foldl (fun e k => sset 0 e k (max (sget 0 e k) s.fab.horizon)) s.fab.eclock } }

theorem execClockHorizonAdvance_moves (s : State) : execClockHorizonAdvance s = .next (s.atHorizon (List.range 1040)) := rfl

theorem State.atHorizon_core (s : State) (agents : List Nat) (c : Fin 128) :
    (s.atHorizon agents).cores[c] = { s.cores[c] with mem := { s.cores[c].mem with clock := max (s.cores[c].mem.clock + 1) s.fab.horizon } } := by
  simp [State.atHorizon]

theorem State.atHorizon_fab (s : State) (agents : List Nat) : (s.atHorizon agents).fab.wts = s.fab.wts ∧ (s.atHorizon agents).fab.rts = s.fab.rts
    ∧ (s.atHorizon agents).fab.horizon = s.cores.foldl (fun m c => max m c.mem.clock) 0 := ⟨rfl, rfl, rfl⟩

theorem State.atHorizon_eclock (s : State) {agents : List Nat} {k : Nat} (hk : k ∈ agents) :
    sget 0 (s.atHorizon agents).fab.eclock k = max (sget 0 s.fab.eclock k) s.fab.horizon :=
  (sget_foldl_raise s.fab.horizon agents s.fab.eclock k).trans (if_pos hk)

end Sys2Proof.Machine
end

section
/-! SUPPORT for O48. A scoped write in flight performs: what it leaves in memory, in the cores and in the list of writes (R155, R207). -/

namespace Sys2Proof.Machine

/-- What leaves through a port changes no byte of memory. -/
theorem State.Wrote.send {s u : State} {m : Memory} (h : s.Wrote u m) (func asid pa len : Nat) (write : Bool) : s.Wrote (u.sendOut func asid pa len write) m := by
  obtain ⟨l, n, hu⟩ := u.sendOut_onlyAts func asid pa len write
  rw [hu]
  exact ⟨h.mem, h.cores, h.clean⟩

/-- A write of any agent, an engine of a core among them (R201, R207). -/
theorem State.performScoped_leaves {s : State} (hs : s.clean) (agent pa : Nat) (b : List Byte) : s.Wrote (s.performScoped agent pa b).1 (memWrite s.mem pa b) := by
  have h0 := (foldl_onlyCaches _ (fun t x ht => State.recallLine_clean (s := t) ht x (agentMaster agent)) (linesOf pa b.length) s hs).wrote hs
  unfold State.performScoped
  dsimp only
  generalize (linesOf pa b.length).foldl (fun s x => s.recallLine x (agentMaster agent)) s = s0 at h0 ⊢
  have h1 (e : Sparse Nat) : s.Wrote { s0.writeBytes pa b with
      fab := { (s0.fab.stampLines (linesOf pa b.length) (sget 0 s0.fab.eclock agent)).1 with eclock := e } } (memWrite s.mem pa b) :=
    ⟨by rw [← h0.mem]; rfl, h0.cores, (State.stored_writeBytes h0.clean pa b).clean.1, (Fabric.stampLines_badDirty _ _ _).trans h0.clean.2⟩
  split
  · exact (h1 _).send _ _ _ _ _
  · exact h1 _

theorem State.Wrote.performMore {s u : State} {m : Memory} (h : s.Wrote u m) (agent w : Nat) (l : List (Nat × List Byte)) :
    s.Wrote (l.foldl (fun (a : State × Nat) r => a.1.performScoped agent r.1 r.2) (u, w)).1 (storedRuns m l) := by
  induction l generalizing u m w with
  | nil => exact h
  | cons r l ih =>
    have h1 := State.performScoped_leaves h.clean agent r.1 r.2
    rw [h.mem] at h1
    exact ih (h.trans h1) _

theorem State.Wrote.carry {s u : State} {m : Memory} (h : s.Wrote u m) (pa len : Nat) (l : List Release) : s.Wrote (u.carryRels pa len l) m := by
  have h1 := State.carryRels_wrote h.clean pa len l
  rw [h.mem] at h1
  exact h.trans h1

/-- A write in flight and those whose operands it holds, where nothing is poisoned: the bytes of its runs (R207, R214). -/
theorem State.performJoined_wrote {s : State} (hs : s.clean) (i : Nat) (x : InFlight) :
    s.Wrote (s.performJoined i x) (storedRuns (memWrite s.mem x.pa (x.result s.mem)) x.more) := by
  have h1 := (State.performScoped_leaves hs (eclockKey x.core 6) x.pa (x.result s.mem)).performMore (eclockKey x.core 6) (s.performScoped (eclockKey x.core 6) x.pa (x.result s.mem)).2 x.more
  have h2 := foldl_keeps (fun u => s.Wrote u (storedRuns (memWrite s.mem x.pa (x.result s.mem)) x.more)) _ x.more _
    (h1.carry x.pa x.data.length s.cores[x.core].mem.fences[x.strand.slot]) (fun u r hu => hu.carry r.1 r.2.length s.cores[x.core].mem.fences[x.strand.slot])
  have h3 := foldl_keeps (fun u => s.Wrote u (storedRuns (memWrite s.mem x.pa (x.result s.mem)) x.more)) _ x.joined _ h2
    (fun u k hu => hu.carry x.pa x.data.length u.cores[k.core].mem.fences[k.strand.slot])
  exact ⟨h3.mem, h3.cores, h3.clean⟩

/-- A write of data is never blocked, and counts for no rollback. -/
theorem State.performInFlight_data {s : State} {i : Nat} {x : InFlight} (hx : s.fab.inflight[i]? = some x) (hp : ¬ x.performed = true) (hop : x.op = .data) :
    s.performInFlight i = (s.performJoined i x).clearCovered ((s.performJoined i x).wordRuns x) := by
  have hb : x.blocked s = false := by simp [InFlight.blocked, hop]
  unfold State.performInFlight
  rw [hx]
  simp only [if_neg hp, hb, Bool.false_eq_true, if_false]
  split
  · rfl
  · next h => exact absurd hop h

theorem State.noteOnce_regs (s : State) (y : InFlight) (c : Fin 128) : (s.noteOnce y).cores[c].regs = s.cores[c].regs := by
  unfold State.noteOnce
  by_cases h : c = y.core
  · subst h
    rw [State.modCore_core, Core.notePoint_regs]
  · rw [State.modCore_core_ne _ _ h]

/-- What the performing of a write that is not blocked leaves, where nothing is poisoned: its bytes, and every register. -/
theorem State.performInFlight_leaves {s : State} {i : Nat} {x : InFlight} (hs : s.clean) (hx : s.fab.inflight[i]? = some x) (hp : ¬ x.performed = true)
    (hb : ¬ x.blocked s = true) : (s.performInFlight i).mem = storedRuns (memWrite s.mem x.pa (x.result s.mem)) x.more
      ∧ ∀ c : Fin 128, (s.performInFlight i).cores[c].regs = s.cores[c].regs := by
  have hj := State.performJoined_wrote hs i x
  rcases State.performInFlight_performs hx hp hb with h | h
  · rw [h]
    exact ⟨hj.mem, fun c => by rw [← hj.cores]; rfl⟩
  · rw [h]
    exact foldl_keeps (fun u : State => u.mem = _ ∧ ∀ c : Fin 128, u.cores[c].regs = s.cores[c].regs) _ _ _ ⟨hj.mem, fun c => by rw [hj.cores]⟩
      (fun u y hu => ⟨hu.1, fun c => (u.noteOnce_regs y c).trans (hu.2 c)⟩)

theorem State.performJoined_duties (s : State) (i : Nat) (x : InFlight) : ∃ u : State, s.performJoined i x = u.markDone i x (s.performBytes x).2 ∧ u.duties = s.duties :=
  ⟨_, rfl, (foldl_duties _ (fun s _ => s.carryRels_duties _ _ _) _ _).trans (s.performBytes_duties x)⟩

/-- The write at its place in the list, done. -/
theorem State.markDone_at {s u : State} {i : Nat} {x : InFlight} (h : u.fab.inflight = s.fab.inflight) (hx : s.fab.inflight[i]? = some x) (w : Nat) :
    (u.markDone i x w).fab.inflight[i]? = some { x with performed := true, stamp := w, joined := [] } := by
  obtain ⟨hi, -⟩ := List.getElem?_eq_some_iff.mp hx
  have hlen : i < u.fab.inflight.length := by rw [h]; exact hi
  refine (List.getElem?_append_left (by rw [setAt, List.length_set]; exact hlen)).trans ?_
  exact List.getElem?_set_self hlen

theorem State.blockedAt_fab (s : State) (y : InFlight) : (s.blockedAt y).fab = s.fab := by
  rw [State.blockedAt, State.modCore_fab]
  exact State.logRead_fab ..

/-- However a write in flight performs, it stands in its place afterwards, performed, with its address and its bytes. -/
theorem State.performInFlight_at {s : State} {i : Nat} {x : InFlight} (hx : s.fab.inflight[i]? = some x) (hp : ¬ x.performed = true) :
    ∃ y, (s.performInFlight i).fab.inflight[i]? = some y ∧ y.performed = true ∧ y.pa = x.pa ∧ y.data = x.data := by
  have hdone : ∃ (u : State) (w : Nat), (s.performInFlight i).fab = (u.markDone i x w).fab ∧ u.fab.inflight = s.fab.inflight := by
    by_cases hb : x.blocked s = true
    · rw [State.performInFlight_blocked hx hp hb]
      exact ⟨_, 0, rfl, congrArg Fabric.inflight (foldl_fab _ State.blockedAt_fab _ s)⟩
    · obtain ⟨u, hu, hd⟩ := s.performJoined_duties i x
      refine ⟨u, (s.performBytes x).2, ?_, congrArg (fun d => d.2.2.2) hd⟩
      rw [← hu]
      rcases State.performInFlight_performs hx hp hb with h | h
      · rw [h]
        rfl
      · rw [h]
        exact foldl_fab State.noteOnce (fun _ _ => rfl) _ _
  obtain ⟨u, w, hfab, hu⟩ := hdone
  exact ⟨{ x with performed := true, stamp := w, joined := [] }, by rw [hfab]; exact State.markDone_at hu hx w, rfl, rfl, rfl⟩

theorem Core.metUe_isSome (c : Core) : c.metUe.isSome = c.poison.any (fun t => t.file == tagUe) := by
  rw [Core.metUe, Option.isSome_map, List.isSome_find?]

theorem Core.metUe_meet (c : Core) (po : Nat) (st : Strand) : (c.meet po st).metUe.isSome = true := by
  rw [Core.metUe_isSome]
  unfold Core.meet
  split
  · next h => exact h
  · simp

theorem State.blockedAt_core_ne (s : State) (y : InFlight) {n : Fin 128} (h : n ≠ y.core) : (s.blockedAt y).cores[n] = s.cores[n] := by
  rw [State.blockedAt, State.modCore_core_ne _ _ h, State.logDemand, State.logRead, State.log_cores]

/-- The core of a blocked operation has met the error, and no core forgets one that it has met (R155). -/
theorem State.blockedAt_metUe (s : State) (y : InFlight) (n : Fin 128) (h : y.core = n ∨ s.cores[n].metUe.isSome = true) : (s.blockedAt y).cores[n].metUe.isSome = true := by
  by_cases hn : y.core = n
  · subst hn
    rw [State.blockedAt, State.modCore_core]
    exact Core.metUe_meet _ _ _
  · rw [s.blockedAt_core_ne y (Ne.symm hn)]
    exact h.resolve_left hn

/-- `t` has the error log where `s` has it, and every byte outside it as `s` has it. -/
structure State.OnlyLogged (s t : State) : Prop where
  base : t.ras.elogBase = s.ras.elogBase
  size : t.ras.elogLog2 = s.ras.elogLog2
  byte : ∀ a, a < s.ras.elogBase ∨ s.ras.elogBase + 64 * 2 ^ s.ras.elogLog2 ≤ a → sget Memory.dflt t.mem a = sget Memory.dflt s.mem a

theorem State.OnlyLogged.trans {s t u : State} (h : s.OnlyLogged t) (h' : t.OnlyLogged u) : s.OnlyLogged u :=
  ⟨h'.base.trans h.base, h'.size.trans h.size, fun a ha => (h'.byte a (by rw [h.base, h.size]; exact ha)).trans (h.byte a ha)⟩

/-- A record lies in the ring of the error log (R158). -/
theorem State.log_onlyLogged (s : State) (r : LogRec) : s.OnlyLogged (s.log r) := by
  refine ⟨by rw [State.log_ras], by rw [State.log_ras], fun a ha => ?_⟩
  rw [State.log_mem]
  have hseq := Nat.mod_lt s.ras.elogSeq.toNat (Nat.two_pow_pos s.ras.elogLog2)
  exact sget_memWrite_ne _ _ _ _ (by rw [natLe_length]; omega)

theorem State.logRead_onlyLogged (s : State) (m pa id r how : Nat) : s.OnlyLogged (s.logRead m pa id r how) :=
  have h (x : LogRec) := State.log_onlyLogged { s with fresh := s.fresh + 3 } x
  ⟨(h _).base, (h _).size, (h _).byte⟩

theorem State.blockedAt_onlyLogged (s : State) (y : InFlight) : s.OnlyLogged (s.blockedAt y) :=
  have h := s.logRead_onlyLogged y.core.val y.pa s.cores[y.core].sys.stepid.toNat s.cores[y.core].ctx.region 2
  ⟨h.base, h.size, h.byte⟩

/-- What a blocked operation leaves: its core has met the error, and memory has changed in the error log alone (R155). -/
theorem State.performInFlight_meets {s : State} {i : Nat} {x : InFlight} (hx : s.fab.inflight[i]? = some x) (hp : ¬ x.performed = true) (hb : x.blocked s = true) :
    (s.performInFlight i).cores[x.core].metUe.isSome = true ∧ (x.joined = [] → ∀ c : Fin 128, c ≠ x.core → (s.performInFlight i).cores[c] = s.cores[c])
      ∧ s.OnlyLogged (s.performInFlight i) := by
  rw [State.performInFlight_blocked hx hp hb]
  refine ⟨?_, fun hj c hc => ?_, ?_⟩
  · exact foldl_keeps (fun u : State => u.cores[x.core].metUe.isSome = true) State.blockedAt x.others (s.blockedAt x) (s.blockedAt_metUe x x.core (.inl rfl)) (fun u y hu => u.blockedAt_metUe y x.core (.inr hu))
  · have hothers : x.others = [] := by rw [InFlight.others, hj, List.map_nil]
    rw [hothers]
    exact s.blockedAt_core_ne x hc
  · have h := foldl_keeps s.OnlyLogged State.blockedAt (x :: x.others) s ⟨rfl, rfl, fun _ _ => rfl⟩ (fun u y hu => hu.trans (u.blockedAt_onlyLogged y))
    exact ⟨h.base, h.size, h.byte⟩

theorem State.mayPerform_waits {s : State} {i : Nat} {x : InFlight} (hx : s.fab.inflight[i]? = some x) (h : s.mayPerform i = true) : ¬ x.performed = true := by
  unfold State.mayPerform at h
  rw [hx] at h
  simp only [Bool.and_eq_true, Bool.not_eq_true'] at h
  rw [h.1]
  decide

end Sys2Proof.Machine
end

section
/-! O48: scrubbing, evictions, the clock horizon, and writes in flight. -/

namespace Sys2Proof.Machine

/-- Settles O48: a scrubbed line counts its pass and logs what it finds; an eviction filters the dirty lines; the horizon is the greatest clock; a write performs its runs, and
one that is blocked writes the error log alone. -/
theorem reliabilityAndMemoryEvents : Obligations.ReliabilityAndMemoryEvents := by
  intro s
  obtain ⟨hwts, hrts, hhorizon⟩ := s.atHorizon_fab (List.range 1040)
  refine ⟨fun pa y hcov hen hboot hidle hsound hok => ?_, fun crew line => ⟨_, rfl, fun d hd => ?_, fun d hd hne => ?_, ?_, fun hs => ?_, fun d hd hc hl hbad => ?_⟩,
    ⟨_, execClockHorizonAdvance_moves s, rfl, hwts, hrts, fun c => ?_, fun k hk => s.atHorizon_eclock (List.mem_range.mpr hk)⟩, fun i x hx hmay => ?_⟩
  · have hready : s.ScrubReady pa := ⟨hcov, hen, hboot, hidle, hsound, hok⟩
    obtain ⟨cls, z, hun⟩ := execScrubLine_uncorrectable hready y
    refine ⟨⟨_, execScrubLine_clean hready, ?_, State.passed_mem _ _, ?_, State.passed_cores _ _⟩, _, hun, ?_⟩
    · rw [State.passed_ras]
    · rw [State.passed_ras]
    · have htop := s.scrubLog_usableTop (pa / 128 * 128) cls y.toNat (arrayOffset (pa / 128 * 128)) z
      have hras := s.scrubLog_ras (pa / 128 * 128) cls y.toNat (arrayOffset (pa / 128 * 128)) z
      have hcores : (s.scrubLog (pa / 128 * 128) cls y.toNat (arrayOffset (pa / 128 * 128)) z).cores = s.cores := State.log_cores _ _
      generalize s.scrubLog (pa / 128 * 128) cls y.toNat (arrayOffset (pa / 128 * 128)) z = u at htop hras hcores ⊢
      have hu : (u.scrubPoison (pa / 128 * 128)).usableTop = s.usableTop := htop
      rw [State.passed_ras, State.passed_cores, hu]
      simp only [State.scrubPoison, hras]
      exact ⟨trivial, trivial, hcores, trivial, by rw [Nat.mul_div_cancel _ (by decide)]⟩
  · rw [State.writeBack_dirty] at hd
    simpa [imp_iff_not_or] using (List.mem_filter.mp hd).2
  · rw [State.writeBack_dirty]
    exact List.mem_filter.mpr ⟨hd, by simpa [imp_iff_not_or] using hne⟩
  · exact congrArg Prod.fst (s.writeBack_duties crew.val line 0x88)
  · obtain ⟨d, c, x, h⟩ := State.writeBack_clean hs crew.val line 0x88
    rw [h]
    exact ⟨rfl, hs.1, rfl⟩
  · exact State.writeBack_orphan ⟨d, hd, hc, hl⟩ hbad 0x88
  · rw [s.atHorizon_core, hhorizon]
    exact ⟨Nat.le_max_right _ _, Nat.lt_of_lt_of_le (Nat.lt_succ_self _) (Nat.le_max_left _ _), clock_le_greatest s.cores c, rfl⟩
  · have hp := State.mayPerform_waits hx hmay
    refine ⟨_, congrArg Host.Outcome.next (if_pos hmay), State.performInFlight_at hx hp, fun hb hbad hpoison => ?_, fun hb => ?_⟩
    · obtain ⟨hmem, hregs⟩ := State.performInFlight_leaves ⟨hpoison, hbad⟩ hx hp (by rw [hb]; decide)
      refine ⟨hmem, fun hop _ => ?_, hregs⟩
      rw [State.performInFlight_data hx hp hop]
      exact (State.performJoined_wrote ⟨hpoison, hbad⟩ i x).cores
    · obtain ⟨hmet, hothers, hlog⟩ := State.performInFlight_meets hx hp hb
      exact ⟨hmet, hothers, hlog.byte⟩

end Sys2Proof.Machine
end

section
/-! SUPPORT for O49. The performing of a core's writes in flight where they are writes of data, or where there is none (R207, R262). -/

namespace Sys2Proof.Machine

/-- Every write in flight of a core is a write of data, which meets no error (R155). -/
def State.quiet (s : State) (n : Fin 128) : Prop := ∀ y ∈ s.fab.inflight, y.ofCore n = true → y.op = .data

theorem State.markDone_quiet {s u : State} {n : Fin 128} {x : InFlight} (h : s.quiet n) (hu : u.fab.inflight = s.fab.inflight) (hop : x.op = .data) (i w : Nat) :
    (u.markDone i x w).quiet n := by
  intro y hy hyn
  rcases List.mem_append.mp hy with hy | hy
  · rcases List.mem_or_eq_of_mem_set hy with hy | rfl
    · exact h y (hu ▸ hy) hyn
    · exact hop
  · obtain ⟨z, hz, rfl⟩ := List.mem_map.mp hy
    obtain ⟨k, -, rfl⟩ := List.mem_map.mp hz
    exact hop

theorem State.performInFlight_quiet {s : State} {n : Fin 128} {i : Nat} {x : InFlight} (h : s.quiet n) (hx : s.fab.inflight[i]? = some x) (hn : x.ofCore n = true) :
    (s.performInFlight i).cores = s.cores ∧ (s.performInFlight i).quiet n := by
  by_cases hp : x.performed = true
  · have heq : s.performInFlight i = s := by simp only [State.performInFlight, hx, hp, if_true]
    rw [heq]
    exact ⟨rfl, h⟩
  · have hop := h x (List.mem_of_getElem? hx) hn
    obtain ⟨u, hu, hd⟩ := s.performJoined_duties i x
    rw [State.performInFlight_data hx hp hop, hu]
    exact ⟨congrArg (fun d => d.1) hd, State.markDone_quiet h (congrArg (fun d => d.2.2.2) hd) hop i _⟩

/-- Writes of data leave every core as it was. -/
theorem State.performAll_quiet {s : State} {n : Fin 128} (h : s.quiet n) : (s.performAll n).cores = s.cores :=
  (foldl_keeps (fun t : State => t.cores = s.cores ∧ t.quiet n) _ _ s ⟨rfl, h⟩ (fun t i ht => by
    split
    · split
      · next x hx hn =>
        obtain ⟨hc, hq⟩ := State.performInFlight_quiet ht.2 hx hn
        exact ⟨hc.trans ht.1, hq⟩
      · exact ht
    · exact ht)).1

theorem State.performAll_none {s : State} {n : Fin 128} (h : ∀ x ∈ s.fab.inflight, x.ofCore n = false) : s.performAll n = s :=
  foldl_keeps (fun t : State => t = s) _ _ s rfl (fun t i ht => by
    subst ht
    split
    · next x hx => rw [if_neg (by rw [h x (List.mem_of_getElem? hx)]; decide)]
    · rfl)

end Sys2Proof.Machine
end

section
/-! SUPPORT for O49. The end of a freeze and the delivery of its trap (R260 to R267). -/

namespace Sys2Proof.Machine

/-- A core whose accesses have performed: the queues at the cut, no load that could be replayed. -/
def Core.atCut (c : Core) (poison : List RegTag) (pop : Vector W64 8) (popped : Bool) : Core :=
  { c with poison := poison, pop := pop, popped := popped, mem := { c.mem with lob := [], handed := none } }

theorem State.drain_quiet {s : State} {n : Fin 128} (h : s.quiet n) : ∃ p, (s.drain n).cores[n] = { s.cores[n] with poison := p } := by
  have hc : ((s.modCore n (fun c => { c with poison := c.poison.filter (fun t => t.file != tagUe) })).performAll n).cores[n]
      = { s.cores[n] with poison := s.cores[n].poison.filter (fun t => t.file != tagUe) } := by
    rw [State.performAll_quiet (s := s.modCore n (fun c => { c with poison := c.poison.filter (fun t => t.file != tagUe) })) h, State.modCore_core]
  have hmet : ((s.cores[n].poison.filter (fun t => t.file != tagUe)).filter (fun t => t.file == tagUe)) = [] := by
    simp [List.filter_filter]
  unfold State.drain
  dsimp only
  rw [State.modCore_core, hc]
  simp only [hmet, List.isEmpty_nil, if_true, Bool.not_true, Bool.or_false]
  exact ⟨_, rfl⟩

theorem State.logRefusal_cores (s : State) (n : Fin 128) (t : Trap) : (s.logRefusal n t).cores = s.cores := by
  unfold State.logRefusal
  split
  · rfl
  · exact State.log_cores _ _

/-- The core whose freeze ends has its trap delivered at its cut. -/
theorem State.freezeEnd_quiet {s : State} {n : Fin 128} (h : s.quiet n) (t : Trap) : ∃ p q b, (s.freezeEnd n t).cores[n]
    = { (s.cores[n].atCut p q b).deliver t with trap := { ((s.cores[n].atCut p q b).deliver t).trap with since := s.tb.now.toNat } } := by
  obtain ⟨p, hp⟩ := State.drain_quiet h
  obtain ⟨q, b, hq⟩ := Core.drained_eq { s.cores[n] with poison := p }
  refine ⟨p, q, b, ?_⟩
  unfold State.freezeEnd
  rw [State.modCore_core, State.logRefusal_cores, hp, hq]
  rfl

theorem Core.showCut_eq (c : Core) : ∃ v, c.showCut = { c with shown := v } := ⟨_, rfl⟩

/-- A system trap freezes the core for firmware (R262, R270). -/
theorem Core.deliver_system {c : Core} {t : Trap} (hp : c.phase ≠ .trapStrand) (ht : t.system = true) : ∃ v r, c.deliver t = { c with shown := v, phase := .frozen, trap := r }
    ∧ r.active = some t ∧ r.detected = none := by
  have hclass : c.classify t = t := by simp [Core.classify, ht]
  obtain ⟨v, hv⟩ := c.showCut_eq
  unfold Core.deliver
  rw [hclass, if_neg hp, hv, if_pos (by rw [ht]; rfl)]
  exact ⟨v, _, rfl, rfl, rfl⟩

/-- A user trap starts the trap strand (R267). -/
theorem Core.deliver_user {c : Core} {t : Trap} (hp : c.phase ≠ .trapStrand) (ht : t.system = false) (he : c.img.hastrap = true) (hl : c.trap.later = none) :
    ∃ v r, c.deliver t = ({ c with shown := v, trap := r } : Core).startTrapStrand t c.trap.multi := by
  have hclass : c.classify t = t := by simp [Core.classify, he, hp]
  obtain ⟨v, hv⟩ := c.showCut_eq
  unfold Core.deliver
  rw [hclass, if_neg hp, hv, if_neg (by rw [ht, hl]; decide)]
  exact ⟨v, _, rfl⟩

theorem Core.startTrapStrand_strand (c : Core) (t : Trap) (multi : Bool) : (c.startTrapStrand t multi).hnd[(2 : Fin 3)].running = true
    ∧ (c.startTrapStrand t multi).hnd[(2 : Fin 3)].pc = c.img.trapent ∧ (c.startTrapStrand t multi).rdS (.ctx 2) 1 = BitVec.ofNat 64 (trapHdr t multi)
    ∧ (c.startTrapStrand t multi).rdS (.ctx 2) 2 = t.faddr ∧ (c.startTrapStrand t multi).rdS (.ctx 2) 3 = t.d0 ∧ (c.startTrapStrand t multi).rdS (.ctx 2) 4 = t.d1 := by
  simp [Core.startTrapStrand, Core.rdS]

/-- CAUSE is the low byte of HDR (R266). -/
theorem trapHdr_cause (t : Trap) (multi : Bool) : fld (BitVec.ofNat 64 (trapHdr t multi)) 0 8 = t.cause % 256 := by
  simp only [fld, bits, BitVec.toNat_ofNat, trapHdr]
  omega

/-- The user trap that a freeze ends in: the trap strand begins in context 2, and the main strand's registers stand. -/
theorem State.freezeEnd_user {s : State} {n : Fin 128} {t : Trap} (h : s.quiet n) (hp : s.cores[n].phase ≠ .trapStrand) (ht : t.system = false)
    (he : s.cores[n].img.hastrap = true) (hl : s.cores[n].trap.later = none) : ∃ c r, (s.freezeEnd n t).cores[n] = { c with trap := r }
      ∧ ∃ d : Core, c = d.startTrapStrand t s.cores[n].trap.multi ∧ d.regs = s.cores[n].regs ∧ d.pc = s.cores[n].pc ∧ d.img = s.cores[n].img := by
  obtain ⟨p, q, b, hc⟩ := State.freezeEnd_quiet h t
  obtain ⟨v, r, hd⟩ := Core.deliver_user (c := s.cores[n].atCut p q b) hp ht he hl
  rw [hc, hd]
  exact ⟨_, _, rfl, _, rfl, rfl, rfl, rfl⟩

end Sys2Proof.Machine
end

section
/-! SUPPORT for O49. The detection of traps, what firmware does about system traps, and the limits of waits (R262, R270 to R272). -/

namespace Sys2Proof.Machine

theorem Core.live_iff (c : Core) : c.live = true ↔ (c.phase = .running ∨ c.phase = .draining) ∧ c.trap.detected = none := by
  simp [Core.live]

theorem execTrapDetect_detects {s : State} {n : Fin 128} {x : Trap} (hl : s.cores[n].live = true) (hx : s.cores[n].trap.engineFault = some x) :
    execTrapDetect n s = .next (s.setCore n { s.cores[n] with trap := { s.cores[n].trap with engineFault := none, detected := some x } }) := by
  have hd := (s.cores[n].live_iff.mp hl).2
  simp only [execTrapDetect, hl, Core.trapWaiting, hx, Core.detect, hd, Bool.not_true, Bool.false_eq_true, if_false]

theorem execFreezeComplete_ends {s : State} {n : Fin 128} {x : Trap} (hx : s.cores[n].trap.detected = some x) : execFreezeComplete n s = .next (s.freezeEnd n x) := by
  unfold execFreezeComplete
  rw [hx]

theorem Core.clearFault_eq (c : Core) (t : Trap) : ∃ w h, c.clearFault t = { c with waits := w, hnd := h } := by
  unfold Core.clearFault
  split
  · exact ⟨_, c.hnd, rfl⟩
  · exact ⟨c.waits, _, rfl⟩

theorem Core.clearEngine_eq (c : Core) (t : Trap) : ∃ e, c.clearEngine t = { c with eng := e } := by
  unfold Core.clearEngine
  split
  · exact ⟨_, rfl⟩
  · exact ⟨c.eng, rfl⟩

theorem Core.abandonChunk_eq (c : Core) : ∃ e, c.abandonChunk = { c with eng := e } := by
  unfold Core.abandonChunk
  split
  · exact ⟨_, rfl⟩
  · exact ⟨c.eng, rfl⟩

/-- A core that resumes goes on where its freeze found it, with its registers and its index as they were (R268). -/
theorem Core.resume_leaves (c : Core) (t : Trap) : (c.resume t).phase = (if c.loading then .starting else if c.trap.back then .running else .draining)
    ∧ (c.resume t).trap.active = none ∧ (c.resume t).regs = c.regs ∧ (c.resume t).pc = c.pc := by
  obtain ⟨w, h, hf⟩ := c.clearFault_eq t
  obtain ⟨e, he⟩ := ({ c with waits := w, hnd := h } : Core).clearEngine_eq t
  obtain ⟨e', ha⟩ := ({ c with waits := w, hnd := h, eng := e } : Core).abandonChunk_eq
  rw [Core.resume, hf, he, Core.unfreeze, ha]
  exact ⟨rfl, rfl, rfl, rfl⟩

/-- Firmware resumes a core whose PAGE is resolved (R270). -/
theorem execSystemTrapResolve_resumes {s : State} {n : Fin 128} {x : Trap} (hp : s.cores[n].phase = .frozen) (hs : s.cores[n].saving = false)
    (ha : s.cores[n].trap.active = some x) (hx : x.cause = 0x20) (hl : s.cores[n].trap.later = none) (ho : s.cores[n].trap.outer = none) :
    execSystemTrapResolve n .resume s = .next (s.setCore n (s.cores[n].resume x)) := by
  have hactive : (if s.cores[n].phase = .frozen ∧ !s.cores[n].saving then s.cores[n].trap.active else none) = some x := by
    rw [if_pos ⟨hp, by rw [hs]; rfl⟩, ha]
  have hgo (y) : s.cores[n].choice x y .resume = .go := if_pos ⟨hx, by rw [hl]; rfl⟩
  unfold execSystemTrapResolve
  dsimp only
  rw [hactive]
  simp only [State.resolveHere, hgo, Core.resolved, ho]

/-- A RESUMABLE step is frozen to be saved with its trap pending (R271). -/
theorem execSystemTrapTimeout_saves {s : State} {n : Fin 128} {y : Step} (hp : s.cores[n].phase = .frozen) (hs : s.cores[n].saving = false)
    (ha : s.cores[n].trap.active.isSome = true) (ht : s.cores[n].trap.since + 50000 ≤ s.tb.now.toNat) (hy : s.stepOn n = some y) (hr : s.cores[n].img.resumable = true) :
    execSystemTrapTimeout n s = .next ((s.beginSave n).modStep y.stepid (fun t => { t with trapPending := true })) := by
  unfold execSystemTrapTimeout
  have hdue : ¬ (s.cores[n].phase ≠ .frozen ∨ s.cores[n].saving = true ∨ s.cores[n].trap.active.isNone = true ∨ s.tb.now.toNat < s.cores[n].trap.since + 50000) := by
    rw [hp, hs, Option.isNone_eq_false_iff.mpr ha]
    simpa using ht
  dsimp only
  rw [if_neg hdue, hy]
  exact congrArg Host.Outcome.next (if_pos hr)

theorem execBoundedWaitExpiry_handler (s : State) (c : Fin 128) : ∀ h : Fin 3, execBoundedWaitExpiry c (Fin.ofNat 10 (4 + h.val)) s
    = .next (if s.cores[c].hnd[h].running && (s.cores[c].live || (decide (s.cores[c].phase = .trapStrand) && decide (h.val = 2))) then
        s.expire c (s.cores[c].wordAt s.cores[c].hnd[h].pc).1 (.ctx h) (s.cores[c].hnd[h].wait.bind (s.retest c (.ctx h))) else s)
  | 0 => rfl
  | 1 => rfl
  | 2 => rfl

/-- A handler's wait that has a limit and is not satisfied ends in BWAIT (R272). -/
theorem execBoundedWaitExpiry_traps {s : State} {c : Fin 128} {h : Fin 3} {w0 w : Wait} (hr : s.cores[c].hnd[h].running = true) (hl : s.cores[c].live = true)
    (h0 : s.cores[c].hnd[h].wait = some w0) (hw : s.retest c (.ctx h) w0 = some w) (hlim : w.limit.isSome = true) :
    execBoundedWaitExpiry c (Fin.ofNat 10 (4 + h.val)) s = .next (s.freezeEnd c (waitTrap (s.cores[c].wordAt s.cores[c].hnd[h].pc).1 (.ctx h) w)) := by
  rw [execBoundedWaitExpiry_handler s c h, if_pos (by rw [hr, hl]; rfl), h0, Option.bind_some, hw]
  simp only [State.expire, hlim, if_true]
  exact congrArg Host.Outcome.next (if_neg (by simp [waitTrap]))

end Sys2Proof.Machine
end

section
/-! SUPPORT for O49. A consumed uncorrectable error: the rollback (R161). -/

namespace Sys2Proof.Machine

theorem Core.clearTiles_eq (c : Core) (m : BitVec 4) : ∃ a, c.clearTiles m = { c with regs := { c.regs with acc := a } } :=
  foldl_keeps (fun d : Core => ∃ a, d = { c with regs := { c.regs with acc := a } }) _ _ c ⟨c.regs.acc, rfl⟩ (fun d t hd => by
    obtain ⟨a, rfl⟩ := hd
    split
    · exact ⟨_, rfl⟩
    · exact ⟨a, rfl⟩)

/-- A rollback cancels the commands since the point, clears tiles and rewinds L and X. -/
theorem Core.rollback_eq (c : Core) (po : Nat) :
    ∃ a, c.rollback po = ({ c with eng := c.eng.cancelFrom c.tile.point, regs := { c.regs with acc := a } } : Core).rewind c.tile.point po := by
  obtain ⟨a, h⟩ := ({ c with eng := c.eng.cancelFrom c.tile.point } : Core).clearTiles_eq c.tile.point.written
  exact ⟨a, by rw [Core.rollback, h]⟩

theorem Core.metUe_rewind (c : Core) (p : TilePoint) (po : Nat) : (c.rewind p po).metUe = none := by
  rw [Core.metUe, Option.map_eq_none_iff, List.find?_eq_none]
  intro t ht
  have hkept := (List.mem_filter.mp ht).2
  simp only [Bool.and_eq_true, bne_iff_ne] at hkept
  simpa using hkept.1

theorem State.logRollback_leaves (s : State) (n : Fin 128) : (s.logRollback n).cores = s.cores ∧ (s.logRollback n).ras.elogSeq = s.ras.elogSeq + 1 := by
  unfold State.logRollback
  extract_lets c l x bin s1
  rw [State.modBoard_cores, State.modBoard_ras]
  exact ⟨State.log_cores _ _, by rw [State.log_ras]⟩

/-- The core that has met the error, at its cut and with the markers it has passed (R161, R324). -/
def State.atUe (s : State) (n : Fin 128) : State := s.modCore n (fun k => k.drained.passMarkers)

theorem execConsumedUe_meets {s : State} {n : Fin 128} {po : Nat} (hm : s.cores[n].metUe = some po) (hl : s.cores[n].live = true)
    (hq : ∀ x ∈ s.fab.inflight, x.ofCore n = false) : execConsumedUe n s = .next (match (s.atUe n).cores[n].escalation n po with
      | some reason => (s.atUe n).abortStep n po reason
      | none => (s.atUe n).cores[n].tile.stores.foldl (fun s x => s.storeAgain n x) (((s.atUe n).logRollback n).modCore n (fun k => k.rollback po))) := by
  obtain ⟨hp, hd⟩ := s.cores[n].live_iff.mp hl
  have hon : ¬ (s.cores[n].phase = .idle ∨ s.cores[n].phase = .frozen ∨ s.cores[n].trap.detected.isSome = true) := by
    rw [hd]
    rcases hp with hp | hp <;> rw [hp] <;> decide
  unfold execConsumedUe
  rw [hm, State.performAll_none hq]
  exact congrArg Host.Outcome.next (if_neg hon)

end Sys2Proof.Machine
end

section
/-! SUPPORT for O49. The abort of a RESTARTABLE step (R146, R162). -/

namespace Sys2Proof.Machine

theorem State.settled_congr {s t : State} (hr : t.sched.regions = s.sched.regions) (hf : t.board.flr = s.board.flr) (h : s.settled) : t.settled :=
  ⟨fun r => by rw [State.region, hr]; exact h.1 r, hf.trans h.2⟩

/-- The sweep where nothing is destroyed or reset: operators that are over leave, and regions come to rest. -/
theorem State.sweep_onlyStates {s : State} (h : s.settled) : s.endOps.onlyStates s.sweep := by
  have hq := s.endOps.settleQuiesce_onlyStates
  have hs := hq.settled h
  rwa [State.sweep_eq, State.settleDestroy_settled hs, State.settleResets_settled hs]

theorem State.sweep_leaves {s : State} (h : s.settled) :
    s.sweep.cores = s.cores ∧ s.sweep.mem = s.mem ∧ s.sweep.ras = s.ras ∧ s.sweep.sched.steps = s.sched.steps := by
  obtain ⟨m, hm, -⟩ := State.sweep_onlyStates h
  rw [hm]
  exact ⟨rfl, rfl, rfl, rfl⟩

/-- A step that leaves its core for READY, or is discarded: what stands of the machine, and what is left under its number (R95, R162). -/
theorem State.restartStep_leaves {s : State} {n : Fin 128} {y : Step} (hy : s.stepOn n = some y) (hd : ∀ r, (s.region r).destroying = false) (avoid : Option Nat) :
    (s.restartStep n avoid).sched.regions = s.sched.regions ∧ (s.restartStep n avoid).board = s.board ∧ (s.restartStep n avoid).fab = s.fab
      ∧ (s.restartStep n avoid).ras = s.ras ∧ ∀ z ∈ (s.restartStep n avoid).sched.steps, z.stepid = y.stepid → z = y.again avoid := by
  unfold State.restartStep
  rw [hy]
  dsimp only
  split
  · have hdrop : (s.stampRecord n (y.again avoid) 3 0).discardStep y = (s.stampRecord n (y.again avoid) 3 0).dropStep y.stepid := by
      unfold State.discardStep
      exact if_neg (by rw [State.region, State.stampRecord_sched]; exact Bool.eq_false_iff.mp (hd y.region))
    rw [hdrop]
    refine ⟨rfl, rfl, rfl, rfl, fun z hz hid => ?_⟩
    have hne := (List.mem_filter.mp hz).2
    simp [hid] at hne
  · refine ⟨rfl, rfl, rfl, rfl, fun z hz hid => ?_⟩
    obtain ⟨w, -, rfl⟩ := List.mem_map.mp hz
    by_cases hw : w.stepid = y.stepid
    · rw [if_pos hw]
    · rw [if_neg hw] at hid
      exact absurd hid hw

/-- A core without writes in flight is freed and zeroed (R146). -/
theorem State.zeroCore_leaves {s : State} {n : Fin 128} (hq : ∀ x ∈ s.fab.inflight, x.ofCore n = false) :
    (s.zeroCore n).cores[n].phase = .idle ∧ (s.zeroCore n).cores[n].regs = Regs.reset ∧ (s.zeroCore n).sched = s.sched ∧ (s.zeroCore n).board = s.board
      ∧ (s.zeroCore n).ras.elogSeq = s.ras.elogSeq ∧ ∀ o, o < Config.scratchSize → sget Memory.dflt (s.zeroCore n).mem (scratchPa n o) = 0 := by
  have hfree : (s.freeCore n).cores[n] = { s.cores[n].vacate with idleSince := s.tb.now.toNat } ∧ (s.freeCore n).sched = s.sched ∧ (s.freeCore n).board = s.board
      ∧ (s.freeCore n).ras = s.ras := by
    unfold State.freeCore
    rw [State.performAll_none hq]
    exact ⟨State.modCore_core _ _ _, rfl, rfl, rfl⟩
  obtain ⟨hcore, hsched, hboard, hras⟩ := hfree
  have hk : (s.zeroCore n).cores[n] = ({ s.cores[n].vacate with idleSince := s.tb.now.toNat } : Core).zeroed := by
    rw [State.zeroCore, State.modCore_core, ← hcore]
    rfl
  rw [hk]
  refine ⟨rfl, rfl, hsched, hboard, (congrArg Ras.elogSeq hras : (s.freeCore n).ras.elogSeq = s.ras.elogSeq), fun o ho => ?_⟩
  refine ((s.freeCore n).zeroScratch_byte n (scratchPa n o)).trans (if_pos ?_)
  unfold Config.scratchSize at ho
  unfold scratchPa
  omega

theorem State.abortStep_restarts {s : State} {n : Fin 128} {y : Step} (hy : s.stepOn n = some y) (hr : s.cores[n].img.resumable = false) (ha : y.attempt < 3) (po reason : Nat) :
    ∃ x f, s.abortStep n po reason = ((((s.log x).modCore n f).restartStep n (some n.val)).zeroCore n).sweep := by
  unfold State.abortStep
  dsimp only
  rw [hy]
  dsimp only
  rw [if_pos (by rw [hr, decide_eq_true ha]; rfl)]
  exact ⟨_, _, rfl⟩

/-- A RESTARTABLE step that is aborted starts again elsewhere, and its core is zeroed (R162). -/
theorem State.abortStep_leaves {s : State} {n : Fin 128} {y : Step} (hy : s.stepOn n = some y) (hr : s.cores[n].img.resumable = false) (ha : y.attempt < 3)
    (hs : s.settled) (hq : ∀ x ∈ s.fab.inflight, x.ofCore n = false) (po reason : Nat) :
    (s.abortStep n po reason).cores[n].phase = .idle ∧ (s.abortStep n po reason).cores[n].regs = Regs.reset ∧ (s.abortStep n po reason).ras.elogSeq = s.ras.elogSeq + 1
      ∧ (∀ z ∈ (s.abortStep n po reason).sched.steps, z.stepid = y.stepid → z = y.again (some n.val))
      ∧ ∀ o, o < Config.scratchSize → sget Memory.dflt (s.abortStep n po reason).mem (scratchPa n o) = 0 := by
  obtain ⟨x, f, heq⟩ := State.abortStep_restarts hy hr ha po reason
  have hlog : ((s.log x).modCore n f).sched = s.sched := by
    rw [State.modCore_sched, State.log_sched]
  obtain ⟨hregions, hboard, hfab, hras, hsteps⟩ := State.restartStep_leaves (s := (s.log x).modCore n f) (n := n) (y := y)
    (by rw [State.stepOn, hlog]; exact hy) (fun r => by rw [State.region, hlog]; exact hs.1 r) (some n.val)
  generalize ((s.log x).modCore n f).restartStep n (some n.val) = u at heq hregions hboard hfab hras hsteps
  obtain ⟨hphase, hregs, hsched, hboard', helog, hscratch⟩ := State.zeroCore_leaves (s := u) (n := n) (by
    rw [hfab, State.modCore_fab, State.log_fab]
    exact hq)
  have hsettled : (u.zeroCore n).settled := State.settled_congr (s := s) (by rw [hsched, hregions, hlog])
    (by rw [hboard', hboard, State.modCore_board, State.log_flr]) hs
  obtain ⟨hc, hm, hr', hst⟩ := State.sweep_leaves hsettled
  rw [heq, hc, hm, hr', hst, hsched]
  refine ⟨hphase, hregs, ?_, hsteps, hscratch⟩
  rw [helog, hras, State.modCore_ras, State.log_ras]

end Sys2Proof.Machine
end

section
/-! O49: traps without a word of their own, and consumed uncorrectable errors. -/

namespace Sys2Proof.Machine

/-- Settles O49: the writes of data that a freeze performs leave the core, which is at its cut when its trap is delivered; a rollback and an abort are read off the model,
the abort's sweep settling regions alone. -/
theorem trapsAndRollbacks : Obligations.TrapsAndRollbacks := by
  refine ⟨fun s c x => ⟨fun hl hx => ?_, fun hx hp hl hq => ⟨fun ht => ?_, fun ht he => ?_⟩, fun hp hs ha => ⟨fun hx hl ho hload => ?_, fun y hy hr ht => ?_⟩,
    fun h w0 w n hl hrun h0 hw hlim he hlater hq => ?_⟩, fun s c po hm hl hq => ⟨fun he hst => ?_, fun r y he hy hr ha hd hflr => ?_⟩⟩
  · refine ⟨_, execTrapDetect_detects hl hx, ?_⟩
    rw [State.setCore_core]
    exact ⟨rfl, rfl, Bool.and_false _, rfl, fun n hn => State.setCore_core_ne _ _ hn⟩
  · obtain ⟨p, q, b, hc⟩ := State.freezeEnd_quiet hq x
    obtain ⟨v, r, hd, hactive, hdet⟩ := Core.deliver_system (c := s.cores[c].atCut p q b) (by rw [Core.atCut, hp]; decide) ht
    refine ⟨_, execFreezeComplete_ends hx, ?_⟩
    rw [hc, hd]
    exact ⟨rfl, hdet, hactive, rfl, rfl, rfl⟩
  · obtain ⟨k, r, hk, d, rfl, hregs, hpc, himg⟩ := State.freezeEnd_user hq (by rw [hp]; decide) ht he hl
    obtain ⟨hon, hent, h1, h2, h3, h4⟩ := d.startTrapStrand_strand x s.cores[c].trap.multi
    refine ⟨_, execFreezeComplete_ends hx, ?_⟩
    rw [hk]
    exact ⟨rfl, hon, hent.trans (by rw [himg]), h1, h2, h3, h4, hregs, hpc⟩
  · obtain ⟨hphase, hactive, hregs, hpc⟩ := s.cores[c].resume_leaves x
    refine ⟨_, execSystemTrapResolve_resumes hp hs ha hx hl ho, ?_⟩
    rw [State.setCore_core]
    exact ⟨hphase.trans (if_neg (by rw [hload]; decide)), hactive, hregs, hpc, rfl⟩
  · refine ⟨_, execSystemTrapTimeout_saves hp hs (by rw [ha]; rfl) ht hy hr, ?_⟩
    rw [State.modStep_cores, State.beginSave, State.modCore_core]
    refine ⟨rfl, hp, rfl, rfl, fun z hz hid => ?_⟩
    obtain ⟨v, -, rfl⟩ := List.mem_map.mp hz
    by_cases hv : v.stepid = y.stepid
    · rw [if_pos hv]
    · rw [if_neg hv] at hid
      exact absurd hid hv
  · obtain ⟨hphase, -⟩ := s.cores[c].live_iff.mp hl
    obtain ⟨k, r, hk, d, rfl, hregs, -, -⟩ := State.freezeEnd_user (t := waitTrap (s.cores[c].wordAt s.cores[c].hnd[h].pc).1 (.ctx h) w) hq
      (by rcases hphase with hp | hp <;> rw [hp] <;> decide) rfl he hlater
    refine ⟨_, execBoundedWaitExpiry_traps hrun hl h0 hw (by rw [hlim]; rfl), ?_⟩
    rw [hk]
    exact ⟨rfl, trapHdr_cause _ _, rfl, rfl, rfl, hregs⟩
  · have hcore : (s.atUe c).cores[c] = s.cores[c].drained.passMarkers := State.modCore_core _ _ _
    have hexec := execConsumedUe_meets hm hl hq
    rw [hcore, he, hst] at hexec
    obtain ⟨hcores, hseq⟩ := (s.atUe c).logRollback_leaves c
    obtain ⟨a, hroll⟩ := s.cores[c].drained.passMarkers.rollback_eq po
    refine ⟨_, hexec, ?_⟩
    rw [List.foldl_nil, State.modCore_core, hcores, hcore, hroll]
    refine ⟨Core.metUe_rewind _ _ _, rfl, rfl, rfl, rfl, rfl, rfl, fun g hg => ?_, fun b hb => ?_, hseq, fun n hn => ?_⟩
    · exact of_decide_eq_true (List.mem_filter.mp hg).2
    · exact of_decide_eq_true (List.mem_filter.mp hb).2
    · rw [State.modCore_core_ne _ _ hn, hcores]
      exact State.modCore_core_ne _ _ hn
  · have hcore : (s.atUe c).cores[c] = s.cores[c].drained.passMarkers := State.modCore_core _ _ _
    have hexec := execConsumedUe_meets hm hl hq
    rw [hcore, he] at hexec
    obtain ⟨hphase, hregs, hseq, hsteps, hscratch⟩ := State.abortStep_leaves (s := s.atUe c) hy (by rw [hcore]; exact hr) ha ⟨hd, hflr⟩ hq po r
    refine ⟨_, hexec, hphase, hregs, hseq, fun z hz hid => ?_, hscratch⟩
    rw [hsteps z hz hid]
    exact ⟨rfl, Nat.min_eq_right (by omega), rfl⟩

end Sys2Proof.Machine
end

section
/-! O5: what a load still listed for replay loses as its register is written. -/

namespace Sys2Proof.Machine

/-- The mark of s1. -/
def s1Tag : RegTag := { file := tagS, num := 1 }

/-- A core after reset whose load-order buffer lists a performed load of s1 (R180). -/
def listedLoad : Core :=
  { Core.reset with mem := { MemState.reset with
    lob := [{ word := Core.reset.routed noTok true (.load .g 8 false 1 0), bytes := [], copies := [], dst := [s1Tag], gone := [] }] } }

/-- A write of s1 takes the register from the listed load: a replay of it leaves s1 alone (R180). -/
theorem listedLoad_overwritten (v : W64) : (listedLoad.wrS .main 1 v).mem.lob.map (·.gone) = [[s1Tag]] := rfl

/-- Refutes O5: its clause of the main strand says that a scalar write changes the scalars alone, of every unmarked core; the write also takes the register from the loads
that are listed for replay and from the words that could produce it again (R157, R180): a core after reset that lists a load of s1, where s1 is written. -/
theorem not_scalarWriteFrame : ¬ Obligations.ScalarWriteFrame := by
  rintro ⟨-, -, hmain, -⟩
  have hlob := congrArg (fun c => c.mem.lob.map (·.gone)) (hmain listedLoad 1 0 ⟨rfl, rfl⟩)
  exact absurd ((listedLoad_overwritten 0).symm.trans hlob) (by decide)

end Sys2Proof.Machine
end

section
/-! O6: false guards and empty FIFOs. -/

namespace Sys2Proof.Machine

/-- A C-class word whose guard is false makes its tokens and goes on (R275, R300). -/
theorem cWord_guardFalse {s : State} {t g j} (len eff) (hj : j.sub s.focusStrand t = none) (hu : s.cur.unmarked) (hr : s.cur.cReady s.focusStrand t = true)
    (hg : s.cur.rdP s.focusStrand g = false) : cWord t g j len eff s = s.ranC t len id := by
  simp only [cWord, hj, hr, Core.tainted_unmarked _ _ hu, hg]
  rfl

/-- A C-class word of the main strand whose tokens are not there notes its wait (R178, R272). -/
theorem cWord_tokensMissing {s : State} {t g j} (len eff) (hs : s.focusStrand = .main) (hj : j.sub .main t = none) (hr : s.cur.cReady .main t = false) :
    cWord t g j len eff s = s.setCore s.focusCore (s.cur.setWait 0 (some (keepLimit s.cur.waits[(0 : Fin 4)] (s.cur.popWait 0 t)))) := by
  simp only [cWord, hs, hj, hr]
  rfl

/-- Settles O6: each word is a C-class word, whose guard and tokens are looked at before its effect. -/
theorem guardsAndTokens : Obligations.GuardsAndTokens := by
  refine ⟨fun s t g d a b o i hu hr hg => ⟨fun hj x hx => ?_, fun hj x hx => ?_⟩, fun s t g d a b hs hj hr => ?_⟩
  · simp only [List.mem_cons, List.not_mem_nil, or_false] at hx
    obtain rfl | rfl | rfl | rfl := hx <;> exact congrArg _ (cWord_guardFalse _ _ hj hu hr hg)
  · simp only [List.mem_cons, List.not_mem_nil, or_false] at hx
    obtain rfl | rfl | rfl | rfl := hx <;> exact congrArg _ (cWord_guardFalse _ _ hj hu hr hg)
  · exact ⟨s.cur.popWait 0 t, rfl, congrArg _ (cWord_tokensMissing _ _ hs hj hr)⟩

end Sys2Proof.Machine
end

section
/-! O26: a put of a handler strand whose scope has gone stale while it waited. -/

namespace Sys2Proof.Machine

/-- Core 0 running, with handler context 0 at a word that waits at scope 0 as captured at generation 5, which the scope's entry no longer shows (R212, R213). -/
def staleCore : Core :=
  { Core.reset with phase := .running, hnd := Core.reset.hnd.set 0 { Core.reset.hnd[(0 : Fin 3)] with running := true, wait := some { freeWait with cap := some ⟨0, 5⟩ } } }

/-- The machine with that core and that strand at the focus, and flume 0 bound to the core's region. -/
def staleWait : State :=
  { State.reset with
    cores := State.reset.cores.set 0 staleCore
    fab := { State.reset.fab with flumes := State.reset.fab.flumes.set 0 { State.reset.fab.flumes[(0 : Fin 256)] with region := some staleCore.ctx.region } }
    focusStrand := .ctx 0 }

/-- A put of scope 0 at that strand. -/
def staleWait.put : State := sWord .s noTok 0 (jS [] [0, 0]) false (fun c st k => .flput (c.rdS st 0) (c.rdS st 0) k) staleWait

/-- The word is that put. -/
theorem exec_staleWait : exec (.flput noTok 0 0 0) staleWait = .next staleWait.put := rfl

/-- The put runs as it is fetched, and nothing of the core stands before it. -/
theorem staleWait_memRuns : staleWait.memRuns .s noTok (jS [] [0, 0]) := by
  refine ⟨⟨?_, ?_, ?_⟩, ?_⟩
  · decide +kernel
  · exact ⟨rfl, rfl⟩
  · intro h; cases h
  · intro h; cases h

/-- The strand still waits at its capture, finds it stale (STALE_SCOPE), and the core freezes where the word stands. -/
theorem staleWait_put_traps : staleWait.put.cur.pcOf (.ctx 0) = 0 ∧ staleWait.put.cur.phase = .frozen := by decide +kernel

/-- Refutes O26: its hypotheses ask for a valid scope entry only; a handler strand that waits has its scope's generation from when its wait began (R212), and where the
entry has gone on since, the word traps with STALE_SCOPE (R213) and does not go on: a put into flume 0 by handler context 0. -/
theorem not_flumeAndPushWords : ¬ Obligations.FlumeAndPushWords := by
  rintro ⟨hfl, -⟩
  obtain ⟨hput, -⟩ := hfl staleWait noTok 0 0 0 0 0 (by decide +kernel) (fun x hx => absurd hx (List.not_mem_nil)) rfl rfl rfl
  obtain ⟨s', hs', -, -, -, ⟨hpc, -⟩, -⟩ := hput staleWait_memRuns (by decide +kernel) (by decide +kernel) (by decide +kernel) (by decide +kernel) (by decide +kernel)
  obtain rfl : staleWait.put = s' := by simpa [exec_staleWait] using hs'
  exact absurd (hpc.symm.trans staleWait_put_traps.1) (by decide +kernel)

end Sys2Proof.Machine
end

section
/-! SUPPORT for O50. What an arrival record does at its core, and what a handler has as it starts (R187 to R189, R226). -/

namespace Sys2Proof.Machine

/-- A record that is discarded is counted, and nothing else (R187). -/
theorem Core.arrive_discarded {c : Core} {ar : BitVec 256} (rel) (h : c.discards ar = true) : c.arrive ar rel = { c with arrdrop := c.arrdrop + 1 } :=
  if_pos h

/-- A record that is not discarded joins the queue (R188). -/
theorem Core.arrive_queued {c : Core} {ar : BitVec 256} (rel) (h : c.discards ar = false) :
    c.arrive ar rel = { c with arrivals := c.arrivals ++ [⟨ar, rel⟩], replayable := false } := if_neg (by simp [h])

/-- A well-formed record: its kind is 1 to 3, and its reserved fields are 0 (R187). -/
def arrivalFormed (ar : BitVec 256) : Prop := fld ar 0 8 ≠ 0 ∧ fld ar 0 8 ≤ 3 ∧ fld ar 24 8 = 0 ∧ fld ar 78 18 = 0

/-- A well-formed record reaches its core, where it is discarded or there is room for it. -/
theorem execArrivalReceive_arrives {s : State} {c : Fin 128} {ar : BitVec 256} (hf : arrivalFormed ar)
    (hr : s.cores[c].discards ar = false → s.cores[c].arrivals.length < Config.arrivalDepth) :
    execArrivalReceive c ar s = .next (s.modCore c (fun k => k.arrive ar none)) := by
  obtain ⟨h0, h3, hz, hz'⟩ := hf
  have hroom : ¬ (!s.cores[c].discards ar && decide (Config.arrivalDepth ≤ s.cores[c].arrivals.length)) = true := by
    cases hd : s.cores[c].discards ar with
    | true => simp
    | false => simpa using hr hd
  rw [execArrivalReceive, if_neg (by omega), if_neg hroom]

/-- A full queue keeps a record that would join it with its sender (R188). -/
theorem execArrivalReceive_full {s : State} {c : Fin 128} {ar : BitVec 256} (hd : s.cores[c].discards ar = false)
    (hr : Config.arrivalDepth ≤ s.cores[c].arrivals.length) : execArrivalReceive c ar s = .next s := by
  simp [execArrivalReceive, -Fin.getElem_fin, hd, hr]

/-- Core `c` as the record `ar` has left its queue, which is `rest` now, and runs in context `h`; its clock has come to `t` (R188, R189, R226). -/
def Core.startsHandler (c : Core) (h : Fin 3) (ar : BitVec 256) (rest : List Arrival) (t : Nat) : Core :=
  let c1 := (c.accept 7).raiseClock t
  { c1 with arrivals := rest, poison := c1.poison.filter (fun x => x.file != tagH + h.val) }.setHnd h
    (handlerOf ar c.sys.qwlim ((c.eng.issued[(7 : Fin 8)]).toNat + 1))

/-- A live core with a free context starts the oldest record's handler there. -/
theorem execHandlerStart_starts {s : State} {c : Fin 128} {ar rel rest h} (ha : s.cores[c].arrivals = ⟨ar, rel⟩ :: rest)
    (hf : s.cores[c].freeContext = some h) (hl : s.cores[c].live = true) :
    execHandlerStart c s = .next (s.modCore c (fun x => x.startsHandler h ar rest (acquired rel.toList c.val (s.scopeEntry c 15) 15))) := by
  simp only [execHandlerStart, ha, hf, hl]
  rfl

/-- The handler context that starts holds the handler of its record. -/
theorem Core.startsHandler_same (c : Core) (h : Fin 3) (ar rest t) :
    (c.startsHandler h ar rest t).hnd[h] = handlerOf ar c.sys.qwlim ((c.eng.issued[(7 : Fin 8)]).toNat + 1) :=
  Vector.getElem_set_self ..

/-- The other contexts stand. -/
theorem Core.startsHandler_ne (c : Core) {h h' : Fin 3} (ar rest t) (hne : h' ≠ h) : (c.startsHandler h ar rest t).hnd[h'] = c.hnd[h'] :=
  Vector.getElem_set_ne h.isLt h'.isLt (fun e => hne (Fin.ext e.symm))

@[simp] theorem Core.startsHandler_arrivals (c : Core) (h ar rest t) : (c.startsHandler h ar rest t).arrivals = rest := rfl
@[simp] theorem Core.startsHandler_clock (c : Core) (h ar rest t) : (c.startsHandler h ar rest t).mem.clock = max c.mem.clock t := rfl
@[simp] theorem Core.startsHandler_regs (c : Core) (h ar rest t) : (c.startsHandler h ar rest t).regs = c.regs := rfl
@[simp] theorem Core.startsHandler_pc (c : Core) (h ar rest t) : (c.startsHandler h ar rest t).pc = c.pc := rfl

/-- The scalars `h1` to `h4` of a handler that starts are the address, the length, the argument and the low half of its record (R189). -/
theorem handlerOf_scalars (ar q n) {c : Core} {h : Fin 3} (hx : c.hnd[h] = handlerOf ar q n) :
    c.rdS (.ctx h) 1 = BitVec.ofNat 64 (fld ar 128 64) ∧ c.rdS (.ctx h) 2 = BitVec.ofNat 64 (fld ar 96 32)
    ∧ c.rdS (.ctx h) 3 = BitVec.ofNat 64 (fld ar 192 64) ∧ c.rdS (.ctx h) 4 = BitVec.ofNat 64 (fld ar 0 64) := by
  simp only [Core.rdS, hx]
  exact ⟨rfl, rfl, rfl, rfl⟩

/-- Of the predicates of a handler that starts `p0` alone is true (R189). -/
theorem handlerOf_predicates (ar q n) {c : Core} {h : Fin 3} (hx : c.hnd[h] = handlerOf ar q n) {g : Guard} (hg : g.val < 4) :
    c.rdP (.ctx h) g = decide (g = 0) := by
  obtain ⟨g, hlt⟩ := g
  rw [Core.rdP, hx]
  interval_cases g <;> rfl

end Sys2Proof.Machine
end

section
/-! O50: arrivals and the start of handlers. -/

namespace Sys2Proof.Machine

/-- Settles O50: a record that may arrive goes through `Core.arrive`, and the core after a handler's start is `Core.startsHandler`. -/
theorem arrivalsStartHandlers : Obligations.ArrivalsStartHandlers := by
  intro s c ar
  refine ⟨fun h0 h3 hz hz' => ⟨fun hd => ?_, fun hd hr => ?_, fun hd hr => ?_⟩, fun rel rest h ha hf hl => ?_⟩
  · refine ⟨_, execArrivalReceive_arrives ⟨h0, h3, hz, hz'⟩ (fun h => absurd (h.symm.trans hd) (by decide)), ?_⟩
    rw [State.modCore_eq, Core.arrive_discarded _ hd, State.modCore_eq]
  · refine ⟨_, execArrivalReceive_arrives ⟨h0, h3, hz, hz'⟩ (fun _ => hr), ?_⟩
    rw [State.modCore_core, Core.arrive_queued _ hd]
    exact ⟨rfl, rfl, rfl⟩
  · exact execArrivalReceive_full hd hr
  · have hsame := s.cores[c].startsHandler_same h ar rest (acquired rel.toList c.val (s.scopeEntry c 15) 15)
    obtain ⟨h1, h2, h3, h4⟩ := handlerOf_scalars _ _ _ hsame
    refine ⟨_, execHandlerStart_starts ha hf hl, ?_⟩
    rw [State.modCore_core]
    refine ⟨Core.startsHandler_arrivals .., congrArg Handler.running hsame, congrArg Handler.pc hsame, h1, h2, h3, h4, fun g hg => handlerOf_predicates _ _ _ hsame hg,
      fun h' hne => Core.startsHandler_ne _ _ _ _ hne, ?_, ?_, Core.startsHandler_regs .., Core.startsHandler_pc .., State.modCore_mem ..⟩
    · simp
    · simp

end Sys2Proof.Machine
end

section
/-! SUPPORT for O51. How copies to memory, deferred pages, sends and acknowledged commands end (R184, R374, R391, R392, R395). -/

namespace Sys2Proof.Machine

/-! ### A command that finishes -/

/-- The counter of a context reaches the number of the command that finishes (R185). -/
theorem Core.finish_tl (c : Core) (k : Fin 8) (num stamp : Nat) : (c.finish k num stamp).eng.tl[k] = BitVec.ofNat 64 (max (c.eng.tl[k]).toNat num) :=
  Vector.getElem_set_self ..

/-! ### Copies to memory -/

/-- A core with no deferred page asks for none. -/
theorem State.askDeferred_none {s : State} {n : Fin 128} (h : s.cores[n].eng.deferred = []) : s.askDeferred n = s := by
  simp [State.askDeferred, -Fin.getElem_fin, h]

/-- The clearing of poison leaves the cores. -/
theorem State.copyClear_cores (s : State) (n : Fin 128) (c : CopyCmd) : (s.copyClear n c).cores = s.cores := by
  unfold State.copyClear
  split <;> rfl

/-- A copy to memory whose walk comes to its end with no page deferred clears the poison it covered and ends. -/
theorem State.copyRun_memory {s u : State} {n : Fin 128} {x : Fin 2} {cmd : CopyCmd} {l : List CopyCmd} {i : Nat} (hl : s.cores[n].eng.cpy[x] = cmd :: l)
    (hh : s.engineHeld n cmd.po cmd.spans = false) (hd : dTo cmd.hdr < 3)
    (hm : s.copyMemory n x cmd (s, cmd.progress) (cmd.total - cmd.progress) cmd.progress = (u, i, .done)) (hu : u.cores[n].eng.deferred = []) :
    s.copyRun n x = ((u.copyClear n cmd).copyDone n x cmd, .done) := by
  have h3 : dTo cmd.hdr ≠ 3 := by omega
  have h4 : dTo cmd.hdr ≠ 4 := by omega
  have h5 : dTo cmd.hdr ≠ 5 := by omega
  simp only [State.copyRun, hl, hh, hm, State.askDeferred_none hu, State.copyStop, if_neg h4, Bool.false_eq_true, if_false]

/-- The first command of a copy context leaves it as it ends, and the context's counter reaches its number (R184). -/
theorem State.copyDone_core (s : State) (n : Fin 128) (x : Fin 2) (cmd : CopyCmd) :
    ((s.copyDone n x cmd).cores[n]).eng.cpy[x] = (s.cores[n].eng.cpy[x]).tail
    ∧ ((s.copyDone n x cmd).cores[n]).eng.tl[copyCtx x] = BitVec.ofNat 64 (max (s.cores[n].eng.tl[copyCtx x]).toNat cmd.num)
    ∧ ((s.copyDone n x cmd).cores[n]).regs = s.cores[n].regs := by
  rw [State.copyDone, State.modCore_core]
  exact ⟨Vector.getElem_set_self .., Core.finish_tl .., rfl⟩

/-! ### Deferred pages -/

/-- The status of an arrival record (R187). -/
theorem arrivalRec_status (arg addr : W64) (len handler opseq src status kind : Nat) :
    fld (arrivalRec arg addr len handler opseq src status kind) 8 8 = status % 256 := by
  rw [arrivalRec, fld_ofNat _ _ _ (by decide), bits]
  omega

/-- The address of an arrival record (R187). -/
theorem arrivalRec_addr (arg addr : W64) (len handler opseq src status kind : Nat) :
    fld (arrivalRec arg addr len handler opseq src status kind) 128 64 = addr.toNat := by
  have := addr.isLt
  rw [arrivalRec, fld_ofNat _ _ _ (by decide), bits]
  omega

/-- Core `c` without the record of a deferred page. -/
def Core.dropDeferred (c : Core) (d : Deferred) : Core :=
  { c with eng := { c.eng with deferred := c.eng.deferred.filter (fun y => !(decide (y.ctx = d.ctx ∧ y.cmd.num = d.cmd.num ∧ y.page = d.page))) } }

/-- A page of a command with a handler is delivered to a core with room by its arrival record (R395). -/
theorem State.deliverPage_arrives {s : State} {n : Fin 128} {d : Deferred} {status : Nat} (hh : fld d.cmd.hdr 49 1 = 1)
    (hr : s.cores[n].arrivals.length < Config.arrivalDepth) :
    s.deliverPage n d status
      = some (s.modCore n (fun c => (c.dropDeferred d).arrive (d.arrival s.cores[n].ctx.opseq status) (some (s.serviceRel n d.ctx)))) := by
  have hroom : ¬ (!s.cores[n].discards (d.arrival s.cores[n].ctx.opseq status) && decide (Config.arrivalDepth ≤ s.cores[n].arrivals.length)) = true := by
    simp [-Fin.getElem_fin, hr]
  simp only [State.deliverPage, hh, if_neg hroom]
  rfl

/-- A core that has room for a record takes it, and the page's record goes. -/
theorem Core.dropDeferred_arrive {c : Core} {d : Deferred} {ar : BitVec 256} (rel) (h : c.discards ar = false) :
    ((c.dropDeferred d).arrive ar rel).arrivals = c.arrivals ++ [⟨ar, rel⟩] ∧ d ∉ ((c.dropDeferred d).arrive ar rel).eng.deferred := by
  rw [Core.arrive_queued rel (c := c.dropDeferred d) h]
  exact ⟨rfl, by simp [Core.dropDeferred]⟩

/-! ### Sends -/

/-- Behind a send that is not accepted nothing finishes. -/
theorem Core.settleSends_stops {c : Core} (h : c.eng.sends.head? ≠ some .accepted) (k : Nat) : Core.settleSends k c = c := by
  cases k with
  | zero => rfl
  | succ k =>
    rw [Core.settleSends]
    split
    · rename_i hs
      rw [hs] at h
      exact absurd rfl h
    · rfl

/-- The first send of a core finishes, and none behind it does: `tl5` counts it (R184). -/
theorem Core.sendFinished {c : Core} {x : Send} {l : List Send} (hs : c.eng.sends = x :: l) (hl : l.head? ≠ some .accepted) (k w : Nat) :
    (Core.settleSends k ((c.popSend).finishNext 5 w)).eng.sends = l
    ∧ (Core.settleSends k ((c.popSend).finishNext 5 w)).eng.tl[(5 : Fin 8)] = BitVec.ofNat 64 ((c.eng.tl[(5 : Fin 8)]).toNat + 1) := by
  have hpop : ((c.popSend).finishNext 5 w).eng.sends = l := by
    change c.eng.sends.tail = l
    rw [hs, List.tail_cons]
  rw [Core.settleSends_stops (hpop.symm ▸ hl)]
  refine ⟨hpop, (Core.finish_tl ..).trans ?_⟩
  change BitVec.ofNat 64 (max (c.eng.tl[(5 : Fin 8)]).toNat ((c.eng.tl[(5 : Fin 8)]).toNat + 1)) = _
  rw [Nat.max_eq_right (Nat.le_succ _)]

/-- A core's command of the Landing whose send is at the head goes on where the engine runs: an accepted one finishes. -/
theorem execSendFinish_accepted {s : State} {c : Fin 128} {l : List Send} (hr : s.cores[c].engineRuns 5 = true) (hs : s.cores[c].eng.sends = .accepted :: l) :
    execSendFinish c s = .next (s.modCore c (fun c => Core.settleSends c.eng.sends.length ((c.popSend).finishNext 5 0))) := by
  simp only [execSendFinish, hr, hs, Bool.not_true, Bool.false_eq_true, if_false]

/-- Slot `k` of flume `f` is copied: its bytes are written, and it is pending no more (R374). -/
def State.slotCopied (s : State) (c : Fin 128) (f : Fin 256) (k : Nat) (b : List Byte) : State :=
  let s1 := (s.performScoped (eclockKey c 5) (s.fab.flumes[f].slotPa k) b).1
  { s1 with fab := { s1.fab with flumes := s1.fab.flumes.set f { s.fab.flumes[f] with pending := s.fab.flumes[f].pending.filter (· != k) } } }

theorem execSendFinish_flume {s : State} {c : Fin 128} {f : Fin 256} {k : Nat} {b : List Byte} {l : List Send} (hr : s.cores[c].engineRuns 5 = true)
    (hs : s.cores[c].eng.sends = .flume f.val k b :: l) (ha : s.landingAsk c 4 .main f.val 2 (s.fab.flumes[f].slotPa k) b.length 0 = none) :
    execSendFinish c s = .next ((s.slotCopied c f k b).modCore c (fun x => Core.settleSends x.eng.sends.length
      ((x.popSend).finishNext 5 (s.performScoped (eclockKey c 5) (s.fab.flumes[f].slotPa k) b).2))) := by
  have hf : Fin.ofNat 256 f.val = f := Fin.ext (Nat.mod_eq_of_lt f.isLt)
  simp only [execSendFinish, hr, hs, hf, ha, Bool.not_true, Bool.false_eq_true, if_false]
  rfl

/-- The copy of a slot leaves the cores. -/
theorem State.slotCopied_cores (s : State) (c f k b) : (s.slotCopied c f k b).cores = s.cores :=
  congrArg Prod.fst (s.performScoped_duties (eclockKey c 5) (s.fab.flumes[f].slotPa k) b)

/-- The slot is not pending any more. -/
theorem State.slotCopied_pending (s : State) (c : Fin 128) (f : Fin 256) (k b) : k ∉ (s.slotCopied c f k b).fab.flumes[f].pending := by
  have h : (s.slotCopied c f k b).fab.flumes[f] = { s.fab.flumes[f] with pending := s.fab.flumes[f].pending.filter (· != k) } := Vector.getElem_set_self ..
  rw [h]
  simp

/-! ### Acknowledged commands -/

/-- The numbers that `tl6` counts are not 0. -/
theorem InFlight.cmds_ne_zero {x : InFlight} {n : Fin 128} {k : Nat} (h : k ∈ x.cmds n) : k ≠ 0 := by
  rcases List.mem_append.mp h with h | h
  · split at h
    · rename_i hx
      rw [List.mem_singleton.mp h]
      exact hx.2
    · exact absurd h List.not_mem_nil
  · obtain ⟨j, hj, rfl⟩ := List.mem_map.mp h
    simpa using (Bool.and_eq_true_iff.mp (List.mem_filter.mp hj).2).2

/-- A write in flight that is no part of command `k` of a core any more. -/
def InFlight.ackOf (x : InFlight) (c : Fin 128) (k : Nat) : InFlight := if x.core = c ∧ x.cmd = k then { x with cmd := 0 } else x

theorem InFlight.ackOf_cmd {x : InFlight} {c : Fin 128} {k : Nat} (hk : k ≠ 0) (hc : (x.ackOf c k).core = c) : (x.ackOf c k).cmd ≠ k := by
  unfold InFlight.ackOf at hc ⊢
  split at hc
  · rename_i h
    rw [if_pos h]
    exact hk.symm
  · rename_i h
    rw [if_neg h]
    exact fun he => h ⟨hc, he⟩

/-- The oldest command of `tl6` finishes where all its writes have performed (R184). -/
theorem State.ackOldest_performed {s : State} {c : Fin 128} {k : Nat} (hk : s.ackNext c = some k)
    (hp : ∀ y ∈ s.fab.inflight, (y.cmds c).contains k = true → y.performed = true) :
    s.ackOldest c = ({ s with fab := { s.fab with inflight := s.fab.inflight.map (·.ackOf c k) } } : State).modCore c
      (fun x => x.finish 6 k ((s.fab.inflight.filter (fun x => (x.cmds c).contains k)).foldl (fun t x => max t x.stamp) 0)) := by
  have hall : (s.fab.inflight.filter (fun x => (x.cmds c).contains k)).any (fun x => !x.performed) = false := by
    rw [List.any_eq_false]
    intro y hy
    obtain ⟨hm, hc⟩ := List.mem_filter.mp hy
    simp [hp y hm hc]
  simp only [State.ackOldest, hk, hall, Bool.false_eq_true, if_false]
  rfl

end Sys2Proof.Machine
end

section
/-! O51: copies, deferred pages, sends and acknowledged writes finish. -/

namespace Sys2Proof.Machine

/-- Settles O51: each event comes to the update that its lemma gives, of the core alone or of the core and a slot's bytes. -/
theorem copiesAndSendsFinish : Obligations.CopiesAndSendsFinish := by
  intro s c
  refine ⟨fun x cmd l u n hr hl hh hd hm hu hq => ?_, fun i d hi hr he hb => ?_, fun hr => ⟨fun l hs hl => ?_, fun f k b l hs hl ha => ?_⟩, fun k hk hp => ?_⟩
  · have hexec : execCopyCommandFinish c x s = .next ((u.copyClear c cmd).copyDone c x cmd) := by
      simp only [execCopyCommandFinish, hr, State.copyRun_memory hl hh hd hm hu, Bool.not_true, Bool.false_eq_true, if_false]
    obtain ⟨hcpy, htl, hregs⟩ := (u.copyClear c cmd).copyDone_core c x cmd
    rw [State.copyClear_cores] at hcpy htl hregs
    exact ⟨_, hexec, State.copyClear_mem .., by rw [hcpy, ← hq, hl, List.tail_cons], htl, hregs⟩
  · intro ar hd hroom
    have hexec : execDeferredPageDelivery c i s = .next ((s.deliverPage c d 1).getD s) := by
      simp only [execDeferredPageDelivery, hi, hr, he, Bool.not_true, Bool.false_eq_true, if_false]
    rw [State.deliverPage_arrives hb hroom] at hexec
    obtain ⟨harr, hgone⟩ := Core.dropDeferred_arrive (d := d) (some (s.serviceRel c d.ctx)) hd
    refine ⟨_, hexec, ⟨s.serviceRel c d.ctx, ?_⟩, ?_, arrivalRec_status .., arrivalRec_addr .., rfl⟩
    · rw [Option.getD_some, State.modCore_core]
      exact harr
    · rw [Option.getD_some, State.modCore_core]
      exact hgone
  · obtain ⟨hsends, htl⟩ := Core.sendFinished hs hl s.cores[c].eng.sends.length 0
    refine ⟨_, execSendFinish_accepted hr hs, ?_, ?_, rfl⟩ <;> rw [State.modCore_core]
    · exact hsends
    · exact htl
  · obtain ⟨hsends, htl⟩ := Core.sendFinished hs hl s.cores[c].eng.sends.length (s.performScoped (eclockKey c 5) (s.fab.flumes[f].slotPa k) b).2
    refine ⟨_, execSendFinish_flume hr hs ha, ?_, ?_, fun hc => (State.performScoped_leaves hc ..).mem, s.slotCopied_pending c f k b⟩ <;>
      rw [State.modCore_core, State.slotCopied_cores]
    · exact hsends
    · exact htl
  · have hk0 : k ≠ 0 := by
      obtain ⟨y, -, hy⟩ := List.mem_flatMap.mp (List.min?_mem hk)
      exact InFlight.cmds_ne_zero hy
    refine ⟨_, congrArg Host.Outcome.next (State.ackOldest_performed hk hp), ?_, fun y hy hc => ?_, rfl⟩
    · rw [State.modCore_core]
      exact Core.finish_tl ..
    · obtain ⟨x, -, rfl⟩ := List.mem_map.mp hy
      exact InFlight.ackOf_cmd hk0 hc

end Sys2Proof.Machine
end

section
/-! SUPPORT for O52. A go that issues at the head of X is accepted (R175, R178, R399). -/

namespace Sys2Proof.Machine

theorem Core.eng_passMarkers (c : Core) : c.passMarkers.eng = c.eng := by
  unfold Core.passMarkers
  split
  · rfl
  · dsimp only
    split
    · rfl
    · rfl

theorem Core.eng_pushes (c : Core) (q t) : (c.pushes q t).eng = c.eng := by
  have h (c : Core) (f b) : (c.pushTok f b).eng = c.eng := by cases b <;> rfl
  rw [Core.pushes, h, h]

theorem Core.eng_pops (c : Core) (q t) : (c.pops q t).eng = c.eng := by
  have h (c : Core) (f b) : (c.popTok f b).eng = c.eng := by cases b <;> rfl
  rw [Core.pops, h, h]

theorem Core.eng_setQueue (c : Core) (q l) : (c.setQueue q l).eng = c.eng := by cases q <;> rfl

theorem Core.eng_leave (c : Core) (q r) : (c.leave q r).eng = c.eng := by
  unfold Core.leave
  extract_lets c1 c2
  have h2 : c2.eng = c.eng := by
    change c1.eng = c.eng
    unfold c1
    split
    · rfl
    · exact Core.eng_pops ..
  split
  · rw [Core.eng_passMarkers, Core.eng_pushes, Core.eng_setQueue, h2]
  · exact (Core.eng_setQueue ..).trans h2

theorem Core.eng_remember (c : Core) (q seq r l) : (c.remember q seq r l).eng = c.eng := by
  unfold Core.remember
  dsimp only
  split <;> split <;> rfl

theorem Core.eng_unhand (c : Core) (q) : (c.unhand q).eng = c.eng := by
  unfold Core.unhand
  split
  · rfl
  · rfl

/-- The repair of a register by parity leaves the engines. -/
theorem State.repairTag_eng (s : State) (n t) : (s.repairTag n t).cores[n].eng = s.cores[n].eng := by
  unfold State.repairTag
  dsimp only
  split
  · split
    · rw [State.modCore_core, State.modCore_core]
    · exact (congrArg (fun v : Vector Core 128 => v[n].eng) (State.log_cores _ _)).trans (by rw [State.modCore_core])
  · rw [State.modCore_core, State.modCore_core]

theorem State.repair_eng (s : State) (n l) : (s.repair n l).cores[n].eng = s.cores[n].eng :=
  foldl_keeps (fun t : State => t.cores[n].eng = s.cores[n].eng) _ _ s rfl (fun t x ht => (t.repairTag_eng n x).trans ht)

/-- What holds of the state after a word that has issued. -/
def Res.Issued (P : State → Prop) : Res → Prop
  | .ok s | .goto s _ | .after s _ => P s
  | .stall _ | .wait _ | .trap _ => True

/-- The count of the matrix engine's commands, one above what it was. -/
def State.goCounted (s : State) (n : Fin 128) (u : State) : Prop := u.cores[n].eng.issued[(2 : Fin 8)] = s.cores[n].eng.issued[(2 : Fin 8)] + 1

/-- The core with an accepted go (R399). -/
theorem State.doMgo_counted (s : State) (n r tile ft cfg ab bb na nb) : (s.doMgo n r tile ft cfg ab bb na nb).Issued (s.goCounted n) := by
  have haccept (f : Core → Core) (h : ∀ c, (f c).eng.issued = c.eng.issued.set 2 (c.eng.issued[(2 : Fin 8)] + 1)) : (Res.ok (s.modCore n f)).Issued (s.goCounted n) := by
    change (s.modCore n f).cores[n].eng.issued[(2 : Fin 8)] = _
    rw [State.modCore_core, h]
    exact Vector.getElem_set_self ..
  unfold State.doMgo
  extract_lets c e acc rct counts chunks
  split
  · trivial
  split
  · trivial
  split
  · trivial
  split
  · trivial
  split
  · trivial
  split
  · trivial
  split
  · trivial
  · refine haccept _ (fun c => ?_)
    dsimp only
    split
    · rfl
    · rfl

/-- A go that issues at the head of X is counted (R399). -/
theorem State.issueRes_mgo {s u : State} {n : Fin 128} {r : Routed} {l tile ft cfg ab bb na nb} (hq : s.cores[n].qX = r :: l)
    (hm : r.uop = .mgo tile ft cfg ab bb na nb) (hon : r.on = true) (hd : r.done = false) (hu : s.issueRes n .x = .ok u) :
    u.cores[n].eng.issued[(2 : Fin 8)] = s.cores[n].eng.issued[(2 : Fin 8)] + 1 := by
  have hqueue : s.cores[n].queue .x = r :: l := hq
  have hgo : (execUop (s.repair n (r.uop.srcTags r.vtype)) n r).Issued ((s.repair n (r.uop.srcTags r.vtype)).goCounted n) := by
    rw [execUop, hm]
    exact State.doMgo_counted ..
  have hfin (v : State) (f : Core → Core) (hf : ∀ c, (f c).eng = c.eng) (hv : (s.repair n (r.uop.srcTags r.vtype)).goCounted n v) : s.goCounted n (v.modCore n f) := by
    rw [State.goCounted, State.modCore_core, hf, hv, State.repair_eng]
  have hkeep (c : Core) (seq vals) : (((c.remember .x seq r vals).leave .x r).unhand .x).eng = c.eng := by
    rw [Core.eng_unhand, Core.eng_leave, Core.eng_remember]
  simp only [State.issueRes, hqueue, hd, hon, Bool.false_eq_true, if_false, if_true, Bool.not_true] at hu
  split at hu
  · cases hu
  split at hu
  · cases hu
  split at hu
  · cases hu
  cases he : execUop (s.repair n (r.uop.srcTags r.vtype)) n r with
  | ok v =>
    rw [he] at hu hgo
    cases hu
    exact hfin v _ (fun c => hkeep c _ _) hgo
  | goto v p =>
    rw [he] at hu hgo
    cases hu
    exact hfin v _ (fun c => hkeep c _ _) hgo
  | after | wait | stall =>
    rw [he] at hu
    cases hu
  | trap t =>
    rw [he] at hu
    dsimp only at hu
    split at hu
    · cases hu
    · cases hu

end Sys2Proof.Machine
end

section
/-! SUPPORT for O52. A chunk of a go: skipped, squashed, or promoted into its tile (R253, R254). -/

namespace Sys2Proof.Machine

/-! ### The go at the head -/

/-- The go `g` behind its first chunk (R254). -/
def Go.behind (g : Go) (skipped : Bool) : Go :=
  { g with todo := g.todo.tail, width := fld g.ent 2 2, coarse := none, chunksDone := sat32 g.chunksDone 1, skipped := if skipped then sat32 g.skipped 1 else g.skipped }

/-- A go at the head that has a chunk left does not end. -/
theorem Core.endGos_stops {c : Core} {g : Go} {l : List Go} (hg : c.eng.gos = g :: l) (ht : g.todo ≠ []) (k : Nat) : Core.endGos k c = c := by
  cases k with
  | zero => rfl
  | succ k =>
    have hne : g.todo.isEmpty = false := by simpa using ht
    simp only [Core.endGos, hg, hne, Bool.false_eq_true, if_false]

/-- The go at the head as it is changed. -/
theorem Core.modGo_gos {c : Core} {g : Go} {l : List Go} (hg : c.eng.gos = g :: l) (f : Go → Go) : (c.modGo f).eng.gos = f g :: l := by
  simp only [Core.modGo, hg]

/-- A go with a further chunk comes to it. -/
theorem Core.nextChunk_goes {c : Core} {g : Go} {l : List Go} (hg : c.eng.gos = g :: l) (ht : g.todo.tail ≠ []) (sk : Bool) :
    (c.nextChunk sk).eng.gos = g.behind sk :: l ∧ (c.nextChunk sk).regs = c.regs := by
  have hgos : (c.modGo (·.behind sk)).freeSlots.eng.gos = g.behind sk :: l := Core.modGo_gos hg _
  have hnext : c.nextChunk sk = (c.modGo (·.behind sk)).freeSlots := Core.endGos_stops hgos ht 4
  rw [hnext]
  exact ⟨hgos, rfl⟩

/-- The width log leaves the gos and the registers. -/
theorem Core.logWidth_gos (c : Core) (w : Nat) : (c.logWidth w).eng.gos = c.eng.gos ∧ (c.logWidth w).regs = c.regs := by
  unfold Core.logWidth
  split
  · exact ⟨rfl, rfl⟩
  · exact ⟨rfl, rfl⟩

/-! ### Promotion (R251, R254) -/

/-- A word of a tile with a value of a pass added. -/
def promoted (old : W32) (v : Nat) : W32 := BitVec.ofNat 32 (fmtF32.addV 0 (fmtF32.decode old.toNat) (fmtF32.decode v)).bits

/-- One word of a pass added to its tile. -/
def Core.promoteWord (tile row0 : Nat) (vals : List Nat) (c : Core) (k : Nat) : Core :=
  c.setAcc tile (row0 + k / 128) (k % 128) (promoted (c.accWord tile (row0 + k / 128) (k % 128)) (vals.getD k 0))

/-- Rows of a tile are one run of words. -/
theorem accKey_run (tile row0 k : Nat) : accKey tile (row0 + k / 128) (k % 128) = tile * 16384 + row0 * 128 + k := by
  unfold accKey
  omega

/-- The words of the first `m` values of a pass, each added to once; every other word stands. -/
theorem Core.promoteWords_acc (tile row0 : Nat) (vals : List Nat) (c : Core) (m a : Nat) :
    sget 0 ((List.range m).foldl (Core.promoteWord tile row0 vals) c).regs.acc a
      = if tile * 16384 + row0 * 128 ≤ a ∧ a < tile * 16384 + row0 * 128 + m then promoted (sget 0 c.regs.acc a) (vals.getD (a - (tile * 16384 + row0 * 128)) 0)
        else sget 0 c.regs.acc a := by
  induction m with
  | zero => rw [if_neg (by omega)]; rfl
  | succ m ih =>
    rw [List.range_succ, List.foldl_append, List.foldl_cons, List.foldl_nil]
    generalize (List.range m).foldl (Core.promoteWord tile row0 vals) c = d at ih ⊢
    change sget 0 (sset 0 d.regs.acc (accKey tile (row0 + m / 128) (m % 128)) (promoted (sget 0 d.regs.acc (accKey tile (row0 + m / 128) (m % 128))) (vals.getD m 0))) a = _
    rw [accKey_run, sget_sset]
    by_cases ha : a = tile * 16384 + row0 * 128 + m
    · subst ha
      rw [if_pos rfl, ih, if_neg (by omega), if_pos (by omega), Nat.add_sub_cancel_left]
    · rw [if_neg ha, ih]
      exact if_congr (by omega) rfl rfl

/-- A promotion leaves all but the accumulators. -/
theorem Core.promote_leaves (c : Core) (tile row0 rows : Nat) (vals : List Nat) :
    (c.promote tile row0 rows vals).eng = c.eng ∧ (c.promote tile row0 rows vals).regs.s = c.regs.s ∧ (c.promote tile row0 rows vals).regs.v = c.regs.v :=
  foldl_keeps (fun d : Core => d.eng = c.eng ∧ d.regs.s = c.regs.s ∧ d.regs.v = c.regs.v) _ _ c ⟨rfl, rfl, rfl⟩ (fun _ _ hd => hd)

/-- Each value of the pass is added to its word of the tile. -/
theorem Core.promote_word (c : Core) {tile row0 rows k : Nat} (vals : List Nat) (hk : k < rows * 128) :
    (c.promote tile row0 rows vals).accWord tile (row0 + k / 128) (k % 128) = promoted (c.accWord tile (row0 + k / 128) (k % 128)) (vals.getD k 0) := by
  unfold Core.accWord
  rw [accKey_run]
  refine (Core.promoteWords_acc tile row0 vals c (rows * 128) _).trans ?_
  rw [if_pos (by omega), Nat.add_sub_cancel_left]

/-- Words of other tiles and of other rows stand. -/
theorem Core.promote_word_ne (c : Core) {tile row0 rows n i j : Nat} (vals : List Nat) (ht : row0 + rows ≤ 128) (hi : i < 128) (hj : j < 128)
    (h : n ≠ tile ∨ i < row0 ∨ row0 + rows ≤ i) : (c.promote tile row0 rows vals).accWord n i j = c.accWord n i j := by
  refine (Core.promoteWords_acc tile row0 vals c (rows * 128) _).trans ?_
  rw [if_neg]
  · rfl
  · unfold accKey
    omega

/-! ### One pass (R253, R254) -/

/-- The go `g` after a pass of its first chunk, with the coarse products of the chunk and what the pass counted. -/
def Go.passed (g : Go) (coarse : List Nat) (r : PassRes) : Go :=
  { g with coarse := some coarse, satTotal := sat32 g.satTotal r.sat, uflTotal := sat32 g.uflTotal r.ufl, cncTotal := sat32 g.cncTotal r.cnc.toNat }

/-- A core whose chunk promotes at a width. -/
def Core.promotes (c : Core) (g : Go) (x : Chunk) (w : Nat) (vals : List Nat) (exhaust : Bool) : Core :=
  ((((c.notePromote g.po (Fin.ofNat 4 x.tile)).promote x.tile x.row0 x.rows vals).modFt g.ft (fun t =>
    let t1 := incSat t (184 + 24 * w) 24
    if exhaust then incSat (setFld t1 112 1 1) 120 16 else t1)).logWidth w).nextChunk false

theorem State.promoteChunk_leaves (s : State) (n : Fin 128) (g x w vals exhaust) :
    (s.promoteChunk n g x w vals exhaust).cores[n] = s.cores[n].promotes g x w vals exhaust ∧ (s.promoteChunk n g x w vals exhaust).mem = s.mem := by
  have hcore : (s.modCore n (fun c => c.promotes g x w vals exhaust)).cores[n] = s.cores[n].promotes g x w vals exhaust := State.modCore_core ..
  cases exhaust with
  | false => exact ⟨hcore, rfl⟩
  | true => exact ⟨hcore, rfl⟩

/-- A chunk that promotes gives its go the next chunk, and changes the accumulators alone of the registers. -/
theorem Core.promotes_goes {c : Core} {h : Go} {l : List Go} (hg : c.eng.gos = h :: l) (ht : h.todo.tail ≠ []) (g : Go) (x : Chunk) (w : Nat) (vals : List Nat)
    (exhaust : Bool) : (c.promotes g x w vals exhaust).eng.gos = h.behind false :: l
      ∧ (c.promotes g x w vals exhaust).regs = ((c.notePromote g.po (Fin.ofNat 4 x.tile)).promote x.tile x.row0 x.rows vals).regs := by
  obtain ⟨heng, -, -⟩ := (c.notePromote g.po (Fin.ofNat 4 x.tile)).promote_leaves x.tile x.row0 x.rows vals
  unfold Core.promotes
  generalize (c.notePromote g.po (Fin.ofNat 4 x.tile)).promote x.tile x.row0 x.rows vals = d at heng ⊢
  generalize (fun t : BitVec 256 => _) = f
  obtain ⟨hw, hr⟩ := (d.modFt g.ft f).logWidth_gos w
  obtain ⟨hgos, hregs⟩ := Core.nextChunk_goes (c := (d.modFt g.ft f).logWidth w) (hw.trans (by rw [← hg]; exact congrArg Engines.gos heng)) ht false
  exact ⟨hgos, hregs.trans hr⟩

/-- What one pass of a chunk gives (R251 to R253). -/
def Go.pass (g : Go) (x : Chunk) (a b : Block) (coarse : List Nat) : PassRes :=
  chunkPass g.width (fld g.ent 27 5) a b x.row0 x.rows (fun i => coarse.getD i 0x3F800000)

/-- The core as a pass of its first chunk has been counted in its go. -/
def Core.counted (c : Core) (coarse : List Nat) (r : PassRes) : Core := c.modGo (·.passed coarse r)

theorem State.counted_core (s : State) (n : Fin 128) (e : BitVec 256) (co : List Nat) (r : PassRes) :
    ((s.countMonitors n e r).modCore n (fun c => c.counted co r)).cores[n] = s.cores[n].counted co r := State.modCore_core ..

/-- A pass over its budget below the ceiling leaves the registers, and its go runs the chunk again one width wider (R253, R254). -/
theorem State.passChunk_squashed {s : State} {n : Fin 128} {g : Go} {l : List Go} {x : Chunk} {a b : Block} {co : List Nat} (hg : s.cores[n].eng.gos = g :: l)
    (ho : overBudget g.ent (g.pass x a b co) = true) (hw : g.width < fld g.ent 4 2) :
    (s.passChunk n g x a b co).cores[n].eng.gos = { g.passed co (g.pass x a b co) with width := g.width + 1 } :: l
    ∧ (s.passChunk n g x a b co).cores[n].regs = s.cores[n].regs ∧ (s.passChunk n g x a b co).mem = s.mem := by
  have hpass : s.passChunk n g x a b co = (((s.countMonitors n g.ent (g.pass x a b co)).modCore n (fun c => c.counted co (g.pass x a b co))).modCore n
      (fun c => (c.modFt g.ft (fun t => incSat t (136 + 24 * g.width) 24)).modGo (fun g => { g with width := g.width + 1 }))).modBoard
        (fun b => b.binWidth n (Fin.ofNat 6 (3 + g.width))) := if_pos ⟨ho, hw⟩
  rw [hpass, State.modBoard_cores, State.modCore_core, State.counted_core]
  exact ⟨Core.modGo_gos (c := (s.cores[n].counted co (g.pass x a b co)).modFt g.ft _) (Core.modGo_gos hg _) _, rfl, rfl⟩

/-- Any other pass promotes. -/
theorem State.passChunk_promotes {s : State} {n : Fin 128} {g : Go} {l : List Go} {x : Chunk} {a b : Block} {co : List Nat} (hg : s.cores[n].eng.gos = g :: l)
    (ho : overBudget g.ent (g.pass x a b co) = false ∨ fld g.ent 4 2 ≤ g.width) (ht : g.todo.tail ≠ []) :
    (s.passChunk n g x a b co).cores[n].eng.gos = (g.passed co (g.pass x a b co)).behind false :: l
    ∧ (s.passChunk n g x a b co).cores[n].regs
      = (((s.cores[n].counted co (g.pass x a b co)).notePromote g.po (Fin.ofNat 4 x.tile)).promote x.tile x.row0 x.rows (g.pass x a b co).vals).regs
    ∧ (s.passChunk n g x a b co).mem = s.mem := by
  have hpass : s.passChunk n g x a b co = ((s.countMonitors n g.ent (g.pass x a b co)).modCore n (fun c => c.counted co (g.pass x a b co))).promoteChunk
      n g x g.width (g.pass x a b co).vals (overBudget g.ent (g.pass x a b co)) := by
    refine if_neg (fun h => ?_)
    rcases ho with ho | ho
    · exact absurd (h.1.symm.trans ho) (by decide)
    · exact absurd h.2 (by omega)
  obtain ⟨hcore, hmem⟩ := State.promoteChunk_leaves ((s.countMonitors n g.ent (g.pass x a b co)).modCore n (fun c => c.counted co (g.pass x a b co)))
    n g x g.width (g.pass x a b co).vals (overBudget g.ent (g.pass x a b co))
  obtain ⟨hgos, hregs⟩ := Core.promotes_goes (c := s.cores[n].counted co (g.pass x a b co)) (Core.modGo_gos hg _) ht g x g.width (g.pass x a b co).vals
    (overBudget g.ent (g.pass x a b co))
  rw [hpass, hcore, State.counted_core]
  exact ⟨hgos, hregs, hmem⟩

/-! ### The event (R254) -/

/-- What stands before the engine: the go `g` with the chunk `x` before it, whose blocks are `a` and `b`. -/
structure Core.AtChunk (c : Core) (g : Go) (l : List Go) (x : Chunk) (xs : List Chunk) (a b : Block) : Prop where
  runs : c.engineRuns 2 = true
  gos : c.eng.gos = g :: l
  todo : g.todo = x :: xs
  rows : 0 < x.rows
  blockA : c.eng.fifoA.find? (fun k => k.pos == g.abase + x.pa) = some a
  blockB : c.eng.fifoB.find? (fun k => k.pos == g.bbase + x.pb) = some b

/-- A chunk with a null block is skipped. -/
theorem execMatrixChunkPass_null {s : State} {c : Fin 128} {g l x xs a b} (h : s.cores[c].AtChunk g l x xs a b) (hn : (a.null || b.null) = true) :
    execMatrixChunkPass c s = .next (s.modCore c (fun k => (k.logWidth 0).nextChunk true)) := by
  obtain ⟨hr, hg, ht, hrows, ha, hb⟩ := h
  simp only [execMatrixChunkPass, hr, hg, ht, ha, hb, hn, if_neg (Nat.pos_iff_ne_zero.mp hrows), Bool.not_true, Bool.false_eq_true, if_false, if_true]

/-- A chunk whose blocks are sound and of the entry's formats makes one pass. -/
theorem execMatrixChunkPass_pass {s : State} {c : Fin 128} {g l x xs a b} (h : s.cores[c].AtChunk g l x xs a b) (hna : a.null = false) (hnb : b.null = false)
    (hpa : a.poison = false) (hpb : b.poison = false) (hc : fld g.ent 68 1 = 0) (htag : tagsDiffer g.ent a b = false) :
    execMatrixChunkPass c s = .next (s.passChunk c g x a b (g.coarse.getD (s.coarse c g.ent x))) := by
  obtain ⟨hr, hg, ht, hrows, ha, hb⟩ := h
  simp only [execMatrixChunkPass, hr, hg, ht, ha, hb, hna, hnb, hpa, hpb, hc, htag, if_neg (Nat.pos_iff_ne_zero.mp hrows), Bool.not_true, Bool.or_self,
    Bool.false_eq_true, if_false, false_and, Nat.zero_ne_one]

/-! ### The window engine (R406, R407) -/

/-- A block that enters the A FIFO changes that FIFO alone. -/
theorem Core.pushA_leaves {c k : Core} {b : Block} (h : c.pushA b = some k) : k = { c with eng := { c.eng with fifoA := k.eng.fifoA } } := by
  unfold Core.pushA at h
  split at h
  · cases h
    rfl
  · split at h
    · cases h
      rfl
    · cases h

end Sys2Proof.Machine
end

section
/-! SUPPORT for O52. The crew ring: who is whose neighbour, and what the shift writes (R193, R377). -/

namespace Sys2Proof.Machine

/-! ### Neighbours -/

/-- In a list without repetition, what follows an element begins behind its place. -/
theorem dropWhile_ne_getElem {l : List Nat} (h : l.Nodup) {i : Nat} (hi : i < l.length) : l.dropWhile (· != l[i]) = l.drop i := by
  induction l generalizing i with
  | nil => exact absurd hi (by simp)
  | cons a l ih =>
    obtain ⟨ha, hl⟩ := List.nodup_cons.mp h
    cases i with
    | zero => simp
    | succ i =>
      have hi' : i < l.length := by simpa using hi
      have hne : a ≠ l[i] := fun e => ha (e ▸ List.getElem_mem hi')
      simpa [List.dropWhile_cons, hne] using ih hl hi'

/-- The neighbour of the element at place `i` is the one at the next place, and the first one's of the last. -/
theorem ringNext_getElem {l : List Nat} (h : l.Nodup) {i : Nat} (hi : i < l.length) :
    ringNext true l l[i] = l[(i + 1) % l.length]'(Nat.mod_lt _ (by omega)) := by
  simp only [ringNext, if_true, dropWhile_ne_getElem h hi, List.tail_drop]
  by_cases hlast : i + 1 < l.length
  · rw [List.drop_eq_getElem_cons hlast]
    simp only [Nat.mod_eq_of_lt hlast]
  · have hlen : i + 1 = l.length := by omega
    rw [hlen, List.drop_length]
    cases l with
    | nil => exact absurd hi (by simp)
    | cons a l => simp

/-- A ring downward is the ring upward of the members in falling order. -/
theorem ringNext_false (l : List Nat) (m : Nat) : ringNext false l m = ringNext true l.reverse m := rfl

/-- The neighbour of a member of a ring upward is a member, and no two members have one neighbour. -/
theorem ringNext_up {l : List Nat} (h : l.Nodup) : (∀ m ∈ l, ringNext true l m ∈ l) ∧ ∀ m ∈ l, ∀ m' ∈ l, ringNext true l m = ringNext true l m' → m = m' := by
  refine ⟨fun m hm => ?_, fun m hm m' hm' he => ?_⟩
  · obtain ⟨i, hi, rfl⟩ := List.getElem_of_mem hm
    rw [ringNext_getElem h hi]
    exact List.getElem_mem _
  · obtain ⟨i, hi, rfl⟩ := List.getElem_of_mem hm
    obtain ⟨j, hj, rfl⟩ := List.getElem_of_mem hm'
    rw [ringNext_getElem h hi, ringNext_getElem h hj] at he
    have hij : (i + 1) % l.length = (j + 1) % l.length := (h.getElem_inj_iff).mp he
    have : i = j := by
      rcases Nat.lt_or_ge (i + 1) l.length with hi' | hi' <;> rcases Nat.lt_or_ge (j + 1) l.length with hj' | hj'
      · rw [Nat.mod_eq_of_lt hi', Nat.mod_eq_of_lt hj'] at hij
        omega
      · rw [Nat.mod_eq_of_lt hi', show j + 1 = l.length by omega, Nat.mod_self] at hij
        omega
      · rw [Nat.mod_eq_of_lt hj', show i + 1 = l.length by omega, Nat.mod_self] at hij
        omega
      · omega
    subst this
    rfl

/-- The same in either direction. -/
theorem ringNext_member (up : Bool) {l : List Nat} (h : l.Nodup) {m : Nat} (hm : m ∈ l) : ringNext up l m ∈ l := by
  cases up with
  | true => exact (ringNext_up h).1 m hm
  | false => exact List.mem_reverse.mp ((ringNext_up (List.nodup_reverse.mpr h)).1 m (List.mem_reverse.mpr hm))

theorem ringNext_inj (up : Bool) {l : List Nat} (h : l.Nodup) {m m' : Nat} (hm : m ∈ l) (hm' : m' ∈ l) (he : ringNext up l m = ringNext up l m') : m = m' := by
  cases up with
  | true => exact (ringNext_up h).2 m hm m' hm' he
  | false => exact (ringNext_up (List.nodup_reverse.mpr h)).2 m (List.mem_reverse.mpr hm) m' (List.mem_reverse.mpr hm') he

/-! ### Members -/

/-- The members of a ring are cores of one crew, each named once. -/
theorem ringMembers_nodup (crew : Fin 16) (d : W64) : (ringMembers crew d).Nodup :=
  ((List.nodup_range).filter _).map (fun a b (e : a + 8 * crew.val = b + 8 * crew.val) => by omega)

theorem ringMembers_lt {crew : Fin 16} {d : W64} {m : Nat} (h : m ∈ ringMembers crew d) : m < 128 := by
  obtain ⟨k, hk, rfl⟩ := List.mem_map.mp h
  have := List.mem_range.mp (List.mem_filter.mp hk).1
  omega

theorem State.ringOf_nodup (s : State) (n : Nat) : (s.ringOf n).Nodup := by
  unfold State.ringOf
  split
  · exact ringMembers_nodup _ _
  · exact List.nodup_nil

theorem State.ringOf_lt {s : State} {n m : Nat} (h : m ∈ s.ringOf n) : m < 128 := by
  unfold State.ringOf at h
  split at h
  · exact ringMembers_lt h
  · exact absurd h List.not_mem_nil

/-! ### Runs written one after another -/

/-- Two runs of bytes share none. -/
def runsApart (a b : Nat × List Byte) : Prop := a.1 + a.2.length ≤ b.1 ∨ b.1 + b.2.length ≤ a.1

theorem storedRuns_cons (m : Memory) (w : Nat × List Byte) (ws : List (Nat × List Byte)) : storedRuns m (w :: ws) = storedRuns (memWrite m w.1 w.2) ws := rfl

/-- A run apart from all that are written stands. -/
theorem memRead_storedRuns_apart {ws : List (Nat × List Byte)} {pa n : Nat} (h : ∀ w ∈ ws, pa + n ≤ w.1 ∨ w.1 + w.2.length ≤ pa) (m : Memory) :
    memRead (storedRuns m ws) pa n = memRead m pa n := by
  induction ws generalizing m with
  | nil => rfl
  | cons w ws ih =>
    obtain ⟨hw, hws⟩ := List.forall_mem_cons.mp h
    rw [storedRuns_cons, ih hws, memRead_memWrite_ne _ _ _ _ _ hw]

/-- Of runs that are apart each reads back as it was written. -/
theorem memRead_storedRuns {ws : List (Nat × List Byte)} (h : ws.Pairwise runsApart) {w : Nat × List Byte} (hw : w ∈ ws) (m : Memory) :
    memRead (storedRuns m ws) w.1 w.2.length = w.2 := by
  induction ws generalizing m with
  | nil => exact absurd hw List.not_mem_nil
  | cons x ws ih =>
    obtain ⟨hx, hws⟩ := List.pairwise_cons.mp h
    rw [storedRuns_cons]
    rcases List.mem_cons.mp hw with rfl | hw
    · rw [memRead_storedRuns_apart (fun y hy => hx y hy), memRead_memWrite]
    · exact ih hws hw _

/-! ### The shift (R193) -/

/-- Bytes of different cores' scratch that stay within their scratch are apart. -/
theorem scratchPa_apart {m n : Fin 128} (h : m ≠ n) {a b len : Nat} (ha : a + len ≤ Config.scratchSize) (hb : b + len ≤ Config.scratchSize) :
    scratchPa m a + len ≤ scratchPa n b ∨ scratchPa n b + len ≤ scratchPa m a := by
  have hne : m.val ≠ n.val := fun e => h (Fin.ext e)
  simp only [Config.scratchSize] at ha hb
  simp only [scratchPa, Config.scratchSize]
  omega

/-- The member to which `m` sends, `m`, and the tile it sends. -/
def State.ringTile (s : State) (l : List Nat) (d : W64) (m : Nat) : Nat × Nat × List Byte :=
  match s.ringAt m with
  | some x => (ringNext (fld d 8 1 == 0) l m, m, memRead s.mem (scratchPa (Fin.ofNat 128 m) x.a.toNat) (fld d 32 21))
  | none => (m, m, [])

/-- The state `s` with what a ring command does to it, if there is one. (Said of any `f`: the kernel has no bytes to write as it takes the cases apart.) -/
def State.ifRing (s : State) (o : Option RingCmd) (f : RingCmd → State) : State :=
  match o with
  | some x => f x
  | none => s

theorem State.ifRing_some (s : State) (x : RingCmd) (f : RingCmd → State) : s.ifRing (some x) f = f x := rfl

/-- A tile lands. -/
def State.ringLand (s : State) (t : Nat × Nat × List Byte) : State :=
  s.ifRing (s.ringAt t.1) (fun x => (s.performScoped (eclockKey (Fin.ofNat 128 t.2.1) 4) (scratchPa (Fin.ofNat 128 t.1) x.b.toNat) t.2.2).1)

/-- The command of member `m` ends (R184). -/
def State.ringLeave (s : State) (m : Nat) : State :=
  match s.ringAt m with
  | some x => s.modCore (Fin.ofNat 128 m) (fun c =>
      ({ c with eng := { c.eng with rings := c.eng.rings.tail } } : Core).finish 4 x.num (sget 0 s.fab.eclock (eclockKey (Fin.ofNat 128 m) 4)))
  | none => s

theorem State.ringShift_eq (s : State) (l : List Nat) (d : W64) : s.ringShift l d = l.foldl State.ringLeave ((l.map (s.ringTile l d)).foldl State.ringLand s) := rfl

/-- Where a tile for member `m` lands. -/
def State.ringPa (s : State) (m : Nat) : Nat := match s.ringAt m with | some x => scratchPa (Fin.ofNat 128 m) x.b.toNat | none => 0

/-- With the same cores, the heads of the ring contexts are the same. -/
theorem State.ringAt_congr {s t : State} (h : t.cores = s.cores) (m : Nat) : t.ringAt m = s.ringAt m := by rw [State.ringAt, h]; rfl

theorem State.ringPa_congr {s t : State} (h : t.cores = s.cores) (m : Nat) : t.ringPa m = s.ringPa m := by
  unfold State.ringPa
  rw [State.ringAt_congr h]

theorem State.ringPa_some {s : State} {m : Nat} {x : RingCmd} (h : s.ringAt m = some x) : s.ringPa m = scratchPa (Fin.ofNat 128 m) x.b.toNat := by
  rw [State.ringPa, h]

/-- A tile that lands is written. -/
theorem State.ringLand_wrote {s : State} (hs : s.clean) {t : Nat × Nat × List Byte} (ht : (s.ringAt t.1).isSome) :
    s.Wrote (s.ringLand t) (memWrite s.mem (s.ringPa t.1) t.2.2) := by
  obtain ⟨x, hx⟩ := Option.isSome_iff_exists.mp ht
  rw [State.ringLand, hx, State.ifRing_some, State.ringPa_some hx]
  exact State.performScoped_leaves hs ..

/-- The tiles that land are written in order. -/
theorem State.ringLands_wrote (ts : List (Nat × Nat × List Byte)) {s : State} (hs : s.clean) (ht : ∀ t ∈ ts, (s.ringAt t.1).isSome) :
    s.Wrote (ts.foldl State.ringLand s) (storedRuns s.mem (ts.map (fun t => (s.ringPa t.1, t.2.2)))) := by
  induction ts generalizing s with
  | nil => exact ⟨rfl, rfl, hs⟩
  | cons t ts ih =>
    obtain ⟨hx, hts⟩ := List.forall_mem_cons.mp ht
    have h1 := State.ringLand_wrote hs hx
    have h2 := ih h1.clean (fun y hy => by rw [State.ringAt_congr h1.cores]; exact hts y hy)
    simp only [State.ringPa_congr h1.cores, h1.mem] at h2
    rw [List.foldl_cons, List.map_cons, storedRuns_cons]
    exact h1.trans h2

/-- The end of a member's command leaves memory, and takes its command from its core alone. -/
theorem State.ringLeave_mem (s : State) (m : Nat) : (s.ringLeave m).mem = s.mem := by
  unfold State.ringLeave
  split
  · rfl
  · rfl

theorem State.ringLeave_rings (s : State) (m : Nat) (n : Fin 128) :
    (s.ringLeave m).cores[n].eng.rings = if n = Fin.ofNat 128 m then s.cores[n].eng.rings.tail else s.cores[n].eng.rings := by
  unfold State.ringLeave
  by_cases hn : n = Fin.ofNat 128 m
  · subst hn
    rw [if_pos rfl]
    split
    · exact congrArg (fun c : Core => c.eng.rings) (State.modCore_core ..)
    · next hx =>
      rw [List.head?_eq_none_iff.mp hx]
      rfl
  · rw [if_neg hn]
    split
    · exact congrArg (fun c : Core => c.eng.rings) (State.modCore_core_ne _ _ hn)
    · rfl

/-- Every member's command is gone as the shift ends, and each core has lost one at most. -/
theorem State.ringLeaves_rings {l : List Nat} (hl : l.Nodup) (hlt : ∀ m ∈ l, m < 128) (s : State) (n : Fin 128) :
    (l.foldl State.ringLeave s).cores[n].eng.rings = if n.val ∈ l then s.cores[n].eng.rings.tail else s.cores[n].eng.rings := by
  induction l generalizing s with
  | nil => rfl
  | cons m l ih =>
    obtain ⟨hm, hl⟩ := List.nodup_cons.mp hl
    obtain ⟨hmlt, hlt⟩ := List.forall_mem_cons.mp hlt
    have hmn : n = Fin.ofNat 128 m ↔ n.val = m := by
      rw [Fin.ext_iff, Fin.val_ofNat, Nat.mod_eq_of_lt hmlt]
    rw [List.foldl_cons, ih hl hlt, State.ringLeave_rings]
    by_cases hn : n.val = m
    · rw [if_neg (hn ▸ hm), if_pos (hmn.mpr hn), if_pos (hn ▸ List.mem_cons_self)]
    · rw [if_neg (fun e => hn (hmn.mp e))]
      simp [hn]

end Sys2Proof.Machine
end

section
/-! SUPPORT for O52. A ring whose members are ready, agree and may reach their tiles shifts (R193). -/

namespace Sys2Proof.Machine

/-- Every member of `l` has a ring command whose destination for `len` bytes lies in its scratch. -/
def State.ringFits (s : State) (l : List Nat) (len : Nat) : Prop := ∀ m ∈ l, ∃ x, s.ringAt m = some x ∧ x.b.toNat + len ≤ Config.scratchSize

theorem State.ringTile_some {s : State} {m : Nat} {x : RingCmd} (h : s.ringAt m = some x) (l : List Nat) (d : W64) :
    s.ringTile l d m = (ringNext (fld d 8 1 == 0) l m, m, memRead s.mem (scratchPa (Fin.ofNat 128 m) x.a.toNat) (fld d 32 21)) := by
  rw [State.ringTile, h]

/-- The run of bytes that member `m` sends, at where it lands. -/
def State.ringRun (s : State) (l : List Nat) (d : W64) (m : Nat) : Nat × List Byte := (s.ringPa (s.ringTile l d m).1, (s.ringTile l d m).2.2)

theorem State.ringRun_some {s : State} {l : List Nat} {d : W64} {m : Nat} {x y : RingCmd} (hx : s.ringAt m = some x)
    (hy : s.ringAt (ringNext (fld d 8 1 == 0) l m) = some y) :
    s.ringRun l d m = (scratchPa (Fin.ofNat 128 (ringNext (fld d 8 1 == 0) l m)) y.b.toNat, memRead s.mem (scratchPa (Fin.ofNat 128 m) x.a.toNat) (fld d 32 21)) := by
  rw [State.ringRun, State.ringTile_some hx, State.ringPa_some hy]

/-- The runs of the members of a ring are apart: they land at different cores. -/
theorem State.ringRuns_apart {s : State} {l : List Nat} {d : W64} (hl : l.Nodup) (hlt : ∀ m ∈ l, m < 128) (hf : s.ringFits l (fld d 32 21)) :
    (l.map (s.ringRun l d)).Pairwise runsApart := by
  rw [List.pairwise_map]
  refine hl.imp_of_mem (fun {m m'} hm hm' hne => ?_)
  have hnext := ringNext_member (fld d 8 1 == 0) hl hm
  have hnext' := ringNext_member (fld d 8 1 == 0) hl hm'
  obtain ⟨x, hx, -⟩ := hf m hm
  obtain ⟨x', hx', -⟩ := hf m' hm'
  obtain ⟨y, hy, hfit⟩ := hf _ hnext
  obtain ⟨y', hy', hfit'⟩ := hf _ hnext'
  have hcore : Fin.ofNat 128 (ringNext (fld d 8 1 == 0) l m) ≠ Fin.ofNat 128 (ringNext (fld d 8 1 == 0) l m') := fun e => by
    have he := congrArg Fin.val e
    rw [Fin.val_ofNat, Fin.val_ofNat, Nat.mod_eq_of_lt (hlt _ hnext), Nat.mod_eq_of_lt (hlt _ hnext')] at he
    exact hne (ringNext_inj _ hl hm hm' he)
  rw [State.ringRun_some hx hy, State.ringRun_some hx' hy', runsApart, length_memRead, length_memRead]
  exact scratchPa_apart hcore hfit hfit'

/-- The members' tiles are written, each where it lands. -/
theorem State.ringTiles_wrote {s : State} {l : List Nat} {d : W64} (hs : s.clean) (hl : l.Nodup) (hf : s.ringFits l (fld d 32 21)) :
    s.Wrote ((l.map (s.ringTile l d)).foldl State.ringLand s) (storedRuns s.mem (l.map (s.ringRun l d))) := by
  have hlands := State.ringLands_wrote (l.map (s.ringTile l d)) hs (fun t ht => by
    obtain ⟨m, hm, rfl⟩ := List.mem_map.mp ht
    obtain ⟨x, hx, -⟩ := hf m hm
    obtain ⟨y, hy, -⟩ := hf _ (ringNext_member (fld d 8 1 == 0) hl hm)
    rw [State.ringTile_some hx, hy]
    rfl)
  rw [List.map_map] at hlands
  exact hlands

/-- Memory after a shift has the tiles. -/
theorem State.ringShift_mem {s : State} {l : List Nat} {d : W64} (hs : s.clean) (hl : l.Nodup) (hf : s.ringFits l (fld d 32 21)) :
    (s.ringShift l d).mem = storedRuns s.mem (l.map (s.ringRun l d)) := by
  have hleave := foldl_keeps (fun t : State => t.mem = ((l.map (s.ringTile l d)).foldl State.ringLand s).mem) State.ringLeave l _ rfl
    (fun t m ht => (t.ringLeave_mem m).trans ht)
  rw [State.ringShift_eq, hleave, (State.ringTiles_wrote hs hl hf).mem]

/-- Each member's command is gone after a shift. -/
theorem State.ringShift_rings {s : State} {l : List Nat} {d : W64} (hs : s.clean) (hl : l.Nodup) (hlt : ∀ m ∈ l, m < 128) (hf : s.ringFits l (fld d 32 21))
    {m : Nat} (hm : m ∈ l) : (s.ringShift l d).cores[(Fin.ofNat 128 m : Fin 128)].eng.rings = s.cores[(Fin.ofNat 128 m : Fin 128)].eng.rings.tail := by
  have hval : (Fin.ofNat 128 m : Fin 128).val = m := Nat.mod_eq_of_lt (hlt m hm)
  rw [State.ringShift_eq, State.ringLeaves_rings hl hlt, if_pos (hval.symm ▸ hm), (State.ringTiles_wrote hs hl hf).cores]

/-- What a member finds at its neighbour's destination after a shift: its own tile as it was. -/
theorem State.ringShift_tile {s : State} {l : List Nat} {d : W64} (hs : s.clean) (hl : l.Nodup) (hlt : ∀ m ∈ l, m < 128) (hf : s.ringFits l (fld d 32 21))
    {m : Nat} (hm : m ∈ l) {x y : RingCmd} (hx : s.ringAt m = some x) (hy : s.ringAt (ringNext (fld d 8 1 == 0) l m) = some y) :
    memRead (s.ringShift l d).mem (scratchPa (Fin.ofNat 128 (ringNext (fld d 8 1 == 0) l m)) y.b.toNat) (fld d 32 21)
      = memRead s.mem (scratchPa (Fin.ofNat 128 m) x.a.toNat) (fld d 32 21) := by
  have hread := memRead_storedRuns (State.ringRuns_apart hl hlt hf) (List.mem_map_of_mem hm) s.mem
  rw [State.ringRun_some hx hy, length_memRead] at hread
  rw [State.ringShift_mem hs hl hf, hread]

/-- The tiles of member `m` lie in its scratch, and the one it sends is not poisoned. -/
def State.ringReaches (s : State) (len m : Nat) : Prop := ∀ x, s.ringAt m = some x →
  x.a.toNat + len ≤ s.cores[(Fin.ofNat 128 m : Fin 128)].ctx.scratchQuota ∧ x.b.toNat + len ≤ s.cores[(Fin.ofNat 128 m : Fin 128)].ctx.scratchQuota
  ∧ s.poisoned (scratchPa (Fin.ofNat 128 m) x.a.toNat) len = false

/-- A ring whose members are ready, agree and may reach their tiles shifts. -/
theorem execRingShift_shifts {s : State} {crew : Fin 16} {n : Nat} {r : RingCmd} (hn : ((List.range 8).map (· + 8 * crew.val)).find? s.ringReady = some n)
    (hr : s.ringAt n = some r) (ha : s.ringAgree (s.ringOf n) r.d = true) (hq : ∀ m ∈ s.ringOf n, s.ringReaches (fld r.d 32 21) m) :
    execRingShift crew s = .next (s.ringShift (s.ringOf n) r.d) := by
  simp only [execRingShift, hn, hr, ha, Bool.not_true, Bool.false_eq_true, if_false]
  rw [if_neg, if_neg]
  · simp only [Bool.not_eq_true, Bool.not_eq_false', List.isEmpty_iff, List.filter_eq_nil_iff]
    intro m hm
    split
    · next x hx =>
      obtain ⟨-, -, hp⟩ := hq m hm x hx
      rw [hp]
    · decide
  · simp only [Bool.not_eq_true, Bool.not_eq_false', List.isEmpty_iff, List.filter_eq_nil_iff]
    intro m hm
    split
    · next x hx =>
      obtain ⟨hxa, hxb, -⟩ := hq m hm x hx
      simp [-Fin.getElem_fin, -Fin.ofNat_eq_cast, hxa, hxb]
    · decide

/-- The core as a block of its first window command has entered its FIFO, which is `fifo` now: null blocks are counted. -/
def Core.blockPushed (c : Core) (b : Block) (fifo : List Block) : Core :=
  let c1 : Core := { c with eng := { c.eng with fifoA := fifo } }
  if b.null then { c1 with mat := { c1.mat with skipped := if c1.mat.skipped = BitVec.allOnes 32 then c1.mat.skipped else c1.mat.skipped + 1 } } else c1

theorem Core.blockPushed_leaves (c : Core) (b : Block) (fifo : List Block) :
    (c.blockPushed b fifo).eng = { c.eng with fifoA := fifo } ∧ (c.blockPushed b fifo).regs = c.regs := by
  unfold Core.blockPushed
  dsimp only
  split
  · exact ⟨rfl, rfl⟩
  · exact ⟨rfl, rfl⟩

/-- The core as the first window command has pushed its block: it stands behind that block, or has ended (R406). -/
def Core.windowRan (c : Core) (w : WinCmd) (stamp : Nat) : Core :=
  if w.pushed + 1 < w.nb then { c with eng := { c.eng with wins := { w with pushed := w.pushed + 1 } :: c.eng.wins.tail } }
  else ({ c with eng := { c.eng with wins := c.eng.wins.tail } } : Core).finish 3 w.num stamp

/-- The next block of the window command at the head enters the A FIFO (R406, R407). -/
theorem execWindowBlockPush_pushes {s : State} {c : Fin 128} {w : WinCmd} {l : List WinCmd} {b : Block} {k : Core} (hr : s.cores[c].engineRuns 3 = true)
    (hw : s.cores[c].eng.wins = w :: l) (hh : s.engineHeld c w.po (winSpans w.cfg) = false) (hb : s.winBlock c w w.pushed = .ok b)
    (hp : b.null = true ∨ s.winPoison c (winGeo w.cfg) ((winGeo w.cfg).sources w.pushed) = none) (hk : s.cores[c].pushA b = some k) :
    execWindowBlockPush c s = .next (s.setCore c ((s.cores[c].blockPushed b k.eng.fifoA).windowRan w (sget 0 s.fab.eclock (eclockKey c 3)))) := by
  have hpoison : (if b.null then none else s.winPoison c (winGeo w.cfg) ((winGeo w.cfg).sources w.pushed)) = none := by
    split
    · rfl
    · next hn => exact hp.resolve_left hn
  have hpush : s.cores[c].blockPushed b k.eng.fifoA
      = if b.null then { k with mat := { k.mat with skipped := if k.mat.skipped = BitVec.allOnes 32 then k.mat.skipped else k.mat.skipped + 1 } } else k := by
    rw [Core.pushA_leaves hk]
    rfl
  simp only [execWindowBlockPush, hr, hw, hh, hb, hk, hpoison, Bool.not_true, Bool.false_eq_true, if_false]
  rw [hpush, Core.windowRan]
  split
  · rfl
  · rfl

/-- Members that agree have a ring command each. -/
theorem State.ringAgree_some {s : State} {l : List Nat} {d : W64} (h : s.ringAgree l d = true) {m : Nat} (hm : m ∈ l) : ∃ x, s.ringAt m = some x := by
  have hall := List.all_eq_true.mp h m hm
  cases hx : s.ringAt m with
  | some x => exact ⟨x, rfl⟩
  | none => simp [hx] at hall

end Sys2Proof.Machine
end

section
/-! O52: the engines run. -/

namespace Sys2Proof.Machine

/-- Settles O52: a go that issues is counted as it is accepted; a chunk is skipped, squashed or promoted by the lemmas about one pass; a block of a window command enters
its FIFO; the tiles of a ring land apart from one another, for the members' neighbours differ. -/
theorem enginesRun : Obligations.EnginesRun := by
  refine ⟨fun s c => ⟨fun r l tile ft cfg ab bb na nb u hq hm hon hd hl hu => ?_, fun g l x xs a b hr hg ht hrows hfit htile hxs ha hb => ?_⟩,
    fun s c w l b k hr hw hh hb hp hk => ?_, fun s crew n r hn hr ha hs hq => ?_⟩
  · have hexec : execMgoAccept c s = .next u := by
      simp only [execMgoAccept, hq, hm, hon, hd, Bool.not_false, Bool.and_self, if_true]
      rw [State.issueHead_runs s u c .x hl hu]
    exact ⟨u, hexec, rfl, State.issueRes_mgo hq hm hon hd hu⟩
  · have hat : s.cores[c].AtChunk g l x xs a b := ⟨hr, hg, ht, hrows, ha, hb⟩
    have htail : g.todo.tail = xs := by rw [ht, List.tail_cons]
    have hne : g.todo.tail ≠ [] := htail ▸ hxs
    intro co rr ran next
    refine ⟨fun hn => ?_, fun hna hnb hpa hpb hc htag => ⟨fun ho hwd => ?_, fun ho hsk => ?_⟩⟩
    · obtain ⟨hgos, hregs⟩ := s.cores[c].logWidth_gos 0
      obtain ⟨hgos', hregs'⟩ := Core.nextChunk_goes (hgos.trans hg) hne true
      refine ⟨_, execMatrixChunkPass_null hat hn, rfl, ⟨g.behind true, ?_, rfl, htail, rfl, rfl⟩, ?_⟩ <;> rw [State.modCore_core]
      · exact hgos'
      · exact hregs'.trans hregs
    · obtain ⟨hgos, hregs, hmem⟩ := State.passChunk_squashed (co := co) hg ho hwd
      exact ⟨_, execMatrixChunkPass_pass hat hna hnb hpa hpb hc htag, hmem, hregs, _, hgos, rfl, rfl, rfl⟩
    · obtain ⟨hgos, hregs, hmem⟩ := State.passChunk_promotes (co := co) hg ho hne
      have hacc (n i j : Nat) (d : Core) (hd : (s.passChunk c g x a b co).cores[c].regs = d.regs) :
        (s.passChunk c g x a b co).cores[c].accWord n i j = d.accWord n i j := by rw [Core.accWord, hd, Core.accWord]
      obtain ⟨-, hs', hv'⟩ := ((s.cores[c].counted co rr).notePromote g.po (Fin.ofNat 4 x.tile)).promote_leaves x.tile x.row0 x.rows rr.vals
      refine ⟨_, execMatrixChunkPass_pass hat hna hnb hpa hpb hc htag, hmem, ⟨_, hgos, rfl, htail, rfl, ?_⟩, fun k hk => ?_, fun n i j hn hi hj hout => ?_, ?_, ?_⟩
      · exact (Nat.min_eq_left (show g.skipped ≤ 2 ^ 32 - 1 by omega)).symm
      · exact (hacc _ _ _ _ hregs).trans (Core.promote_word _ _ hk)
      · exact (hacc _ _ _ _ hregs).trans (Core.promote_word_ne _ _ hfit hi hj hout)
      · exact (congrArg Regs.s hregs).trans hs'
      · exact (congrArg Regs.v hregs).trans hv'
  · obtain ⟨heng, hregs⟩ := s.cores[c].blockPushed_leaves b k.eng.fifoA
    refine ⟨_, execWindowBlockPush_pushes hr hw hh hb hp hk, ?_⟩
    rw [State.setCore_core, Core.windowRan]
    split
    · rw [heng, hw]
      exact ⟨rfl, rfl, hregs, rfl, rfl⟩
    · rw [heng, hw]
      exact ⟨rfl, rfl, hregs, rfl, Core.finish_tl ..⟩
  · have hf : s.ringFits (s.ringOf n) (fld r.d 32 21) := fun m hm => by
      obtain ⟨x, hx⟩ := State.ringAgree_some ha hm
      obtain ⟨-, hb, hsz, -⟩ := hq m hm x hx
      exact ⟨x, hx, hb.trans hsz⟩
    have hreach : ∀ m ∈ s.ringOf n, s.ringReaches (fld r.d 32 21) m := fun m hm x hx => by
      obtain ⟨ha, hb, -, hp⟩ := hq m hm x hx
      exact ⟨ha, hb, hp⟩
    exact ⟨_, execRingShift_shifts hn hr ha hreach, fun m hm x y hx hy =>
      ⟨State.ringShift_tile hs (s.ringOf_nodup n) (fun _ h => State.ringOf_lt h) hf hm hx hy, State.ringShift_rings hs (s.ringOf_nodup n) (fun _ h => State.ringOf_lt h) hf hm⟩⟩

end Sys2Proof.Machine
end

section
/-! SUPPORT for O60. What a core shows, and what keeps it: updates of another core, logs, write-backs, and the performing of writes (R172). -/

namespace Sys2Proof.Machine

/-- What other cores must leave of a core: its registers, its system registers, its pc. -/
def Core.face (c : Core) : Regs × SysRegs × Nat := (c.regs, c.sys, c.pc)

/-- What core `c` shows. -/
def faceAt (v : Vector Core 128) (c : Fin 128) : Regs × SysRegs × Nat := v[c].face

/-- Core `c` shows `v`. -/
abbrev State.Faces (c : Fin 128) (v : Regs × SysRegs × Nat) (s : State) : Prop := faceAt s.cores c = v

/-- Core `c` shows `v` in whatever state an effect leaves. -/
def Res.Faces (c : Fin 128) (v : Regs × SysRegs × Nat) : Res → Prop
  | .ok s | .goto s _ | .stall s | .after s _ => s.Faces c v
  | .wait _ | .trap _ => True

section
variable {c : Fin 128} {v : Regs × SysRegs × Nat}

theorem Res.Faces.left {r : Res} (h : r.Faces c v) {u : State} (hu : r.left = some u) : u.Faces c v := by
  cases r with
  | wait | trap => cases hu
  | ok | goto | stall | after => cases hu; exact h

theorem Res.faces_of_left {r : Res} (h : r.left = none) : r.Faces c v := by
  cases r with
  | wait | trap => trivial
  | ok | goto | stall | after => cases h

/-! ### Updates of cores -/

theorem State.setCore_face {s : State} {n : Fin 128} (hn : c ≠ n) (x : Core) : faceAt (s.setCore n x).cores c = faceAt s.cores c :=
  congrArg Core.face (s.setCore_core_ne x hn)

theorem State.modCore_face {s : State} {n : Fin 128} (hn : c ≠ n) (f : Core → Core) : faceAt (s.modCore n f).cores c = faceAt s.cores c :=
  congrArg Core.face (s.modCore_core_ne f hn)

theorem State.modCur_face {s : State} (hn : c ≠ s.focusCore) (f : Core → Core) : faceAt (s.modCur f).cores c = faceAt s.cores c := State.modCore_face hn f

/-- An update that leaves what its core shows leaves what every core shows. -/
theorem State.modCore_faceLeft (s : State) (n : Fin 128) {f : Core → Core} (hf : ∀ x, (f x).face = x.face) : faceAt (s.modCore n f).cores c = faceAt s.cores c := by
  by_cases hc : c = n
  · subst hc
    exact (congrArg Core.face (State.modCore_core ..)).trans (hf _)
  · exact State.modCore_face hc f

/-- A fold whose steps keep what a core shows keeps it. -/
theorem foldl_faces {α : Type} (f : State → α → State) (hf : ∀ s x, s.Faces c v → (f s x).Faces c v) (l : List α) (s : State) (h : s.Faces c v) :
    (l.foldl f s).Faces c v := foldl_keeps (State.Faces c v) f l s h hf

theorem State.cores_of_duties {s t : State} (h : t.duties = s.duties) : t.cores = s.cores := congrArg Prod.fst h

/-! ### Memory, caches, writes (R155, R192, R201, R207) -/

theorem foldl_cores {α : Type} (f : State → α → State) (hf : ∀ s x, (f s x).cores = s.cores) (l : List α) (s : State) : (l.foldl f s).cores = s.cores :=
  foldl_keeps (fun t : State => t.cores = s.cores) f l s rfl (fun t x ht => (hf t x).trans ht)

theorem State.logDemand_cores (s : State) (m pa id r) : (s.logDemand m pa id r).cores = s.cores := State.log_cores _ _

theorem State.writeBack_cores (s : State) (crew line m) : (s.writeBack crew line m).cores = s.cores := State.cores_of_duties (State.writeBack_duties ..)

theorem State.recallLine_cores (s : State) (line m) : (s.recallLine line m).cores = s.cores := State.cores_of_duties (State.recallLine_duties ..)

theorem State.own_cores (s : State) (crew line pa len m) : (s.own crew line pa len m).cores = s.cores := by
  unfold State.own
  grind [State.writeBack_cores, State.addDirty]

theorem State.arriveAt_cores (s : State) (n place line runs) : (s.arriveAt n place line runs).cores = s.cores := by
  unfold State.arriveAt
  split
  · rfl
  · split
    · exact State.recallLine_cores ..
    · exact foldl_cores _ (fun s r => State.own_cores ..) _ _

theorem State.performRuns_face {s : State} {n : Fin 128} (hn : c ≠ n) (place line runs) : faceAt (s.performRuns n place line runs).cores c = faceAt s.cores c := by
  unfold State.performRuns
  dsimp only
  rw [State.modCore_face hn]
  exact congrArg (faceAt · c) ((foldl_cores _ (fun s r => State.writeBytes_cores ..) _ _).trans (State.arriveAt_cores ..))

theorem State.performOrdinary_face {s : State} {n : Fin 128} (hn : c ≠ n) (place p b) : faceAt (s.performOrdinary n place p b).cores c = faceAt s.cores c :=
  State.performRuns_face hn ..

theorem State.performBytes_cores (s : State) (x : InFlight) : (s.performBytes x).1.cores = s.cores := State.cores_of_duties (State.performBytes_duties ..)

/-! ### The drain of a freeze (R262) -/

/-- An uncorrectable error met by a core leaves what it shows. -/
theorem Core.meet_face (x : Core) (po st) : (x.meet po st).face = x.face := by
  unfold Core.meet
  split
  · rfl
  · rfl

theorem State.blockedAt_face (s : State) (x : InFlight) : faceAt (s.blockedAt x).cores c = faceAt s.cores c := by
  unfold State.blockedAt
  refine (State.modCore_faceLeft _ _ (fun k => ?_)).trans (congrArg (faceAt · c) (State.logDemand_cores ..))
  exact k.meet_face x.po x.strand

theorem State.noteOnce_face (s : State) (y : InFlight) : faceAt (s.noteOnce y).cores c = faceAt s.cores c := State.modCore_faceLeft _ _ (fun _ => rfl)

theorem State.performJoined_cores (s : State) (i : Nat) (x : InFlight) : (s.performJoined i x).cores = s.cores := by
  change (x.joined.foldl _ (s.performBytes x).1).cores = _
  rw [foldl_cores _ (fun t k => State.cores_of_duties (t.carryRels_duties _ _ _)), State.performBytes_cores]

theorem State.performInFlight_face (s : State) (i : Nat) : faceAt (s.performInFlight i).cores c = faceAt s.cores c := by
  cases hx : s.fab.inflight[i]? with
  | none => simp only [State.performInFlight, hx]
  | some x =>
    by_cases hp : x.performed = true
    · simp only [State.performInFlight, hx, hp, if_true]
    by_cases hb : x.blocked s = true
    · rw [State.performInFlight_blocked hx hp hb]
      exact foldl_faces State.blockedAt (fun t y ht => (t.blockedAt_face y).trans ht) (x :: x.others) s rfl
    · have hj : faceAt (s.performJoined i x).cores c = faceAt s.cores c := congrArg (faceAt · c) (State.performJoined_cores ..)
      rcases State.performInFlight_performs hx hp hb with h | h
      · rw [h]
        exact hj
      · rw [h]
        exact foldl_faces State.noteOnce (fun t y ht => (t.noteOnce_face y).trans ht) (x :: x.others) _ hj

theorem State.performAll_face (s : State) (n : Fin 128) : faceAt (s.performAll n).cores c = faceAt s.cores c := by
  unfold State.performAll
  refine foldl_faces _ (fun t i ht => ?_) _ _ rfl
  split
  · split
    · exact (t.performInFlight_face i).trans ht
    · exact ht
  · exact ht

theorem State.drain_face {s : State} {n : Fin 128} (hn : c ≠ n) : faceAt (s.drain n).cores c = faceAt s.cores c := by
  unfold State.drain
  dsimp only
  rw [State.modCore_face hn, State.performAll_face, State.modCore_face hn]

theorem State.walkBegins_cores (s : State) (n va) : (s.walkBegins n va).cores = s.cores := by
  unfold State.walkBegins
  grind

/-- A trap of one core leaves what every other core shows. -/
theorem takeTrap_faces {n : Fin 128} (hn : c ≠ n) (t : Trap) (s : State) (h : s.Faces c v) : (takeTrap n t s).Faces c v := by
  unfold takeTrap State.freezeEnd
  split
  · rwa [State.Faces, State.walkBegins_cores]
  · rwa [State.Faces, State.modCore_face hn, State.logRefusal_cores, State.drain_face hn]

/-! ### Words as they run (R178, R278 to R300) -/

theorem cWord_faces {s : State} (hn : c ≠ s.focusCore) (t g j len) {eff : State → Res} (h : s.Faces c v) (he : (eff s).Faces c v) : (cWord t g j len eff s).Faces c v :=
  cWord_keeps (State.Faces c v) s t g j len eff (fun _ _ hu => (State.modCore_face hn _).trans hu) (fun _ _ hu => takeTrap_faces hn _ _ hu) (fun _ hu => he.left hu) h

theorem onCore_faces {s : State} (hn : c ≠ s.focusCore) (f) (h : s.Faces c v) : (onCore f s).Faces c v := (State.modCur_face hn f).trans h

end

end Sys2Proof.Machine
end

section
/-! SUPPORT for O60. What the functions of Machine/Memory.lean, Machine/Ops.lean and Machine/Engines.lean that a word calls leave of the cores. -/

namespace Sys2Proof.Machine

section
variable {c n : Fin 128} {v : Regs × SysRegs × Nat} (hn : c ≠ n)
include hn

theorem State.observe_face (s : State) (st ps) : faceAt (s.observe n st ps).cores c = faceAt s.cores c := State.modCore_face hn _

theorem State.signRuns_face (s : State) (space runs) : faceAt (s.signRuns n space runs).cores c = faceAt s.cores c := State.modCore_face hn _

theorem State.sign_face (s : State) (space va b) : faceAt (s.sign n space va b).cores c = faceAt s.cores c := State.signRuns_face hn ..

theorem State.loadGrant_face (s : State) (line cache) : faceAt (s.loadGrant n line cache).1.cores c = faceAt s.cores c := State.modCore_face hn _

theorem State.crewGrant_face (s : State) (line cache) : faceAt (s.crewGrant n line cache).1.cores c = faceAt s.cores c := by
  unfold State.crewGrant
  grind [State.modCore_face, State.loadGrant_face]

theorem State.loadBind_face (s : State) (line) : faceAt (s.loadBind n line).1.cores c = faceAt s.cores c := by
  unfold State.loadBind
  grind [State.loadGrant_face, State.crewGrant_face]

theorem State.dropLine_face (s : State) (line) : faceAt (s.dropLine n line).cores c = faceAt s.cores c := State.modCore_face hn _

theorem State.bindPart_face (s : State) (last p) : faceAt (s.bindPart n last p).1.cores c = faceAt s.cores c := by
  unfold State.bindPart
  grind [State.dropLine_face, State.loadGrant_face, State.loadBind_face]

theorem State.bindPieces_face (s : State) (last ps) : faceAt (s.bindPieces n last ps).1.cores c = faceAt s.cores c := by
  induction ps generalizing s last with
  | nil => rfl
  | cons p t ih => exact (ih _ _).trans (State.bindPart_face hn ..)

theorem State.recapture_face (s : State) (t) : faceAt (s.recapture n t).cores c = faceAt s.cores c := by
  unfold State.recapture
  grind [State.modCore_face]

theorem State.meetAt_face (s : State) (po pa st) : faceAt (s.meetAt n po pa st).cores c = faceAt s.cores c := by
  unfold State.meetAt
  grind [State.modCore_face, State.logDemand_cores]

end

theorem State.bindFlume_cores (s : State) (n q st f seq) {u} (hu : s.bindFlume n q st f seq = .ok u) : u.1.cores = s.cores := by
  unfold State.bindFlume at hu
  grind

theorem State.markRuns_cores (runs o ps) (s : State) : (State.markRuns runs o ps s).cores = s.cores := by
  induction ps generalizing o s with
  | nil => rfl
  | cons p t ih =>
    rw [State.markRuns, ih]
    exact foldl_cores _ (fun s r => by grind [State.setPoison_cores]) _ _

end Sys2Proof.Machine
end

section
/-! SUPPORT for O60. What the functions of Machine/Issue.lean leave of the other cores: loads and stores (R173 to R181, R206, R359 to R372). -/

namespace Sys2Proof.Machine

theorem State.coreOut_cores (s : State) (n pa k w) : (s.coreOut n pa k w).cores = s.cores :=
  State.cores_of_duties (State.sendOut_onlyAts ..).duties

theorem State.readDone_cores (s : State) (n ps) : (s.readDone n ps).cores = s.cores := by
  unfold State.readDone
  rw [foldl_cores _ (fun s p => State.coreOut_cores ..)]
  grind [State.logDemand_cores]

/-- A wait that a condition alone makes due leaves no state. -/
theorem ite_left {p : Prop} [Decidable p] {o : Option Res} (ho : ∀ w, o = some w → w.left = none) {w : Res} (h : (if p then o else none) = some w) : w.left = none := by
  split at h
  · exact ho w h
  · cases h

theorem State.carryFences_cores (s : State) (n st ps) : (s.carryFences n st ps).cores = s.cores := by
  unfold State.carryFences
  exact foldl_cores _ (fun s p => by grind [State.carryRels]) _ _

theorem State.launch_cores (s : State) (n r op runs va cmd sp) : (s.launch n r op runs va cmd sp).cores = s.cores := by
  unfold State.launch
  grind

section
variable {c n : Fin 128} {v : Regs × SysRegs × Nat} (hn : c ≠ n)
include hn

/-! ### Loads -/

theorem State.finishLoad_face (s : State) (r d sz signed ps) : faceAt (s.finishLoad n r d sz signed ps).cores c = faceAt s.cores c := by
  unfold State.finishLoad
  grind [State.bindPieces_face, State.observe_face, State.modCore_face, State.readDone_cores]

theorem State.doLoad_faces (s : State) (r sp sz signed d a) (h : s.Faces c v) : (s.doLoad n r sp sz signed d a).Faces c v := by
  unfold State.doLoad
  grind [State.scratchWait_left, Core.lobFull_left, Core.scopedFirst_left, State.finishLoad_face, Res.Faces, Res.faces_of_left]

theorem State.doLdc_faces (s : State) (r sz signed d a) (h : s.Faces c v) : (s.doLdc n r sz signed d a).Faces c v := by
  unfold State.doLdc
  dsimp only
  split
  · trivial
  · split
    · next hw => exact Res.faces_of_left (Core.acquireFirst_left _ _ hw)
    · rw [Res.Faces, State.Faces, State.observe_face hn, State.modCore_face hn, State.readDone_cores]
      exact foldl_faces _ (fun s _ hs => (State.dropLine_face hn ..).trans hs) _ _ h

theorem State.finishVload_face (s : State) (r d l) : faceAt (s.finishVload n r d l).cores c = faceAt s.cores c := by
  unfold State.finishVload
  grind [State.bindPieces_face, State.observe_face, State.modCore_face, State.readDone_cores]

theorem State.doVload_faces (s : State) (r sp kind d m a p bi) (h : s.Faces c v) : (s.doVload n r sp kind d m a p bi).Faces c v := by
  unfold State.doVload
  dsimp only
  split
  · next hw => exact Res.faces_of_left (State.scratchWait_left _ _ _ _ hw)
  split
  · next hw => exact Res.faces_of_left (Core.lobFull_left _ _ hw)
  split
  · trivial
  next vl cut _ =>
    split
    · trivial
    split
    · next hw => exact Res.faces_of_left (Core.scopedFirst_left _ _ _ _ hw)
    have hload (d l) : ((match cut with | some t => s.logRefusal n t | none => s).finishVload n { r with vl := vl } d l).Faces c v := by
      rw [State.Faces, State.finishVload_face hn]
      split
      · rwa [State.logRefusal_cores]
      · exact h
    split
    · exact (State.modCore_face hn _).trans (hload d _)
    · exact hload d _

theorem State.reload_face (s : State) (e) : faceAt (s.reload n e).cores c = faceAt s.cores c := by
  unfold State.reload
  grind [State.finishLoad_face, State.finishVload_face, State.modCore_face]

theorem State.renewCopy_face (s : State) (x) : faceAt (s.renewCopy n x).1.cores c = faceAt s.cores c := by
  unfold State.renewCopy
  grind [State.modCore_face]

theorem State.renewAll_face (s : State) (l) : faceAt (s.renewAll n l).1.cores c = faceAt s.cores c := by
  induction l generalizing s with
  | nil => rfl
  | cons x t ih =>
    unfold State.renewAll
    grind [State.renewCopy_face]

theorem State.lobCheck_face (s : State) (r ps l) : faceAt (s.lobCheck n r ps l).1.cores c = faceAt s.cores c := by
  induction l generalizing s with
  | nil => rfl
  | cons x t ih =>
    unfold State.lobCheck
    grind [State.renewAll_face]

/-! ### Stores -/

theorem State.afterStore_face (s : State) (r ps) : faceAt (s.afterStore n r ps).cores c = faceAt s.cores c := by
  have h1 : faceAt (s.carryFences n r.strand ps).cores c = faceAt s.cores c := congrArg (faceAt · c) (State.carryFences_cores ..)
  unfold State.afterStore
  dsimp only
  split
  · exact h1
  · rw [State.modCore_face hn]
    exact foldl_faces _ (fun s e hs => (State.reload_face hn s e).trans hs) _ _ ((State.modCore_face hn _).trans ((State.lobCheck_face hn ..).trans h1))

theorem State.storePiece_face (s : State) (r sp ea p b) : faceAt (s.storePiece n r sp ea p b).cores c = faceAt s.cores c := by
  unfold State.storePiece
  grind [State.writeBytes_cores, State.performOrdinary_face, State.launch_cores]

theorem State.storePieces_face (s : State) (r sp ea ps b) : faceAt (s.storePieces n r sp ea ps b).cores c = faceAt s.cores c := by
  induction ps generalizing s b with
  | nil => rfl
  | cons p t ih => exact (ih _ _).trans ((State.modCore_face hn _).trans (State.storePiece_face hn ..))

theorem State.signStore_face (s : State) (sp ea b) : faceAt (s.signStore n sp ea b).cores c = faceAt s.cores c := by
  unfold State.signStore
  grind [State.sign_face]

theorem State.doStore_faces (s : State) (r sp sz a x) (h : s.Faces c v) : (s.doStore n r sp sz a x).Faces c v := by
  unfold State.doStore
  dsimp only
  split
  · next hw => exact Res.faces_of_left (State.scratchWait_left _ _ _ _ hw)
  split
  · trivial
  split
  · next hw => exact Res.faces_of_left (ite_left (fun _ hw => State.loadsFirst_left _ _ _ hw) hw)
  split
  · exact (State.meetAt_face hn ..).trans h
  · exact (State.afterStore_face hn ..).trans ((State.signStore_face hn ..).trans ((State.storePieces_face hn ..).trans h))

theorem State.storeGranule_face (s : State) (r sp l) : faceAt (s.storeGranule n r sp l).cores c = faceAt s.cores c := by
  unfold State.storeGranule
  split
  · rfl
  · refine foldl_faces _ (fun s x hs => (State.modCore_face hn _).trans hs) _ _ ?_
    split
    · exact congrArg (faceAt · c) (foldl_cores _ (fun s x => State.writeBytes_cores ..) _ _)
    · split
      · exact State.performRuns_face hn ..
      · exact congrArg (faceAt · c) (State.launch_cores ..)

theorem State.storeGroup_face (s : State) (r sp l) : faceAt (s.storeGroup n r sp l).cores c = faceAt s.cores c := by
  unfold State.storeGroup
  grind [State.storeGranule_face, State.storePieces_face, State.signRuns_face]

theorem State.storeElems_face (s : State) (r sp kind nt es l) : faceAt (s.storeElems n r sp kind nt es l).cores c = faceAt s.cores c := by
  unfold State.storeElems
  exact foldl_faces _ (fun s g hs => (State.storeGroup_face hn ..).trans hs) _ _ rfl

theorem State.markAck_face (s : State) (r) : faceAt (s.markAck n r).cores c = faceAt s.cores c := State.modCore_face hn _

theorem State.doVstore_faces (s : State) (r sp kind m a p bi) (h : s.Faces c v) : (s.doVstore n r sp kind m a p bi).Faces c v := by
  unfold State.doVstore
  dsimp only
  split
  · next hw => exact Res.faces_of_left (State.scratchWait_left _ _ _ _ hw)
  split
  · trivial
  split
  · trivial
  split
  · next hw => exact Res.faces_of_left (ite_left (fun _ hw => State.loadsFirst_left _ _ _ hw) hw)
  split
  · exact (State.meetAt_face hn ..).trans h
  · have hst (nt es l) : (s.storeElems n r sp kind nt es l).Faces c v := (State.storeElems_face hn ..).trans h
    rw [Res.Faces]
    split
    · exact (State.afterStore_face hn ..).trans ((State.markAck_face hn ..).trans (hst ..))
    · exact (State.afterStore_face hn ..).trans (hst ..)

end

end Sys2Proof.Machine
end

section
/-! SUPPORT for O60. What the functions of Machine/Issue.lean leave of the other cores: releases and atomics, flumes, pushes, cache words, engine
words, and a word as it issues (R178, R215 to R223, R358, R369 to R376, R389 to R409). -/

namespace Sys2Proof.Machine

/-- An arrival leaves what its core shows. -/
theorem Core.arrive_face (x : Core) (ar rel) : (x.arrive ar rel).face = x.face := by
  unfold Core.arrive
  split
  · rfl
  · rfl

/-- Updates of all cores that leave what each shows. -/
theorem faceAt_mapFinIdx (w : Vector Core 128) {f : (i : Nat) → Core → i < 128 → Core} (hf : ∀ i x h, (f i x h).face = x.face) {c : Fin 128} :
    faceAt (w.mapFinIdx f) c = faceAt w c := by
  unfold faceAt
  rw [Fin.getElem_fin, Vector.getElem_mapFinIdx]
  exact hf ..

section
variable {c n : Fin 128} {v : Regs × SysRegs × Nat}

theorem State.holdBarrier_cores (s : State) (n pa) : (s.holdBarrier n pa).cores = s.cores := by
  unfold State.holdBarrier
  grind [State.recallLine_cores]

theorem State.release_error_faces {s : State} {r cap} {w : Res} (hu : s.release n r cap = .error w) : w.Faces c v := by
  unfold State.release at hu
  grind [State.loadsFirst_left, Res.faces_of_left, Res.Faces]

theorem State.logPopped_cores (s : State) (n x) : (s.logPopped n x).cores = s.cores := by
  unfold State.logPopped
  grind [State.logDemand_cores]

variable (hn : c ≠ n)
include hn

theorem State.releaseNow_face (s : State) (st slices) : faceAt (s.releaseNow n st slices).cores c = faceAt s.cores c :=
  State.modCore_face (s := s) hn (fun c => c.raiseClock (s.relStamp n st slices))

theorem State.release_face {s : State} {r cap} {u : State} (hu : s.release n r cap = .ok u) : faceAt u.cores c = faceAt s.cores c := by
  unfold State.release at hu
  grind [State.releaseNow_face]

/-! ### Atomics and reductions -/

theorem State.meetingPoint_face (s : State) (place p b) : faceAt (s.meetingPoint n place p b).cores c = faceAt s.cores c := by
  unfold State.meetingPoint
  grind [State.performOrdinary_face, State.loadGrant_face, State.recallLine_cores]

theorem State.doAmo_faces (s : State) (r op wide d expect a x cap) (h : s.Faces c v) : (s.doAmo n r op wide d expect a x cap).Faces c v := by
  unfold State.doAmo
  extract_lets w
  split
  · trivial
  split
  · next x hx => exact State.release_error_faces hx
  next s1 hx =>
    have h1 : State.Faces c v s1 := (State.release_face hn hx).trans h
    split
    · trivial
    split
    · exact (State.meetAt_face hn ..).trans h1
    extract_lets old pc new s0 s2 t s3
    have h0 : State.Faces c v s0 := (State.meetingPoint_face hn ..).trans h1
    have h2 : State.Faces c v s2 := by
      unfold s2
      clear_value new s0
      split
      · exact (State.sign_face hn ..).trans h0
      · exact h0
    exact (State.afterStore_face hn ..).trans ((State.observe_face hn ..).trans ((State.modCore_face hn _).trans h2))

theorem State.doRed_faces (s : State) (r op a x cap) (h : s.Faces c v) : (s.doRed n r op a x cap).Faces c v := by
  unfold State.doRed
  dsimp only
  split
  · trivial
  split
  · trivial
  split
  · trivial
  · rw [Res.Faces, State.Faces, State.modCore_face hn, State.sign_face hn, State.launch_cores]
    exact h

theorem State.doLupd_faces (s : State) (r op a off cap) (h : s.Faces c v) : (s.doLupd n r op a off cap).Faces c v := by
  unfold State.doLupd
  extract_lets c
  split
  · next hw => exact Res.faces_of_left (State.scratchWait_left _ _ _ _ hw)
  split
  · trivial
  split
  · trivial
  split
  · trivial
  split
  · trivial
  split
  · trivial
  split
  · exact (State.meetAt_face hn ..).trans h
  · rw [Res.Faces, State.Faces, State.modCore_face hn, State.sign_face hn, State.launch_cores]
    exact h

theorem State.doArrive_faces (s : State) (r d a cap) (h : s.Faces c v) : (s.doArrive n r d a cap).Faces c v := by
  unfold State.doArrive
  split
  · trivial
  split
  · next x hx => exact State.release_error_faces hx
  next s1 hx =>
    have h1 : State.Faces c v s1 := (State.release_face hn hx).trans h
    split
    · trivial
    extract_lets o
    split
    · exact (State.meetAt_face hn ..).trans h1
    split
    · trivial
    · rw [Res.Faces, State.Faces, State.afterStore_face hn, State.modCore_face hn]
      exact (State.sign_face hn ..).trans ((State.performOrdinary_face hn ..).trans ((congrArg (faceAt · c) (State.holdBarrier_cores s1 n _)).trans h1))

/-! ### Flumes and pushes -/

theorem State.doFlput_faces (s : State) (r f off cap) (h : s.Faces c v) : (s.doFlput n r f off cap).Faces c v := by
  unfold State.doFlput
  extract_lets k
  split
  · exact (State.meetAt_face hn ..).trans h
  split
  · trivial
  next s0 k hb =>
    have h0 : State.Faces c v s0 := (congrArg (faceAt · c) (State.bindFlume_cores _ _ _ _ _ _ hb)).trans h
    extract_lets fl
    split
    · trivial
    split
    · next hw => exact Res.faces_of_left (State.scratchWait_left _ _ _ _ hw)
    split
    · next x hx => exact State.release_error_faces hx
    next s1 hx =>
      have h1 : State.Faces c v s1 := (State.release_face hn hx).trans h0
      split
      · trivial
      split
      · trivial
      split
      · trivial
      extract_lets idx data
      split
      · exact (State.meetAt_face hn ..).trans h1
      · rw [Res.Faces, State.Faces, State.modCore_face hn, State.sign_face hn]
        exact h1

theorem State.popFlume_face (s : State) (r f cap) {u} (hu : s.popFlume n r f cap = .ok u) : faceAt u.1.cores c = faceAt s.cores c := by
  unfold State.popFlume at hu
  dsimp only at hu
  split at hu
  · cases hu
  split at hu
  · cases hu
  next s0 k hb =>
    have h0 : faceAt s0.cores c = faceAt s.cores c := congrArg (faceAt · c) (State.bindFlume_cores _ _ _ _ _ _ hb)
    split at hu
    · cases hu
    split at hu
    · cases hu
    split at hu
    · cases hu
    split at hu
    · cases hu
    · simp only [Except.ok.injEq] at hu
      subst hu
      exact (State.modCore_face hn _).trans h0

theorem State.popFlume_error_faces (s : State) (r f cap) (h : s.Faces c v) {w : Res} (hu : s.popFlume n r f cap = .error w) : w.Faces c v := by
  unfold State.popFlume at hu
  dsimp only at hu
  split at hu
  · cases hu
    exact (State.meetAt_face hn ..).trans h
  repeat' split at hu
  all_goals simp only [Except.error.injEq, reduceCtorEq] at hu
  all_goals subst hu; trivial

theorem State.doFlgetX_faces (s : State) (r d f off cap) (h : s.Faces c v) : (s.doFlgetX n r d f off cap).Faces c v := by
  unfold State.doFlgetX
  dsimp only
  split
  · exact (State.meetAt_face hn ..).trans h
  split
  · trivial
  next s0 k hb =>
    have h0 : State.Faces c v s0 := (congrArg (faceAt · c) (State.bindFlume_cores _ _ _ _ _ _ hb)).trans h
    split
    · trivial
    split
    · next hw => exact Res.faces_of_left (State.scratchWait_left _ _ _ _ hw)
    split
    · next x hx => exact State.popFlume_error_faces hn _ _ _ _ h0 hx
    next s1 x hx =>
      have h1 : State.Faces c v s1 := (State.popFlume_face hn _ _ _ _ hx).trans h0
      rw [Res.Faces, State.Faces, State.modCore_face hn, State.markRuns_cores, State.writeBytes_cores, State.logPopped_cores]
      exact h1

theorem State.doFlgetV_faces (s : State) (r d f cap) (h : s.Faces c v) : (s.doFlgetV n r d f cap).Faces c v := by
  unfold State.doFlgetV
  split
  · next x hx => exact State.popFlume_error_faces hn _ _ _ _ h hx
  · next s1 x hx =>
    rw [Res.Faces, State.Faces, State.modCore_face hn, State.logPopped_cores]
    exact (State.popFlume_face hn _ _ _ _ hx).trans h

theorem State.doPush_faces (s : State) (r tgt arg addr cap) (h : s.Faces c v) : (s.doPush n r tgt arg addr cap).Faces c v := by
  unfold State.doPush
  dsimp only
  split
  · trivial
  split
  · next x hx => exact State.release_error_faces hx
  next s1 hx =>
    have h1 : State.Faces c v s1 := (State.release_face hn hx).trans h
    split
    · trivial
    split
    · trivial
    split
    · trivial
    · exact (State.modCore_face hn _).trans ((State.modCore_faceLeft _ _ (fun x => Core.arrive_face x _ _)).trans h1)

/-! ### Cache words and engine words -/

theorem State.doCache_face (s : State) (op a) : faceAt (s.doCache n op a).cores c = faceAt s.cores c := by
  unfold State.doCache
  split
  · exact State.modCore_face hn _
  split
  · exact congrArg (faceAt · c) (State.logRefusal_cores ..)
  · rfl
  dsimp only
  split
  · rfl
  split
  · exact congrArg (faceAt · c) (State.log_cores ..)
  split
  · exact State.loadBind_face hn ..
  · exact State.crewGrant_face hn ..
  · split
    · exact State.crewGrant_face hn ..
    · rfl
  · split
    · refine (faceAt_mapFinIdx _ (fun i x _ => ?_)).trans (congrArg (faceAt · c) (State.writeBack_cores ..))
      split
      · rfl
      · rfl
    · exact congrArg (faceAt · c) (State.writeBack_cores ..)

theorem State.doCpy_faces (s : State) (r cls ctx d a b pos) (h : s.Faces c v) : (s.doCpy n r cls ctx d a b pos).Faces c v := by
  unfold State.doCpy
  extract_lets k off x hd cmd flume fl
  split
  · trivial
  split
  · trivial
  split
  · next hw => exact Res.faces_of_left (State.scratchWait_left _ _ _ _ hw)
  split
  · exact (State.meetAt_face hn ..).trans h
  split
  · next hw => exact Res.faces_of_left (ite_left (fun _ hw => Core.acquireFirst_left _ _ hw) hw)
  split
  · trivial
  split
  · trivial
  split
  · next hw => exact Res.faces_of_left (Core.checkerFull_left _ hw)
  split
  · trivial
  · exact (State.modCore_face hn _).trans h

theorem State.doRing_faces (s : State) (r d a b) (h : s.Faces c v) : (s.doRing n r d a b).Faces c v := by
  unfold State.doRing
  dsimp only
  split
  · trivial
  split
  · next hw => exact Res.faces_of_left (Core.checkerFull_left _ hw)
  split
  · trivial
  · exact (State.modCore_face hn _).trans h

theorem State.doWgo_faces (s : State) (r cfg pos nb) (h : s.Faces c v) : (s.doWgo n r cfg pos nb).Faces c v := by
  unfold State.doWgo
  dsimp only
  split
  · next hw =>
    rcases Option.or_eq_some_iff.mp hw with hw | ⟨-, hw⟩
    · exact Res.faces_of_left (ite_left (fun _ hw => Core.acquireFirst_left _ _ hw) hw)
    · exact Res.faces_of_left (Core.checkerFull_left _ hw)
  split
  · trivial
  · exact (State.modCore_face hn _).trans h

theorem State.doMgo_faces (s : State) (r tile ft cfg abase bbase na nb) (h : s.Faces c v) : (s.doMgo n r tile ft cfg abase bbase na nb).Faces c v := by
  unfold State.doMgo
  extract_lets k e acc rct counts chunks
  split
  · trivial
  split
  · trivial
  split
  · trivial
  split
  · exact (State.meetAt_face hn ..).trans h
  split
  · exact (State.meetAt_face hn ..).trans h
  split
  · trivial
  split
  · trivial
  · exact (State.modCore_face hn _).trans h

theorem coreRes_faces (s : State) (f) (h : s.Faces c v) : (coreRes s n f).Faces c v := (State.modCore_face hn f).trans h

theorem State.doVector_faces (s : State) (r) (h : s.Faces c v) : (s.doVector n r).Faces c v := by
  unfold State.doVector
  split
  · exact h
  · dsimp only
    split
    · exact (State.setCore_face hn _).trans h
    · exact (State.setCore_face hn _).trans h

/-- A word of the accumulators waits behind gos that write its tile, or changes its core. -/
theorem accWord_faces (s : State) (t : Nat) (f) (h : s.Faces c v) : (match s.cores[n].accWait t with | some w => w | none => coreRes s n f).Faces c v := by
  split
  · next hw => exact Res.faces_of_left (Core.accWait_left _ _ hw)
  · exact coreRes_faces hn _ _ h

/-! ### A word as it issues -/

theorem execUop_faces (s : State) (r : Routed) (h : s.Faces c v) : (execUop s n r).Faces c v := by
  unfold execUop
  dsimp only
  split
  · exact h
  · exact State.doLoad_faces hn (h := h) ..
  · exact State.doLdc_faces hn (h := h) ..
  · split
    · exact (congrArg (faceAt · c) (State.walkBegins_cores ..)).trans h
    · exact (State.doCache_face hn ..).trans h
  · exact State.doVload_faces hn (h := h) ..
  · exact State.doFlgetX_faces hn (h := h) ..
  · exact State.doFlgetV_faces hn (h := h) ..
  · exact State.doRing_faces hn (h := h) ..
  · exact State.doCpy_faces hn (h := h) ..
  · exact State.doStore_faces hn (h := h) ..
  · exact State.doVstore_faces hn (h := h) ..
  · exact State.doAmo_faces hn (h := h) ..
  · exact State.doRed_faces hn (h := h) ..
  · exact State.doLupd_faces hn (h := h) ..
  · exact State.doFlput_faces hn (h := h) ..
  · exact State.doPush_faces hn (h := h) ..
  · exact State.doArrive_faces hn (h := h) ..
  · exact State.doMgo_faces hn (h := h) ..
  · exact coreRes_faces hn _ _ h
  · exact accWord_faces hn _ _ _ h
  · exact accWord_faces hn _ _ _ h
  · exact accWord_faces hn _ _ _ h
  · exact State.doWgo_faces hn (h := h) ..
  · split
    · trivial
    · exact coreRes_faces hn _ _ h
  · exact coreRes_faces hn _ _ h
  · exact coreRes_faces hn _ _ h
  · split
    · exact coreRes_faces hn _ _ h
    · trivial
  · exact State.doVector_faces hn _ _ h

theorem State.repairTag_face (s : State) (t) : faceAt (s.repairTag n t).cores c = faceAt s.cores c := by
  unfold State.repairTag
  grind [State.modCore_face, State.log_cores]

theorem State.repair_face (s : State) (l) : faceAt (s.repair n l).cores c = faceAt s.cores c :=
  foldl_faces _ (fun t x ht => (State.repairTag_face hn t x).trans ht) _ s rfl

theorem State.issueRes_faces (s0 : State) (q) (h : s0.Faces c v) : (s0.issueRes n q).Faces c v := by
  have hrep (b : Bool) (l) : State.Faces c v (if b then s0.repair n l else s0) := by
    cases b with
    | true => exact (State.repair_face hn ..).trans h
    | false => exact h
  unfold State.issueRes
  split
  · exact h
  next r rest _ =>
    split
    · split
      · exact (State.modCore_face hn _).trans h
      · trivial
    split
    · trivial
    have h1 := hrep r.on (r.uop.srcTags r.vtype)
    dsimp only
    generalize (if r.on = true then s0.repair n (r.uop.srcTags r.vtype) else s0) = s at h1 ⊢
    split
    · exact (State.modCore_face hn _).trans h1
    split
    · exact (State.modCore_face hn _).trans h1
    split
    · trivial
    have he := execUop_faces hn s r h1
    split
    · next e => exact (State.modCore_face hn _).trans (e ▸ he :)
    · next e => exact (State.modCore_face hn _).trans (e ▸ he :)
    · next e => exact (State.modCore_face hn _).trans (e ▸ he :)
    · trivial
    · next e => exact (e ▸ he :)
    · split
      · exact (congrArg (faceAt · c) (State.walkBegins_cores ..)).trans h1
      · trivial

theorem State.put_faces (s : State) (q len r) (h : s.Faces c v) : (s.put n q len r).Faces c v :=
  put_keeps (State.Faces c v) s n q len r (fun _ _ hu => (State.modCore_face hn _).trans hu) (fun _ _ hu => takeTrap_faces hn _ _ hu)
    (fun _ hu => (State.issueRes_faces hn _ _ ((State.modCore_face hn _).trans h)).left hu) h

theorem State.handlerWord_faces (s : State) (k len u) (h : s.Faces c v) : (s.handlerWord n k len u).Faces c v :=
  handlerWord_keeps (State.Faces c v) s n k len u (fun _ _ hu => (State.modCore_face hn _).trans hu) (fun _ _ hu => takeTrap_faces hn _ _ hu)
    (fun _ _ hv => (execUop_faces hn _ _ h).left hv) h

end

/-- A routed word whose capture keeps what another core shows keeps it. -/
theorem routeWord_faces {c : Fin 128} {v : Regs × SysRegs × Nat} {s : State} (hn : c ≠ s.focusCore) (q t g j len rv) {cap : Bool → State → Except Trap (State × Uop)}
    (h : s.Faces c v) (hc : ∀ on u x, cap on s = .ok (u, x) → u.Faces c v) : (routeWord q t g j len rv cap s).Faces c v :=
  routeWord_keeps (State.Faces c v) s q t g j len rv cap (fun _ _ hu => (State.modCore_face hn _).trans hu) (fun _ _ hu => takeTrap_faces hn _ _ hu)
    (fun on u x e => ⟨fun _ => State.handlerWord_faces hn _ _ _ _ (hc on u x e), fun _ => State.put_faces hn _ _ _ _ (hc on u x e)⟩) h

end Sys2Proof.Machine
end

section
/-! SUPPORT for O60. What the words of the core leave of the other cores: scalar words, control, synchronisation, system words (R303 to R328). -/

namespace Sys2Proof.Machine

section
variable {c : Fin 128} {v : Regs × SysRegs × Nat} {s : State} (hn : c ≠ s.focusCore) (h : s.Faces c v)
include hn h

/-- A C-class word whose whole effect is on its core. -/
theorem cWord_onCore_faces (t g j len f) : (cWord t g j len (onCore f) s).Faces c v := cWord_faces hn _ _ _ _ h (onCore_faces hn f h)

/-! ### Shapes of Machine/Operands.lean -/

theorem alu2_faces (t g d a b f) : (alu2 t g d a b f s).Faces c v := cWord_faces hn _ _ _ _ h (onCore_faces hn _ h)

theorem alu1_faces (t g d a f) : (alu1 t g d a f s).Faces c v := cWord_faces hn _ _ _ _ h (onCore_faces hn _ h)

theorem aluI_faces (x t d a lim f) : (aluI x t d a lim f s).Faces c v := cWord_faces hn _ _ _ _ h (onCore_faces hn _ h)

theorem cmp2_faces (t g d a b f) : (cmp2 t g d a b f s).Faces c v := cWord_faces hn _ _ _ _ h (onCore_faces hn _ h)

theorem plog_faces (t g d a b f) : (plog t g d a b f s).Faces c v := cWord_faces hn _ _ _ _ h (onCore_faces hn _ h)

/-- A routed word whose capture leaves the state as it is. -/
theorem routeWord_faces_of_pure (q t g j len rv) (u : State → Uop) : (routeWord q t g j len rv (fun _ s => .ok (s, u s)) s).Faces c v :=
  routeWord_faces hn _ _ _ _ _ _ h (fun _ _ _ e => by cases e; exact h)

theorem xWord_faces (t j u) : (xWord t j u s).Faces c v := routeWord_faces_of_pure hn h ..

theorem gWord_faces (q t g j u) : (gWord q t g j u s).Faces c v := routeWord_faces_of_pure hn h _ _ _ _ _ _ (fun s => u s.cur s.focusStrand)

theorem iWord_faces (q x t j u) : (iWord q x t j u s).Faces c v := routeWord_faces_of_pure hn h _ _ _ _ _ _ (fun s => u s.cur s.focusStrand)

theorem sWord_faces (q t k j rv u) : (sWord q t k j rv u s).Faces c v := by
  refine routeWord_faces hn _ _ _ _ _ _ h (fun _ x y hx => ?_)
  generalize (if s.focusStrand = .main then _ else _ : Except Trap Cap) = z at hx
  cases z with
  | error => cases hx
  | ok k => cases hx; exact h

/-! ### Scalar words (R303 to R307) -/

theorem immWord_faces (x f3 t d a i) : (immWord x f3 t d a i s).Faces c v := by
  unfold immWord
  repeat' split
  all_goals exact aluI_faces hn h ..

theorem limWord_faces (x t g d i) : (limWord x t g d i s).Faces c v := cWord_faces hn _ _ _ _ h (onCore_faces hn _ h)

/-! ### Control (R310 to R319, R329) -/

theorem transfer_faces (t g link ss dest) : (transfer t g link ss dest s).Faces c v := by
  refine cWord_faces hn _ _ _ _ h ?_
  cases link with
  | true => exact (State.modCur_face hn _).trans h
  | false => exact h

theorem execLoop_faces (t g n i) {u} (e : execLoop t g n i s = .next u) : u.Faces c v := by
  cases e
  refine cWord_faces hn _ _ _ _ h ?_
  dsimp only
  split
  · exact (State.setCore_face hn _).trans h
  · exact (State.setCore_face hn _).trans h

theorem execBrl_faces (t g n k o) {u} (e : execBrl t g n k o s = .next u) : u.Faces c v := by
  cases e
  refine cWord_faces hn _ _ _ _ h ?_
  dsimp only
  split
  · exact (State.setCore_face hn _).trans h
  · exact (State.setCore_face hn _).trans h

theorem vsetWord_faces (x t d a i) : (vsetWord x t d a i s).Faces c v := by
  refine cWord_faces hn _ _ _ _ h ?_
  split
  · trivial
  · exact onCore_faces hn _ h

/-! ### Synchronisation (R209 to R225, R325 to R328) -/

omit hn in
theorem State.cRelease_face {n : Fin 128} (hc : c ≠ n) {st cap} {u : State} (hu : s.cRelease n st cap = .ok u) : u.Faces c v ∧ u.focusCore = s.focusCore := by
  unfold State.cRelease at hu
  dsimp only at hu
  split at hu
  · cases hu
    exact ⟨(State.releaseNow_face hc ..).trans h, rfl⟩
  · cases hu

theorem fenceWord_faces (rel acq t i) : (fenceWord rel acq t i s).Faces c v := by
  refine cWord_faces hn _ _ _ _ h ?_
  dsimp only
  split
  · trivial
  split
  · trivial
  next cap _ s1 hr =>
    have h1 : s1.Faces c v := by
      cases rel with
      | true => exact (State.cRelease_face h hn hr).1
      | false => cases hr; exact h
    split
    · trivial
    split
    · trivial
    next e _ =>
      have h2 : State.Faces c v (if rel = true then s1.modCore s.focusCore (fun c => c.fenced s.focusStrand (s1.releaseOf s.focusCore e i.val)) else s1) := by
        split
        · exact (State.modCore_face hn _).trans h1
        · exact h1
      cases acq with
      | true => exact (State.modCore_face hn (fun x => x.raiseClock (acquired x.mem.seen[s.focusStrand.slot] s.focusCore.val e i.val))).trans h2
      | false => exact h2

omit hn in
theorem State.meetUe_face {n : Fin 128} (hc : c ≠ n) (pa) : (s.meetUe n pa).Faces c v := (State.meetAt_face hc ..).trans h

end

theorem State.holdWaited_cores (s : State) (n st) : (s.holdWaited n st).cores = s.cores := by
  unfold State.holdWaited
  grind [State.holdBarrier_cores]

theorem State.logEnq_cores (s : State) (n q cause pkt) : (s.logEnq n q cause pkt).cores = s.cores := State.log_cores _ _

section
variable {c : Fin 128} {v : Regs × SysRegs × Nat} {s : State} (hn : c ≠ s.focusCore) (h : s.Faces c v)
include hn h

theorem State.takeHandlers_face (m) : (s.takeHandlers s.focusCore m).Faces c v := by
  unfold State.takeHandlers
  exact (State.modCore_face hn (fun x => x.raiseClock _)).trans h

theorem execBarWait_faces (t k d a b) {u} (e : execBarWait t k d a b s = .next u) : u.Faces c v := by
  cases e
  rw [State.Faces, State.holdWaited_cores]
  refine cWord_faces hn _ _ _ _ h ?_
  extract_lets n st co p addr lim
  split
  · trivial
  split
  · trivial
  next pc _ =>
    split
    · exact State.meetUe_face h hn _
    extract_lets o s1
    split
    · trivial
    split
    · trivial
    · exact (State.observe_face hn ..).trans ((State.modCore_face hn _).trans ((congrArg (faceAt · c) (State.holdBarrier_cores ..)).trans h))

theorem execJoin_faces (t) {u} (e : execJoin t s = .next u) : u.Faces c v := by
  cases e
  refine cWord_faces hn _ _ _ _ h ?_
  extract_lets n k
  split
  · trivial
  split
  · exact onCore_faces (s := s.takeHandlers s.focusCore _) hn _ (State.takeHandlers_face hn h _)
  · exact onCore_faces hn _ h

theorem execTlwait_faces (t k a b) {u} (e : execTlwait t k a b s = .next u) : u.Faces c v := by
  cases e
  refine cWord_faces hn _ _ _ _ h ?_
  extract_lets x i w
  split
  · trivial
  split
  · exact onCore_faces (s := s.takeHandlers s.focusCore _) hn _ (State.takeHandlers_face hn h _)
  · exact onCore_faces hn _ h

theorem execScopeLd_faces (t g d a) {u} (e : execScopeLd t g d a s = .next u) : u.Faces c v := by
  cases e
  refine cWord_faces hn _ _ _ _ h ?_
  extract_lets n st x i addr
  split
  · trivial
  split
  · trivial
  split
  · trivial
  next ps _ =>
    split
    · exact State.meetUe_face h hn _
    have h1 : (s.bindPieces n none ps).1.Faces c v := (State.bindPieces_face hn ..).trans h
    generalize s.bindPieces n none ps = y at h1 ⊢
    dsimp only
    split
    · trivial
    split
    · trivial
    · exact (State.observe_face hn ..).trans h1

theorem execCinv_faces (t g) {u} (e : execCinv t g s = .next u) : u.Faces c v := by
  cases e
  refine cWord_faces hn _ _ _ _ h ?_
  extract_lets n st x k
  split
  · trivial
  · exact onCore_faces hn _ h

theorem State.enqDone_face (st d ok) : (s.enqDone st d ok).Faces c v := (State.modCur_face hn _).trans h

theorem execEnq_faces (t g d a b) {u} (e : execEnq t g d a b s = .next u) : u.Faces c v := by
  cases e
  refine cWord_faces hn _ _ _ _ h ?_
  extract_lets n st x q pkt
  split
  · split
    · exact h
    split
    · exact h
    · exact State.enqDone_face hn h ..
  split
  · trivial
  split
  · trivial
  next s1 hr =>
    obtain ⟨h1, hf⟩ := State.cRelease_face h hn hr
    split
    · trivial
    split
    · trivial
    extract_lets s2
    have h2 : s2.Faces c v := (State.modCore_face hn _).trans h1
    have hn2 : c ≠ s2.focusCore := fun hc => hn (hc.trans hf)
    split
    · exact State.enqDone_face (s := s2.logEnq ..) hn2 ((congrArg (faceAt · c) (State.logEnq_cores ..)).trans h2) ..
    · exact (State.modCore_face hn _).trans h2

/-! ### System words (R318 to R324) -/

theorem execMfs_faces (t g d r) {u} (e : execMfs t g d r s = .next u) : u.Faces c v := by
  cases e
  refine cWord_faces hn _ _ _ _ h ?_
  split
  · trivial
  · exact onCore_faces hn _ h

theorem execMts_faces (t g a r) {u} (e : execMts t g a r s = .next u) : u.Faces c v := by
  cases e
  refine cWord_faces hn _ _ _ _ h ?_
  split
  · trivial
  · exact onCore_faces hn _ h

omit hn h in
theorem State.recapture_focusCore (s : State) (n t) : (s.recapture n t).focusCore = s.focusCore := by
  unfold State.recapture
  grind [State.modCore_focusCore]

theorem execEret_faces (t g m) {u} (e : execEret t g m s = .next u) : u.Faces c v := by
  cases e
  refine cWord_faces hn _ _ _ _ h ?_
  split
  · split
    · next x _ =>
      exact onCore_faces (s := s.recapture s.focusCore x) (fun hc => hn (hc.trans (State.recapture_focusCore ..))) _ ((State.recapture_face hn ..).trans h)
    · exact onCore_faces hn _ h
  · exact onCore_faces hn _ h

end

end Sys2Proof.Machine
end

section
/-! SUPPORT for O60. What the words of the core leave of the other cores: loads and stores, engine words, words behind `ext` (R282, R359 to
R376, R389 to R409). -/

namespace Sys2Proof.Machine

section
variable {c : Fin 128} {v : Regs × SysRegs × Nat} {s : State} (hn : c ≠ s.focusCore) (h : s.Faces c v)
include hn h

/-! ### Loads and stores -/

theorem loadImm_faces (x t sp sz signed d a o) : (loadImm x t sp sz signed d a o s).Faces c v := iWord_faces hn h ..

theorem ldcImm_faces (x t sz signed d a o) : (ldcImm x t sz signed d a o s).Faces c v := iWord_faces hn h ..

theorem hintImm_faces (x t op a o) : (hintImm x t op a o s).Faces c v := iWord_faces hn h ..

theorem storeImm_faces (x t sp sz d a o) : (storeImm x t sp sz d a o s).Faces c v := iWord_faces hn h ..

theorem loadRr_faces (t g sp sz d a b) : (loadRr t g sp sz d a b s).Faces c v := gWord_faces hn h ..

theorem storeRr_faces (t g sp sz d a b) : (storeRr t g sp sz d a b s).Faces c v := gWord_faces hn h ..

theorem vloadWord_faces (t m sp kind d a b) : (vloadWord t m sp kind d a b s).Faces c v := routeWord_faces_of_pure hn h ..

theorem vstoreWord_faces (t m sp kind d a b) : (vstoreWord t m sp kind d a b s).Faces c v := routeWord_faces_of_pure hn h ..

theorem amoWord_faces (op wide t k d a b) : (amoWord op wide t k d a b s).Faces c v := sWord_faces hn h ..

theorem redWord_faces (op t k a b) : (redWord op t k a b s).Faces c v := sWord_faces hn h ..

/-! ### Engine words: what they take as they are routed (R388, R397) -/

/-- What a word takes as it is routed, if its guard is true. -/
theorem State.ite_modCur_faces (p : Prop) [Decidable p] (f) : State.Faces c v (if p then s.modCur f else s) := by
  split
  · exact (State.modCur_face hn f).trans h
  · exact h

theorem cfgWord_faces (t g ss lim f) : (cfgWord t g ss lim f s).Faces c v :=
  routeWord_faces hn _ _ _ _ _ _ h (fun on _ _ e => by cases e; exact State.ite_modCur_faces hn h ..)

theorem execMgo_faces (t g d) {u} (e : execMgo t g d s = .next u) : u.Faces c v := by
  cases e
  exact routeWord_faces hn _ _ _ _ _ _ h (fun on _ _ e => by cases e; exact State.ite_modCur_faces hn h ..)

theorem execWgo_faces (t g a) {u} (e : execWgo t g a s = .next u) : u.Faces c v := by
  cases e
  exact routeWord_faces hn _ _ _ _ _ _ h (fun on _ _ e => by cases e; exact State.ite_modCur_faces hn h ..)

theorem cpyWord_faces (cls t g d a b k) : (cpyWord cls t g d a b k s).Faces c v := by
  refine routeWord_faces hn _ _ _ _ _ _ h (fun on x y hx => ?_)
  cases hx
  split
  · exact h
  · split
    · exact (State.modCur_face hn _).trans h
    · exact (State.modCur_face hn _).trans h
    · exact h

/-! ### Words behind `ext` (R282) -/

theorem illegalNow_faces (len sub) : (illegalNow len sub s).Faces c v := takeTrap_faces hn _ _ h

theorem extLoad_faces (p w sp) : (extLoad p w sp s).Faces c v := by
  unfold extLoad
  dsimp only
  split
  case h_8 => exact illegalNow_faces hn h ..
  all_goals exact loadImm_faces hn h ..

theorem extLdc_faces (p w) : (extLdc p w s).Faces c v := by
  unfold extLdc
  dsimp only
  split
  case h_8 => exact illegalNow_faces hn h ..
  all_goals exact ldcImm_faces hn h ..

theorem extHint_faces (p w) : (extHint p w s).Faces c v := by
  unfold extHint
  dsimp only
  split
  · exact illegalNow_faces hn h ..
  split
  · exact illegalNow_faces hn h ..
  split
  all_goals exact hintImm_faces hn h ..

theorem extStore_faces (p w sp) : (extStore p w sp s).Faces c v := by
  unfold extStore
  dsimp only
  split
  case h_5 => exact illegalNow_faces hn h ..
  all_goals exact storeImm_faces hn h ..

theorem extVset_faces (p w) : (extVset p w s).Faces c v := by
  have hill (len sub) := illegalNow_faces hn h len sub
  have hset (x t d a i) := vsetWord_faces hn h x t d a i
  unfold extVset
  grind

theorem extended_faces (p w) : (extended p w s).Faces c v := by
  unfold extended
  split
  · exact immWord_faces hn h ..
  · exact limWord_faces hn h ..
  · exact extVset_faces hn h ..
  · exact extLoad_faces hn h ..
  · exact extLoad_faces hn h ..
  · exact extLoad_faces hn h ..
  · exact extLdc_faces hn h ..
  · exact extHint_faces hn h ..
  · exact extStore_faces hn h ..
  · exact extStore_faces hn h ..
  · exact extStore_faces hn h ..
  · exact illegalNow_faces hn h ..

theorem execExt_faces (p) {u} (e : execExt p s = .next u) : u.Faces c v := by
  cases e
  split
  · exact illegalNow_faces hn h ..
  · exact extended_faces hn h ..

end

end Sys2Proof.Machine
end

section
/-! O60: a word of one core leaves what every other core shows. -/

namespace Sys2Proof.Machine

/-- A word leaves what every other core shows: the words by their shapes; what `encode` gives no word is an event. -/
theorem exec_faces {i : Instr} {s t : State} {w : Nat} {c : Fin 128} {v : Regs × SysRegs × Nat} (hw : encode i = some w) (e : exec i s = .next t) (hn : c ≠ s.focusCore)
    (h : s.Faces c v) : t.Faces c v := by
  cases i with
  | add | sub | and | or | xor | sll | srl | sra | min | max | minN | maxN | addSat | subSat | andn | ror | mul | mulh | mulhN | div | divN | rem |
    remN => cases e; exact alu2_faces hn h ..
  | addi | andi | ori | xori | slli | srli | srai | rori => cases e; exact immWord_faces hn h ..
  | clz | ctz | cpop | sextB | sextH | sextW | zextB | zextH | zextW => cases e; exact alu1_faces hn h ..
  | lim => cases e; exact limWord_faces hn h ..
  | ext => exact execExt_faces hn h _ e
  | cmpEq | cmpNe | cmpLt | cmpGe | cmpLtN | cmpGeN | tbit => cases e; exact cmp2_faces hn h ..
  | pand | por | pxor | pandn | pnot | pset | pclr => cases e; exact plog_faces hn h ..
  | br | call | jmp | ret | callr => cases e; exact transfer_faces hn h ..
  | loop => exact execLoop_faces hn h _ _ _ _ e
  | brl => exact execBrl_faces hn h _ _ _ _ _ e
  | rot | yield | tail | tsm | lcset | lcrd | tlrd | blaze => cases e; exact cWord_onCore_faces hn h ..
  | mfs => exact execMfs_faces hn h _ _ _ _ e
  | mts => exact execMts_faces hn h _ _ _ _ e
  | trap => cases e; exact cWord_faces hn _ _ _ _ h h
  | eret => exact execEret_faces hn h _ _ _ e
  | fenceRel | fenceAcq | fenceAr => cases e; exact fenceWord_faces hn h ..
  | barWait => exact execBarWait_faces hn h _ _ _ _ _ e
  | join => exact execJoin_faces hn h _ e
  | tlwait => exact execTlwait_faces hn h _ _ _ _ e
  | enq => exact execEnq_faces hn h _ _ _ _ _ e
  | scopeLd => exact execScopeLd_faces hn h _ _ _ _ e
  | cinv => exact execCinv_faces hn h _ _ e
  | vset | vsetMax => cases e; exact vsetWord_faces hn h ..
  | ldBG | ldHG | ldWG | ldDG | ldBNG | ldHNG | ldWNG | ldBX | ldHX | ldWX | ldDX | ldBNX | ldHNX | ldWNX | ldBL | ldHL | ldWL | ldDL | ldBNL | ldHNL
    | ldWNL => cases e; exact loadImm_faces hn h ..
  | ldBGRr | ldHGRr | ldWGRr | ldDGRr | ldBXRr | ldHXRr | ldWXRr | ldDXRr | ldBLRr | ldHLRr | ldWLRr | ldDLRr => cases e; exact loadRr_faces hn h ..
  | vldG | vldsG | vldxG | vldFfG | vldX | vldsX | vldxX | vldFfX | vldL | vldsL | vldxL | vldFfL => cases e; exact vloadWord_faces hn h ..
  | ldcB | ldcH | ldcW | ldcD | ldcBN | ldcHN | ldcWN => cases e; exact ldcImm_faces hn h ..
  | cpy | cpyA | cpyB => cases e; exact cpyWord_faces hn h ..
  | pfL1 | pfCrew | lrenew => cases e; exact hintImm_faces hn h ..
  | vadd | vsub | vmul | vmulh | vand | vor | vxor | vsll | vsrl | vsra | vmin | vmax | vminN | vmaxN | vaddSat | vsubSat | vaddS | vsubS | vrsubS |
    vmulS | vandS | vorS | vxorS | vsllS | vsrlS | vsraS | vminS | vmaxS | vminNS | vmaxNS | vaddSatS | vaddSatNS | vfadd | vfsub | vfmul | vfmin |
    vfmax | vfabs | vfneg | vfaddS | vfmulS | vfminS | vfmaxS | vfma | vfms | vfnms | vfnma | vfmaS | vmacc | vmaccS | vtr16 | vcmpEq | vcmpNe | vcmpLt |
    vcmpLe | vcmpLtN | vcmpLeN | vfcmpEq | vfcmpLt | vfcmpLe | vfcmpUn | vcmpEqS | vcmpLtS | vcmpGtS | vfcmpLtS | vfcmpGtS | kand | kor | kxor | kandn |
    knot | kset | kclr | vcvtF32 | vcvtBf16 | vcvtF16 | vcvtE4m3 | vcvtE5m2 | vcvtE2m1 | vcvtEfE4m3 | vcvtEfE2m1 | vcvtEfBf16 | vwidE4m3 | vwidE5m2 |
    vwidE2m1 | vcvtFI | vcvtFN | vcvtIF | vcvtNF | vslideup | vslidedn | vbcastC | vrotR | vbcastR | vgatherC | vgatherR | vredsumC | vredmaxC | vredminC |
    vredmaxNC | vfredsumC | vfredmaxC | vfredminC | vredsumR | vredmaxR | vredminR | vredmaxNR | vfredsumR | vfredmaxR | vfredminR | vredminNC |
    vredminNR | vexp2 | vlog2 | vrcp | vrsqrt | vtanh | vmov | vmovS | vsel | vmovk | vmovv | vid | vrid | vmovi => cases e; exact xWord_faces hn h ..
  | mcfg | wcfg | mcfgz => cases e; exact cfgWord_faces hn h ..
  | mgo => exact execMgo_faces hn h _ _ _ e
  | wgo => exact execWgo_faces hn h _ _ _ e
  | mstat | ftmon | cwb | cev | l1inv | accrd | acczero | accwr | ftld | ftclr | ftrd | ring => cases e; exact gWord_faces hn h ..
  | stBG | stHG | stWG | stDG | stBX | stHX | stWX | stDX | stBL | stHL | stWL | stDL => cases e; exact storeImm_faces hn h ..
  | stBGRr | stHGRr | stWGRr | stDGRr | stBXRr | stHXRr | stWXRr | stDXRr | stBLRr | stHLRr | stWLRr | stDLRr => cases e; exact storeRr_faces hn h ..
  | vstG | vstsG | vstxG | vstNtG | vstX | vstsX | vstxX | vstL | vstsL | vstxL => cases e; exact vstoreWord_faces hn h ..
  | amoLdW | amoStW | amoSwapW | amoCasW | amoAddW | amoOrW | amoMinW | amoMaxW | amoLdD | amoStD | amoSwapD | amoCasD | amoAddD | amoOrD | amoMinD |
    amoMaxD => cases e; exact amoWord_faces hn h ..
  | redAddW | redAddD | redAddF32 | redMinW | redMaxW | redOrD => cases e; exact redWord_faces hn h ..
  | lupd | flput | push | barArrive | flgetX | flgetV => cases e; exact sWord_faces hn h ..
  | _ => cases hw

/-- Settles O60: each word by its shape leaves what the cores other than its own show. -/
theorem wordsKeepOtherCores : Obligations.WordsKeepOtherCores := by
  intro i s t w c hw e hn
  have hface : t.cores[c].face = s.cores[c].face := exec_faces hw e hn rfl
  simpa only [Core.face, Prod.mk.injEq] using hface

end Sys2Proof.Machine
end
